-- ==== Sys2Proof/Word.lean ====
section
/-! DEFINITION. The word types: bytes of the terminal link and of the store, and the wider fields of Chapter 10. -/

namespace Sys2Proof

/-- One byte of the terminal link, of a line format or of the message store. -/
abbrev Byte := BitVec 8

/-- A two-byte field of a directive or of a line format, sent high byte first (Chapter 10). -/
abbrev Word16 := BitVec 16

/-- A four-byte field of a directive, sent high byte first (Chapter 10). -/
abbrev Word32 := BitVec 32

/-- A receive sample of the codec port: 16-bit signed linear (2.1). -/
abbrev Sample := BitVec 16

end Sys2Proof
end

