-- ==== Sys2Proof/Config.lean ====
section
/-! DEFINITION. The values the spec leaves open: each is an opaque constant, so that nothing can be proved of its value. -/

namespace Sys2Proof

/-- DESIGN CHOICE, a free value (log entry 3). R20: the part revision code is "a fixed byte of the silicon"; the spec states no value. -/
opaque Config.revision : Byte

/-- DESIGN CHOICE, a free value (log entry 4). The level sampled on a general pin that no command of the table reports
(a pin carrying IN, or a pin to which LOOP or EXT has newly moved, R29, R30), for the n-th such sample and the pin number. -/
opaque Config.pinSample : Nat → Nat → Bool

/-- DESIGN CHOICE, a free value (log entry 53). R14: the levels on the strap pins RATE2 to RATE0 when RESET PART reads them; no command
of the table reports a change of the straps. For the count of samples taken. -/
opaque Config.strapSample : Nat → BitVec 3

/-- DESIGN CHOICE, a free value (log entry 5). R138: the creation counter holds 0 to 4294967295 and "rises by 1"; the spec states no
result for the rise above 4294967295. -/
opaque Config.creationAfterMax : Nat

/-- DESIGN CHOICE, a free value (log entry 6). A report field of so many bytes (first argument) that is to carry a number beyond its
width (second argument): R195 and 10.4 state no coding of such a number. -/
opaque Config.fieldOverflow : Nat → Nat → Nat

/-- DESIGN CHOICE, a free value (log entry 15). R171: the PAGE report a sender queues for a page it ends on CHECK_FAIL carries N and B, and
the sender has received none; the spec states no value. For the page number and the try. -/
opaque Config.unjudgedPage : Nat → Nat → Nat × Nat

/-- DESIGN CHOICE, a free value (log entry 16). R86: at the twelfth failure the table of delays reads "the record is barred" and gives no
delay, so the earliest next attempt it leaves is not stated. For the seconds counter at the release. -/
opaque Config.barredNext : Nat → Nat

/-- DESIGN CHOICE, a free value (log entry 23). R44: the components of a receive block, for its 80 samples: each one's frequency in
hundredths of a hertz, and its power as a sum of squares over the block. R44 gives the band in which a component counts; the spec states
no filter or transform that finds the components. -/
opaque Config.components : List Sample → List (Nat × Nat)

end Sys2Proof
end

