-- ==== Sys2Proof/Syntax.lean ====
section
/-! DEFINITION. The commands of the block: one constructor of `Instr` for each row of spec/opcode_table.json.
A directive carries its parameters as laid out in 10.2 (raw codes: the owner's checks read them);
an event carries what the event brings from outside (a level, received samples, the fields of a received message). -/

namespace Sys2Proof

/-- One of the two exchange lines. -/
inductive Line where
  | A | B
deriving DecidableEq, Repr

/-- The fields of TONE WRITE after operation and index (10.2). -/
structure ToneParams where
  kind : Byte
  f1 : Word16
  f2 : Word16
  minLevel : Byte
  twist : Byte
  onTime : Word16
  offTime : Word16
  action : Byte
  controlOp : Byte
  priorityMark : Byte
  meaning : Byte
  liveStates : Word16
deriving DecidableEq, Repr

/-- The fields of CADENCE WRITE after operation and index (10.2). -/
structure CadenceParams where
  source : Byte
  tolerance : Byte
  repeats : Byte
  meaning : Byte
  reportFlag : Byte
  pairs : List (Word16 × Word16)
deriving DecidableEq, Repr

/-- The fields of SCREEN WRITE after operation and index (10.2). -/
structure ScreenParams where
  direction : Byte
  action : Byte
  argument : Byte
  patternLength : Byte
  pattern : List Byte
deriving DecidableEq, Repr

/-- One rung of LADDER as carried: mode, U, D, X (10.2). -/
structure RungParams where
  mode : Byte
  u : Word16
  d : Word16
  x : Word16
deriving DecidableEq, Repr

/-- One region of FORMAT as carried (10.2). -/
structure RegionParams where
  present : Byte
  sizeCode : Byte
  width : Byte
  waitStates : Byte
deriving DecidableEq, Repr

/-- What the modem measures of one received symbol (R97): for a constellation mode the squares |r - c| and d in one common
unit, for an FSK mode the energies E_o and E_c. -/
structure SymbolReading where
  deviation : Nat
  reference : Nat
deriving DecidableEq, Repr

/-- A fax line record as received: number, length, data and the check it carries (10.5). -/
structure RecordInput where
  number : Word16
  length : Word16
  data : List Byte
  check : Word16
deriving DecidableEq, Repr

/-- The commands. -/
inductive Instr where
  -- Chapter 1
  | powerOn (straps : BitVec 3)
  | downstreamByte (b : Byte)
  | stallTimerExpiry
  | target (code : Byte)
  | linkrate (code : Byte)
  | query (subject : Byte) (index : Word16)
  | resetLine (line : Line)
  | resetTables
  | resetPart
  | clock (year month day hour minute : Byte)
  | minuteTick
  | secondsTick
  | reportSent
  | payloadByteSent
  | hholdChange (asserted : Bool)
  -- Chapter 2
  | blockEnd (line : Line) (samples : List Sample)
  | ringPulse (line : Line)
  | ringOn (line : Line)
  | ringEndTimerExpiry (line : Line)
  | ringTimerExpiry (line : Line)
  | callerMessage (line : Line) (rest : List Byte)
  | callerAbandon (line : Line)
  | loopInputChange (line : Line) (asserted : Bool)
  | loopEstablished (line : Line)
  | noLoop (line : Line)
  | loopLost (line : Line)
  | extInputChange (line : Line) (asserted : Bool)
  | extensionPickup (line : Line)
  | extensionHangup (line : Line)
  | toneGeneratorCompletion (line : Line)
  | callingToneToggle (line : Line)
  | pins (assignment : List (Byte × Byte))
  | profile (line : Byte) (pairs : List (Byte × Word16))
  | monclear (line sources : Byte)
  -- Chapter 3
  | toneWrite (index : Byte) (fields : ToneParams)
  | toneDelete (index : Byte)
  | cadenceWrite (index : Byte) (fields : CadenceParams)
  | cadenceDelete (index : Byte)
  | markread (line : Byte)
  -- Chapter 4
  | screenWrite (index : Byte) (fields : ScreenParams)
  | screenDelete (index : Byte)
  | dial (line mode : Byte) (message : Word16) (symbols : List Byte)
  | answer (line mode mailbox : Byte)
  | release (line kind : Byte)
  | cleardownTimerExpiry (line : Line)
  | classifyWindowExpiry (line : Line)
  | digitTimerExpiry (line : Line)
  | dialToneWaitExpiry (line : Line)
  | blindDialDelay (line : Line)
  | pulseBreakEnd (line : Line)
  | pulseMakeEnd (line : Line)
  | interdigitTimeEnd (line : Line)
  | commaPauseEnd (line : Line)
  | flashTimeEnd (line : Line)
  | progressTimerExpiry (line : Line)
  | answerWatchArm (line : Line)
  | jobadd (kind : Byte) (message : Word16) (priority preference maxTries : Byte) (symbols : List Byte)
  | jobclear (id : Byte)
  | attemptclear
  -- Chapter 5
  | ladder (rungs : List RungParams)
  | windowEnd (line : Line) (symbols : List SymbolReading) (offset : Int)
  | probeSent (line : Line)
  | propose (line : Line) (proposal modes : Byte)
  | confirm (line : Line) (mode window : Byte) (payload : Word16)
  | trainingMessageRepeat (line : Line)
  | trainingTimerExpiry (line : Line)
  | farProbeStart (line : Line)
  | rateRequest (line : Line) (mode : Byte)
  | rateRefused (line : Line) (mode : Byte)
  | rateOk (line : Line) (mode : Byte)
  | rateAnswerTimerExpiry (line : Line)
  -- Chapter 6
  | frameSent (line : Line)
  | formingDelayEnd (line : Line)
  | info (line : Line) (sequence ack : Byte) (payload : List Byte)
  | rr (line : Line) (ack : Byte) (poll : Bool)
  | rnr (line : Line) (ack : Byte) (poll : Bool)
  | rej (line : Line) (expected : Byte)
  | clearFrame (line : Line)
  | badFrame (line : Line) (bytes : List Byte)
  | retransmitTimerExpiry (line : Line)
  | clearTimerExpiry (line : Line)
  -- Chapter 8
  | caps (line : Line) (modes resolutions lineTime : Byte)
  | setMessage (line : Line) (mode resolution lineTime : Byte)
  | checkPatternEnd (line : Line)
  | checkOk (line : Line)
  | checkFail (line : Line)
  | lineRecord (line : Line) (record : RecordInput)
  | lineRecordSent (line : Line)
  | pageEnd (line : Line) (last : Bool) (lineCount : Word16)
  | verdict (line : Line) (verdict : Byte) (total bad : Word16)
  | bye (line : Line) (reason : Byte)
  | controlMessageSent (line : Line)
  | answerTimerExpiry (line : Line)
  | capsWaitExpiry (line : Line)
  -- Chapter 7
  | format (regions : List RegionParams)
  | storeset (reserve policy watermark orderMode : Byte)
  | openMessage (kind coding : Byte)
  | closeMessage
  | readMessage (message : Word16) (offset : Word32)
  | newsack (message : Word16)
  | erase (message : Word16)
  | segmentWriteComplete
  | segmentReadComplete
  | freeHeaderWriteComplete
  | cutComplete
  | copyRewriteComplete
  | headerRewriteComplete
  | scanReadComplete
  | labelWriteComplete
  -- Chapter 9
  | mailbox (index enabled : Byte) (greeting maxLength : Word16) (coding : Byte) (digits : List Byte)
  | mailclear (set : Byte)
  | play (line : Byte) (message : Word16) (offset : Word32)
  | record (line mailbox coding : Byte) (limit : Word16) (beep : Byte)
  | stop (line : Byte)
  | greetingEnd (line : Line)
  | playbackComplete (line : Line)
  | dtmfOnTimeEnd (line : Line)
  | callerBurstByte (line : Line) (b : Byte)
deriving DecidableEq, Repr

end Sys2Proof
end

