-- ==== Sys2Proof/Machine/Types.lean ====
section
/-! DEFINITION. The types the state is made of: the enumerations of 10.1, the records and tables of Chapters 1 to 9,
reports, frames and messages, and the per-block state records. Plain data only. -/

namespace Sys2Proof.Machine

/-! ### Enumerations of 10.1 -/

/-- DONE result codes (R6), in code order. -/
inductive Result where
  | ok | unknown | badParam | badState | noEntry | tableFull | inUse | notReady | storeFull | screened | delayed
  | barred | busy
deriving DecidableEq, Repr

/-- The eleven line states (R63), in code order. -/
inductive LineSt where
  | idle | ringing | seize | dial | progress | classify | train | data | fax | voice | cleardown
deriving DecidableEq, Repr

/-- Reasons of line-state changes other than releases (R63), in code order. -/
inductive ChangeReason where
  | ring | answer | dial | job | dialtone | blind | glare | digits | answerData | speech | silence | callFax | callData
  | greetingEnd | windowEnd | trained | retrain | missed | extension
deriving DecidableEq, Repr

/-- Release reasons (R65), in code order from 32, EXTENSION last (it uses change code 18). -/
inductive ReleaseReason where
  | host | farEnd | noLoop | noDialtone | busy | noAnswer | noCarrier | lineQuality | linkFail | faxDone | faxFail
  | voiceDone | storeFull | reset | extension
deriving DecidableEq, Repr

/-- The reason of a LINE report: a change reason or a release reason (R63). -/
inductive LineReason where
  | change (c : ChangeReason)
  | release (r : ReleaseReason)
deriving DecidableEq, Repr

/-- End reasons of VOICE and MESSAGE reports (10.1); the others use the release reason codes. -/
inductive EndReason where
  | none | limit | silence | ended | key | releaseEnd | noSpace | noEntry | empty | erased
  | byRelease (r : ReleaseReason)
deriving DecidableEq, Repr

/-- Call modes (10.1). -/
inductive CallMode where
  | off | data | fax | voice | auto
deriving DecidableEq, Repr

/-- Direction of a call (10.1). -/
inductive Direction where
  | incoming | outgoing
deriving DecidableEq, Repr

/-- Downstream payload targets (R7). -/
inductive Target where
  | none | lineA | lineB | store
deriving DecidableEq, Repr

/-- Upstream payload sources (R11), in round-robin order. -/
inductive Source where
  | lineA | lineB | hostRead
deriving DecidableEq, Repr

/-- The monitor sources (R32), in code order. -/
inductive MonSource where
  | levelLow | clip | gainLimit | freqLimit | impulse | quality | loopLoss | streamSlip
deriving DecidableEq, Repr

/-- Monitor class (10.1): WARNING 0, ERROR 1. -/
inductive MonClass where
  | warning | error
deriving DecidableEq, Repr

/-- General pin functions (R29), in code order. -/
inductive PinFn where
  | hookA | hookB | msg | alarm | out | ringA | ringB | loopA | loopB | extA | extB | inp
deriving DecidableEq, Repr

/-- Tone entry kinds (R41). -/
inductive ToneKind where
  | single | dual | dtmf
deriving DecidableEq, Repr

/-- Control operations (R41, R188). -/
inductive ControlOp where
  | stop | skipBack | skipFwd | pause
deriving DecidableEq, Repr

/-- Tone entry actions (R41). -/
inductive ToneAction where
  | ignore | report | priority | capture
  | control (op : ControlOp)
deriving DecidableEq, Repr

/-- Meanings delivered by the detector: those of tone entries (R41) and of cadence entries (R52). -/
inductive Meaning where
  | none | dialtone | answerData | callFax | callData | dtmf
  | busy | ringback | ringClass (n : Nat)
deriving DecidableEq, Repr

/-- Edge states of a tone entry (R48). -/
inductive EdgeSt where
  | ready | rising | on | bridge | recover
deriving DecidableEq, Repr

/-- The slot result of the priority status (R60), in code order. -/
inductive SlotResult where
  | none | slot0 | slot1 | lost
deriving DecidableEq, Repr

/-- Screen entry directions (R82). -/
inductive ScreenDir where
  | incoming | outgoing | both
deriving DecidableEq, Repr

/-- Screen entry actions with their arguments (R82). -/
inductive ScreenAction where
  | allow | bar | noAnswer
  | answerRings (n : Nat)
  | route (m : Nat)
  | faxOnly | dataOnly
deriving DecidableEq, Repr

/-- A symbol of a digit pattern (R82). -/
inductive PatSym where
  | digit (d : Byte)
  | any
deriving DecidableEq, Repr

/-- A screen pattern (R82): digits and '?', with or without a final '*', or one of the special patterns. -/
inductive Pattern where
  | digits (syms : List PatSym) (star : Bool)
  | withheld
  | none
deriving DecidableEq, Repr

/-- Message kinds (R138), in code order. -/
inductive MsgKind where
  | voice | fax | file
deriving DecidableEq, Repr

/-- Voice codings (R138), in code order. -/
inductive Coding where
  | none | adc4 | adc2
deriving DecidableEq, Repr

/-- Directory entry states (R138). -/
inductive MsgState where
  | opened | closed | erasing
deriving DecidableEq, Repr

/-- The holders of store streams: a line, or the host. -/
inductive Owner where
  | line (l : Line)
  | host
deriving DecidableEq, Repr

/-- Job kinds (R87); codes from 10.2: FAX 1, VOICE 2. -/
inductive JobKind where
  | fax | voice
deriving DecidableEq, Repr

/-- Line preference of a job (R87). -/
inductive LinePref where
  | a | b | any
deriving DecidableEq, Repr

/-- Job states (R87). -/
inductive JobState where
  | waiting | active | done
deriving DecidableEq, Repr

/-- Job results (R87), in code order. -/
inductive JobResult where
  | sent | partlySent | failed | barred | screened | cancelled
deriving DecidableEq, Repr

/-- Page verdicts (R169), in code order. -/
inductive Verdict where
  | none | good | retrainGood | bad
deriving DecidableEq, Repr

/-- Store states (R139), in code order. -/
inductive StoreSt where
  | unformatted | scanning | ready | formatting
deriving DecidableEq, Repr

/-- STORE report events (10.1), in code order. -/
inductive StoreEvent where
  | ready | unformatted | scanDrop | full | recycled | watermark | pace
deriving DecidableEq, Repr

/-- VOICE report events (10.1), in code order. -/
inductive VoiceEvent where
  | start | ended | skip | pause | resume
deriving DecidableEq, Repr

/-- RATE report causes (10.1), in code order. -/
inductive RateCause where
  | train | down | up | retrain
deriving DecidableEq, Repr

/-- Parser fault kinds (R4), in code order. -/
inductive FaultKind where
  | badCode | badLength | timeout
deriving DecidableEq, Repr

/-- The line modes of the catalogue (R95), in index order. -/
inductive Mode where
  | l3 | l12 | l24 | l48 | l96 | l144 | l192 | l240
deriving DecidableEq, Repr

/-- Training phases (5.6). -/
inductive Phase where
  | probe | propose | confirm
deriving DecidableEq, Repr

/-- Clear state of a data link (Chapter 6). -/
inductive ClearSt where
  | none | graceful | received
deriving DecidableEq, Repr

/-- Fax role (8.1). -/
inductive FaxRole where
  | sender | receiver
deriving DecidableEq, Repr

/-- Fax phase (Chapter 8). -/
inductive FaxPhase where
  | setup | check | page | verdict | ended
deriving DecidableEq, Repr

/-- BYE reasons (R161), in code order. -/
inductive ByeReason where
  | done | unsupported | noRung | badMessage | storeFull | failed
deriving DecidableEq, Repr

/-- The session end cause (R159, R173, 10.1). -/
inductive EndCause where
  | bye (r : ByeReason)
  | release (r : ReleaseReason)
deriving DecidableEq, Repr

/-- Voice engine substates (9.3), in code order. -/
inductive VoiceSub where
  | greeting | beep | recording | playing | paused | waiting
deriving DecidableEq, Repr

/-- Operation kinds of the voice engine (9.3). -/
inductive VoiceKind where
  | answered | delivery | host
deriving DecidableEq, Repr

/-- Dial method (R92). -/
inductive DialMethod where
  | tone | pulse
deriving DecidableEq, Repr

/-- Extension policy (R92). -/
inductive ExtPolicy where
  | yieldLine | keep
deriving DecidableEq, Repr

/-- On-error policy (R35). -/
inductive OnError where
  | continue_ | squelch
deriving DecidableEq, Repr

/-- Full-store policy (R156). -/
inductive FullPolicy where
  | recycle | keep
deriving DecidableEq, Repr

/-- Order mode of the call-out list (R87). -/
inductive OrderMode where
  | fifo | priority
deriving DecidableEq, Repr

/-- Withheld code of a caller record (R28). -/
inductive Withheld where
  | priv | unavailable
deriving DecidableEq, Repr

/-! ### Small containers -/

/-- One value for each monitor source. -/
structure PerSource (α : Type) where
  levelLow : α
  clip : α
  gainLimit : α
  freqLimit : α
  impulse : α
  quality : α
  loopLoss : α
  streamSlip : α
deriving DecidableEq, Repr

/-! ### Records of Chapters 1 to 3 -/

/-- The day clock (R16). -/
structure DayClock where
  year : Nat
  month : Nat
  day : Nat
  hour : Nat
  minute : Nat
deriving DecidableEq, Repr

/-- The caller record (R28). -/
structure CallerRecord where
  valid : Bool
  number : Option (List Byte)
  name : Option (List Byte)
  dateTime : Option (List Byte)
  withheld : Option Withheld
deriving DecidableEq, Repr

/-- The caller window of a line (R27). -/
inductive CallerWindow where
  /-- No window is open. -/
  | closed
  /-- The window is open and no message has begun. -/
  | listening
  /-- A message is being gathered: its bytes so far. -/
  | gathering (bytes : List Byte)
  /-- A message has ended; the receiver listens no more in this window. -/
  | heard
deriving DecidableEq, Repr

/-- The ring debouncer (R24): `start` is the time of the first pulse, `endDue` the expiry of the 150 ms end timer. -/
inductive RingDeb where
  | quiet
  | pending (start endDue : Nat)
  | on (start endDue : Nat)
deriving DecidableEq, Repr

/-- The loop debouncer (R25) with the due times of its timers. -/
inductive LoopDeb where
  | onHook
  | wait (noLoopDue : Nat) (establishDue : Option Nat)
  | present
  | doubt (lostDue : Nat)
  | lost
deriving DecidableEq, Repr

/-- The signals of the tone generator (R36). -/
inductive ToneSignal where
  | dtmf (digit : Byte) (onTime offTime : Nat)
  | answer
  | faxCalling
  | dataCalling
  | beep (frequency duration : Nat)
deriving DecidableEq, Repr

/-- One sine of a signal of the tone generator (R36): frequency in Hz, level in dBm0, and the phase of its first transmitted
sample. -/
structure ToneComponent where
  frequency : Nat
  level : Int
  phase : Nat := 0
deriving DecidableEq, Repr

/-- The tone generator while engaged (R36): the signal, whether it sounds now, and when the running interval ends. -/
structure ToneGen where
  signal : ToneSignal
  sounding : Bool
  due : Nat
deriving DecidableEq, Repr

/-- One general pin: its function and the OUT level last given (R29, R30). -/
structure PinCfg where
  fn : PinFn
  level : Bool
deriving DecidableEq, Repr

/-- A valid tone table entry (R41). -/
structure ToneEntry where
  kind : ToneKind
  f1 : Nat
  f2 : Nat
  minLevel : Int
  twist : Nat
  onTime : Nat
  offTime : Nat
  action : ToneAction
  priorityMark : Bool
  meaning : Meaning
  live : List LineSt
deriving DecidableEq, Repr

/-- The source of a cadence entry (R52). -/
inductive CadSource where
  | tone (index : Nat)
  | ring
deriving DecidableEq, Repr

/-- A valid cadence table entry (R52); `pattern` is on1, off1, on2, off2, … in ms. -/
structure CadEntry where
  source : CadSource
  pattern : List Nat
  tolerance : Nat
  repeats : Nat
  meaning : Meaning
  report : Bool
deriving DecidableEq, Repr

/-- The edge state of one tone entry on one line (R48). `first` and `last` are block numbers of the line,
`startTime` the time at the beginning of the first present block. -/
structure EdgeState where
  st : EdgeSt
  first : Nat
  last : Nat
  startTime : Nat
  onCount : Nat
  absent : Nat
  digit : Option Byte
  /-- The last present block of the latest run that reached ON, from which the off interval of R54 counts. -/
  offFrom : Option Nat
deriving DecidableEq, Repr

/-- The alignment of one cadence entry on one line (R55). -/
structure Alignment where
  /-- The alignment holds a run. -/
  held : Bool
  /-- The pattern element expected next (0 is on1). -/
  expect : Nat
  /-- Full cycles matched in the present run. -/
  cycles : Nat
  /-- The line time at which the run's first on began. -/
  runStart : Nat
  matched : Bool
  /-- The length and start time of the on observed last, for R56. -/
  prevOn : Option (Nat × Nat)
  /-- Ons that began before this time are not observed (R56, R57). -/
  validFrom : Nat
deriving DecidableEq, Repr

/-- A capture held in a slot (R58). -/
structure Capture where
  entry : Nat
  digit : Option Byte
  position : Option (Nat × Nat)
  lineTime : Nat
deriving DecidableEq, Repr

/-- The priority status (R60). -/
structure Priority where
  entry : Nat
  lineTime : Nat
  slot : SlotResult
deriving DecidableEq, Repr

/-! ### Records of Chapter 4 -/

/-- A valid screen list entry (R82). -/
structure ScreenEntry where
  pattern : Pattern
  dir : ScreenDir
  action : ScreenAction
deriving DecidableEq, Repr

/-- An attempt record (R85). -/
structure AttemptRecord where
  number : List Byte
  failures : Nat
  last : Nat
  next : Nat
deriving DecidableEq, Repr

/-- The outcome record of a job (R87). -/
structure JobOutcome where
  result : JobResult
  pages : Nat
  rung : Option Nat
  time : Option DayClock
deriving DecidableEq, Repr

/-- A job of the call-out list (R87). -/
structure Job where
  id : Nat
  kind : JobKind
  symbols : List Byte
  number : List Byte
  message : Nat
  priority : Nat
  preference : LinePref
  maxTries : Nat
  tries : Nat
  state : JobState
  outcome : Option JobOutcome
  /-- What the last try left for an outcome record: the pages sent, and the rung held at its release (R90). -/
  lastTry : Nat × Option Nat
deriving DecidableEq, Repr

/-- The call record of a line (Chapter 4, opening). -/
structure CallRecord where
  dir : Option Direction
  mode : Option CallMode
  mailbox : Option Nat
  rings : Nat
  dialled : List Byte
  position : Nat
  number : List Byte
  message : Option Nat
  job : Option Nat
  ringClass : Option Nat
  release : Option ReleaseReason
deriving DecidableEq, Repr

/-- The step of the dial string being carried out (R77); `brk` and `mk` carry the breaks still to be made. -/
inductive DialStep where
  | none
  | toneDigit
  | brk (left : Nat)
  | mk (left : Nat)
  | interdigit
  | comma
  | flash
  | waitTone
deriving DecidableEq, Repr

/-- The timings of the digit being pulsed, in ms, as they stood when it began (R92). -/
structure PulseTimes where
  breakTime : Nat
  makeTime : Nat
  interdigit : Nat
deriving DecidableEq, Repr

/-! ### Records of Chapters 5 and 6 -/

/-- A ladder rung (5.2). -/
structure Rung where
  mode : Mode
  u : Nat
  d : Nat
  x : Nat
deriving DecidableEq, Repr

/-- The window in progress (R99): the threshold and divisor taken at its start, and the accumulators. -/
structure Window where
  threshold : Nat
  divisor : Nat
  sum : Nat
  impulses : Nat
  count : Nat
deriving DecidableEq, Repr

/-- What the last completed window gave (R99, R116). -/
structure WindowResult where
  mean : Nat
  impulses : Nat
  burst : Bool
deriving DecidableEq, Repr

/-- An outstanding rate request (R103). -/
structure RateRequest where
  rung : Nat
  mode : Mode
  sentAt : Nat
  due : Nat
deriving DecidableEq, Repr

/-- An INFO frame on the retransmit list (R123). -/
structure InfoFrame where
  sequence : Nat
  payload : List Byte
deriving DecidableEq, Repr

/-- Link frames (R118). -/
inductive Frame where
  | info (sequence ack : Nat) (payload : List Byte)
  | rr (ack : Nat) (poll : Bool)
  | rnr (ack : Nat) (poll : Bool)
  | rej (expected : Nat)
  | rate (refused : Bool) (mode : Mode)
  | rateOk (mode : Mode)
  | clear
deriving DecidableEq, Repr

/-- Training messages (5.6). -/
inductive TrainMsg where
  | propose (proposal : Option Mode) (modes : List Mode)
  | confirm (mode : Mode) (window payload : Nat)
deriving DecidableEq, Repr

/-- The retransmit timer (R125, R130). -/
inductive DlTimer where
  | stopped
  | running (due : Nat)
  | frozen (left : Nat)
deriving DecidableEq, Repr

/-! ### Records of Chapter 7 -/

/-- A region table entry (R136); `sizeCode` 0 to 4 stands for 64 to 1024 KiB. -/
structure Region where
  present : Bool
  sizeCode : Nat
  wide : Bool
  waitStates : Nat
deriving DecidableEq, Repr

/-- A directory entry (R138). -/
structure Entry where
  id : Nat
  kind : MsgKind
  state : MsgState
  writer : Option Owner
  mailbox : Option Nat
  coding : Coding
  length : Nat
  pages : Nat
  created : Option DayClock
  creation : Nat
  caller : Option CallerRecord
  fetched : Bool
  truncated : Bool
  recovered : Bool
  erasePending : Bool
  inUse : Nat
  chain : List Nat
deriving DecidableEq, Repr

/-- The close a writer has asked for (R147). -/
structure Closing where
  reason : EndReason
  truncated : Bool
  pages : Nat
  /-- The copy rewrite has been requested. -/
  copyAsked : Bool
  /-- A close with erase that waits for the cut in progress (R147, R173). -/
  erase : Bool
deriving DecidableEq, Repr

/-- A cut in progress (R147). -/
inductive CutState where
  | none
  /-- The cut to this length waits for the granted segment write. -/
  | waiting (length : Nat)
  /-- FREE header writes still to complete, and whether the segment read-back is still to be made (with its byte count). -/
  | running (frees : Nat) (readBack : Option Nat)
deriving DecidableEq, Repr

/-- A page of a message being received (R168, R169): the offset of its header, what its header carries, and the message offset
just after each of its stored lines. -/
structure PageMark where
  start : Nat
  number : Nat
  fine : Bool
  bad : Nat
  longest : Nat
  lineTime : Nat
  lineEnds : List Nat
  /-- The page has ended with a verdict other than BAD; a page that has not closes TRUNCATED. -/
  whole : Bool
deriving DecidableEq, Repr

/-- A writing stream (R146): bytes completed, the buffer handed to the arbiter, the buffer being filled. -/
structure WStream where
  id : Nat
  owner : Owner
  /-- The stream is its owner's current stream; a stream whose close is going on is not. -/
  active : Bool
  /-- Sequence number of the segment the first unwritten byte belongs to. -/
  seq : Nat
  /-- Bytes in segments whose write has completed. -/
  base : Nat
  handed : Option (List Byte)
  granted : Bool
  filling : List Byte
  /-- A segment already in the chain for `seq`: allocated to a waiting writer, or read back by a cut. -/
  seg : Option Nat
  /-- Bytes of that segment that stand in the memory already, after a cut that fell inside it (R147). -/
  inStore : Nat
  /-- The pages a fax receive has ended in this message, first page first. -/
  pages : List PageMark
  region : Option Nat
  paced : Bool
  /-- The writer met a full store and has been ended (R145). -/
  failed : Bool
  cut : CutState
  closing : Option Closing
deriving DecidableEq, Repr

/-- A reading stream (R146, R151). -/
structure RStream where
  id : Nat
  /-- Offset of the next byte to be taken. -/
  position : Nat
  length : Nat
  /-- Bytes read and not yet taken, a list for each segment buffer in use. -/
  buffers : List (List Byte)
  /-- Sequence number of the next segment to be read. -/
  nextSeq : Nat
  ready : Bool
  region : Option Nat
  /-- MODEL's own: distinguishes this opening from an earlier one of the same owner (a read granted to a closed stream). -/
  tag : Nat
deriving DecidableEq, Repr

/-- Why a FREE header is written (R140, R142, R147, R154). -/
inductive FreeFor where
  | erase (id : Nat)
  | cut (id : Nat)
  | scan
  | format
deriving DecidableEq, Repr

/-- Scan reads (R140, R141). -/
inductive ScanRead where
  | label
  | header (seg : Nat)
  | copy (seg : Nat)
  | walk (seg : Nat)
deriving DecidableEq, Repr

/-- Maintenance requests of the memory-port arbiter (R148). -/
inductive Maint where
  | scanRead (r : ScanRead)
  | freeHeader (seg : Nat) (why : FreeFor)
  | copyRewrite (id : Nat)
  /-- Rewrite of these bytes at this offset within the payload of one segment of a message (R168, R197). -/
  | headerRewrite (id seq offset : Nat) (bytes : List Byte)
  | label (mark : Bool)
deriving DecidableEq, Repr

/-- The grant in progress (R148). -/
inductive Grant where
  | write (id seg : Nat)
  | readBack (id seg : Nat)
  | read (owner : Owner) (tag id seg seq : Nat)
  | maint (m : Maint)
deriving DecidableEq, Repr

/-- A segment header the scan has grouped (R140). -/
structure ScanSeg where
  seg : Nat
  id : Nat
  seq : Nat
  used : Nat
deriving DecidableEq, Repr

/-- The scan in progress (R140, R141). -/
structure Scan where
  /-- Segments whose header is still to be read. -/
  todo : List Nat
  groups : List ScanSeg
  /-- First segments whose directory copy has been read. -/
  copies : List Nat
  /-- Segments whose page data is still to be read, for FAX messages left open. -/
  walk : List Nat
  /-- Every read has been made and judged; the last writes are going on. -/
  judged : Bool
deriving DecidableEq, Repr

/-- The store settings (R156). -/
structure StoreSettings where
  reserve : Nat
  policy : FullPolicy
  watermark : Nat
  order : OrderMode
deriving DecidableEq, Repr

/-! ### Records of Chapters 8 and 9 -/

/-- Fax control messages (R160). -/
inductive FaxMsg where
  | caps (modes : List Mode) (fine : Bool) (lineTime : Nat)
  /-- SET with the check pattern that follows it. -/
  | set (mode : Mode) (fine : Bool) (lineTime : Nat)
  | checkOk
  | checkFail
  | pageEnd (last : Bool) (lines : Nat)
  | verdict (v : Verdict) (total bad : Nat)
  | bye (r : ByeReason)
deriving DecidableEq, Repr

/-- The outstanding control message (R160): sends made, and the answer timer once its last bit has been sent. -/
structure Outstanding where
  msg : FaxMsg
  sends : Nat
  due : Option Nat
deriving DecidableEq, Repr

/-- The kinds of the far end's control messages that an end acts on (R160); the two answers to a check are one kind. -/
inductive FaxKind where
  | caps | set | check | pageEnd | verdict
deriving DecidableEq, Repr

/-- A line record on the line (R165): its bytes with header and check, and the bytes of fill that follow it. -/
structure TxRecord where
  bytes : List Byte
  fill : Nat
deriving DecidableEq, Repr

/-- What a sender does with the next page header once its 16 bytes can be read (R162, R165, R170). -/
inductive HeaderUse where
  /-- Answer CAPS (R162). -/
  | setup
  /-- After GOOD: the next page at once, or a SET first (R170). -/
  | nextPage
  /-- After RETRAIN_GOOD: a SET before the next page (R170). -/
  | nextSet
  /-- After CHECK_OK of a resend: the page again from its header (R170). -/
  | again
deriving DecidableEq, Repr

/-- What a receiver sends when the cut of its page completes (R169, R171). -/
inductive AfterCut where
  | verdictBad (total bad : Nat)
  | checkFail
deriving DecidableEq, Repr

/-- A mailbox (R179). -/
structure Mailbox where
  enabled : Bool
  digits : List Byte
  greeting : Option Nat
  maxLength : Nat
  coding : Coding
  isNew : Bool
deriving DecidableEq, Repr

/-! ### Reports (10.4) -/

/-- Contents of the reports of 10.4. SOURCE does not pass through the queue (R12) and stands in `Sending`. -/
inductive Report where
  | begin (byDirective : Bool) (store : StoreSt)
  | done (code : Byte) (result : Result) (values : List Byte)
  | line (l : Line) (st : LineSt) (reason : LineReason) (missed : Option (Nat × Option CallerRecord))
  | tone (l : Line) (entry : Nat) (meaning : Meaning) (digit : Option Byte) (on : Bool) (duration : Nat)
  | cadence (l : Line) (entry : Nat) (meaning : Meaning)
  | caller (l : Line) (rec : CallerRecord)
  | monitor (l : Line) (source : MonSource) (cls : MonClass) (set : Bool)
  | rate (l : Line) (rung : Nat) (mode : Mode) (cause : RateCause)
  | page (l : Line) (number : Nat) (verdict : Verdict) (total bad : Nat) (rung : Nat)
  | message (id : Nat) (kind : MsgKind) (mailbox : Option Nat) (length : Nat) (reason : EndReason)
  | job (id : Nat) (state : JobState) (tries : Nat) (outcome : Option JobOutcome)
  | mark (l : Line) (live overflow : Bool) (entry : Option Nat) (digit : Option Byte) (position : Option (Nat × Nat))
      (lineTime : Nat)
  | store (event : StoreEvent) (value : Nat)
  | voice (l : Line) (event : VoiceEvent) (reason : EndReason) (position : Nat)
  | fault (kind : FaultKind) (detail : Byte)
  | discard (target : Target)
  | snapshot (subject : Byte) (index : Word16) (part parts : Nat) (contents : List Byte)
  | loss
deriving DecidableEq, Repr

/-- The unit the upstream arbiter is sending (R11, R12). -/
inductive Sending where
  | idle
  | report (r : Report)
  | source (src : Source)
  /-- A payload unit: bytes sent; `closing` when HHOLD has ended it (R13); `live` when the byte under way still stands at
  the head of its source (false once the source has been emptied under it). -/
  | payload (src : Source) (sent : Nat) (closing live : Bool)
deriving DecidableEq, Repr

/-! ### Block state -/

/-- The downstream parser (R1, R2) with its partial sequence. -/
inductive Parser where
  | payload
  | shifted
  | count (code : Byte)
  | params (code n : Byte) (gathered : List Byte)
deriving DecidableEq, Repr

/-- The four discard flags (R8). -/
structure DiscardFlags where
  none : Bool
  lineA : Bool
  lineB : Bool
  store : Bool
deriving DecidableEq, Repr

/-- The terminal link unit (Chapter 1). -/
structure Link where
  parser : Parser
  /-- Expiry time of the stall timer while it runs (R3). -/
  stallDue : Option Nat
  target : Target
  discard : DiscardFlags
  reports : List Report
  loss : Bool
  sending : Sending
  announced : Option Source
  roundRobin : Source
  rate : BitVec 3
  pendingRate : Option (BitVec 3)
  lhold : Bool
  hhold : Bool
  /-- The levels last read from the strap pins RATE2 to RATE0 (R14). -/
  straps : BitVec 3
  dayClock : Option DayClock
  /-- When the running minute ends, while the day clock is set. -/
  minuteDue : Option Nat
  seconds : Nat
  /-- When the running second ends. -/
  secondDue : Nat
deriving DecidableEq, Repr

/-- A monitor source's settings in the profile (2.6). -/
structure MonCfg where
  enable : Bool
  latchEnable : Bool
  cls : MonClass
deriving DecidableEq, Repr

/-- The line profile (2.8, 10.3). -/
structure Profile where
  answerMode : CallMode
  rings : Nat
  mailbox : Nat
  ringMap1 : CallMode × Nat
  ringMap2 : CallMode × Nat
  ringMap3 : CallMode × Nat
  screenBar : Bool
  autoCallout : Bool
  dialMethod : DialMethod
  toneOn : Nat
  toneOff : Nat
  pulseBreak : Nat
  pulseMake : Nat
  interdigit : Nat
  comma : Nat
  flash : Nat
  dialToneWait : Nat
  blindDial : Bool
  progressTimeout : Nat
  classifyWindow : Nat
  extPolicy : ExtPolicy
  monitors : PerSource MonCfg
  onError : OnError
  agcTarget : Nat
  levelFloor : Nat
  freqLimit : Nat
  impulseThreshold : Nat
  burstDivisor : Nat
  linkPenalty : Nat
  faxPenalty : Nat
  window : Nat
  payloadMax : Nat
  highestFax : Mode
  fine : Bool
  minLineTime : Nat
  goodPerMille : Nat
  retrainPerMille : Nat
  runLimit : Nat
  silenceThreshold : Nat
  silenceTime : Nat
  beepFrequency : Nat
  beepDuration : Nat
deriving DecidableEq, Repr

/-- The line interface of a line (Chapter 2). -/
structure Iface where
  gain : Nat
  /-- The index that stood when the first sample of the running block arrived (R22). -/
  blockGain : Nat
  preLevel : Nat
  postLevel : Nat
  /-- When the running block ends, and how many blocks have ended (R21). -/
  blockDue : Nat
  blockNo : Nat
  ring : RingDeb
  /-- Time of the last ring-off event, from which a RING off interval counts (R54). -/
  ringOff : Option Nat
  /-- Level of the hook output: closed or released (R63). -/
  hook : Bool
  loop : LoopDeb
  /-- The loop debouncer is suspended for a dial break or a flash (R25). -/
  loopSuspended : Bool
  loopIn : Bool
  extIn : Bool
  extState : Bool
  /-- Expiry time of the 50 ms debounce count while it runs (R26). -/
  extDue : Option Nat
  caller : Option CallerRecord
  window : CallerWindow
  current : PerSource Bool
  latched : PerSource Bool
  /-- A far-end signal is expected (R32). -/
  expecting : Bool
  lowRun : Nat
  highRun : Nat
  gainRun : Nat
  /-- A store stream of the line has met an overrun or an underrun since the last block end (R32, R146). -/
  slipped : Bool
  tone : Option ToneGen
deriving DecidableEq, Repr

/-- The detector of a line (Chapter 3). -/
structure Detector where
  edges : List EdgeState
  aligns : List Alignment
  slot0 : Option Capture
  slot1 : Option Capture
  /-- Of two occupied slots, slot 1 was filled first. -/
  slot1Older : Bool
  overflow : Bool
  priority : Option Priority
deriving DecidableEq, Repr

/-- The call controller's state of a line (Chapter 4). -/
structure Call where
  st : LineSt
  reason : Option LineReason
  /-- When the line last left IDLE (R51). -/
  leftAt : Nat
  cr : CallRecord
  /-- The reference taken by DIAL is held (R75). -/
  refHeld : Bool
  /-- The call has entered DATA, FAX or VOICE, so that a later failure does not count (R86). -/
  reached : Bool
  /-- The ring-on in progress took the line from IDLE to RINGING (R27). -/
  firstRing : Bool
  /-- The rings before answer of a call that began by ringing, as the profile held them at its first ring-on (R37, R68): a PROFILE
  taken while the call is counting applies from the next call. -/
  ringsToAnswer : Option Nat
  digits : List Byte
  ringDue : Option Nat
  dialToneDue : Option Nat
  blindDue : Option Nat
  progressDue : Option Nat
  watchDue : Option Nat
  classifyDue : Option Nat
  digitDue : Option Nat
  cleardownDue : Option Nat
  step : DialStep
  stepDue : Option Nat
  /-- The timings of the digit being pulsed (R92). -/
  pulse : PulseTimes
  /-- The classify window, in s, taken at the entry to CLASSIFY (R92). -/
  classifyTime : Nat
  loopUp : Bool
  toneHeard : Bool
  ringback : Bool
  watchArmed : Bool
  speechRun : Nat
  silentRun : Nat
  /-- The call has been in DATA (R66, R132). -/
  beenInData : Bool
deriving DecidableEq, Repr

/-- The modem of a line (Chapter 5). -/
structure Modem where
  rung : Option Nat
  q : Nat
  window : Option Window
  lastWindow : Option WindowResult
  offset : Option Int
  holdOff : Nat
  upCount : Nat
  burstRun : Nat
  request : Option RateRequest
  phase : Option Phase
  trainDue : Option Nat
  probeDue : Option Nat
  /-- The second of probe has been sent (R107). -/
  probeSent : Bool
  probeCount : Nat
  probeGood : Nat
  probeSum : Nat
  mProbe : Option Nat
  proposal : Option Mode
  farPropose : Option (Option Mode × List Mode)
  farConfirm : Option (Mode × Nat × Nat)
  chosen : Option Mode
  /-- The call's rung set: ladder indexes in ascending order (R108). -/
  rungSet : Option (List Nat)
  repeatDue : Option Nat
  /-- The training messages sent at the latest event of this line's training, in the order they were sent (R108): an event that finds
  the far end's answer already in hand sends PROPOSE and then CONFIRM. -/
  sent : List TrainMsg
  /-- The state a retrain was entered from (R64, R110). -/
  retrainFrom : Option LineSt
  history : List Nat
  /-- The fax engine has set the rung in this session (R112). -/
  faxRungSet : Bool
deriving DecidableEq, Repr

/-- The data link of a line (Chapter 6). -/
structure DataLink where
  tx : List Byte
  rx : List Byte
  list : List InfoFrame
  send : Nat
  expected : Nat
  resend : Option Nat
  negotiated : Option (Nat × Nat)
  retries : Nat
  timer : DlTimer
  ackDue : Bool
  rejSent : Bool
  localBusy : Bool
  remoteBusy : Bool
  clear : ClearSt
  clearDue : Option Nat
  /-- The clear timer has expired in DATA: CLEAR is ready whatever the queue and the list hold (R132). -/
  clearForced : Bool
  clearSent : Bool
  /-- The link has been started in this call (R120). -/
  started : Bool
  sending : Option Frame
  /-- RATE and RATE_OK frames handed over by the modem (R121). -/
  rateQueue : List Frame
  rejDue : Bool
  rrDue : Bool
  pollDue : Bool
  formDue : Option Nat
deriving DecidableEq, Repr

/-- The fax engine of a line (Chapter 8). -/
structure Fax where
  role : Option FaxRole
  phase : Option FaxPhase
  rungs : List Nat
  modes : List Mode
  capsModes : Option (List Mode)
  capsFine : Bool
  capsTime : Nat
  agreed : Option Mode
  fine : Bool
  lineTime : Nat
  message : Option Nat
  page : Nat
  tryCount : Nat
  good : Nat
  /-- The verdict of the message's last page was GOOD or RETRAIN_GOOD (R174). -/
  allGood : Bool
  -- sender: the page being sent
  headerUse : Option HeaderUse
  header : Option (Bool × Nat)
  pageStart : Option Nat
  recordNo : Nat
  /-- The record now on the line. -/
  txRecord : Option TxRecord
  -- receiver: the page being received
  placed : Nat
  bad : Nat
  run : Nat
  longest : Nat
  expected : Nat
  prevGood : Option (List Byte)
  stored : Nat
  /-- Message offsets just after each line stored of the page in progress. -/
  lineEnds : List Nat
  pageCount : Nat
  checkCount : Nat
  checkGood : Nat
  checkSum : Nat
  /-- A retrain reached the engine in CHECK: its next check answer is CHECK_FAIL (R171). -/
  failNext : Bool
  afterCut : Option AfterCut
  /-- The last page closed TRUNCATED (R173). -/
  truncated : Bool
  /-- The writer was ended by a full store (R164, R173). -/
  fullEnded : Bool
  -- control messages
  outQueue : List FaxMsg
  outstanding : Option Outstanding
  /-- The kind of the far end's message acted on last (R160). -/
  taken : Option FaxKind
  lastSet : Option FaxMsg
  lastVerdict : Option FaxMsg
  /-- The PAGE_END judged last: its LAST flag and its line count (R160, log entry 49). -/
  lastPageEnd : Option (Bool × Nat)
  /-- The BYE this end sent first, or the one it is answering (R161). -/
  byeSent : Option ByeReason
  byeAnswer : Option ByeReason
  capsDue : Option Nat
  endCause : Option EndCause
deriving DecidableEq, Repr

/-- The voice engine of a line (Chapter 9). -/
structure Voice where
  sub : Option VoiceSub
  kind : Option VoiceKind
  message : Option Nat
  mailbox : Option Nat
  coding : Coding
  p : Int
  k : Nat
  position : Nat
  limit : Nat
  silenceRun : Nat
  silenceStart : Nat
  /-- The recording has begun (its first block, R184). -/
  begun : Bool
  /-- For each block of a recording, latest first: the time and the offset at its start (R184). -/
  offsets : List (Nat × Nat)
  /-- End of the 5 s of silence that stand for a greeting (R182). -/
  silentDue : Option Nat
  /-- The samples decoded for the last block, before squelch and source selection (R177). -/
  output : List Int
deriving DecidableEq, Repr

/-- Everything held per line. -/
structure LineState where
  profile : Profile
  iface : Iface
  det : Detector
  call : Call
  modem : Modem
  dl : DataLink
  fax : Fax
  voice : Voice
deriving DecidableEq, Repr

/-- The message store (Chapter 7). -/
structure Store where
  st : StoreSt
  regions : List Region
  formatCount : Nat
  free : List Nat
  dir : List Entry
  unheard : List Nat
  nextId : Nat
  creation : Nat
  settings : StoreSettings
  writers : List WStream
  readA : Option RStream
  readB : Option RStream
  readHost : Option RStream
  waiting : List Nat
  maint : List Maint
  grant : Option Grant
  lastLine : Line
  lastHostRead : Bool
  hostFail : Bool
  scan : Option Scan
  /-- MODEL's own: the next stream tag. -/
  nextTag : Nat
  /-- The external memory (7.1): address and byte, addresses strictly rising, no byte equal to 0. -/
  memory : List (Nat × BitVec 8)
deriving DecidableEq, Repr

/-- A request from one block to another, taken at the end of the step in the order made (R64, R65). MODEL's own:
it lets a block below ask the blocks above, as the spec words it, without the blocks calling each other in a circle. -/
inductive Request where
  /-- A release request with its reason (R65). -/
  | release (l : Line) (r : ReleaseReason)
  /-- The loop is established (R25, R76). -/
  | loopUp (l : Line)
  /-- The modem asks for DATA, or for the state its retrain was entered from (R64, R109). -/
  | trained (l : Line)
  /-- The modem asks for TRAIN (R64, R110). -/
  | retrain (l : Line)
  /-- The voice engine reports the end of the greeting (R64, R182). -/
  | greetingEnd (l : Line)
  /-- The tone generator reports a signal aborted to its requester (R36). -/
  | toneAborted (l : Line) (sig : ToneSignal)
  /-- The store ends a writer that met a full store (R145). -/
  | writerFull (o : Owner) (id : Nat)
  /-- The store tells a writer that its cut is complete (R147). -/
  | cutDone (o : Owner) (id : Nat)
  /-- A segment has been read into a line stream's buffer (R146). -/
  | readArrived (l : Line)
  /-- Dispatch is to be evaluated for the line (R89). -/
  | dispatch (l : Line)
  /-- An extension hang-up delivered by a change of pins (R30). -/
  | extHangup (l : Line)
deriving DecidableEq, Repr

end Sys2Proof.Machine
end

