-- ==== Sys2Proof/Machine/Tables.lean ====
section
/-! DEFINITION. The fixed tables of the part: line modes (R95), gain factors (R22), the step table (R177), DTMF
frequencies, power sums of levels (R44), and the default tables and profiles. -/

namespace Sys2Proof.Machine

/-! ### Line modes (R95) -/

/-- The catalogue index of a mode. -/
def Mode.code : Mode → Nat
  | .l3 => 0 | .l12 => 1 | .l24 => 2 | .l48 => 3 | .l96 => 4 | .l144 => 5 | .l192 => 6 | .l240 => 7

/-- The modes in ascending bit rate. -/
def Mode.all : List Mode := [.l3, .l12, .l24, .l48, .l96, .l144, .l192, .l240]

/-- The mode of a catalogue index, if there is one. -/
def Mode.ofCode (n : Nat) : Option Mode := Mode.all[n]?

/-- bit/s of a mode. -/
def Mode.bitRate : Mode → Nat
  | .l3 => 300 | .l12 => 1200 | .l24 => 2400 | .l48 => 4800 | .l96 => 9600 | .l144 => 14400 | .l192 => 19200 | .l240 => 24000

/-- The density factor F of a mode, in sixteenths. -/
def Mode.density : Mode → Nat
  | .l3 => 8 | .l12 => 12 | .l24 => 40 | .l48 => 16 | .l96 => 80 | .l144 => 336 | .l192 => 448 | .l240 => 1400

/-- The window W of a mode: its symbols in 100 ms. -/
def Mode.windowLength : Mode → Nat
  | .l3 => 30 | .l12 => 60 | .l24 => 60 | .l48 => 240 | .l96 => 240 | .l144 => 240 | .l192 => 320 | .l240 => 300

/-- A fax mode: L48, L96 or L144 (5.2). -/
def Mode.isFax : Mode → Bool
  | .l48 | .l96 | .l144 => true
  | _ => false

/-- Where a mode stands against another in bit rate. -/
def Mode.below (a b : Mode) : Bool := decide (a.code < b.code)

/-! ### Gain factors (R22) -/

/-- G(index) = round(4096 * 10^((index - 24)/40)) for index 0 to 72. -/
def gainFactors : List Nat :=
  [1029, 1090, 1154, 1223, 1295, 1372, 1453, 1539, 1631, 1727, 1830, 1938, 2053, 2175, 2303, 2440, 2584, 2738, 2900,
   3072, 3254, 3446, 3651, 3867] ++
  [4096, 4339, 4596, 4868, 5157, 5462, 5786, 6129, 6492, 6876, 7284, 7715, 8173, 8657, 9170, 9713, 10289, 10898, 11544,
   12228, 12953, 13720, 14533, 15394] ++
  [16306, 17273, 18296, 19380, 20529, 21745, 23034, 24398, 25844, 27375, 28997, 30716, 32536, 34464, 36506, 38669,
   40960, 43387, 45958, 48681, 51566, 54621, 57858, 61286, 64917]

/-- The gain factor of an index (R22). -/
def gainFactor (index : Nat) : Nat := gainFactors.getD index 4096

/-! ### The step table (R177) -/

/-- step(0) = 8 and step(i + 1) = step(i) + max(1, floor(step(i) / 8)). -/
def voiceStep : Nat → Nat
  | 0 => 8
  | i + 1 => voiceStep i + max 1 (voiceStep i / 8)

/-- Bytes of one second in a coding. -/
def secondBytes : Coding → Nat
  | .adc2 => 2000
  | _ => 4000

/-! ### DTMF (R41, R46) -/

/-- The row frequencies. -/
def dtmfRows : List Nat := [697, 770, 852, 941]

/-- The column frequencies. -/
def dtmfCols : List Nat := [1209, 1336, 1477, 1633]

/-- The digits by row and column, as ASCII characters (R46). -/
def dtmfDigits : List (List Byte) :=
  [[0x31#8, 0x32#8, 0x33#8, 0x41#8], [0x34#8, 0x35#8, 0x36#8, 0x42#8], [0x37#8, 0x38#8, 0x39#8, 0x43#8],
   [0x2A#8, 0x30#8, 0x23#8, 0x44#8]]

/-- The row frequency and the column frequency of a DTMF digit (R36, R46). -/
def dtmfPairs (digit : Byte) : List (Nat × Nat) :=
  (dtmfRows.zip dtmfDigits).flatMap fun r =>
    ((dtmfCols.zip r.2).filter fun c => decide (c.2 = digit)).map fun c => (r.1, c.1)

/-- The sines a signal of the tone generator is made of, each starting at phase zero (R36). -/
def ToneSignal.components : ToneSignal → List ToneComponent
  | .dtmf digit _ _ =>
    (dtmfPairs digit).flatMap fun p => [{ frequency := p.1, level := -11 }, { frequency := p.2, level := -9 }]
  | .answer => [{ frequency := 2250, level := -10 }]
  | .faxCalling => [{ frequency := 1100, level := -10 }]
  | .dataCalling => [{ frequency := 1300, level := -10 }]
  | .beep frequency _ => [{ frequency := frequency, level := -10 }]

/-! ### Power sums of levels (R44) -/

/-- The least difference, in tenths of a dB, beyond which the power sum of two levels lies less than 0.1, 0.2, … 3.0 dB
above the higher one, each correction rounded to the nearest tenth. -/
def powerSumSteps : List Nat :=
  [193, 145, 122, 107, 96, 86, 79, 72, 66, 61, 56, 51, 47, 43, 40, 36, 33, 30, 27, 24, 21, 19, 16, 14, 12, 9, 7, 5, 3, 1]

/-- The combined level of two levels in tenths of a dBm0: the level of the sum of their powers, to the nearest tenth
(R44; the rounding is DESIGN CHOICE, log entry 12). -/
def combinedLevel (a b : Int) : Int :=
  max a b + ((powerSumSteps.filter fun t => decide ((a - b).natAbs ≤ t)).length : Nat)

/-! ### One value for each monitor source -/

/-- The value of a source. -/
def PerSource.get {α : Type} (p : PerSource α) : MonSource → α
  | .levelLow => p.levelLow | .clip => p.clip | .gainLimit => p.gainLimit | .freqLimit => p.freqLimit
  | .impulse => p.impulse | .quality => p.quality | .loopLoss => p.loopLoss | .streamSlip => p.streamSlip

/-- The container with the value of one source replaced. -/
def PerSource.set {α : Type} (p : PerSource α) (s : MonSource) (v : α) : PerSource α :=
  match s with
  | .levelLow => { p with levelLow := v } | .clip => { p with clip := v } | .gainLimit => { p with gainLimit := v }
  | .freqLimit => { p with freqLimit := v } | .impulse => { p with impulse := v } | .quality => { p with quality := v }
  | .loopLoss => { p with loopLoss := v } | .streamSlip => { p with streamSlip := v }

/-- The same value for every source. -/
def PerSource.all {α : Type} (v : α) : PerSource α := ⟨v, v, v, v, v, v, v, v⟩

/-- The sources in code order (R32). -/
def monSources : List MonSource :=
  [.levelLow, .clip, .gainLimit, .freqLimit, .impulse, .quality, .loopLoss, .streamSlip]

/-! ### Defaults -/

/-- The default monitor settings: enabled, not latched, ERROR for LEVEL_LOW, QUALITY and LOOP_LOSS (R32, R38). -/
def defaultMonitors : PerSource MonCfg :=
  let w : MonCfg := ⟨true, false, .warning⟩
  let e : MonCfg := ⟨true, false, .error⟩
  { levelLow := e, clip := w, gainLimit := w, freqLimit := w, impulse := w, quality := e, loopLoss := e, streamSlip := w }

/-- The default profile (R38, R92, R115, R135, R175, R192). Times in ms but for the fields carried in s. -/
def defaultProfile : Profile where
  answerMode := .auto
  rings := 4
  mailbox := 0
  ringMap1 := (.auto, 0)
  ringMap2 := (.fax, 0)
  ringMap3 := (.data, 0)
  screenBar := false
  autoCallout := false
  dialMethod := .tone
  toneOn := 80
  toneOff := 80
  pulseBreak := 60
  pulseMake := 40
  interdigit := 750
  comma := 2
  flash := 500
  dialToneWait := 5
  blindDial := false
  progressTimeout := 45
  classifyWindow := 30
  extPolicy := .yieldLine
  monitors := defaultMonitors
  onError := .continue_
  agcTarget := 2000
  levelFloor := 60
  freqLimit := 7
  impulseThreshold := 2048
  burstDivisor := 16
  linkPenalty := 64
  faxPenalty := 32
  window := 8
  payloadMax := 128
  highestFax := .l144
  fine := true
  minLineTime := 10
  goodPerMille := 10
  retrainPerMille := 50
  runLimit := 3
  silenceThreshold := 40
  silenceTime := 4
  beepFrequency := 1000
  beepDuration := 400

/-- The default pin assignment (R29). -/
def defaultPins : List PinCfg :=
  [.hookA, .ringA, .loopA, .extA, .hookB, .ringB, .loopB, .extB, .msg, .alarm, .out, .out].map fun f => ⟨f, false⟩

/-- A default tone entry of kind SINGLE or DTMF (R61: twist limit 6 dB, priority mark off). R61 gives a SINGLE entry no second frequency
and the DTMF entry none; the fields that its kind does not use hold 0: DESIGN CHOICE, log entry 89. -/
def defaultTone (kind : ToneKind) (f1 : Nat) (level : Int) (on off : Nat) (action : ToneAction) (meaning : Meaning)
    (live : List LineSt) : ToneEntry :=
  { kind := kind, f1 := f1, f2 := 0, minLevel := level, twist := 6, onTime := on, offTime := off, action := action,
    priorityMark := false, meaning := meaning, live := live }

/-- The default tone table (R61): 24 entries, 6 of them valid. -/
def defaultTones : List (Option ToneEntry) :=
  [some (defaultTone .dtmf 0 (-30) 40 40 .report .dtmf [.classify, .voice]),
   some (defaultTone .single 425 (-35) 1000 100 .ignore .dialtone [.seize, .dial]),
   some (defaultTone .single 425 (-35) 200 200 .ignore .none [.progress, .voice]),
   some (defaultTone .single 1100 (-40) 400 1000 .report .callFax [.classify]),
   some (defaultTone .single 1300 (-40) 400 1000 .report .callData [.classify]),
   some (defaultTone .single 2250 (-40) 500 100 .report .answerData [.progress])] ++ List.replicate 18 none

/-- A default cadence entry (R61: report flag on, tolerance 20 %). -/
def defaultCadence (source : CadSource) (pattern : List Nat) (repeats : Nat) (meaning : Meaning) : CadEntry :=
  { source := source, pattern := pattern, tolerance := 20, repeats := repeats, meaning := meaning, report := true }

/-- The default cadence table (R61): 8 entries, 4 of them valid. -/
def defaultCadences : List (Option CadEntry) :=
  [some (defaultCadence (.tone 2) [500, 500] 2 .busy),
   some (defaultCadence (.tone 2) [1000, 4000] 1 .ringback),
   some (defaultCadence .ring [2000, 4000] 1 (.ringClass 1)),
   some (defaultCadence .ring [400, 200, 400, 2000] 1 (.ringClass 2))] ++ List.replicate 4 none

/-- The default ladder (R96): L12 to L240, each with U 60, D 200, X 600. -/
def defaultLadder : List Rung :=
  [.l12, .l24, .l48, .l96, .l144, .l192, .l240].map fun m => ⟨m, 60, 200, 600⟩

/-- The default mailbox of an index (R179): access digits "1" to "8". -/
def defaultMailbox (i : Nat) : Mailbox :=
  { enabled := true, digits := [BitVec.ofNat 8 (0x31 + i)], greeting := none, maxLength := 120, coding := .adc4, isNew := false }

/-- The default mailbox table (R179). -/
def defaultMailboxes : List Mailbox := (List.range 8).map defaultMailbox

/-- The default store settings (R156). -/
def defaultStoreSettings : StoreSettings := ⟨32, .keep, 0, .fifo⟩

/-- A region that is not present. -/
def absentRegion : Region := ⟨false, 0, false, 0⟩

/-- An edge state in READY with no run (R62). -/
def readyEdge : EdgeState := ⟨.ready, 0, 0, 0, 0, 0, none, none⟩

/-- An empty alignment that observes the ons that begin at this time or later (R55, R57). -/
def emptyAlign (time : Nat) : Alignment := ⟨false, 0, 0, 0, false, none, time⟩

/-! ### Block state after power-on -/

/-- The line interface after power-on (R40); the extension count runs when EXT is asserted. -/
def initialIface (loopIn extIn : Bool) : Iface where
  gain := 24
  blockGain := 24
  preLevel := 0
  postLevel := 0
  blockDue := 10
  blockNo := 0
  ring := .quiet
  ringOff := none
  hook := false
  loop := .onHook
  loopSuspended := false
  loopIn := loopIn
  extIn := extIn
  extState := false
  extDue := if extIn then some 50 else none
  caller := none
  window := .closed
  current := .all false
  latched := .all false
  expecting := false
  lowRun := 0
  highRun := 0
  gainRun := 0
  slipped := false
  tone := none

/-- The detector after power-on (R62). -/
def initialDetector : Detector where
  edges := List.replicate 24 readyEdge
  aligns := List.replicate 8 (emptyAlign 0)
  slot0 := none
  slot1 := none
  slot1Older := false
  overflow := false
  priority := none

/-- A cleared call record (Chapter 4). -/
def emptyCallRecord : CallRecord := ⟨none, none, none, 0, [], 0, [], none, none, none, none⟩

/-- The call controller's state of an IDLE line with nothing recorded (R94). That it has no reason of a last change is DESIGN CHOICE, log
entry 97. -/
def initialCall : Call where
  st := .idle
  reason := none
  leftAt := 0
  cr := emptyCallRecord
  refHeld := false
  reached := false
  firstRing := false
  ringsToAnswer := none
  digits := []
  ringDue := none
  dialToneDue := none
  blindDue := none
  progressDue := none
  watchDue := none
  classifyDue := none
  digitDue := none
  cleardownDue := none
  step := .none
  stepDue := none
  pulse := ⟨0, 0, 0⟩
  classifyTime := 0
  loopUp := false
  toneHeard := false
  ringback := false
  watchArmed := false
  speechRun := 0
  silentRun := 0
  beenInData := false

/-- The modem after power-on (R117). The figures of the last completed window (R116), which have no row in R117's table, are absent here,
and so at the entry to IDLE, RESET LINE and RESET TABLES: DESIGN CHOICE, log entry 77. -/
def initialModem : Modem where
  rung := none
  q := 0
  window := none
  lastWindow := none
  offset := none
  holdOff := 0
  upCount := 0
  burstRun := 0
  request := none
  phase := none
  trainDue := none
  probeDue := none
  probeSent := false
  probeCount := 0
  probeGood := 0
  probeSum := 0
  mProbe := none
  proposal := none
  farPropose := none
  farConfirm := none
  chosen := none
  rungSet := none
  repeatDue := none
  sent := []
  retrainFrom := none
  history := []
  faxRungSet := false

/-- The data link after power-on and after the entry to IDLE (R134). -/
def initialDataLink : DataLink where
  tx := []
  rx := []
  list := []
  send := 0
  expected := 0
  resend := none
  negotiated := none
  retries := 0
  timer := .stopped
  ackDue := false
  rejSent := false
  localBusy := false
  remoteBusy := false
  clear := .none
  clearDue := none
  clearForced := false
  clearSent := false
  started := false
  sending := none
  rateQueue := []
  rejDue := false
  rrDue := false
  pollDue := false
  formDue := none

/-- The fax engine with no session (R176), keeping a session end cause. -/
def initialFax (cause : Option EndCause) : Fax where
  role := none
  phase := none
  rungs := []
  modes := []
  capsModes := none
  capsFine := false
  capsTime := 0
  agreed := none
  fine := false
  lineTime := 0
  message := none
  page := 0
  tryCount := 0
  good := 0
  allGood := false
  headerUse := none
  header := none
  pageStart := none
  recordNo := 0
  txRecord := none
  placed := 0
  bad := 0
  run := 0
  longest := 0
  expected := 0
  prevGood := none
  stored := 0
  lineEnds := []
  pageCount := 0
  checkCount := 0
  checkGood := 0
  checkSum := 0
  failNext := false
  afterCut := none
  truncated := false
  fullEnded := false
  outQueue := []
  outstanding := none
  taken := none
  lastSet := none
  lastVerdict := none
  lastPageEnd := none
  byeSent := none
  byeAnswer := none
  capsDue := none
  endCause := cause

/-- The voice engine without a substate (R191, R192). -/
def initialVoice : Voice where
  sub := none
  kind := none
  message := none
  mailbox := none
  coding := .none
  p := 0
  k := 0
  position := 0
  limit := 0
  silenceRun := 0
  silenceStart := 0
  begun := false
  offsets := []
  silentDue := none
  output := []

/-- A line after power-on with its input levels. -/
def initialLine (loopIn extIn : Bool) : LineState where
  profile := defaultProfile
  iface := initialIface loopIn extIn
  det := initialDetector
  call := initialCall
  modem := initialModem
  dl := initialDataLink
  fax := initialFax none
  voice := initialVoice

/-- The terminal link after power-on or RESET PART (R20), with the pin levels it finds; BEGIN is queued. -/
def initialLink (byDirective : Bool) (straps : BitVec 3) (hhold : Bool) : Link where
  parser := .payload
  stallDue := none
  target := .none
  discard := ⟨false, false, false, false⟩
  reports := [.begin byDirective .scanning]
  loss := false
  sending := .idle
  announced := none
  roundRobin := .lineA
  rate := straps
  pendingRate := none
  lhold := false
  hhold := hhold
  straps := straps
  dayClock := none
  minuteDue := none
  seconds := 0
  secondDue := 1000

/-- The message store after power-on or RESET PART, its scan's first read, of the label, granted (R140, R148, R158). -/
def initialStore (memory : List (Nat × BitVec 8)) : Store where
  st := .scanning
  regions := List.replicate 4 absentRegion
  formatCount := 0
  free := []
  dir := []
  unheard := []
  nextId := 1
  creation := 0
  settings := defaultStoreSettings
  writers := []
  readA := none
  readB := none
  readHost := none
  waiting := []
  maint := []
  grant := some (.maint (.scanRead .label))
  lastLine := .B
  lastHostRead := false
  hostFail := false
  scan := some ⟨[], [], [], [], false⟩
  nextTag := 0
  memory := memory

end Sys2Proof.Machine
end

