-- ==== Sys2Proof/Machine/State.lean ====
section
/-! DEFINITION. The state of the part, its reasons to stop, and the state after reset. -/

namespace Sys2Proof.Machine

/-- The whole part: the terminal link (Chapter 1), the tables both lines share, the two lines, the message store;
and the MODEL's own fields: the clock that dates timers, the counter of free values, the requests between blocks still to be
taken, and the queue of commands that are waiting. -/
structure State where
  link : Link
  pins : List PinCfg
  tones : List (Option ToneEntry)
  cadences : List (Option CadEntry)
  screen : List (Option ScreenEntry)
  attempts : List (Option AttemptRecord)
  jobs : List Job
  /-- The last job id assigned (R88). -/
  lastJob : Nat
  ladder : List Rung
  mailboxes : List Mailbox
  lineA : LineState
  lineB : LineState
  store : Store
  /-- MODEL's own: ms since power-on or RESET PART. -/
  now : Nat
  /-- MODEL's own: how many free pin samples have been taken. -/
  samples : Nat
  /-- MODEL's own: requests between blocks, first made first. -/
  requests : List Request
  /-- MODEL's own: the commands that are waiting, first in, first out. -/
  pending : List Instr
deriving DecidableEq, Repr

/-- Why a step stops with a fault. The spec gives the part no event that stops it, so there is one reason only, and no
meaning of this model answers with it (log entry 2). -/
inductive Fault where
  /-- An access to an address of the message store that does not exist. SAFE: no command of this model raises it, since the
  store reads and writes only present segments and the label (R136, R143). -/
  | noSuchAddress (address : Nat)
deriving DecidableEq, Repr

/-- Why a step is refused. -/
inductive Refusal where
  /-- A command with no meaning in the model. Raised by no arm of `exec`: every command has its meaning. SAFE. -/
  | notModelled (mnemonic : String)
deriving DecidableEq, Repr

/-- The state that power-on (cause PIN) or RESET PART (cause DIRECTIVE) leaves (R20, R40, R62, R94, R117, R134, R158, R176,
R192): everything at its initial value, the external memory and the levels on input pins as they stand. -/
def initialState (byDirective : Bool) (straps : BitVec 3) (hhold loopA loopB extA extB : Bool)
    (memory : List (Nat × BitVec 8)) (samples : Nat) (pending : List Instr) : State where
  link := initialLink byDirective straps hhold
  pins := defaultPins
  tones := defaultTones
  cadences := defaultCadences
  screen := List.replicate 32 none
  attempts := List.replicate 16 none
  jobs := []
  lastJob := 0
  ladder := defaultLadder
  mailboxes := defaultMailboxes
  lineA := initialLine loopA extA
  lineB := initialLine loopB extB
  store := initialStore memory
  now := 0
  samples := samples
  requests := []
  pending := pending

/-- The part right after power-on: R20's table and the tables of the other chapters; straps at 0, input pins released and
the external memory blank (DESIGN CHOICE, log entries 7 and 8). -/
def State.reset : State := initialState false 0 false false false false false [] 0 []

end Sys2Proof.Machine
end

