-- ==== Sys2Proof/Machine/Operands.lean ====
section
/-! DEFINITION. The operand forms of directives and reports: enumeration codes (10.1), line bytes, sets, bytes of wider
fields, and the checked reading of a coded field (R193). -/

namespace Sys2Proof.Machine

/-! ### Codes of enumerations (10.1) -/

/-- Result code of a DONE. -/
def Result.code : Result → Nat
  | .ok => 0 | .unknown => 1 | .badParam => 2 | .badState => 3 | .noEntry => 4 | .tableFull => 5 | .inUse => 6
  | .notReady => 7 | .storeFull => 8 | .screened => 9 | .delayed => 10 | .barred => 11 | .busy => 12

/-- The line states in code order. -/
def LineSt.all : List LineSt :=
  [.idle, .ringing, .seize, .dial, .progress, .classify, .train, .data, .fax, .voice, .cleardown]

/-- Line state code. -/
def LineSt.code : LineSt → Nat
  | .idle => 0 | .ringing => 1 | .seize => 2 | .dial => 3 | .progress => 4 | .classify => 5 | .train => 6 | .data => 7
  | .fax => 8 | .voice => 9 | .cleardown => 10

/-- Change reason code, 0 to 18. -/
def ChangeReason.code : ChangeReason → Nat
  | .ring => 0 | .answer => 1 | .dial => 2 | .job => 3 | .dialtone => 4 | .blind => 5 | .glare => 6 | .digits => 7
  | .answerData => 8 | .speech => 9 | .silence => 10 | .callFax => 11 | .callData => 12 | .greetingEnd => 13
  | .windowEnd => 14 | .trained => 15 | .retrain => 16 | .missed => 17 | .extension => 18

/-- Release reason code, from 32; EXTENSION uses 18. -/
def ReleaseReason.code : ReleaseReason → Nat
  | .host => 32 | .farEnd => 33 | .noLoop => 34 | .noDialtone => 35 | .busy => 36 | .noAnswer => 37 | .noCarrier => 38
  | .lineQuality => 39 | .linkFail => 40 | .faxDone => 41 | .faxFail => 42 | .voiceDone => 43 | .storeFull => 44
  | .reset => 45 | .extension => 18

/-- Code of the reason of a LINE report. -/
def LineReason.code : LineReason → Nat
  | .change c => c.code
  | .release r => r.code

/-- End reason code: 0 to 9, otherwise the release reason code. -/
def EndReason.code : EndReason → Nat
  | .none => 0 | .limit => 1 | .silence => 2 | .ended => 3 | .key => 4 | .releaseEnd => 5 | .noSpace => 6 | .noEntry => 7
  | .empty => 8 | .erased => 9
  | .byRelease r => r.code

/-- Call mode code. -/
def CallMode.code : CallMode → Nat
  | .off => 0 | .data => 1 | .fax => 2 | .voice => 3 | .auto => 4

/-- The call mode of a code. -/
def CallMode.ofCode : Nat → Option CallMode
  | 0 => some .off | 1 => some .data | 2 => some .fax | 3 => some .voice | 4 => some .auto | _ => none

/-- The mode of an ANSWER: DATA, FAX, VOICE or AUTO (R70). -/
def CallMode.ofAnswer (n : Nat) : Option CallMode := if n = 0 then none else CallMode.ofCode n

/-- The mode of a DIAL, coded from 1: DATA, FAX, VOICE (R74, 10.1). -/
def CallMode.ofDial : Nat → Option CallMode
  | 1 => some .data | 2 => some .fax | 3 => some .voice | _ => none

/-- Direction code. -/
def Direction.code : Direction → Nat
  | .incoming => 0 | .outgoing => 1

/-- Target code (R7). -/
def Target.code : Target → Nat
  | .none => 0 | .lineA => 1 | .lineB => 2 | .store => 3

/-- The target of a code (R7). -/
def Target.ofCode : Nat → Option Target
  | 0 => some .none | 1 => some .lineA | 2 => some .lineB | 3 => some .store | _ => Option.none

/-- Source code, from 1. -/
def Source.code : Source → Nat
  | .lineA => 1 | .lineB => 2 | .hostRead => 3

/-- Monitor source code. -/
def MonSource.code : MonSource → Nat
  | .levelLow => 0 | .clip => 1 | .gainLimit => 2 | .freqLimit => 3 | .impulse => 4 | .quality => 5 | .loopLoss => 6
  | .streamSlip => 7

/-- Monitor class code. -/
def MonClass.code : MonClass → Nat
  | .warning => 0 | .error => 1

/-- The pin functions in code order. -/
def PinFn.all : List PinFn :=
  [.hookA, .hookB, .msg, .alarm, .out, .ringA, .ringB, .loopA, .loopB, .extA, .extB, .inp]

/-- The pin function of a code. -/
def PinFn.ofCode (n : Nat) : Option PinFn := PinFn.all[n]?

/-- Pin function code. -/
def PinFn.code : PinFn → Nat
  | .hookA => 0 | .hookB => 1 | .msg => 2 | .alarm => 3 | .out => 4 | .ringA => 5 | .ringB => 6 | .loopA => 7 | .loopB => 8
  | .extA => 9 | .extB => 10 | .inp => 11

/-- An input function (R29). -/
def PinFn.isInput : PinFn → Bool
  | .ringA | .ringB | .loopA | .loopB | .extA | .extB | .inp => true
  | _ => false

/-- Tone kind code. -/
def ToneKind.code : ToneKind → Nat
  | .single => 0 | .dual => 1 | .dtmf => 2

/-- The tone kind of a code. -/
def ToneKind.ofCode : Nat → Option ToneKind
  | 0 => some .single | 1 => some .dual | 2 => some .dtmf | _ => none

/-- Control operation code. -/
def ControlOp.code : ControlOp → Nat
  | .stop => 0 | .skipBack => 1 | .skipFwd => 2 | .pause => 3

/-- The control operation of a code. -/
def ControlOp.ofCode : Nat → Option ControlOp
  | 0 => some .stop | 1 => some .skipBack | 2 => some .skipFwd | 3 => some .pause | _ => none

/-- Tone action code. -/
def ToneAction.code : ToneAction → Nat
  | .ignore => 0 | .report => 1 | .priority => 2 | .capture => 3 | .control _ => 4

/-- The code of the control operation of an action; only CONTROL has one (R41). -/
def ToneAction.opCode : ToneAction → Option Nat
  | .control op => some op.code
  | _ => none

/-- The action of an action code and an operation code; both must name a value (R42). -/
def ToneAction.ofCodes (action op : Nat) : Option ToneAction :=
  match ControlOp.ofCode op with
  | none => none
  | some o =>
    match action with
    | 0 => some .ignore | 1 => some .report | 2 => some .priority | 3 => some .capture | 4 => some (.control o)
    | _ => none

/-- Tone meaning code; cadence meanings have codes of their own. -/
def Meaning.toneCode : Meaning → Nat
  | .none => 0 | .dialtone => 1 | .answerData => 2 | .callFax => 3 | .callData => 4 | .dtmf => 5
  | _ => 0

/-- The tone meaning of a code. -/
def Meaning.ofTone : Nat → Option Meaning
  | 0 => some .none | 1 => some .dialtone | 2 => some .answerData | 3 => some .callFax | 4 => some .callData
  | 5 => some .dtmf | _ => Option.none

/-- Cadence meaning code. -/
def Meaning.cadenceCode : Meaning → Nat
  | .busy => 0 | .ringback => 1 | .callFax => 2 | .ringClass n => 2 + n
  | _ => 0

/-- The cadence meaning of a code. -/
def Meaning.ofCadence : Nat → Option Meaning
  | 0 => some .busy | 1 => some .ringback | 2 => some .callFax | 3 => some (.ringClass 1) | 4 => some (.ringClass 2)
  | 5 => some (.ringClass 3) | _ => Option.none

/-- Edge state code. -/
def EdgeSt.code : EdgeSt → Nat
  | .ready => 0 | .rising => 1 | .on => 2 | .bridge => 3 | .recover => 4

/-- Slot result code. -/
def SlotResult.code : SlotResult → Nat
  | .none => 0 | .slot0 => 1 | .slot1 => 2 | .lost => 3

/-- Screen direction code. -/
def ScreenDir.code : ScreenDir → Nat
  | .incoming => 0 | .outgoing => 1 | .both => 2

/-- The screen direction of a code. -/
def ScreenDir.ofCode : Nat → Option ScreenDir
  | 0 => some .incoming | 1 => some .outgoing | 2 => some .both | _ => none

/-- Screen action code. -/
def ScreenAction.code : ScreenAction → Nat
  | .allow => 0 | .bar => 1 | .noAnswer => 2 | .answerRings _ => 3 | .route _ => 4 | .faxOnly => 5 | .dataOnly => 6

/-- The argument of a screen action; only ANSWER_RINGS and ROUTE have one (R82). -/
def ScreenAction.argument : ScreenAction → Option Nat
  | .answerRings n => some n | .route m => some m | _ => none

/-- The screen action of a code and its argument, n clamped to 1 to 15 (R82). -/
def ScreenAction.ofCode (code argument : Nat) : Option ScreenAction :=
  match code with
  | 0 => some .allow | 1 => some .bar | 2 => some .noAnswer
  | 3 => some (.answerRings (max 1 (min 15 argument)))
  | 4 => some (.route argument) | 5 => some .faxOnly | 6 => some .dataOnly | _ => none

/-- The actions a direction allows (R82). -/
def ScreenAction.allowed (dir : ScreenDir) : ScreenAction → Bool
  | .allow | .bar => decide (dir ≠ .incoming)
  | _ => decide (dir = .incoming)

/-- Message kind code. -/
def MsgKind.code : MsgKind → Nat
  | .voice => 0 | .fax => 1 | .file => 2

/-- The message kind of a code. -/
def MsgKind.ofCode : Nat → Option MsgKind
  | 0 => some .voice | 1 => some .fax | 2 => some .file | _ => none

/-- Coding code. -/
def Coding.code : Coding → Nat
  | .none => 0 | .adc4 => 1 | .adc2 => 2

/-- The coding of a code. -/
def Coding.ofCode : Nat → Option Coding
  | 0 => some .none | 1 => some .adc4 | 2 => some .adc2 | _ => Option.none

/-- Message state code, in the order R138 lists the states. -/
def MsgState.code : MsgState → Nat
  | .opened => 0 | .closed => 1 | .erasing => 2

/-- Job kind code (10.2): FAX 1, VOICE 2. -/
def JobKind.code : JobKind → Nat
  | .fax => 1 | .voice => 2

/-- The job kind of a code. -/
def JobKind.ofCode : Nat → Option JobKind
  | 1 => some .fax | 2 => some .voice | _ => none

/-- The call mode of a job (R89). -/
def JobKind.mode : JobKind → CallMode
  | .fax => .fax | .voice => .voice

/-- Line preference code, from 1. -/
def LinePref.code : LinePref → Nat
  | .a => 1 | .b => 2 | .any => 3

/-- The line preference of a code. -/
def LinePref.ofCode : Nat → Option LinePref
  | 1 => some .a | 2 => some .b | 3 => some .any | _ => none

/-- Job state code. -/
def JobState.code : JobState → Nat
  | .waiting => 0 | .active => 1 | .done => 2

/-- Job result code. -/
def JobResult.code : JobResult → Nat
  | .sent => 0 | .partlySent => 1 | .failed => 2 | .barred => 3 | .screened => 4 | .cancelled => 5

/-- Verdict code. -/
def Verdict.code : Verdict → Nat
  | .none => 0 | .good => 1 | .retrainGood => 2 | .bad => 3

/-- The verdict of a code. -/
def Verdict.ofCode : Nat → Option Verdict
  | 0 => some .none | 1 => some .good | 2 => some .retrainGood | 3 => some .bad | _ => Option.none

/-- Store state code. -/
def StoreSt.code : StoreSt → Nat
  | .unformatted => 0 | .scanning => 1 | .ready => 2 | .formatting => 3

/-- STORE event code. -/
def StoreEvent.code : StoreEvent → Nat
  | .ready => 0 | .unformatted => 1 | .scanDrop => 2 | .full => 3 | .recycled => 4 | .watermark => 5 | .pace => 6

/-- VOICE event code. -/
def VoiceEvent.code : VoiceEvent → Nat
  | .start => 0 | .ended => 1 | .skip => 2 | .pause => 3 | .resume => 4

/-- RATE cause code. -/
def RateCause.code : RateCause → Nat
  | .train => 0 | .down => 1 | .up => 2 | .retrain => 3

/-- Fault kind code. -/
def FaultKind.code : FaultKind → Nat
  | .badCode => 0 | .badLength => 1 | .timeout => 2

/-- Training phase code. -/
def Phase.code : Phase → Nat
  | .probe => 0 | .propose => 1 | .confirm => 2

/-- Clear state code. -/
def ClearSt.code : ClearSt → Nat
  | .none => 0 | .graceful => 1 | .received => 2

/-- Fax role code. -/
def FaxRole.code : FaxRole → Nat
  | .sender => 0 | .receiver => 1

/-- Fax phase code. -/
def FaxPhase.code : FaxPhase → Nat
  | .setup => 0 | .check => 1 | .page => 2 | .verdict => 3 | .ended => 4

/-- BYE reason code. -/
def ByeReason.code : ByeReason → Nat
  | .done => 0 | .unsupported => 1 | .noRung => 2 | .badMessage => 3 | .storeFull => 4 | .failed => 5

/-- The BYE reason of a code. -/
def ByeReason.ofCode : Nat → Option ByeReason
  | 0 => some .done | 1 => some .unsupported | 2 => some .noRung | 3 => some .badMessage | 4 => some .storeFull
  | 5 => some .failed | _ => none

/-- Session end cause code (10.1). -/
def EndCause.code : EndCause → Nat
  | .bye r => r.code
  | .release r => r.code

/-- Voice substate code. -/
def VoiceSub.code : VoiceSub → Nat
  | .greeting => 0 | .beep => 1 | .recording => 2 | .playing => 3 | .paused => 4 | .waiting => 5

/-- Operation kind code. -/
def VoiceKind.code : VoiceKind → Nat
  | .answered => 0 | .delivery => 1 | .host => 2

/-- Full-store policy of a code (10.2). -/
def FullPolicy.ofCode : Nat → Option FullPolicy
  | 0 => some .recycle | 1 => some .keep | _ => none

/-- Full-store policy code. -/
def FullPolicy.code : FullPolicy → Nat
  | .recycle => 0 | .keep => 1

/-- Order mode of a code (10.2). -/
def OrderMode.ofCode : Nat → Option OrderMode
  | 0 => some .fifo | 1 => some .priority | _ => none

/-- Order mode code. -/
def OrderMode.code : OrderMode → Nat
  | .fifo => 0 | .priority => 1

/-- Ring debouncer code. -/
def RingDeb.code : RingDeb → Nat
  | .quiet => 0 | .pending _ _ => 1 | .on _ _ => 2

/-- Loop debouncer code. -/
def LoopDeb.code : LoopDeb → Nat
  | .onHook => 0 | .wait _ _ => 1 | .present => 2 | .doubt _ => 3 | .lost => 4

/-- Tone generator signal code. -/
def ToneSignal.code : ToneSignal → Nat
  | .dtmf _ _ _ => 0 | .answer => 1 | .faxCalling => 2 | .dataCalling => 3 | .beep _ _ => 4

/-! ### Lines and sets -/

/-- The line of a line byte: 1 for A, 2 for B, any other is an unnamed line (R193). -/
def lineOf (b : Byte) : Option Line :=
  if b.toNat = 1 then some .A else if b.toNat = 2 then some .B else none

/-- The line byte (Chapter 10). -/
def lineByte : Line → Byte
  | .A => 1#8
  | .B => 2#8

/-- The other line. -/
def otherLine : Line → Line
  | .A => .B
  | .B => .A

/-- An on/off code: 1 on, 0 off, any other unnamed (10.3). -/
def onOff (n : Nat) : Option Bool :=
  if n = 0 then some false else if n = 1 then some true else none

/-- The states of a set of line states, or none when a bit above 10 is set (R193). -/
def stateSet (w : Word16) : Option (List LineSt) :=
  if w.toNat < 2048 then some (LineSt.all.filter fun st => w.toNat.testBit st.code) else none

/-- The set of line states as a number of two bytes. -/
def stateSetCode (l : List LineSt) : Nat :=
  (LineSt.all.filter fun st => decide (st ∈ l)).foldl (fun n st => n + 2 ^ st.code) 0

/-- The modes of a mode set: bit m for mode m (10.5). -/
def modeSet (b : Byte) : List Mode := Mode.all.filter fun m => b.toNat.testBit m.code

/-- A mode set as a byte. -/
def modeSetByte (l : List Mode) : Byte :=
  BitVec.ofNat 8 ((Mode.all.filter fun m => decide (m ∈ l)).foldl (fun n m => n + 2 ^ m.code) 0)

/-! ### Bytes of numbers -/

/-- A number in so many bytes, high byte first; a number beyond the width has an unstated coding (Config.fieldOverflow). -/
def numBytes (width n : Nat) : List Byte :=
  let m := if n < 2 ^ (8 * width) then n else Config.fieldOverflow width n
  (List.range width).reverse.map fun i => BitVec.ofNat 8 (m / 2 ^ (8 * i))

/-- A signed number in so many bytes, two's complement, high byte first. -/
def intBytes (width : Nat) (n : Int) : List Byte :=
  (List.range width).reverse.map fun i => BitVec.ofNat 8 ((BitVec.ofInt (8 * width) n).toNat / 2 ^ (8 * i))

/-- One byte. -/
def oneByte (n : Nat) : List Byte := numBytes 1 n

/-- A flag as a byte. -/
def boolByte (b : Bool) : Byte := if b then 1#8 else 0#8

/-- A number made of bytes, high byte first. -/
def bytesNat (l : List Byte) : Nat := l.foldl (fun n b => n * 256 + b.toNat) 0

/-- The word of two bytes, high byte first. -/
def word16 (h l : Byte) : Word16 := BitVec.ofNat 16 (h.toNat * 256 + l.toNat)

/-- The word of four bytes, high byte first. -/
def word32 (a b c d : Byte) : Word32 := BitVec.ofNat 32 (((a.toNat * 256 + b.toNat) * 256 + c.toNat) * 256 + d.toNat)

/-- The two bytes of a word, high byte first. -/
def wordBytes (w : Word16) : List Byte := [BitVec.ofNat 8 (w.toNat / 256), BitVec.ofNat 8 w.toNat]

/-- The four bytes of a word, high byte first. -/
def dwordBytes (w : Word32) : List Byte :=
  [BitVec.ofNat 8 (w.toNat / 16777216), BitVec.ofNat 8 (w.toNat / 65536), BitVec.ofNat 8 (w.toNat / 256), BitVec.ofNat 8 w.toNat]

/-- A value clamped to a range (Conventions: Arithmetic). -/
def clamp (lo hi n : Nat) : Nat := max lo (min hi n)

/-- A signed value clamped to a range. -/
def clampInt (lo hi n : Int) : Int := max lo (min hi n)

/-! ### Characters -/

/-- A decimal digit character. -/
def isDigitChar (b : Byte) : Bool := decide (0x30 ≤ b.toNat ∧ b.toNat ≤ 0x39)

/-- A DTMF symbol: 0-9, *, #, A-D (R74, R179). -/
def isDtmfChar (b : Byte) : Bool :=
  isDigitChar b || decide (b.toNat = 0x2A) || decide (b.toNat = 0x23) || decide (0x41 ≤ b.toNat ∧ b.toNat ≤ 0x44)

/-- A symbol of a dial string (R74): a DTMF symbol, ',', 'W' or '!'. -/
def isDialChar (b : Byte) : Bool :=
  isDtmfChar b || decide (b.toNat = 0x2C) || decide (b.toNat = 0x57) || decide (b.toNat = 0x21)

/-- The number of a dial string: its symbols 0 to 9 in order (R74). -/
def dialNumber (l : List Byte) : List Byte := l.filter isDigitChar

end Sys2Proof.Machine
end

