-- ==== Sys2Proof/WellFormed.lean ====
section
/-! DEFINITION. Which commands are well formed: for a directive, that its variable part has a length its layout allows
(10.2, R193); for an event, that what it brings has the size the spec gives it. Nothing is asked of the values of fields:
those are judged by the owner's checks. -/

namespace Sys2Proof

/-- QUERY subjects that carry an index (R193): TONE, CADENCE, SCREEN, ATTEMPT, LADDER, MAILBOX and DIRECTORY. -/
def querySubjectIndexed (subject : Byte) : Bool := decide (5 ≤ subject.toNat ∧ subject.toNat ≤ 11)

/-- A pattern length byte and the pattern bytes agree (10.2, R193). -/
def screenPatternAgrees (fields : ScreenParams) : Bool :=
  let n := fields.patternLength.toNat
  if n = 0xFE ∨ n = 0xFF then decide (fields.pattern.length = 1)
  else decide (1 ≤ n ∧ n ≤ 20 ∧ fields.pattern.length = n)

/-- Well-formedness of a command. -/
def Instr.wellFormed : Instr → Bool
  | .powerOn _ => true
  | .downstreamByte _ => true
  | .stallTimerExpiry => true
  | .target _ => true
  | .linkrate _ => true
  | .query subject index => querySubjectIndexed subject || decide (index = 0#16)
  | .resetLine _ => true
  | .resetTables => true
  | .resetPart => true
  | .clock _ _ _ _ _ => true
  | .minuteTick => true
  | .secondsTick => true
  | .reportSent => true
  | .payloadByteSent => true
  | .hholdChange _ => true
  | .blockEnd _ samples => decide (samples.length = 80)
  | .ringPulse _ => true
  | .ringOn _ => true
  | .ringEndTimerExpiry _ => true
  | .ringTimerExpiry _ => true
  | .callerMessage _ rest => decide (rest.length ≤ 258)
  | .callerAbandon _ => true
  | .loopInputChange _ _ => true
  | .loopEstablished _ => true
  | .noLoop _ => true
  | .loopLost _ => true
  | .extInputChange _ _ => true
  | .extensionPickup _ => true
  | .extensionHangup _ => true
  | .toneGeneratorCompletion _ => true
  | .callingToneToggle _ => true
  | .pins assignment => decide (assignment.length = 12)
  | .profile _ pairs => decide (1 ≤ pairs.length ∧ pairs.length ≤ 66)
  | .monclear _ _ => true
  | .toneWrite _ _ => true
  | .toneDelete _ => true
  | .cadenceWrite _ fields => decide (1 ≤ fields.pairs.length ∧ fields.pairs.length ≤ 4)
  | .cadenceDelete _ => true
  | .markread _ => true
  | .screenWrite _ fields => screenPatternAgrees fields
  | .screenDelete _ => true
  | .dial _ _ _ symbols => decide (symbols.length ≤ 40)
  | .answer _ _ _ => true
  | .release _ _ => true
  | .cleardownTimerExpiry _ => true
  | .classifyWindowExpiry _ => true
  | .digitTimerExpiry _ => true
  | .dialToneWaitExpiry _ => true
  | .blindDialDelay _ => true
  | .pulseBreakEnd _ => true
  | .pulseMakeEnd _ => true
  | .interdigitTimeEnd _ => true
  | .commaPauseEnd _ => true
  | .flashTimeEnd _ => true
  | .progressTimerExpiry _ => true
  | .answerWatchArm _ => true
  | .jobadd _ _ _ _ _ symbols => decide (symbols.length ≤ 40)
  | .jobclear _ => true
  | .attemptclear => true
  | .ladder rungs => decide (1 ≤ rungs.length ∧ rungs.length ≤ 8)
  | .windowEnd _ symbols _ => decide (symbols.length ∈ [30, 60, 240, 320, 300])
  | .probeSent _ => true
  | .propose _ _ _ => true
  | .confirm _ _ _ _ => true
  | .trainingMessageRepeat _ => true
  | .trainingTimerExpiry _ => true
  | .farProbeStart _ => true
  | .rateRequest _ _ => true
  | .rateRefused _ _ => true
  | .rateOk _ _ => true
  | .rateAnswerTimerExpiry _ => true
  | .frameSent _ => true
  | .formingDelayEnd _ => true
  | .info _ _ _ payload => decide (1 ≤ payload.length ∧ payload.length ≤ 256)
  | .rr _ _ _ => true
  | .rnr _ _ _ => true
  | .rej _ _ => true
  | .clearFrame _ => true
  | .badFrame _ _ => true
  | .retransmitTimerExpiry _ => true
  | .clearTimerExpiry _ => true
  | .caps _ _ _ _ => true
  | .setMessage _ _ _ _ => true
  | .checkPatternEnd _ => true
  | .checkOk _ => true
  | .checkFail _ => true
  | .lineRecord _ _ => true
  | .lineRecordSent _ => true
  | .pageEnd _ _ _ => true
  | .verdict _ _ _ _ => true
  | .bye _ _ => true
  | .controlMessageSent _ => true
  | .answerTimerExpiry _ => true
  | .capsWaitExpiry _ => true
  | .format regions => decide (regions.length = 4)
  | .storeset _ _ _ _ => true
  | .openMessage _ _ => true
  | .closeMessage => true
  | .readMessage _ _ => true
  | .newsack _ => true
  | .erase _ => true
  | .segmentWriteComplete => true
  | .segmentReadComplete => true
  | .freeHeaderWriteComplete => true
  | .cutComplete => true
  | .copyRewriteComplete => true
  | .headerRewriteComplete => true
  | .scanReadComplete => true
  | .labelWriteComplete => true
  | .mailbox _ _ _ _ _ digits => decide (1 ≤ digits.length ∧ digits.length ≤ 4)
  | .mailclear _ => true
  | .play _ _ _ => true
  | .record _ _ _ _ _ => true
  | .stop _ => true
  | .greetingEnd _ => true
  | .playbackComplete _ => true
  | .dtmfOnTimeEnd _ => true
  | .callerBurstByte _ _ => true

end Sys2Proof
end

