-- ==== Sys2Proof/Decode.lean ====
section
/-! DEFINITION. The reading of a directive: a code and its parameter bytes to a command, by 10.2 and R193, total on any
bytes; after it the writing of a directive's parameter bytes from the same layouts. The opcode table gives no bits, so
`decodeTableWord` spells no command. -/

namespace Sys2Proof

open Machine (word16 word32 wordBytes dwordBytes)

/-- The command that a word spells by the bits of spec/opcode_table.json: the table gives no row any bits. -/
def decodeTableWord (_nbits _w : Nat) : Option Instr := none

/-- What the terminal link makes of a complete directive (R5, R193). -/
inductive Taken where
  /-- The code names no directive of the part. -/
  | unknown
  /-- The count does not agree with the layout. -/
  | badParam
  /-- The directive is passed to its owner. -/
  | directive (i : Instr)
deriving DecidableEq, Repr

/-- Groups of two bytes. -/
def pairsOf : List Byte → Option (List (Byte × Byte))
  | [] => some []
  | [_] => none
  | a :: b :: rest => (pairsOf rest).map ((a, b) :: ·)

/-- PROFILE pairs: field, value:2. -/
def profilePairs : List Byte → Option (List (Byte × Word16))
  | [] => some []
  | f :: h :: l :: rest => (profilePairs rest).map ((f, word16 h l) :: ·)
  | _ => none

/-- CADENCE pairs: on:2, off:2. -/
def cadencePairs : List Byte → Option (List (Word16 × Word16))
  | [] => some []
  | a :: b :: c :: d :: rest => (cadencePairs rest).map ((word16 a b, word16 c d) :: ·)
  | _ => none

/-- LADDER rungs: mode, U:2, D:2, X:2. -/
def ladderRungs : List Byte → Option (List RungParams)
  | [] => some []
  | m :: a :: b :: c :: d :: e :: f :: rest =>
    (ladderRungs rest).map (⟨m, word16 a b, word16 c d, word16 e f⟩ :: ·)
  | _ => none

/-- FORMAT regions: present, size code, width, wait states. -/
def formatRegions : List Byte → Option (List RegionParams)
  | [] => some []
  | p :: s :: w :: t :: rest => (formatRegions rest).map (⟨p, s, w, t⟩ :: ·)
  | _ => none

/-- A directive where the guard holds, otherwise BAD_PARAM. -/
def takenIf (ok : Bool) (i : Instr) : Taken := if ok then .directive i else .badParam

/-- QUERY (R193): N = 3 for the subjects with an index, N = 1 for the others, whose index is 0 (DESIGN CHOICE, log entry 60). -/
def decodeQuery : List Byte → Taken
  | [s] => takenIf (!querySubjectIndexed s) (.query s 0#16)
  | [s, h, l] => takenIf (querySubjectIndexed s) (.query s (word16 h l))
  | _ => .badParam

/-- RESET: the scope names the command; any other value is BAD_PARAM (R19). -/
def decodeReset : List Byte → Taken
  | [s] =>
    match s.toNat with
    | 1 => .directive (.resetLine .A)
    | 2 => .directive (.resetLine .B)
    | 3 => .directive .resetTables
    | 4 => .directive .resetPart
    | _ => .badParam
  | _ => .badParam

/-- TONE: operation 1 WRITE with 19 bytes, 2 DELETE with 2. -/
def decodeTone : List Byte → Taken
  | [op, i] => takenIf (decide (op = 2#8)) (.toneDelete i)
  | [op, i, kind, a, b, c, d, lvl, tw, e, f, g, h, act, cop, mark, mean, j, k] =>
    takenIf (decide (op = 1#8))
      (.toneWrite i ⟨kind, word16 a b, word16 c d, lvl, tw, word16 e f, word16 g h, act, cop, mark, mean, word16 j k⟩)
  | _ => .badParam

/-- CADENCE: operation 1 WRITE with 8 + 4p bytes for p of 1 to 4, 2 DELETE with 2. -/
def decodeCadence : List Byte → Taken
  | [op, i] => takenIf (decide (op = 2#8)) (.cadenceDelete i)
  | op :: i :: src :: p :: tol :: rep :: mean :: flag :: rest =>
    match cadencePairs rest with
    | some pairs =>
      takenIf (decide (op = 1#8 ∧ pairs.length = p.toNat ∧ 1 ≤ pairs.length ∧ pairs.length ≤ 4))
        (.cadenceWrite i ⟨src, tol, rep, mean, flag, pairs⟩)
    | none => .badParam
  | _ => .badParam

/-- SCREEN: operation 1 WRITE with 6 bytes and the pattern, 2 DELETE with 2. -/
def decodeScreen : List Byte → Taken
  | [op, i] => takenIf (decide (op = 2#8)) (.screenDelete i)
  | op :: i :: dir :: act :: arg :: n :: pat =>
    takenIf (decide (op = 1#8) && screenPatternAgrees ⟨dir, act, arg, n, pat⟩) (.screenWrite i ⟨dir, act, arg, n, pat⟩)
  | _ => .badParam

/-- LADDER: a rung count c of 1 to 8 and N = 1 + 7c. -/
def decodeLadder : List Byte → Taken
  | c :: rest =>
    match ladderRungs rest with
    | some rungs => takenIf (decide (rungs.length = c.toNat ∧ 1 ≤ rungs.length ∧ rungs.length ≤ 8)) (.ladder rungs)
    | none => .badParam
  | [] => .badParam

/-- PROFILE: N = 1 + 3k for k of 1 to 66 pairs. -/
def decodeProfile : List Byte → Taken
  | line :: rest =>
    match profilePairs rest with
    | some pairs => takenIf (decide (1 ≤ pairs.length ∧ pairs.length ≤ 66)) (.profile line pairs)
    | none => .badParam
  | [] => .badParam

/-- DIAL: line, mode, message id:2 and a string of at most 40 symbols. -/
def decodeDial : List Byte → Taken
  | line :: mode :: h :: l :: str => takenIf (decide (str.length ≤ 40)) (.dial line mode (word16 h l) str)
  | _ => .badParam

/-- JOBADD: kind, message id:2, priority, preference, tries and a string of at most 40 symbols. -/
def decodeJobadd : List Byte → Taken
  | kind :: h :: l :: prio :: pref :: tries :: str =>
    takenIf (decide (str.length ≤ 40)) (.jobadd kind (word16 h l) prio pref tries str)
  | _ => .badParam

/-- MAILBOX: N = 8 plus the digit count, of 1 to 4. -/
def decodeMailbox : List Byte → Taken
  | i :: en :: a :: b :: c :: d :: cod :: n :: digits =>
    takenIf (decide (digits.length = n.toNat ∧ 1 ≤ digits.length ∧ digits.length ≤ 4))
      (.mailbox i en (word16 a b) (word16 c d) cod digits)
  | _ => .badParam

/-- PINS: twelve pairs of function and level. -/
def decodePins (ps : List Byte) : Taken :=
  match pairsOf ps with
  | some l => takenIf (decide (l.length = 12)) (.pins l)
  | none => .badParam

/-- FORMAT: four regions. -/
def decodeFormat (ps : List Byte) : Taken :=
  match formatRegions ps with
  | some l => takenIf (decide (l.length = 4)) (.format l)
  | none => .badParam

/-- The directives with a fixed layout of a few bytes. -/
def decodeFixed (code : Nat) (ps : List Byte) : Taken :=
  match code, ps with
  | 0x54, [t] => .directive (.target t)
  | 0x4B, [r] => .directive (.linkrate r)
  | 0x43, [y, m, d, h, mi] => .directive (.clock y m d h mi)
  | 0x77, [l, s] => .directive (.monclear l s)
  | 0x6D, [l] => .directive (.markread l)
  | 0x41, [l, m, b] => .directive (.answer l m b)
  | 0x48, [l, k] => .directive (.release l k)
  | 0x58, [i] => .directive (.jobclear i)
  | 0x61, [] => .directive .attemptclear
  | 0x73, [r, p, w, o] => .directive (.storeset r p w o)
  | 0x4F, [k, c] => .directive (.openMessage k c)
  | 0x57, [] => .directive .closeMessage
  | 0x52, [h, l, a, b, c, d] => .directive (.readMessage (word16 h l) (word32 a b c d))
  | 0x4E, [h, l] => .directive (.newsack (word16 h l))
  | 0x55, [h, l] => .directive (.erase (word16 h l))
  | 0x63, [s] => .directive (.mailclear s)
  | 0x56, [l, h, i, a, b, c, d] => .directive (.play l (word16 h i) (word32 a b c d))
  | 0x42, [l, m, c, h, i, bp] => .directive (.record l m c (word16 h i) bp)
  | 0x49, [l] => .directive (.stop l)
  | _, _ => .badParam

/-- The directive codes of 10.2. -/
def directiveCodes : List Nat :=
  [0x54, 0x4B, 0x51, 0x5A, 0x43, 0x50, 0x47, 0x77, 0x45, 0x59, 0x6D, 0x53, 0x44, 0x41, 0x48, 0x4A, 0x58, 0x61, 0x4C, 0x67,
   0x73, 0x4F, 0x57, 0x52, 0x4E, 0x55, 0x4D, 0x63, 0x56, 0x42, 0x49]

/-- Steps 1 and 2 of R5 with R193: the code and the parameter bytes of a complete directive. -/
def decodeDirective (code : Byte) (ps : List Byte) : Taken :=
  if code.toNat ∈ directiveCodes then
    match code.toNat with
    | 0x51 => decodeQuery ps
    | 0x5A => decodeReset ps
    | 0x50 => decodePins ps
    | 0x47 => decodeProfile ps
    | 0x45 => decodeTone ps
    | 0x59 => decodeCadence ps
    | 0x53 => decodeScreen ps
    | 0x44 => decodeDial ps
    | 0x4A => decodeJobadd ps
    | 0x4C => decodeLadder ps
    | 0x67 => decodeFormat ps
    | 0x4D => decodeMailbox ps
    | c => decodeFixed c ps
  else .unknown

/-! ### Writing a directive -/

/-- The code of a directive command, none for an event. -/
def directiveCode : Instr → Option Byte
  | .target _ => some 0x54#8
  | .linkrate _ => some 0x4B#8
  | .query _ _ => some 0x51#8
  | .resetLine _ => some 0x5A#8
  | .resetTables => some 0x5A#8
  | .resetPart => some 0x5A#8
  | .clock _ _ _ _ _ => some 0x43#8
  | .pins _ => some 0x50#8
  | .profile _ _ => some 0x47#8
  | .monclear _ _ => some 0x77#8
  | .toneWrite _ _ => some 0x45#8
  | .toneDelete _ => some 0x45#8
  | .cadenceWrite _ _ => some 0x59#8
  | .cadenceDelete _ => some 0x59#8
  | .markread _ => some 0x6D#8
  | .screenWrite _ _ => some 0x53#8
  | .screenDelete _ => some 0x53#8
  | .dial _ _ _ _ => some 0x44#8
  | .answer _ _ _ => some 0x41#8
  | .release _ _ => some 0x48#8
  | .jobadd _ _ _ _ _ _ => some 0x4A#8
  | .jobclear _ => some 0x58#8
  | .attemptclear => some 0x61#8
  | .ladder _ => some 0x4C#8
  | .format _ => some 0x67#8
  | .storeset _ _ _ _ => some 0x73#8
  | .openMessage _ _ => some 0x4F#8
  | .closeMessage => some 0x57#8
  | .readMessage _ _ => some 0x52#8
  | .newsack _ => some 0x4E#8
  | .erase _ => some 0x55#8
  | .mailbox _ _ _ _ _ _ => some 0x4D#8
  | .mailclear _ => some 0x63#8
  | .play _ _ _ => some 0x56#8
  | .record _ _ _ _ _ => some 0x42#8
  | .stop _ => some 0x49#8
  | _ => none

/-- The parameter bytes of a directive command (10.2), none bytes for an event. -/
def directiveParams : Instr → List Byte
  | .target t => [t]
  | .linkrate r => [r]
  | .query s i => if querySubjectIndexed s then s :: wordBytes i else [s]
  | .resetLine .A => [1#8]
  | .resetLine .B => [2#8]
  | .resetTables => [3#8]
  | .resetPart => [4#8]
  | .clock y m d h mi => [y, m, d, h, mi]
  | .pins l => l.flatMap fun p => [p.1, p.2]
  | .profile line pairs => line :: pairs.flatMap fun p => p.1 :: wordBytes p.2
  | .monclear l s => [l, s]
  | .toneWrite i f =>
    [1#8, i, f.kind] ++ wordBytes f.f1 ++ wordBytes f.f2 ++ [f.minLevel, f.twist] ++ wordBytes f.onTime ++
      wordBytes f.offTime ++ [f.action, f.controlOp, f.priorityMark, f.meaning] ++ wordBytes f.liveStates
  | .toneDelete i => [2#8, i]
  | .cadenceWrite i f =>
    [1#8, i, f.source, BitVec.ofNat 8 f.pairs.length, f.tolerance, f.repeats, f.meaning, f.reportFlag] ++
      f.pairs.flatMap fun p => wordBytes p.1 ++ wordBytes p.2
  | .cadenceDelete i => [2#8, i]
  | .markread l => [l]
  | .screenWrite i f => [1#8, i, f.direction, f.action, f.argument, f.patternLength] ++ f.pattern
  | .screenDelete i => [2#8, i]
  | .dial l m msg str => [l, m] ++ wordBytes msg ++ str
  | .answer l m b => [l, m, b]
  | .release l k => [l, k]
  | .jobadd k msg p pref t str => k :: wordBytes msg ++ [p, pref, t] ++ str
  | .jobclear i => [i]
  | .attemptclear => []
  | .ladder rungs =>
    BitVec.ofNat 8 rungs.length :: rungs.flatMap fun r => r.mode :: (wordBytes r.u ++ wordBytes r.d ++ wordBytes r.x)
  | .format regions => regions.flatMap fun r => [r.present, r.sizeCode, r.width, r.waitStates]
  | .storeset r p w o => [r, p, w, o]
  | .openMessage k c => [k, c]
  | .closeMessage => []
  | .readMessage m o => wordBytes m ++ dwordBytes o
  | .newsack m => wordBytes m
  | .erase m => wordBytes m
  | .mailbox i en g ml c digits => [i, en] ++ wordBytes g ++ wordBytes ml ++ [c, BitVec.ofNat 8 digits.length] ++ digits
  | .mailclear s => [s]
  | .play l m o => l :: (wordBytes m ++ dwordBytes o)
  | .record l m c lim bp => [l, m, c] ++ wordBytes lim ++ [bp]
  | .stop l => [l]
  | _ => []

/-- The downstream sequence of a directive: SHF, code, count, parameters (1.1). -/
def directiveBytes (i : Instr) : List Byte :=
  match directiveCode i with
  | some code => [0xC5#8, code, BitVec.ofNat 8 (directiveParams i).length] ++ directiveParams i
  | none => []

end Sys2Proof
end

