-- ==== Sys2Proof/Machine/Formats.lean ====
section
/-! DEFINITION. The byte layouts of Chapter 10: the cyclic check (R196), reports (10.4), line formats (10.5), the caller
burst, and the store's label, segment header, directory copy and page header (10.6). -/

namespace Sys2Proof.Machine

/-! ### The cyclic check (R196) -/

/-- One bit into the check register of generator 1021H. -/
def crcBit (c : BitVec 16) (bit : Bool) : BitVec 16 :=
  if c.msb ^^ bit then (c <<< 1) ^^^ 0x1021#16 else c <<< 1

/-- One byte, most significant bit first. -/
def crcByte (c : BitVec 16) (b : Byte) : BitVec 16 :=
  [7, 6, 5, 4, 3, 2, 1, 0].foldl (fun c i => crcBit c (b.getLsbD i)) c

/-- The 16-bit cyclic check of bytes, started at FFFFH, no reflection, no final inversion. -/
def crc16 (bytes : List Byte) : Word16 := bytes.foldl crcByte 0xFFFF#16

/-- Bytes followed by their check, high byte first. -/
def withCheck (bytes : List Byte) : List Byte := bytes ++ wordBytes (crc16 bytes)

/-- The bytes before the check, when the last two bytes equal the check computed over them. -/
def checkedBody (bytes : List Byte) : Option (List Byte) :=
  let body := bytes.take (bytes.length - 2)
  if 2 ≤ bytes.length ∧ bytes.drop (bytes.length - 2) = wordBytes (crc16 body) then some body else none

/-! ### Reports (10.4) -/

/-- The five bytes of a day-clock time, year FFH when unset. The four bytes after that year are FFH too: DESIGN CHOICE, log
entry 51, 10.4 gives the year alone. -/
def timeBytes : Option DayClock → List Byte
  | some t => oneByte t.year ++ oneByte t.month ++ oneByte t.day ++ oneByte t.hour ++ oneByte t.minute
  | none => [0xFF#8, 0xFF#8, 0xFF#8, 0xFF#8, 0xFF#8]

/-- The flags byte of a caller record. -/
def callerFlags (r : CallerRecord) : Byte :=
  BitVec.ofNat 8 ((if r.valid then 1 else 0) + (if r.number.isSome then 2 else 0) + (if r.name.isSome then 4 else 0) +
    (if r.dateTime.isSome then 8 else 0) + (if r.withheld = some .priv then 16 else 0) +
    (if r.withheld = some .unavailable then 32 else 0))

/-- A string as a length byte followed by its characters. -/
def countedBytes (l : List Byte) : List Byte := oneByte l.length ++ l

/-- A caller record as reports carry it (10.4). -/
def callerBytes (r : CallerRecord) : List Byte :=
  callerFlags r :: ((r.number.map countedBytes).getD [] ++ (r.name.map countedBytes).getD [] ++ r.dateTime.getD [])

/-- A caller record, or a single byte 0 for none. -/
def callerOrZero : Option CallerRecord → List Byte
  | some r => callerBytes r
  | none => [0#8]

/-- A one-byte field that may hold none, FFH for none (Chapter 10). -/
def optByte : Option Nat → List Byte
  | some n => oneByte n
  | none => [0xFF#8]

/-- The report code (10.4). -/
def Report.code : Report → Byte
  | .begin _ _ => 0x62#8
  | .done _ _ _ => 0x64#8
  | .line _ _ _ _ => 0x6C#8
  | .tone _ _ _ _ _ _ => 0x74#8
  | .cadence _ _ _ => 0x79#8
  | .caller _ _ => 0x69#8
  | .monitor _ _ _ _ => 0x6E#8
  | .rate _ _ _ _ => 0x72#8
  | .page _ _ _ _ _ _ => 0x70#8
  | .message _ _ _ _ _ => 0x65#8
  | .job _ _ _ _ => 0x6A#8
  | .mark _ _ _ _ _ _ _ => 0x6B#8
  | .store _ _ => 0x78#8
  | .voice _ _ _ _ => 0x76#8
  | .fault _ _ => 0x66#8
  | .discard _ => 0x7A#8
  | .snapshot _ _ _ _ _ => 0x71#8
  | .loss => 0x68#8

/-- The parameter bytes of a report in order (10.4). MARK's digit of none is FFH; a position of none is message id 0, and its offset
bytes are 0: DESIGN CHOICE, log entry 51, the spec gives no offset for none. -/
def Report.params : Report → List Byte
  | .begin byDirective st => [if byDirective then 2#8 else 1#8, Config.revision] ++ oneByte st.code
  | .done code result values => code :: (oneByte result.code ++ values)
  | .line l st reason missed =>
    [lineByte l] ++ oneByte st.code ++ oneByte reason.code ++
      (match missed with | some (rings, rec) => oneByte rings ++ callerOrZero rec | none => [])
  | .tone l entry meaning digit on duration =>
    [lineByte l] ++ oneByte entry ++ oneByte meaning.toneCode ++ [digit.getD 0#8, boolByte on] ++ numBytes 2 duration
  | .cadence l entry meaning => [lineByte l] ++ oneByte entry ++ oneByte meaning.cadenceCode
  | .caller l rec => lineByte l :: callerBytes rec
  | .monitor l source cls set => [lineByte l] ++ oneByte source.code ++ oneByte cls.code ++ [boolByte set]
  | .rate l rung mode cause => [lineByte l] ++ oneByte rung ++ oneByte mode.code ++ oneByte cause.code
  | .page l number verdict total bad rung =>
    [lineByte l] ++ numBytes 2 number ++ oneByte verdict.code ++ numBytes 2 total ++ numBytes 2 bad ++ oneByte rung
  | .message id kind mailbox length reason =>
    numBytes 2 id ++ oneByte kind.code ++ optByte mailbox ++ numBytes 4 length ++ oneByte reason.code
  | .job id state tries outcome =>
    oneByte id ++ oneByte state.code ++ oneByte tries ++
      (match outcome with
       | some o => oneByte o.result.code ++ numBytes 2 o.pages ++ optByte o.rung ++ timeBytes o.time
       | none => [])
  | .mark l live overflow entry digit position lineTime =>
    [lineByte l, BitVec.ofNat 8 ((if live then 1 else 0) + (if overflow then 2 else 0))] ++ optByte entry ++
      [digit.getD 0xFF#8] ++ numBytes 2 ((position.map (·.1)).getD 0) ++ numBytes 4 ((position.map (·.2)).getD 0) ++
      numBytes 4 lineTime
  | .store event value => oneByte event.code ++ numBytes 2 value
  | .voice l event reason position => [lineByte l] ++ oneByte event.code ++ oneByte reason.code ++ numBytes 4 position
  | .fault kind detail => oneByte kind.code ++ [detail]
  | .discard target => oneByte target.code
  | .snapshot subject index part parts contents =>
    subject :: (wordBytes index ++ oneByte part ++ oneByte parts ++ contents)
  | .loss => []

/-- A report as sent: SHF, code, count, parameters (R12). -/
def Report.bytes (r : Report) : List Byte := [0xC5#8, r.code] ++ oneByte r.params.length ++ r.params

/-- A SOURCE report as sent (R12, 10.4). -/
def sourceBytes (src : Source) : List Byte := [0xC5#8, 0x6F#8, 1#8] ++ oneByte src.code

/-- A payload byte as sent upstream: C5H is doubled (R12). -/
def payloadBytes (b : Byte) : List Byte := if b = 0xC5#8 then [b, b] else [b]

/-! ### Line formats (10.5) -/

/-- The kind byte and the fields of a link frame, without its check. -/
def Frame.body : Frame → List Byte
  | .info s a p => 0x01#8 :: (oneByte s ++ oneByte a ++ p)
  | .rr a p => 0x02#8 :: (oneByte a ++ [boolByte p])
  | .rnr a p => 0x03#8 :: (oneByte a ++ [boolByte p])
  | .rej e => 0x04#8 :: oneByte e
  | .rate refused m => 0x05#8 :: boolByte refused :: oneByte m.code
  | .rateOk m => 0x06#8 :: oneByte m.code
  | .clear => [0x07#8]

/-- A link frame as sent, check included. -/
def Frame.bytes (f : Frame) : List Byte := withCheck f.body

/-- A training message as sent (10.5). -/
def TrainMsg.bytes : TrainMsg → List Byte
  | .propose m modes => withCheck (0x20#8 :: (optByte (m.map Mode.code) ++ [modeSetByte modes]))
  | .confirm m w p => withCheck (0x21#8 :: (oneByte m.code ++ oneByte w ++ numBytes 2 p))

/-- A fax control message as sent (10.5). -/
def FaxMsg.bytes : FaxMsg → List Byte
  | .caps modes fine t => withCheck [0x10#8, modeSetByte modes, if fine then 3#8 else 1#8, BitVec.ofNat 8 t]
  | .set m fine t => withCheck ([0x11#8] ++ oneByte m.code ++ [boolByte fine, BitVec.ofNat 8 t])
  | .checkOk => withCheck [0x12#8]
  | .checkFail => withCheck [0x13#8]
  | .pageEnd last n => withCheck ([0x14#8, boolByte last] ++ numBytes 2 n)
  | .verdict v n b => withCheck ([0x15#8] ++ oneByte v.code ++ numBytes 2 n ++ numBytes 2 b)
  | .bye r => withCheck ([0x16#8] ++ oneByte r.code)

/-- The length of a frame body agrees with its kind (R118, R196): the fixed length for every kind but INFO, and 1 to 256
payload bytes for INFO; no other kind byte is listed for link frames. -/
def bodyAgrees : List Byte → Bool
  | [0x02#8, _, _] => true
  | [0x03#8, _, _] => true
  | [0x04#8, _] => true
  | [0x05#8, _, _] => true
  | [0x06#8, _] => true
  | [0x07#8] => true
  | 0x01#8 :: _ :: _ :: _ :: rest => decide (rest.length < 256)
  | _ => false

/-- A received link frame is good (R118, R196): its check is good and its body agrees with its kind. -/
def frameGood (bytes : List Byte) : Bool :=
  match checkedBody bytes with
  | some body => bodyAgrees body
  | none => false

/-- What a frame body spells: a poll flag is set by 1 (10.5), a RATE refuses by 1, and a mode byte must name a mode. -/
def frameOfBody : List Byte → Option Frame
  | [0x02#8, a, p] => some (.rr a.toNat (decide (p = 1#8)))
  | [0x03#8, a, p] => some (.rnr a.toNat (decide (p = 1#8)))
  | [0x04#8, e] => some (.rej e.toNat)
  | [0x05#8, r, m] => (Mode.ofCode m.toNat).map (.rate (decide (r = 1#8)) ·)
  | [0x06#8, m] => (Mode.ofCode m.toNat).map .rateOk
  | [0x07#8] => some .clear
  | 0x01#8 :: s :: a :: p :: rest =>
    if rest.length < 256 then some (.info s.toNat a.toNat (p :: rest)) else none
  | _ => none

/-- The contents of a received link frame whose check is good. -/
def receiveFrame (bytes : List Byte) : Option Frame := (checkedBody bytes).bind frameOfBody

/-- A line record's bytes before its check: number, length, data (10.5). -/
def recordBody (number length : Word16) (data : List Byte) : List Byte := wordBytes number ++ wordBytes length ++ data

/-- A received line record is good when its check agrees (R196). -/
def RecordInput.good (r : RecordInput) : Bool := decide (r.check = crc16 (recordBody r.number r.length r.data))

/-! ### The caller burst (10.5, R28) -/

/-- The length of a caller message once its length byte has arrived: L + 3. -/
def burstLength : List Byte → Option Nat
  | _ :: l :: _ => some (l.toNat + 3)
  | _ => none

/-- The fields of a multiple-field message, given the bytes that arrived and the field bytes still within L: a list of
code and content, up to the first field that runs past the end of L or has not wholly arrived (R28). -/
def burstFields : Nat → List Byte → Nat → List (Byte × List Byte)
  | 0, _, _ => []
  | fuel + 1, code :: len :: rest, room =>
    if len.toNat + 2 ≤ room ∧ len.toNat ≤ rest.length then
      (code, rest.take len.toNat) :: burstFields fuel (rest.drop len.toNat) (room - (len.toNat + 2))
    else []
  | _, _, _ => []

/-- The number field: 1 to 20 decimal digits, otherwise absent (R28). -/
def callerNumber (content : List Byte) : Option (List Byte) :=
  if 1 ≤ content.length ∧ content.length ≤ 20 ∧ content.all isDigitChar then some content else none

/-- The name field: characters 20H to 7EH, the first 15 kept, otherwise absent (R28). -/
def callerName (content : List Byte) : Option (List Byte) :=
  if content.all fun b => decide (0x20 ≤ b.toNat ∧ b.toNat ≤ 0x7E) then some (content.take 15) else none

/-- The date-time field: exactly eight digits, otherwise absent (R28). -/
def callerDateTime (content : List Byte) : Option (List Byte) :=
  if content.length = 8 ∧ content.all isDigitChar then some content else none

/-- The withheld code: 'P' or 'U', otherwise absent (R28, 10.5). -/
def callerWithheld (content : List Byte) : Option Withheld :=
  if content = [0x50#8] then some .priv else if content = [0x55#8] then some .unavailable else none

/-- One field into the record; a field that appears twice takes the later content, an unknown code is skipped (R28). -/
def callerField (r : CallerRecord) (f : Byte × List Byte) : CallerRecord :=
  if f.1 = 0x11#8 then { r with dateTime := callerDateTime f.2 }
  else if f.1 = 0x12#8 then { r with number := callerNumber f.2 }
  else if f.1 = 0x13#8 then { r with name := callerName f.2 }
  else if f.1 = 0x14#8 then { r with withheld := callerWithheld f.2 }
  else r

/-- The caller record of a message from the bytes that arrived (R28): none before its type byte. In a number-only message
the content is the number field once it has wholly arrived. A type byte that is neither 51H nor 52H leaves a record with no
fields, valid by the sum alone: DESIGN CHOICE, log entry 52, the spec is silent. -/
def formCaller (bytes : List Byte) : Option CallerRecord :=
  match bytes with
  | [] => none
  | type :: rest =>
    let want := burstLength bytes
    let complete := decide (want = some bytes.length)
    let valid := complete && decide ((bytes.map BitVec.toNat).sum % 256 = 0)
    let l := match rest with | [] => 0 | l :: _ => l.toNat
    let content := (rest.drop 1).take l
    let blank : CallerRecord := ⟨valid, none, none, none, none⟩
    if type = 0x51#8 then some ((burstFields (l + 1) content l).foldl callerField blank)
    else if type = 0x52#8 then
      some (if content.length = l ∧ rest ≠ [] then { blank with number := callerNumber content } else blank)
    else some blank

/-! ### Store formats (10.6) -/

/-- Bytes of a region entry in the label. -/
def regionBytes (r : Region) : List Byte :=
  [boolByte r.present] ++ oneByte r.sizeCode ++ [if r.wide then 16#8 else 8#8] ++ oneByte r.waitStates

/-- The label: valid mark or zeros, regions, format count, check. -/
def labelBytes (mark : Bool) (regions : List Region) (formatCount : Nat) : List Byte :=
  withCheck ((if mark then [0x41#8, 0x4C#8, 0x56#8, 0x4E#8] else [0#8, 0#8, 0#8, 0#8]) ++
    regions.flatMap regionBytes ++ numBytes 2 formatCount)

/-- A region entry read back, when each value is one of those of R136. -/
def regionOf (present size width wait : Byte) : Option Region :=
  match onOff present.toNat with
  | some p =>
    if size.toNat ≤ 4 ∧ (width.toNat = 8 ∨ width.toNat = 16) ∧ wait.toNat ≤ 7 then
      some ⟨p, size.toNat, decide (width.toNat = 16), wait.toNat⟩
    else none
  | none => none

/-- A label read back: its region table and format count when it is valid (R136). -/
def readLabel (bytes : List Byte) : Option (List Region × Nat) :=
  match checkedBody (bytes.take 24) with
  | some body =>
    if body.take 4 = [0x41#8, 0x4C#8, 0x56#8, 0x4E#8] then
      match formatRegions ((body.drop 4).take 16) with
      | some raw =>
        match raw.mapM fun r => regionOf r.present r.sizeCode r.width r.waitStates with
        | some regions =>
          if (regions.headD absentRegion).present then some (regions, bytesNat (body.drop 20)) else none
        | none => none
      | none => none
    else none
  | none => none

/-- The check byte that makes the modulo-256 sum of a header 0 (R137). -/
def sumCheck (l : List Byte) : Byte := 0#8 - l.foldl (· + ·) 0#8

/-- A USED segment header (R137). -/
def usedHeader (id seq used : Nat) : List Byte :=
  let b := [0xF0#8] ++ numBytes 2 id ++ numBytes 2 (seq + if seq = 0 then 32768 else 0) ++ numBytes 2 used
  b ++ [sumCheck b]

/-- A FREE segment header (R137). -/
def freeHeader : List Byte :=
  let b := [0x0F#8, 0#8, 0#8, 0#8, 0#8, 0#8, 0#8]
  b ++ [sumCheck b]

/-- Payload capacity of the segment of a sequence number (R137). -/
def segCapacity (seq : Nat) : Nat := if seq = 0 then 960 else 1016

/-- Where the payload of the segment of a sequence number starts within the segment (R137). -/
def segPayloadStart (seq : Nat) : Nat := if seq = 0 then 64 else 8

/-- What a segment header says, when it is good (R137): FREE, or USED with id, sequence and bytes used. -/
inductive HeaderRead where
  | bad
  | free
  | used (id seq used : Nat)
deriving DecidableEq, Repr

/-- The reading of an 8-byte segment header (R137). Bits 12 to 14 of the word are zero in a good header (10.6). -/
def readHeader (b : List Byte) : HeaderRead :=
  match b with
  | [st, i1, i0, w1, w0, u1, u0, ck] =>
    let id := bytesNat [i1, i0]
    let word := bytesNat [w1, w0]
    let used := bytesNat [u1, u0]
    let seq := word % 4096
    let first := decide (32768 ≤ word)
    if [st, i1, i0, w1, w0, u1, u0, ck].foldl (· + ·) 0#8 ≠ 0#8 then .bad
    else if st = 0x0F#8 then (if id = 0 ∧ word = 0 ∧ used = 0 then .free else .bad)
    else if st = 0xF0#8 then
      (if id ≠ 0 ∧ (first = decide (seq = 0)) ∧ word % 32768 < 4096 ∧ used ≤ segCapacity seq then .used id seq used else .bad)
    else .bad
  | _ => .bad

/-- Digits packed two to a byte, high nibble first. -/
def packDigits : List Byte → List Byte
  | a :: b :: rest => BitVec.ofNat 8 ((a.toNat % 16) * 16 + b.toNat % 16) :: packDigits rest
  | [a] => [BitVec.ofNat 8 ((a.toNat % 16) * 16)]
  | [] => []

/-- Packed digits back to characters. -/
def unpackDigits (l : List Byte) : List Byte :=
  l.flatMap fun b => [BitVec.ofNat 8 (0x30 + b.toNat / 16), BitVec.ofNat 8 (0x30 + b.toNat % 16)]

/-- A list cut or filled with zeros to a length. -/
def padTo (n : Nat) (l : List Byte) : List Byte := (l ++ List.replicate n 0#8).take n

/-- The 32 bytes of a caller record in a directory copy (10.6). A record of none is 32 zero bytes. -/
def copyCaller : Option CallerRecord → List Byte
  | none => List.replicate 32 0#8
  | some r =>
    let num := r.number.getD []
    let name := r.name.getD []
    [callerFlags r] ++ oneByte num.length ++ padTo 10 (packDigits num) ++ padTo 4 (packDigits (r.dateTime.getD [])) ++
      oneByte name.length ++ padTo 15 name

/-- A caller record read back from a copy; 32 zero bytes stand for none (DESIGN CHOICE, log entry 13). -/
def readCopyCaller (b : List Byte) : Option CallerRecord :=
  if b = List.replicate 32 0#8 then none
  else
    let flags := (b.headD 0#8).toNat
    let num := (unpackDigits ((b.drop 2).take 10)).take ((b.drop 1).headD 0#8).toNat
    let dt := unpackDigits ((b.drop 12).take 4)
    let name := ((b.drop 17).take 15).take ((b.drop 16).headD 0#8).toNat
    some
      { valid := flags.testBit 0
        number := if flags.testBit 1 then some num else none
        name := if flags.testBit 2 then some name else none
        dateTime := if flags.testBit 3 then some dt else none
        withheld := if flags.testBit 4 then some .priv else if flags.testBit 5 then some .unavailable else none }

/-- The 56-byte directory copy of an entry (R137, 10.6); length and pages are 0 while the closed mark is clear. -/
def copyBytes (e : Entry) (closedMark : Bool) : List Byte :=
  withCheck (numBytes 2 e.id ++ oneByte e.kind.code ++ optByte e.mailbox ++ oneByte e.coding.code ++ numBytes 4 e.creation ++
    timeBytes e.created ++
    [BitVec.ofNat 8 ((if e.fetched then 1 else 0) + (if e.truncated then 2 else 0) + (if e.recovered then 4 else 0) +
      (if closedMark then 128 else 0))] ++
    numBytes 4 (if closedMark then e.length else 0) ++ numBytes 2 (if closedMark then e.pages else 0) ++ [0#8] ++
    copyCaller e.caller)

/-- A day-clock time read back, unset for year FFH. -/
def readTime : List Byte → Option DayClock
  | [y, m, d, h, mi] => if y = 0xFF#8 then none else some ⟨y.toNat, m.toNat, d.toNat, h.toNat, mi.toNat⟩
  | _ => none

/-- A directory copy read back: the entry it describes (CLOSED, no chain) and its closed mark; none when the copy is not
good for this id (R137) or its kind names none (R141). A coding byte that names none and a mailbox byte of 8 to FEH are read as none:
DESIGN CHOICE, log entry 102. -/
def readCopy (id : Nat) (bytes : List Byte) : Option (Entry × Bool) :=
  match checkedBody (bytes.take 56) with
  | some b =>
    if bytesNat (b.take 2) = id then
      match MsgKind.ofCode ((b.drop 2).headD 0#8).toNat with
      | some kind =>
        let flags := ((b.drop 14).headD 0#8).toNat
        let mb := ((b.drop 3).headD 0#8).toNat
        some
          ({ id := id, kind := kind, state := .closed, writer := none
             mailbox := if mb < 8 then some mb else none
             coding := (Coding.ofCode ((b.drop 4).headD 0#8).toNat).getD .none
             length := bytesNat ((b.drop 15).take 4)
             pages := bytesNat ((b.drop 19).take 2)
             created := readTime ((b.drop 9).take 5)
             creation := bytesNat ((b.drop 5).take 4)
             caller := readCopyCaller ((b.drop 22).take 32)
             fetched := flags.testBit 0, truncated := flags.testBit 1, recovered := flags.testBit 2
             erasePending := false, inUse := 0, chain := [] },
           flags.testBit 7)
      | none => none
    else none
  | none => none

/-- A stored page header of 16 bytes (10.6). -/
def pageHeader (number : Nat) (fine : Bool) (lines bad longest : Nat) (v : Verdict) (truncated concealed recovered : Bool)
    (lineTime : Nat) : List Byte :=
  [0x50#8, 0x41#8, 0x47#8, 0x45#8] ++ numBytes 2 number ++ [boolByte fine] ++ numBytes 2 lines ++ numBytes 2 bad ++
    numBytes 2 longest ++ oneByte v.code ++
    [BitVec.ofNat 8 ((if truncated then 1 else 0) + (if concealed then 2 else 0) + (if recovered then 4 else 0))] ++
    oneByte lineTime

/-- The open value of a page header's line count (10.6). -/
def openLines : Nat := 0xFFFF

/-- The resolution and line count of a page header with the page mark and a closed line count; none otherwise (R166). -/
def readPageHeader (b : List Byte) : Option (Bool × Nat) :=
  match b with
  | [p, a, g, e, _, _, res, l1, l0, _, _, _, _, _, _, _] =>
    let lines := bytesNat [l1, l0]
    match onOff res.toNat with
    | some fine => if [p, a, g, e] = [0x50#8, 0x41#8, 0x47#8, 0x45#8] ∧ lines ≤ 4095 then some (fine, lines) else none
    | none => none
  | _ => none

end Sys2Proof.Machine
end

