-- ==== Sys2Proof/Machine/Memory.lean ====
section
/-! DEFINITION. The external memory of the message store (7.1): a list of cells in one canonical form. Segment n lies at
address n * 1024, so region r holds addresses r * 2^20 to r * 2^20 + 2^20 - 1. A byte that nothing has written reads as 0
(DESIGN CHOICE, log entry 8). -/

namespace Sys2Proof.Machine

/-- The byte at an address. -/
def Memory.read (m : List Host.Cell) (a : Nat) : Byte :=
  match m with
  | [] => 0#8
  | (k, v) :: rest => if k = a then v else Memory.read rest a

/-- The memory with one byte written; writing 0 removes the cell. -/
def Memory.write (m : List Host.Cell) (a : Nat) (b : Byte) : List Host.Cell :=
  match m with
  | [] => if b = 0#8 then [] else [(a, b)]
  | (k, v) :: rest =>
    if k < a then (k, v) :: Memory.write rest a b
    else if k = a then (if b = 0#8 then rest else (a, b) :: rest)
    else (if b = 0#8 then (k, v) :: rest else (a, b) :: (k, v) :: rest)

/-- The memory with bytes written from an address on. -/
def Memory.writeBytes (m : List Host.Cell) (a : Nat) : List Byte → List Host.Cell
  | [] => m
  | b :: rest => Memory.writeBytes (Memory.write m a b) (a + 1) rest

/-- So many bytes from an address on. -/
def Memory.readBytes (m : List Host.Cell) (a n : Nat) : List Byte :=
  (List.range n).map fun i => Memory.read m (a + i)

/-- The canonical form: addresses strictly rising, and no cell equal to what an unlisted address reads as. -/
def Memory.wf : List Host.Cell → Bool
  | [] => true
  | [(_, v)] => decide (v ≠ 0#8)
  | (k, v) :: (k', v') :: rest => decide (v ≠ 0#8) && decide (k < k') && Memory.wf ((k', v') :: rest)

/-- The address of a byte of a segment. -/
def segAddress (seg offset : Nat) : Nat := seg * 1024 + offset

end Sys2Proof.Machine
end

