-- ==== Sys2Proof/Machine/Ops.lean ====
section
/-! DEFINITION. The shared operations of Chapter 1: access to the lines, the model's clock, requests between blocks, the
report queue (R10), the upstream arbiter (R11 to R13), LHOLD (R9), DONE (R5), and the clocks (R16, R17). -/

namespace Sys2Proof.Machine

/-! ### Access to blocks -/

/-- The state of a line. -/
def State.line (s : State) : Line → LineState
  | .A => s.lineA
  | .B => s.lineB

/-- The state with a line replaced. -/
def State.setLine (s : State) (l : Line) (x : LineState) : State :=
  match l with
  | .A => { s with lineA := x }
  | .B => { s with lineB := x }

/-- A change of the terminal link. -/
def modLink (f : Link → Link) (s : State) : State := { s with link := f s.link }

/-- A change of the message store. -/
def modStore (f : Store → Store) (s : State) : State := { s with store := f s.store }

/-- A change of a line's profile. -/
def modProfile (l : Line) (f : Profile → Profile) (s : State) : State :=
  s.setLine l { s.line l with profile := f (s.line l).profile }

/-- A change of a line interface. -/
def modIface (l : Line) (f : Iface → Iface) (s : State) : State :=
  s.setLine l { s.line l with iface := f (s.line l).iface }

/-- A change of a detector. -/
def modDet (l : Line) (f : Detector → Detector) (s : State) : State :=
  s.setLine l { s.line l with det := f (s.line l).det }

/-- A change of a line's call state. -/
def modCall (l : Line) (f : Call → Call) (s : State) : State :=
  s.setLine l { s.line l with call := f (s.line l).call }

/-- A change of a call record. -/
def modRecord (l : Line) (f : CallRecord → CallRecord) (s : State) : State :=
  modCall l (fun c => { c with cr := f c.cr }) s

/-- A change of a modem. -/
def modModem (l : Line) (f : Modem → Modem) (s : State) : State :=
  s.setLine l { s.line l with modem := f (s.line l).modem }

/-- A change of a data link. -/
def modDl (l : Line) (f : DataLink → DataLink) (s : State) : State :=
  s.setLine l { s.line l with dl := f (s.line l).dl }

/-- A change of a fax engine. -/
def modFax (l : Line) (f : Fax → Fax) (s : State) : State :=
  s.setLine l { s.line l with fax := f (s.line l).fax }

/-- A change of a voice engine. -/
def modVoice (l : Line) (f : Voice → Voice) (s : State) : State :=
  s.setLine l { s.line l with voice := f (s.line l).voice }

/-- The line state of a line. -/
def State.st (s : State) (l : Line) : LineSt := (s.line l).call.st

/-! ### Time (MODEL's own, log entry 1) -/

/-- An event that was due at a time has happened: the clock stands there or later. -/
def elapse (due : Nat) (s : State) : State := { s with now := max s.now due }

/-- An optional due time. -/
def elapseTo (due : Option Nat) (s : State) : State :=
  match due with
  | some t => elapse t s
  | none => s

/-- The line time of a moment: ms since the line last left IDLE, 0 while it is IDLE (R51). -/
def lineTimeAt (s : State) (l : Line) (t : Nat) : Nat :=
  if s.st l = .idle then 0 else t - (s.line l).call.leftAt

/-- The line time now. -/
def lineTime (s : State) (l : Line) : Nat := lineTimeAt s l s.now

/-! ### Requests between blocks -/

/-- A request is made. -/
def post (r : Request) (s : State) : State := { s with requests := s.requests ++ [r] }

/-! ### Sources and the report queue -/

/-- The line whose receive queue a source is, if any. -/
def Source.line? : Source → Option Line
  | .lineA => some .A
  | .lineB => some .B
  | .hostRead => none

/-- The source of a line. -/
def sourceOf : Line → Source
  | .A => .lineA
  | .B => .lineB

/-- The source after this one in round-robin order (R11). -/
def Source.next : Source → Source
  | .lineA => .lineB
  | .lineB => .hostRead
  | .hostRead => .lineA

/-- The bytes a reading stream holds in its buffers, in order. -/
def RStream.held (r : RStream) : List Byte := r.buffers.flatten

/-- A source is ready: it holds at least one byte that may be sent (R11). -/
def sourceReady (s : State) : Source → Bool
  | .lineA => !s.lineA.dl.rx.isEmpty
  | .lineB => !s.lineB.dl.rx.isEmpty
  | .hostRead => match s.store.readHost with | some r => !r.held.isEmpty | none => false

/-- The first ready source from a round-robin position (R11). -/
def firstReady (s : State) (from_ : Source) : Option Source :=
  [from_, from_.next, from_.next.next].find? (sourceReady s)

/-- The report at the head leaves the queue as its first byte is sent; with the loss flag set, LOSS takes the freed room at
the tail and the flag clears (R10). -/
def takeReport (r : Report) (rest : List Report) (s : State) : State :=
  modLink (fun k => { k with
    reports := if k.loss then rest ++ [.loss] else rest
    loss := false
    sending := .report r }) s

/-- The arbiter's choice of the next unit (R11, R12). -/
def arbiterChoose (s : State) : State :=
  match s.link.reports with
  | r :: rest => takeReport r rest s
  | [] =>
    match firstReady s s.link.roundRobin with
    | some src =>
      if s.link.announced = some src then modLink (fun k => { k with sending := .payload src 0 false true }) s
      else modLink (fun k => { k with sending := .source src, announced := some src }) s
    | none => s

/-- The arbiter chooses when it is idle and HHOLD is released (R11, R13). -/
def arbiterKick (s : State) : State :=
  if s.link.sending = .idle ∧ s.link.hhold = false then arbiterChoose s else s

/-- The report queue has room (R10). -/
def reportFits (s : State) : Bool := decide (s.link.reports.length < 32)

/-- A report is queued: at the tail, or dropped with the loss flag set when the queue holds 32 (R10). An idle arbiter sees
it at once (R11). -/
def queueReport (r : Report) (s : State) : State :=
  if reportFits s then arbiterKick (modLink (fun k => { k with reports := k.reports ++ [r] }) s)
  else modLink (fun k => { k with loss := true }) s

/-- Several reports in order. -/
def queueReports (rs : List Report) (s : State) : State := rs.foldl (fun s r => queueReport r s) s

/-- The DONE of a directive (R5). -/
def done (code : Byte) (r : Result) (values : List Byte) (s : State) : State := queueReport (.done code r values) s

/-- The byte under way from this source no longer stands at its head: the source has been emptied (R19). -/
def staleSource (src : Source) (s : State) : State :=
  modLink (fun k => { k with
    sending := match k.sending with
      | .payload x n c v => .payload x n c (v && !decide (x = src))
      | other => other }) s

/-! ### LHOLD (R9) -/

/-- The bytes in a writing stream's buffers. -/
def WStream.buffered (w : WStream) : Nat := ((w.handed.map List.length).getD 0) + w.filling.length

/-- The host's writing stream, open or closing. -/
def hostWriter (s : State) : Option WStream := s.store.writers.find? fun w => decide (w.owner = .host)

/-- The host write stream is open (R149). -/
def hostWriteOpen (s : State) : Bool :=
  match hostWriter s with
  | some w => w.active
  | none => false

/-- The bytes the host write stream can still accept (R149). -/
def hostWriteRoom (s : State) : Nat :=
  match hostWriter s with
  | some w => 1024 - w.buffered
  | none => 1024

/-- The free space of a target; none is unlimited (R9). -/
def targetFree (s : State) : Target → Option Nat
  | .none => none
  | .lineA => some (2048 - s.lineA.dl.tx.length)
  | .lineB => some (2048 - s.lineB.dl.tx.length)
  | .store => some (hostWriteRoom s)

/-- LHOLD evaluated afresh from the free space alone (R9: at TARGET and at a reset that empties the target's buffer). -/
def lholdAfresh (s : State) : State :=
  modLink (fun k => { k with lhold := match targetFree s k.target with | some f => decide (f < 64) | none => false }) s

/-- LHOLD after bytes have joined a target's buffer (R9). -/
def lholdJoined (t : Target) (s : State) : State :=
  match targetFree s t with
  | some f => if s.link.target = t ∧ f < 64 then modLink (fun k => { k with lhold := true }) s else s
  | none => s

/-- LHOLD after bytes have left a target's buffer (R9). -/
def lholdLeft (t : Target) (s : State) : State :=
  match targetFree s t with
  | some f => if s.link.target = t ∧ 256 ≤ f then modLink (fun k => { k with lhold := false }) s else s
  | none => s

/-- The target of a line. -/
def targetOf : Line → Target
  | .A => .lineA
  | .B => .lineB

/-! ### Discard flags (R8) -/

/-- The discard flag of a target. -/
def DiscardFlags.get (d : DiscardFlags) : Target → Bool
  | .none => d.none
  | .lineA => d.lineA
  | .lineB => d.lineB
  | .store => d.store

/-- The discard flags with one replaced. -/
def DiscardFlags.put (d : DiscardFlags) (t : Target) (v : Bool) : DiscardFlags :=
  match t with
  | .none => { d with none := v }
  | .lineA => { d with lineA := v }
  | .lineB => { d with lineB := v }
  | .store => { d with store := v }

/-! ### Clocks (R16, R17) -/

/-- The length of a month (R16). -/
def monthLength (year month : Nat) : Nat :=
  if month = 2 then (if year % 4 = 0 then 29 else 28)
  else if month = 4 ∨ month = 6 ∨ month = 9 ∨ month = 11 then 30 else 31

/-- A day-clock value in range (R16). -/
def DayClock.inRange (t : DayClock) : Bool :=
  decide (t.year ≤ 99 ∧ 1 ≤ t.month ∧ t.month ≤ 12 ∧ 1 ≤ t.day ∧ t.day ≤ monthLength t.year t.month ∧ t.hour ≤ 23 ∧ t.minute ≤ 59)

/-- The day clock a minute later, with its carries (R16). -/
def DayClock.nextMinute (t : DayClock) : DayClock :=
  if t.minute < 59 then { t with minute := t.minute + 1 }
  else if t.hour < 23 then { t with minute := 0, hour := t.hour + 1 }
  else if t.day < monthLength t.year t.month then { t with minute := 0, hour := 0, day := t.day + 1 }
  else if t.month < 12 then { t with minute := 0, hour := 0, day := 1, month := t.month + 1 }
  else { year := if t.year < 99 then t.year + 1 else 0, month := 1, day := 1, hour := 0, minute := 0 }

/-- The greatest value of the seconds counter (R17). -/
def secondsMax : Nat := 4294967295

/-! ### Lists -/

/-- The value of a table entry, none outside the table or where the entry is not valid. -/
def entryAt {α : Type} (t : List (Option α)) (i : Nat) : Option α := (t[i]?).join

/-- Each member changed where a test holds. -/
def updateWhere {α : Type} (p : α → Bool) (f : α → α) (l : List α) : List α := l.map fun x => if p x then f x else x

end Sys2Proof.Machine
end

