-- ==== Sys2Proof/Machine/Flags.lean ====
section
/-! DEFINITION. Conditions and flags: the general pins' assignment (R29), monitor states and MONITOR reports (R31, R33),
ALARM (R34), squelch (R35), MSG (R180), and the levels the output pins show. -/

namespace Sys2Proof.Machine

/-! ### Pins (R29) -/

/-- A function is on some pin. -/
def hasPin (s : State) (f : PinFn) : Bool := s.pins.any fun p => decide (p.fn = f)

/-- The HOOK, RING, LOOP and EXT functions of a line. -/
def hookFn : Line → PinFn
  | .A => .hookA
  | .B => .hookB

/-- The RING function of a line. -/
def ringFn : Line → PinFn
  | .A => .ringA
  | .B => .ringB

/-- The LOOP function of a line. -/
def loopFn : Line → PinFn
  | .A => .loopA
  | .B => .loopB

/-- The EXT function of a line. -/
def extFn : Line → PinFn
  | .A => .extA
  | .B => .extB

/-- A line can go off-hook: its HOOK function is on a pin (R29). -/
def hasHook (s : State) (l : Line) : Bool := hasPin s (hookFn l)

/-! ### Monitors (2.6) -/

/-- The reported state of a source: enabled, and latched or current as latch-enable says (R31). -/
def reportedState (s : State) (l : Line) (src : MonSource) : Bool :=
  let cfg := (s.line l).profile.monitors.get src
  cfg.enable && (if cfg.latchEnable then (s.line l).iface.latched.get src else (s.line l).iface.current.get src)

/-- The MONITOR report of a source as it stands (R33). -/
def monitorReport (s : State) (l : Line) (src : MonSource) : Report :=
  .monitor l src ((s.line l).profile.monitors.get src).cls (reportedState s l src)

/-- A MONITOR report when the reported state has changed from its earlier value (R33). -/
def monitorChange (before : Bool) (l : Line) (src : MonSource) (s : State) : State :=
  if reportedState s l src = before then s else queueReport (monitorReport s l src) s

/-- A delivery of a monitor condition: the current state is set or cleared, the latched state set when the current state
becomes set, and a change of the reported state queues MONITOR (R31, R33). -/
def setCondition (l : Line) (src : MonSource) (v : Bool) (s : State) : State :=
  if (s.line l).iface.current.get src = v then s
  else
    monitorChange (reportedState s l src) l src
      (modIface l (fun i => { i with
        current := i.current.set src v
        latched := if v then i.latched.set src true else i.latched }) s)

/-- An enabled ERROR-class source has its reported state set on a line (R34). -/
def lineAlarm (s : State) (l : Line) : Bool :=
  monSources.any fun src => decide (((s.line l).profile.monitors.get src).cls = .error) && reportedState s l src

/-- ALARM (R34). -/
def alarm (s : State) : Bool := lineAlarm s .A || lineAlarm s .B

/-- Squelch is in force on a line (R35). -/
def squelched (s : State) (l : Line) : Bool :=
  decide ((s.line l).profile.onError = .squelch) &&
    monSources.any fun src =>
      ((s.line l).profile.monitors.get src).enable && decide (((s.line l).profile.monitors.get src).cls = .error) &&
        (s.line l).iface.current.get src

/-- MSG: an enabled mailbox has its new flag set (R180). -/
def msgCondition (s : State) : Bool := s.mailboxes.any fun m => m.enabled && m.isNew

/-- A far-end signal is expected: TRAIN, DATA or FAX, or a recording (R32). The AGC is active in the same cases (R23). -/
def farEndExpected (s : State) (l : Line) : Bool :=
  decide (s.st l = .train ∨ s.st l = .data ∨ s.st l = .fax ∨ (s.line l).voice.sub = some .recording)

/-- The expectation is judged after a change of line state or substate: at its beginning and its end the counts of
LEVEL_LOW restart, and its end clears the condition (R32). -/
def judgeExpectation (l : Line) (s : State) : State :=
  let e := farEndExpected s l
  if (s.line l).iface.expecting = e then s
  else
    let s := modIface l (fun i => { i with expecting := e, lowRun := 0, highRun := 0 }) s
    if e then s else setCondition l .levelLow false s

/-- The level an output function shows on its pin, asserted or not; OUT shows the level given (R29). -/
def pinOutput (s : State) (p : PinCfg) : Option Bool :=
  match p.fn with
  | .hookA => some s.lineA.iface.hook
  | .hookB => some s.lineB.iface.hook
  | .msg => some (msgCondition s)
  | .alarm => some (alarm s)
  | .out => some p.level
  | _ => none

/-! ### The transmit side (R21) -/

/-- Where a transmitted sample is taken from. -/
inductive TxSource where
  | zero
  | toneGenerator
  | modem
  | voiceDecoder
deriving DecidableEq, Repr

/-- The source of a line's transmitted samples: the first of R21 that applies. -/
def txSource (s : State) (l : Line) : TxSource :=
  let x := s.line l
  if x.call.st = .idle ∨ x.call.st = .ringing ∨ x.call.st = .cleardown then .zero
  else if squelched s l then .zero
  else if (x.iface.tone.map (·.sounding)).getD false then .toneGenerator
  else if x.call.st = .train ∨ x.call.st = .data ∨ x.call.st = .fax then .modem
  else if x.voice.sub = some .greeting ∨ x.voice.sub = some .playing then .voiceDecoder
  else .zero

/-- What the tone generator puts into a line's transmitted samples: the sines of its signal while it is the source (R21, R36). -/
def toneOutput (s : State) (l : Line) : List ToneComponent :=
  if txSource s l = .toneGenerator then ((s.line l).iface.tone.map (·.signal.components)).getD [] else []

end Sys2Proof.Machine
end

