-- ==== Sys2Proof/Machine/Store.lean ====
section
/-! DEFINITION. The message store's operations (Chapter 7): the directory and references, the free pool, erasing, a full
store, streams, the memory-port arbiter, cuts and closes. -/

namespace Sys2Proof.Machine

/-! ### Directory (R138) -/

/-- The directory entry of a message id. -/
def findEntry (s : State) (id : Nat) : Option Entry := s.store.dir.find? fun e => decide (e.id = id)

/-- A change of one directory entry. -/
def modEntry (id : Nat) (f : Entry → Entry) : State → State :=
  modStore fun t => { t with dir := updateWhere (fun e => decide (e.id = id)) f t.dir }

/-- An entry leaves the directory, and the unheard list with it. -/
def removeEntry (id : Nat) : State → State := modStore fun t => { t with
  dir := t.dir.filter fun e => decide (e.id ≠ id), unheard := t.unheard.filter fun x => decide (x ≠ id) }

/-- The store is READY. -/
def storeReady (s : State) : Bool := decide (s.store.st = .ready)

/-- The id after this one, 65535 wrapping to 1. -/
def nextIdAfter (n : Nat) : Nat := if n < 65535 then n + 1 else 1

/-- The first id from this one on that no entry holds; the directory holds at most 96 entries (R138). -/
def skipIds (dir : List Entry) : Nat → Nat → Nat
  | 0, n => n
  | fuel + 1, n => if dir.any fun e => decide (e.id = n) then skipIds dir fuel (nextIdAfter n) else n

/-- The id the next created message takes (R138). -/
def freshId (s : State) : Nat := skipIds s.store.dir 97 s.store.nextId

/-- The creation number after this one (R138; past the greatest it is unstated). -/
def nextCreation (n : Nat) : Nat := if n < 4294967295 then n + 1 else Config.creationAfterMax

/-- A new directory entry (R138). -/
def newEntry (s : State) (owner : Owner) (kind : MsgKind) (mailbox : Option Nat) (coding : Coding) : Entry where
  id := freshId s
  kind := kind
  state := .opened
  writer := some owner
  mailbox := mailbox
  coding := coding
  length := 0
  pages := 0
  created := s.link.dayClock
  creation := s.store.creation
  caller := match owner with | .line l => (s.line l).iface.caller | .host => none
  fetched := decide (owner = .host)
  truncated := false
  recovered := false
  erasePending := false
  inUse := 0
  chain := []

/-- A new writing stream (R146). -/
def newWriter (id : Nat) (owner : Owner) : WStream where
  id := id
  owner := owner
  active := true
  seq := 0
  base := 0
  handed := none
  granted := false
  filling := []
  seg := none
  inStore := 0
  pages := []
  region := none
  paced := false
  failed := false
  cut := .none
  closing := none

/-- A message is created with its writing stream (R138). -/
def createMessage (owner : Owner) (kind : MsgKind) (mailbox : Option Nat) (coding : Coding) (s : State) : State :=
  let e := newEntry s owner kind mailbox coding
  modStore (fun t => { t with
    dir := t.dir ++ [e]
    creation := nextCreation t.creation
    nextId := skipIds (t.dir ++ [e]) 97 (nextIdAfter e.id)
    writers := t.writers ++ [newWriter e.id owner] }) s

/-! ### Space (R143) -/

/-- The segments of a region that are present. -/
def Region.segments (r : Region) : Nat := if r.present then 64 * 2 ^ r.sizeCode else 0

/-- The sustain count of a present region (R136). -/
def Region.sustain (r : Region) : Nat :=
  if r.wide then (if r.waitStates ≤ 3 then 4 else 3) else (if r.waitStates ≤ 3 then 2 else 1)

/-- The present segments of a region table, ascending, without the label. -/
def presentSegments (regions : List Region) : List Nat :=
  ((List.range 4).flatMap fun i =>
    (List.range (regions.getD i absentRegion).segments).map fun j => i * 1024 + j).filter fun n => decide (n ≠ 0)

/-- The region of a segment. -/
def regionOfSeg (seg : Nat) : Nat := seg / 1024

/-- The free count. -/
def freeCount (s : State) : Nat := s.store.free.length

/-- The free count of a region. -/
def freeInRegion (s : State) (r : Nat) : Nat := (s.store.free.filter fun n => decide (regionOfSeg n = r)).length

/-- The free segments of a region are kept ascending, so the first is the lowest. -/
def lowestFree (s : State) (r : Nat) : Option Nat := s.store.free.find? fun n => decide (regionOfSeg n = r)

/-- A segment into the ascending free pool. -/
def insertSeg (x : Nat) : List Nat → List Nat
  | [] => [x]
  | y :: rest => if x < y then x :: y :: rest else if x = y then y :: rest else y :: insertSeg x rest

/-- A create request is refused with STORE_FULL (R143). -/
def createRefused (s : State) : Bool := decide (freeCount s ≤ s.store.settings.reserve) || decide (96 ≤ s.store.dir.length)

/-! ### Offsets (R137) -/

/-- The message offset of the first byte of the segment of a sequence number. -/
def segStart (seq : Nat) : Nat := if seq = 0 then 0 else 960 + (seq - 1) * 1016

/-- The sequence number of the segment a message offset lies in. -/
def seqOf (o : Nat) : Nat := if o < 960 then 0 else 1 + (o - 960) / 1016

/-! ### The unheard list (R155) -/

/-- A message is one the unheard list holds: CLOSED, VOICE or FAX, not fetched. -/
def Entry.unheard (e : Entry) : Bool :=
  decide (e.state = .closed ∧ (e.kind = .voice ∨ e.kind = .fax)) && !e.fetched

/-- The creation number of a message. -/
def creationOf (dir : List Entry) (id : Nat) : Nat := ((dir.find? fun e => decide (e.id = id)).map (·.creation)).getD 0

/-- An id placed in a list of ids by creation number. -/
def placeByCreation (dir : List Entry) (id : Nat) : List Nat → List Nat
  | [] => [id]
  | x :: rest => if creationOf dir id < creationOf dir x then id :: x :: rest else x :: placeByCreation dir id rest

/-- A message joins the unheard list when it qualifies; the watermark reached is reported (R155). -/
def joinUnheard (id : Nat) (s : State) : State :=
  match findEntry s id with
  | some e =>
    if e.unheard ∧ id ∉ s.store.unheard then
      let s := modStore (fun t => { t with unheard := placeByCreation t.dir id t.unheard }) s
      if s.store.settings.watermark ≠ 0 ∧ s.store.unheard.length = s.store.settings.watermark then
        queueReport (.store .watermark s.store.unheard.length) s
      else s
    else s
  | none => s

/-- A message leaves the unheard list. -/
def leaveUnheard (id : Nat) : State → State := modStore fun t => { t with unheard := t.unheard.filter fun x => decide (x ≠ id) }

/-! ### Writers -/

/-- The writing stream of a message. -/
def findWriter (s : State) (id : Nat) : Option WStream := s.store.writers.find? fun w => decide (w.id = id)

/-- A change of the writing stream of a message. -/
def modWriter (id : Nat) (f : WStream → WStream) : State → State :=
  modStore fun t => { t with writers := updateWhere (fun w => decide (w.id = id)) f t.writers }

/-- A writer leaves the waiting writers (R145). -/
def leaveWaiting (id : Nat) : State → State := modStore fun t => { t with waiting := t.waiting.filter fun x => decide (x ≠ id) }

/-- A writing stream ends. -/
def removeWriter (id : Nat) (s : State) : State :=
  leaveWaiting id (modStore (fun t => { t with writers := t.writers.filter fun w => decide (w.id ≠ id) }) s)

/-- The current writing stream of an owner. -/
def activeWriter (s : State) (o : Owner) : Option WStream :=
  s.store.writers.find? fun w => decide (w.owner = o) && w.active

/-- The buffer being filled is handed to the arbiter when it holds the payload of the message's next segment (R146, R149). -/
def WStream.handOver (w : WStream) : WStream :=
  if w.handed = none ∧ w.cut = .none ∧ segCapacity w.seq ≤ w.filling.length then
    { w with handed := some (w.filling.take (segCapacity w.seq)), filling := w.filling.drop (segCapacity w.seq) }
  else w

/-- The capacity of the buffer being filled by a line stream: the payload of the segment it will become. -/
def WStream.fillCapacity (w : WStream) : Nat := segCapacity (if w.handed.isSome then w.seq + 1 else w.seq)

/-- A buffer of a stream that may use so many of the line's two is there to be filled: the one handed to the arbiter takes one
(R146). -/
def WStream.mayFill (w : WStream) (room : Nat) : Bool := decide ((if w.handed.isSome then 1 else 0) < room)

/-- One byte joins a line stream, or is dropped when both buffers are full or waiting (R146). -/
def WStream.push (room : Nat) (w : WStream) (b : Byte) : WStream :=
  if w.mayFill room ∧ w.filling.length < w.fillCapacity then { w with filling := w.filling ++ [b] }.handOver
  else w

/-- Bytes join a line stream one by one. -/
def WStream.pushAll (room : Nat) (w : WStream) (bs : List Byte) : WStream := bs.foldl (WStream.push room) w

/-- The bytes a stream can take whole: what is left of the buffer being filled, and the other buffer while that is free (R146,
R168: a record or a header may straddle two segments, log entry 56). -/
def WStream.space (w : WStream) (room : Nat) : Nat :=
  if w.mayFill room then
    w.fillCapacity - w.filling.length + (if w.handed.isNone ∧ 1 < room then segCapacity (w.seq + 1) else 0)
  else 0

/-- A fax record fits whole (R146). -/
def WStream.fits (w : WStream) (room n : Nat) : Bool := w.mayFill room && decide (n ≤ w.space room)

/-- The bytes a cut is still to read back into the buffer. -/
def WStream.toReadBack (w : WStream) : Option Nat :=
  match w.cut with
  | .running _ rb => rb
  | _ => none

/-- The bytes a line stream has taken so far, all buffers included. -/
def WStream.accepted (w : WStream) : Nat := w.base + w.buffered + w.toReadBack.getD 0

/-- The bytes of a message already written, or being written by a granted write. -/
def WStream.written (w : WStream) : Nat := w.base + (if w.granted then (w.handed.map List.length).getD 0 else w.inStore)

/-- The segment buffers a writing stream holds bytes in, or is to read bytes back into. -/
def WStream.buffersHeld (w : WStream) : Nat :=
  (if w.handed.isSome then 1 else 0) + (if w.filling ≠ [] ∨ w.toReadBack.isSome then 1 else 0)

/-- The line's segment buffers that writing streams other than that of a message hold: those of streams whose close goes on. -/
def lineBuffersHeld (s : State) (l : Line) (id : Nat) : Nat :=
  ((s.store.writers.filter fun w => decide (w.owner = .line l ∧ w.id ≠ id)).map WStream.buffersHeld).sum

/-- The segment buffers a writing stream may use: of the line's two, those no closing stream of the line holds (R146; log
entry 55). -/
def roomFor (s : State) (w : WStream) : Nat :=
  match w.owner with
  | .line l => 2 - lineBuffersHeld s l w.id
  | .host => 2

/-! ### Readers -/

/-- The reading stream of an owner. -/
def readerOf (s : State) : Owner → Option RStream
  | .line .A => s.store.readA
  | .line .B => s.store.readB
  | .host => s.store.readHost

/-- The reading stream of an owner replaced. -/
def setReader (o : Owner) (r : Option RStream) : State → State :=
  modStore fun t => match o with
    | .line .A => { t with readA := r }
    | .line .B => { t with readB := r }
    | .host => { t with readHost := r }

/-- Bytes leave the buffers of a reading stream from its head. -/
def dropHeld : Nat → List (List Byte) → List (List Byte)
  | _, [] => []
  | n, b :: rest => if n < b.length then b.drop n :: rest else dropHeld (n - b.length) rest

/-- So many bytes are taken from a reading stream. -/
def RStream.advance (r : RStream) (n : Nat) : RStream :=
  { r with position := r.position + n, buffers := dropHeld n r.buffers }

/-- The buffers an owner's reading stream of a message may use: of a line's two, those no closing stream of the line holds; one for
the host (R146, R151; log entry 55). -/
def bufferLimit (s : State) (o : Owner) (id : Nat) : Nat :=
  match o with
  | .host => 1
  | .line l => 2 - lineBuffersHeld s l id

/-! ### Erase (R154) -/

/-- A segment transfer under way for this message keeps its stream until it completes; otherwise the stream ends. -/
def dropWriter (id : Nat) (s : State) : State :=
  match findWriter s id with
  | some w =>
    if w.granted then
      leaveWaiting id (modWriter id (fun w =>
        { w with active := false, failed := true, closing := none, filling := [], cut := .none }) s)
    else removeWriter id s
  | none => s

/-- A maintenance request is the FREE header write of a cut of this message. -/
def Maint.isCutOf (m : Maint) (id : Nat) : Bool :=
  match m with
  | .freeHeader _ (.cut x) => decide (x = id)
  | _ => false

/-- A message is taken for erase: it enters ERASING, leaves the unheard list, and a FREE header write is requested for each
segment of its chain, in place of those a cut has asked for; a message with an empty chain leaves the directory at once (R147, R154). The erase-pending flag is cleared as the message enters ERASING:
DESIGN CHOICE, log entry 91. -/
def startErase (id : Nat) (s : State) : State :=
  match findEntry s id with
  | some e =>
    if e.chain = [] then removeEntry id (leaveUnheard id s)
    else
      modStore (fun t => { t with
          maint := (t.maint.filter fun m => !m.isCutOf id) ++
            (e.chain.filter fun g => decide (t.grant ≠ some (.maint (.freeHeader g (.cut id))))).map fun g => .freeHeader g (.erase id) })
        (leaveUnheard id (modEntry id (fun e => { e with state := .erasing, writer := none, erasePending := false }) s))
  | none => s

/-- An erase is in progress: a message in ERASING with segments still in its chain (R145). -/
def eraseInProgress (s : State) : Bool := s.store.dir.any fun e => decide (e.state = .erasing) && !e.chain.isEmpty

/-- The oldest message that may be recycled (R145). -/
def recyclable (s : State) : Option Entry :=
  (s.store.dir.filter fun e => decide (e.state = .closed ∧ e.inUse = 0) && e.fetched && !e.erasePending).foldl
    (fun best e => match best with
      | some b => if e.creation < b.creation then some e else some b
      | none => some e) none

/-! ### References (R152) -/

/-- A reference on a message may be taken. -/
def canRef (s : State) (id : Nat) : Bool :=
  match findEntry s id with
  | some e => decide (e.state = .closed ∧ e.inUse < 255) && !e.erasePending
  | none => false

/-- A reference is taken. -/
def takeRef (id : Nat) : State → State := modEntry id fun e => { e with inUse := e.inUse + 1 }

/-- A reference is returned; a return that brings the count of an erase-pending message to 0 starts its erase. -/
def returnRef (id : Nat) (s : State) : State :=
  let s := modEntry id (fun e => { e with inUse := e.inUse - 1 }) s
  match findEntry s id with
  | some e => if e.inUse = 0 ∧ e.erasePending ∧ e.state = .closed then startErase id s else s
  | none => s

/-! ### Allocation (R143, R144) -/

/-- The line streams resident in a region, other than the stream of a message (R144). A stream whose close goes on counts: DESIGN CHOICE, log
entry 100. -/
def residents (s : State) (r id : Nat) : Nat :=
  (s.store.writers.filter fun w => decide (w.owner ≠ .host ∧ w.id ≠ id ∧ w.region = some r)).length +
    (if (s.store.readA.bind (·.region)) = some r then 1 else 0) + (if (s.store.readB.bind (·.region)) = some r then 1 else 0)

/-- The region a line writer's segment is taken from by the pace rule, and whether it is a fallback. -/
def paceRegion (s : State) (id : Nat) : Option (Nat × Bool) :=
  match (List.range 4).find? fun r =>
      decide (freeInRegion s r ≠ 0 ∧ residents s r id < (s.store.regions.getD r absentRegion).sustain) with
  | some r => some (r, false)
  | none => ((List.range 4).find? fun r => decide (freeInRegion s r ≠ 0)).map fun r => (r, true)

/-- The region a writer's segment is taken from. -/
def chooseRegion (s : State) (w : WStream) : Option (Nat × Bool) :=
  match w.owner with
  | .line _ => paceRegion s w.id
  | .host => ((List.range 4).find? fun r => decide (freeInRegion s r ≠ 0)).map fun r => (r, false)

/-- A segment leaves the pool and joins the chain of the message (R143). -/
def giveSegment (id seg : Nat) (s : State) : State :=
  modEntry id (fun e => { e with chain := e.chain ++ [seg] })
    (modWriter id (fun w => { w with seg := some seg, region := some (regionOfSeg seg) })
      (modStore (fun t => { t with free := t.free.filter fun n => decide (n ≠ seg) }) s))

/-- The first fallback of a message queues STORE PACE (R144). -/
def reportPace (id : Nat) (w : WStream) (fallback : Bool) (s : State) : State :=
  if fallback ∧ w.paced = false then queueReport (.store .pace id) (modWriter id (fun w => { w with paced := true }) s) else s

/-- The allocation of the next segment to a writer; the state is unchanged when no region has a free segment. -/
def allocate (id : Nat) (s : State) : State :=
  match findWriter s id with
  | some w =>
    match chooseRegion s w with
    | some (r, fallback) =>
      match lowestFree s r with
      | some seg => giveSegment id seg (reportPace id w fallback s)
      | none => s
    | none => s
  | none => s

/-! ### Closing (R147) -/

/-- A message closed with erase: taken for erase at once with MESSAGE EMPTY. -/
def closeErase (id : Nat) (s : State) : State :=
  match findEntry s id with
  | some e => startErase id (queueReport (.message id e.kind e.mailbox 0 .empty) (dropWriter id s))
  | none => s

/-- A step of a close under way, no cut going on: a close with erase is made; otherwise the buffers are written out, the last
segment with its true bytes used, then the copy is rewritten. A message with no segment leaves the directory with MESSAGE
EMPTY. -/
def progressClose (id : Nat) (s : State) : State :=
  match findWriter s id, findEntry s id with
  | some w, some e =>
    match w.closing with
    | some c =>
      if w.cut = .none ∧ c.copyAsked = false ∧ w.handed = none then
        if c.erase then closeErase id s
        else if w.filling ≠ [] then
          modWriter id (fun w => { w with
            handed := some (w.filling.take (segCapacity w.seq)), filling := w.filling.drop (segCapacity w.seq) }) s
        else if e.chain = [] then closeErase id s
        else
          modStore (fun t => { t with maint := t.maint ++ [.copyRewrite id] })
            (modWriter id (fun w => { w with closing := some { c with copyAsked := true } }) s)
      else s
    | none => s
  | _, _ => s

/-! ### Cut (R147) -/

/-- The owner is told that its cut is complete; a closing stream goes on to close. -/
def cutFinished (id : Nat) (s : State) : State :=
  let s := modWriter id (fun w => { w with cut := .none }.handOver) s
  match findWriter s id with
  | some w => progressClose id (if w.active then post (.cutDone w.owner id) s else s)
  | none => s

/-- The cut itself, no write of the stream being under way: bytes beyond the length leave the buffers, segments from the
length on are freed, and a written segment the length falls inside is to be read back. The stream is then resident in the region of
the last segment its chain keeps, and in none when it keeps no segment (R144). -/
def carryCut (id len : Nat) (s : State) : State :=
  match findWriter s id, findEntry s id with
  | some w, some e =>
    let keep := (List.range e.chain.length).filter fun i => decide (segStart i < len)
    let frees := e.chain.drop keep.length
    let w' : WStream :=
      if w.base ≤ len then
        let held := (w.handed.getD [] ++ w.filling).take (len - w.base)
        { w with
          handed := none, filling := held, seg := if segStart w.seq < len then w.seg else none
          inStore := min w.inStore (len - w.base) }
      else
        let k := seqOf len
        let inside := decide (segStart k < len)
        { w with
          handed := none, filling := [], seq := k, base := segStart k, seg := if inside then e.chain[k]? else none
          inStore := len - segStart k }
    let readBack :=
      if w.base ≤ len then w.toReadBack.bind fun n => if len = w.base then none else some (min n (len - w.base))
      else if len = segStart (seqOf len) then none else some (len - segStart (seqOf len))
    let s := leaveWaiting id (modWriter id (fun _ => { w' with
      cut := .running frees.length readBack, region := (e.chain.take keep.length).getLast?.map regionOfSeg }) s)
    let s := modStore (fun t => { t with maint := t.maint ++
      (frees.filter fun g => decide (Maint.freeHeader g (.cut id) ∉ t.maint ∧
        t.grant ≠ some (.maint (.freeHeader g (.cut id))))).map fun g => .freeHeader g (.cut id) }) s
    if frees = [] ∧ readBack = none then cutFinished id s else s
  | _, _ => s

/-- A cut to a length: the message length is that length at once; a write under way is waited for (R147). -/
def cutTo (id len : Nat) (s : State) : State :=
  match findWriter s id with
  | some w =>
    let s := modEntry id (fun e => { e with length := len }) s
    if w.granted then
      modWriter id (fun w => { w with
        cut := .waiting len, filling := w.filling.take (len - (w.base + (w.handed.map List.length).getD 0)) }) s
    else carryCut id len s
  | none => s

/-- A FREE header write of a cut has completed. -/
def cutFreed (id : Nat) (s : State) : State :=
  match (findWriter s id).map (·.cut) with
  | some (CutState.running n rb) =>
    if n ≤ 1 ∧ rb = none then cutFinished id s else modWriter id (fun w => { w with cut := .running (n - 1) rb }) s
  | _ => s

/-! ### Header rewrites (R168) -/

/-- Bytes of a list replaced from a place on. -/
def patchList (l : List Byte) (at_ : Nat) (bs : List Byte) : List Byte :=
  l.take at_ ++ bs.take (l.length - at_) ++ l.drop (at_ + bs.length)

/-- A rewrite within one segment: of the buffer its bytes lie in, otherwise by maintenance: a segment whose write is granted, and
bytes still to be read back, do not lie there. -/
def rewritePart (id seq at_ : Nat) (bs : List Byte) (s : State) : State :=
  if bs = [] then s
  else
    match findWriter s id with
    | some w =>
      if seq < w.seq ∨ (seq = w.seq ∧ (w.granted ∨ w.toReadBack.isSome)) then
        modStore (fun t => { t with maint := t.maint ++ [.headerRewrite id seq at_ bs] }) s
      else if seq = w.seq ∧ w.handed.isSome then
        modWriter id (fun w => { w with handed := w.handed.map fun h => patchList h at_ bs }) s
      else modWriter id (fun w => { w with filling := patchList w.filling at_ bs }) s
    | none => s

/-- A rewrite of bytes of an OPEN message at an offset, in the one or two segments they lie in. -/
def rewriteBytes (id offset : Nat) (bs : List Byte) (s : State) : State :=
  let k := seqOf offset
  let at_ := offset - segStart k
  let first := bs.take (segCapacity k - at_)
  rewritePart id (k + 1) 0 (bs.drop first.length) (rewritePart id k at_ first s)

/-! ### The pages of a message cut short (R145, R158, R173) -/

/-- The message offset at which a page ends: after its last stored line, or after its 16-byte header. -/
def PageMark.finish (m : PageMark) : Nat := m.lineEnds.getLast?.getD (m.start + 16)

/-- The pages that stay of a message that keeps so many bytes: those that ended and lie wholly within it, and the stored lines
within it of the page after them, which closes TRUNCATED; a page with no such line goes (R173; log entry 57). -/
def keepPages (limit : Nat) : List PageMark → List PageMark
  | [] => []
  | m :: rest =>
    if m.whole ∧ m.finish ≤ limit then m :: keepPages limit rest
    else
      let ends := m.lineEnds.filter fun e => decide (e ≤ limit)
      if ends = [] then [] else [{ m with lineEnds := ends, whole := false }]

/-- The message length that so many pages leave. -/
def pagesLength (pages : List PageMark) : Nat := (pages.getLast?.map PageMark.finish).getD 0

/-- The last of the pages closes TRUNCATED. -/
def lastTruncated (pages : List PageMark) : Bool := (pages.getLast?.map fun m => !m.whole).getD false

/-- The header of a page is rewritten with a verdict and flags (R168). -/
def rewriteMark (id : Nat) (m : PageMark) (v : Verdict) (truncated : Bool) : State → State :=
  rewriteBytes id m.start
    (pageHeader m.number m.fine m.lineEnds.length m.bad m.longest v truncated (v ≠ .none && decide (0 < m.bad)) false m.lineTime)

/-- The pages a message keeps are noted, the header of a last page that closes TRUNCATED rewritten. -/
def keepInWriter (id : Nat) (kept : List PageMark) (s : State) : State :=
  let s := modWriter id (fun w => { w with pages := kept }) s
  match kept.getLast? with
  | some m => if m.whole then s else rewriteMark id m .none true s
  | none => s

/-- The shortest length a closed message of a kind may have: one byte, or for a recording one second of its coding (R186). -/
def leastLength (e : Entry) : Nat := if e.kind = .voice then secondBytes e.coding else 1

/-- A stream whose close goes on can write no more (R145, R158): its message keeps the bytes written, a fax message the pages and
lines within them, and closes truncated; or it is closed with erase, at once, when too little is left (R147; log entry 57). -/
def shortenClose (id : Nat) (s : State) : State :=
  match findWriter s id, findEntry s id with
  | some w, some e =>
    let limit := min w.written e.length
    let kept := keepPages limit w.pages
    let len := if e.kind = .fax then pagesLength kept else limit
    if len < leastLength e then closeErase id s
    else
      let s := leaveWaiting id (keepInWriter id kept s)
      let s := modWriter id (fun w => { w with closing := w.closing.map fun c =>
        { c with truncated := true, pages := kept.length } }) s
      let s := modEntry id (fun e => { e with truncated := true, pages := kept.length }) s
      progressClose id (if len < w.accepted then cutTo id len s else s)
  | _, _ => s

/-! ### A full store (R145) -/

/-- A writer is ended by a full store: STORE FULL is queued, and the owner ends its operation. A host write is erased; a
stream already closing closes truncated with the bytes written. -/
def endFull (id : Nat) (s : State) : State :=
  match findWriter s id, findEntry s id with
  | some w, some e =>
    let s := queueReport (.store .full id) (leaveWaiting id s)
    match w.owner with
    | .host =>
      lholdLeft .store (startErase id (queueReport (.message id e.kind e.mailbox 0 (.byRelease .storeFull))
        (modStore (fun t => { t with hostFail := true }) (removeWriter id s))))
    | .line l =>
      if w.active then post (.writerFull (.line l) id) (modWriter id (fun w => { w with failed := true }) s)
      else shortenClose id s
  | _, _ => s

/-- A writer joins the waiting writers. -/
def joinWaiting (id : Nat) : State → State :=
  modStore fun t => if id ∈ t.waiting then t else { t with waiting := t.waiting ++ [id] }

/-- A writer that needs a segment while the free count is 0 is judged (R145). -/
def judgeFull (id : Nat) (s : State) : State :=
  if eraseInProgress s then joinWaiting id s
  else if s.store.settings.policy = .recycle then
    match recyclable s with
    | some m => joinWaiting id (queueReport (.store .recycled m.id) (startErase m.id s))
    | none => endFull id s
  else endFull id s

/-- A waiting writer is judged afresh (R145). -/
def rejudge (s : State) (id : Nat) : State :=
  if id ∈ s.store.waiting then
    if freeCount s = 0 then judgeFull id s else leaveWaiting id (allocate id s)
  else s

/-- Every waiting writer is judged afresh, when an erase ends (R145), in the order they joined: DESIGN CHOICE, log entry 81. -/
def judgeWaiting (s : State) : State := s.store.waiting.foldl rejudge s

/-- A segment joins the pool, and the waiting writer that joined first takes it (R145): DESIGN CHOICE, log entry 81, the rule gives it to
the first asking writer taken and does not say in which order they ask. -/
def joinPool (seg : Nat) (s : State) : State :=
  let s := modStore (fun t => { t with free := insertSeg seg t.free }) s
  match s.store.waiting with
  | id :: _ => leaveWaiting id (allocate id s)
  | [] => s

/-! ### The memory-port arbiter (R148) -/

/-- A writing stream has a request waiting: a segment write. -/
def WStream.wantsWrite (w : WStream) (waiting : List Nat) : Bool :=
  w.handed.isSome && !w.granted && !w.failed && decide (w.cut = .none) && decide (w.id ∉ waiting)

/-- A writing stream has a request waiting: the read-back of a cut. -/
def WStream.wantsReadBack (w : WStream) : Bool := w.toReadBack.isSome

/-- A reading stream has a request waiting: the next segment, while a buffer is free (R146, R151). -/
def RStream.wants (r : RStream) (limit : Nat) : Bool := decide (r.buffers.length < limit ∧ segStart r.nextSeq < r.length)

/-- The stream requests of the arbiter. -/
inductive StreamReq where
  | write (w : WStream)
  | readBack (w : WStream)
  | read (o : Owner) (r : RStream)
deriving DecidableEq, Repr

/-- A writing stream's request. -/
def writeReq (s : State) (o : Owner) : Option StreamReq :=
  match s.store.writers.find? fun w => decide (w.owner = o) && (w.wantsReadBack || w.wantsWrite s.store.waiting) with
  | some w => some (if w.wantsReadBack then .readBack w else .write w)
  | none => none

/-- A reading stream's request. -/
def readReq (s : State) (o : Owner) : Option StreamReq :=
  match readerOf s o with
  | some r => if r.wants (bufferLimit s o r.id) then some (.read o r) else none
  | none => none

/-- The request of a line's stream. Where a stream whose close goes on and a reading stream of the same line both wait, the writer's goes
first: DESIGN CHOICE, log entry 94. -/
def lineReq (s : State) (l : Line) : Option StreamReq := (writeReq s (.line l)).or (readReq s (.line l))

/-- The line streams' request: of two waiting lines, the one not last granted. -/
def lineClass (s : State) : Option (Line × StreamReq) :=
  match lineReq s (otherLine s.store.lastLine) with
  | some q => some (otherLine s.store.lastLine, q)
  | none => (lineReq s s.store.lastLine).map fun q => (s.store.lastLine, q)

/-- The host streams' request: of the two, the one not last granted. -/
def hostClass (s : State) : Option StreamReq :=
  if s.store.lastHostRead then (writeReq s .host).or (readReq s .host) else (readReq s .host).or (writeReq s .host)

/-- A writing stream is resident in the region of the segment it now reads back or writes again (R144). -/
def resideIn (id : Nat) (seg : Option Nat) : State → State := modWriter id fun w => { w with region := seg.map regionOfSeg }

/-- A stream's request is granted. A segment write takes its segment now (R146); the state is unchanged when none is free. -/
def grantStream (q : StreamReq) (s : State) : State :=
  match q with
  | .readBack w => modStore (fun t => { t with grant := some (.readBack w.id (w.seg.getD 0)) }) (resideIn w.id w.seg s)
  | .read o r =>
    match (findEntry s r.id).bind fun e => e.chain[r.nextSeq]? with
    | some seg =>
      modStore (fun t => { t with grant := some (.read o r.tag r.id seg r.nextSeq) })
        (setReader o (some { r with region := some (regionOfSeg seg) }) s)
    | none => s
  | .write w =>
    let s := if w.seg.isSome then resideIn w.id w.seg s else allocate w.id s
    match (findWriter s w.id).bind (·.seg) with
    | some seg =>
      modStore (fun t => { t with grant := some (.write w.id seg) }) (modWriter w.id (fun w => { w with granted := true }) s)
    | none => s

/-- The class and direction last granted are noted. -/
def noteLine (l : Line) : State → State := modStore fun t => { t with lastLine := l }

/-- The host stream last granted is noted. -/
def noteHost (q : StreamReq) : State → State :=
  modStore fun t => { t with lastHostRead := match q with | .read _ _ => true | _ => false }

/-- A writer's request that finds no free segment is judged (R145) and the arbiter looks again. -/
def storeKickFuel : Nat → State → State
  | 0, s => s
  | fuel + 1, s =>
    if s.store.grant.isSome then s
    else
      match lineClass s with
      | some (l, .write w) =>
        if w.seg = none ∧ freeCount s = 0 then storeKickFuel fuel (judgeFull w.id s) else noteLine l (grantStream (.write w) s)
      | some (l, q) => noteLine l (grantStream q s)
      | none =>
        match hostClass s with
        | some (.write w) =>
          if w.seg = none ∧ freeCount s = 0 then storeKickFuel fuel (judgeFull w.id s)
          else noteHost (.write w) (grantStream (.write w) s)
        | some q => noteHost q (grantStream q s)
        | none =>
          match s.store.maint with
          | m :: rest => modStore (fun t => { t with maint := rest, grant := some (.maint m) }) s
          | [] => s

/-- The arbiter grants the next waiting request when the port is free (R148). Each judgement takes a writer's request away,
so the writers bound the search. -/
def storeKick (s : State) : State := storeKickFuel (s.store.writers.length + 1) s

/-- The port is free again. -/
def freePort : State → State := modStore fun t => { t with grant := none }

/-! ### Writing requests of the engines and the host -/

/-- Bytes join a line's writing stream; the message's length follows the bytes accepted (R138, R146). -/
def appendBytes (id : Nat) (bs : List Byte) (s : State) : State :=
  match findWriter s id with
  | some w =>
    let w' := w.pushAll (roomFor s w) bs
    storeKick (modEntry id (fun e => { e with length := e.length + (w'.accepted - w.accepted) }) (modWriter id (fun _ => w') s))
  | none => s

/-- An overrun or underrun of a stream of the line, which the line's block end delivers as STREAM_SLIP (R146). -/
def noteSlip (l : Line) : State → State := modIface l fun i => { i with slipped := true }

/-- Bytes would be dropped from these: the buffers of the stream do not take them all (R146). -/
def dropsBytes (s : State) (id : Nat) (bs : List Byte) : Bool :=
  match findWriter s id with
  | some w => decide ((w.pushAll (roomFor s w) bs).accepted < w.accepted + bs.length)
  | none => false

/-- Speech joins a line's writing stream byte by byte; dropped bytes are an overrun (R146, R184). -/
def appendSpeech (l : Line) (id : Nat) (bs : List Byte) (s : State) : State :=
  appendBytes id bs (if dropsBytes s id bs then noteSlip l s else s)

/-- The record was accepted: the stream would have taken it. -/
def recordFits (s : State) (id n : Nat) : Bool :=
  match findWriter s id with
  | some w => w.fits (roomFor s w) n && !w.failed
  | none => false

/-- A whole fax record or page header joins a line's writing stream, or is refused whole as an overrun (R146). -/
def appendRecord (l : Line) (id : Nat) (bs : List Byte) (s : State) : State :=
  if recordFits s id bs.length then appendBytes id bs s else noteSlip l s

/-- The bytes of a message accepted so far. -/
def acceptedOf (s : State) (id : Nat) : Nat := ((findWriter s id).map WStream.accepted).getD 0

/-- The bytes of a message written, a granted write counted. -/
def writtenOf (s : State) (id : Nat) : Nat := ((findWriter s id).map WStream.written).getD 0

/-! ### Close requests -/

/-- A close with reason, truncated flag and pages (R147); the stream is no longer its owner's current stream. -/
def closeMessageAs (id : Nat) (reason : EndReason) (truncated : Bool) (pages : Nat) (s : State) : State :=
  storeKick (progressClose id
    (modEntry id (fun e => { e with pages := pages, truncated := truncated })
      (leaveWaiting id (modWriter id (fun w => { w with
        active := false, failed := false, closing := some ⟨reason, truncated, pages, false, false⟩ }) s))))

/-- The stream's cut is still going on. -/
def cutGoesOn (s : State) (id : Nat) : Bool := ((findWriter s id).map fun w => decide (w.cut ≠ .none)).getD false

/-- A close with erase: the message is taken for erase at once, with MESSAGE EMPTY, whatever cut of it goes on: its erase takes over
the segments the cut was to free (R147, R154). -/
def closeWithErase (id : Nat) (s : State) : State := storeKick (closeErase id s)

/-- A close with erase behind the cut of a BAD page that is still in progress, which completes first (R173); at once where that cut is
complete. -/
def closeEraseAfterCut (id : Nat) (s : State) : State :=
  if cutGoesOn s id then
    storeKick (leaveWaiting id (modWriter id (fun w => { w with
      active := false, failed := false, closing := some ⟨.empty, false, 0, false, true⟩ }) s))
  else closeWithErase id s

/-- The cut that comes before a close, where the final length is below the bytes accepted (R147, R186). -/
def cutFirst (id len : Nat) (s : State) : State := if len < acceptedOf s id then cutTo id len s else s

/-- A close at a final length, which acts as a cut first (R147). -/
def closeAt (id len : Nat) (reason : EndReason) (truncated : Bool) (pages : Nat) (s : State) : State :=
  closeMessageAs id reason truncated pages (cutFirst id len s)

/-! ### Reading requests -/

/-- A reading stream is opened at an offset; its reference has been taken (R146). -/
def openReader (o : Owner) (id offset length : Nat) (s : State) : State :=
  storeKick (setReader o (some
      { id := id, position := offset, length := length, buffers := [], nextSeq := seqOf offset, ready := false,
        region := none, tag := s.store.nextTag })
    (modStore (fun t => { t with nextTag := t.nextTag + 1 }) s))

/-- A reading stream goes on from another offset of the same message: the old stream closes and a new one opens; the
reference passes over (log entry 14). -/
def moveReader (o : Owner) (offset : Nat) (s : State) : State :=
  match readerOf s o with
  | some r => openReader o r.id offset r.length s
  | none => s

/-- A reading stream closes and its reference is returned. -/
def closeReader (o : Owner) (s : State) : State :=
  match readerOf s o with
  | some r => storeKick (returnRef r.id (setReader o none s))
  | none => s

/-- So many bytes are taken from a line's reading stream. -/
def takeBytes (o : Owner) (n : Nat) (s : State) : State :=
  match readerOf s o with
  | some r => storeKick (setReader o (some (r.advance n)) s)
  | none => s

/-- A line's reading stream meets an underrun; none is counted before the stream is ready (R146). -/
def noteUnderrun (l : Line) (s : State) : State :=
  match readerOf s (.line l) with
  | some r => if r.ready then noteSlip l s else s
  | none => s

/-- The line has a stream open, writing or reading; a stream whose close goes on is one: DESIGN CHOICE, log entry 100. -/
def hasStream (s : State) (l : Line) : Bool :=
  (s.store.writers.any fun w => decide (w.owner = .line l)) || (readerOf s (.line l)).isSome

/-- The STREAM_SLIP condition of a line: an overrun or underrun since the last block end; a line with no stream open delivers clear
(R32, R146). -/
def streamSlip (s : State) (l : Line) : Bool := (s.line l).iface.slipped && hasStream s l

/-- The mark of overrun and underrun of a line is cleared at its block end. -/
def clearSlip (l : Line) : State → State := modIface l fun i => { i with slipped := false }

/-! ### READY (R139) -/

/-- The store enters READY: STORE READY with the number of messages, and dispatch is evaluated for both lines, for line A first: DESIGN
CHOICE, log entry 76. -/
def enterReady (s : State) : State :=
  post (.dispatch .B) (post (.dispatch .A)
    (queueReport (.store .ready s.store.dir.length) (modStore (fun t => { t with st := .ready, scan := none }) s)))

/-- The scan ends when its last write has completed (R141). -/
def scanEnd (s : State) : State :=
  if s.store.st = .scanning ∧ (s.store.scan.map (·.judged)).getD false = true ∧ s.store.maint = [] ∧ s.store.grant = none then
    enterReady s
  else s

end Sys2Proof.Machine
end

