-- ==== Sys2Proof/Machine/StoreOps.lean ====
section
/-! DEFINITION. The steps of the message store: completions of the memory port (R146 to R148), the scan (R140, R141), and
the store directives (R142, R149 to R156). -/

namespace Sys2Proof.Machine

/-! ### Completions of segment transfers (R146, R147) -/

/-- The memory with a segment written: header, the copy for sequence 0 without its closed mark, payload (R137, R146). -/
def writeSegment (mem : List Host.Cell) (e : Entry) (seg seq : Nat) (payload : List Byte) : List Host.Cell :=
  let mem := Memory.writeBytes mem (segAddress seg 0) (usedHeader e.id seq payload.length)
  let mem := if seq = 0 then Memory.writeBytes mem (segAddress seg 8) (copyBytes e false) else mem
  Memory.writeBytes mem (segAddress seg (segPayloadStart seq)) payload

/-- What the completed write leaves of the stream: the bytes leave the buffer, and a full segment moves it on. -/
def WStream.afterWrite (w : WStream) : WStream :=
  let n := (w.handed.map List.length).getD 0
  let full := decide (segCapacity w.seq ≤ n)
  { w with
    handed := none, granted := false, base := w.base + n
    seq := if full then w.seq + 1 else w.seq
    seg := if full then none else w.seg
    inStore := 0 }.handOver

/-- What follows a completed write: a failed stream ends, a waiting cut is carried out, a close goes on. -/
def afterWriteActions (id : Nat) (s : State) : State :=
  match findWriter s id with
  | some w =>
    if w.failed ∧ w.active = false then removeWriter id s
    else
      match w.cut with
      | .waiting len => carryCut id len s
      | _ => progressClose id s
  | none => s

/-- SEGMENT_WRITE_COMPLETE: the granted segment write completes (R146). -/
def opSegmentWriteComplete (s : State) : State :=
  match s.store.grant with
  | some (.write id seg) =>
    let s := freePort s
    match findWriter s id, findEntry s id with
    | some w, some e =>
      let s := modStore (fun t => { t with memory := writeSegment t.memory e seg w.seq (w.handed.getD []) }) s
      let s := afterWriteActions id (modWriter id WStream.afterWrite s)
      storeKick (if w.owner = .host then lholdLeft .store s else s)
    | _, _ => storeKick s
  | _ => s

/-- The payload bytes of a segment from a message offset up to another. -/
def segmentBytes (mem : List Host.Cell) (seg seq lo hi : Nat) : List Byte :=
  Memory.readBytes mem (segAddress seg (segPayloadStart seq + (lo - segStart seq))) (hi - lo)

/-- A segment has been read into a buffer of a reading stream, which is then ready (R146). -/
def readerFilled (mem : List Host.Cell) (seg seq : Nat) (r : RStream) : RStream :=
  let lo := max (segStart seq) r.position
  let hi := min (segStart seq + segCapacity seq) r.length
  let bytes := segmentBytes mem seg seq lo hi
  { r with buffers := if bytes = [] then r.buffers else r.buffers ++ [bytes], nextSeq := seq + 1, ready := true }

/-- The bytes of a written segment are back in the buffer; the cut may be complete (R147). That a cut with no FREE write left is told complete
here is DESIGN CHOICE, log entry 101. RESET LINE does not discard this read:
DESIGN CHOICE, log entry 69. -/
def readBackDone (id seg : Nat) (s : State) : State :=
  match findWriter s id with
  | some w =>
    match w.cut with
    | .running frees (some n) =>
      if w.seg = some seg then
        let bytes := segmentBytes s.store.memory seg w.seq (segStart w.seq) (segStart w.seq + n)
        let s := modWriter id (fun w => { w with filling := bytes ++ w.filling, cut := .running frees none }) s
        if frees = 0 then cutFinished id s else s
      else s
    | _ => s
  | none => s

/-- What an owner learns of bytes read: a line's engine may go on; the upstream arbiter may find the source ready. -/
def announceRead (o : Owner) (s : State) : State :=
  match o with
  | .line l => post (.readArrived l) s
  | .host => arbiterKick s

/-- SEGMENT_READ_COMPLETE: a segment read completes (R146); a read for a stream that has closed is discarded. -/
def opSegmentReadComplete (s : State) : State :=
  match s.store.grant with
  | some (.read o tag _ seg seq) =>
    let s := freePort s
    match readerOf s o with
    | some r =>
      if r.tag = tag then storeKick (announceRead o (setReader o (some (readerFilled s.store.memory seg seq r)) s))
      else storeKick s
    | none => storeKick s
  | some (.readBack id seg) => storeKick (readBackDone id seg (freePort s))
  | _ => s

/-! ### FREE headers, cuts, erases (R143, R147, R154) -/

/-- An erase ends when its last segment has joined the pool: the entry leaves, MESSAGE ERASED is queued, and the waiting
writers are judged afresh. -/
def eraseEnd (id : Nat) (s : State) : State :=
  match findEntry s id with
  | some e =>
    if e.state = .erasing ∧ e.chain = [] then
      judgeWaiting (queueReport (.message id e.kind e.mailbox 0 .erased) (removeEntry id s))
    else s
  | none => s

/-- A freed segment leaves its chain and joins the pool; a segment whose message a format has removed does neither. -/
def freedFromChain (id seg : Nat) (s : State) : State :=
  match findEntry s id with
  | some e =>
    if seg ∈ e.chain then joinPool seg (modEntry id (fun e => { e with chain := e.chain.filter fun g => decide (g ≠ seg) }) s)
    else s
  | none => s

/-- What a completed FREE header write brings. -/
def freeDone (seg : Nat) (why : FreeFor) (s : State) : State :=
  match why with
  | .erase id => eraseEnd id (freedFromChain id seg s)
  | .cut id => cutFreed id (eraseEnd id (freedFromChain id seg s))
  | .scan => scanEnd (joinPool seg s)
  | .format => if s.store.st = .formatting then joinPool seg s else s

/-- The FREE header is in the memory and its effect taken. -/
def completeFree (seg : Nat) (why : FreeFor) (s : State) : State :=
  storeKick (freeDone seg why (modStore (fun t => { t with
    grant := none, memory := Memory.writeBytes t.memory (segAddress seg 0) freeHeader }) s))

/-- The FREE header write under way is the last write of a cut. -/
def lastOfCut (s : State) (id : Nat) : Bool :=
  match (findWriter s id).map (·.cut) with
  | some (CutState.running n rb) => decide (n ≤ 1) && rb.isNone
  | _ => false

/-- FREE_HEADER_WRITE_COMPLETE: a FREE header write completes, but for the last write of a cut (R143). -/
def opFreeHeaderWriteComplete (s : State) : State :=
  match s.store.grant with
  | some (.maint (.freeHeader seg why)) =>
    match why with
    | .cut id => if lastOfCut s id then s else completeFree seg why s
    | _ => completeFree seg why s
  | _ => s

/-- CUT_COMPLETE: the last FREE header write of a cut completes and the writer is told (R147). -/
def opCutComplete (s : State) : State :=
  match s.store.grant with
  | some (.maint (.freeHeader seg (.cut id))) => if lastOfCut s id then completeFree seg (.cut id) s else s
  | _ => s

/-! ### Copy and header rewrites (R147, R168) -/

/-- The mailbox's new flag is set when a recording closes into it (R180). -/
def setNewFlag (mailbox : Option Nat) (s : State) : State :=
  match mailbox with
  | some m => { s with mailboxes := s.mailboxes.modify m fun x => { x with isNew := true } }
  | none => s

/-- A message becomes CLOSED at the completion of its copy rewrite: MESSAGE, the unheard list, the mailbox flag. -/
def closeDone (id : Nat) (c : Closing) (s : State) : State :=
  match findEntry s id with
  | some e =>
    let s := removeWriter id (modEntry id (fun e => { e with
      state := .closed, writer := none, truncated := c.truncated, pages := c.pages }) s)
    let s := queueReport (.message id e.kind e.mailbox e.length c.reason) s
    let s := joinUnheard id s
    if e.kind = .voice then setNewFlag e.mailbox s else s
  | none => s

/-- The closing stream of a message whose copy rewrite has been asked for. -/
def closingOf (s : State) (id : Nat) : Option Closing :=
  ((findWriter s id).bind (·.closing)).filter (·.copyAsked)

/-- The memory with the copy of a message rewritten with its closed mark. -/
def rewriteCopy (mem : List Host.Cell) (e : Entry) : List Host.Cell :=
  match e.chain with
  | seg :: _ => Memory.writeBytes mem (segAddress seg 8) (copyBytes e true)
  | [] => mem

/-- COPY_REWRITE_COMPLETE: a directory copy rewrite completes (R147, R155, R141). -/
def opCopyRewriteComplete (s : State) : State :=
  match s.store.grant with
  | some (.maint (.copyRewrite id)) =>
    let s := freePort s
    match findEntry s id with
    | some e =>
      let s := modStore (fun t => { t with memory := rewriteCopy t.memory e }) s
      match closingOf s id with
      | some c => storeKick (closeDone id c s)
      | none => storeKick (scanEnd s)
    | none => storeKick (scanEnd s)
  | _ => s

/-- Bytes rewritten in the memory are rewritten too in the buffer that holds the same segment again. -/
def WStream.patched (w : WStream) (seq at_ : Nat) (bytes : List Byte) : WStream :=
  if w.seq = seq ∧ w.toReadBack = none then
    if w.handed.isSome then { w with handed := w.handed.map fun h => patchList h at_ bytes }
    else { w with filling := patchList w.filling at_ bytes }
  else w

/-- HEADER_REWRITE_COMPLETE: a maintenance rewrite of a page header completes (R168, R197). -/
def opHeaderRewriteComplete (s : State) : State :=
  match s.store.grant with
  | some (.maint (.headerRewrite id seq at_ bytes)) =>
    let s := modWriter id (fun w => w.patched seq at_ bytes) (freePort s)
    match (findEntry s id).bind fun e => e.chain[seq]? with
    | some seg =>
      storeKick (scanEnd (modStore (fun t => { t with
        memory := Memory.writeBytes t.memory (segAddress seg (segPayloadStart seq + at_)) bytes }) s))
    | none => storeKick (scanEnd s)
  | _ => s

/-! ### The scan (R140, R141) -/

/-- The scan's state changed. -/
def modScan (f : Scan → Scan) : State → State := modStore fun t => { t with scan := t.scan.map f }

/-- A maintenance request is made. -/
def askMaint (m : Maint) : State → State := modStore fun t => { t with maint := t.maint ++ [m] }

/-- The copy read back for an id from its first segment. -/
def scanCopy (mem : List Host.Cell) (id seg : Nat) : Option (Entry × Bool) :=
  readCopy id (Memory.readBytes mem (segAddress seg 8) 56)

/-- The grouped segments of an id in sequence order: exactly 0 to n − 1, each once. -/
def scanChain (groups : List ScanSeg) (id : Nat) : Option (List ScanSeg) :=
  let segs := groups.filter fun g => decide (g.id = id)
  let n := segs.length
  let ordered := (List.range n).filterMap fun i => segs.find? fun g => decide (g.seq = i)
  if ordered.length = n then some ordered else none

/-- Every segment but the last holds its capacity. -/
def fullButLast : List ScanSeg → Bool
  | [] => true
  | [_] => true
  | g :: rest => decide (g.used = segCapacity g.seq) && fullButLast rest

/-- What the scan has found of an id, if it may be kept: its chain, its entry and its closed mark (R141). -/
def scanFound (mem : List Host.Cell) (groups : List ScanSeg) (id : Nat) : Option (List ScanSeg × Entry × Bool) :=
  match scanChain groups id with
  | some chain =>
    match chain.head? with
    | some first =>
      match scanCopy mem id first.seg with
      | some (e, closed) =>
        if fullButLast chain then some (chain, { e with chain := chain.map (·.seg) }, closed) else none
      | none => none
    | none => none
  | none => none

/-- The ids grouped, in the order first met. -/
def scanIds (groups : List ScanSeg) : List Nat := (groups.map (·.id)).reverse.dedup.reverse

/-- A FAX message left open: the scan walks its pages. -/
def needsWalk (mem : List Host.Cell) (groups : List ScanSeg) (id : Nat) : Bool :=
  match scanFound mem groups id with
  | some (_, e, closed) => decide (e.kind = .fax) && !closed
  | none => false

/-- The bytes of a chain from an offset on, no further than its length. -/
def chainBytes (mem : List Host.Cell) (chain : List ScanSeg) : List Byte :=
  chain.flatMap fun g => segmentBytes mem g.seg g.seq (segStart g.seq) (segStart g.seq + g.used)

/-- The length of so many line records, when they lie wholly within the bytes. -/
def recordsLength : Nat → List Byte → Option Nat
  | 0, _ => some 0
  | n + 1, bytes =>
    match bytes with
    | h :: l :: rest =>
      let len := h.toNat * 256 + l.toNat
      if len ≤ rest.length then (recordsLength n (rest.drop len)).map (· + len + 2) else none
    | _ => none

/-- The line count of a stored page header, as the scan's walk takes it: any mark but the page mark, and the open line count,
end the walk (R197). -/
def walkHeader (b : List Byte) : Option Nat :=
  let lines := bytesNat ((b.drop 7).take 2)
  if b.length = 16 ∧ b.take 4 = [0x50#8, 0x41#8, 0x47#8, 0x45#8] ∧ lines ≠ openLines then some lines else none

/-- The walk over whole pages: the offset where the last whole page begins, the offset where it ends, and their number. -/
def walkPages : Nat → List Byte → Nat → Nat × Nat × Nat → Nat × Nat × Nat
  | 0, _, _, acc => acc
  | fuel + 1, bytes, at_, acc =>
    match walkHeader (bytes.take 16) with
    | some lines =>
      match recordsLength lines (bytes.drop 16) with
      | some n => walkPages fuel (bytes.drop (16 + n)) (at_ + 16 + n) (at_, at_ + 16 + n, acc.2.2 + 1)
      | none => acc
    | none => acc

/-- The judgement of an id (R141): kept with its entry, the segments to be freed, and the writes it asks for. -/
structure ScanVerdict where
  entry : Entry
  freed : List Nat
  writes : List Maint
deriving DecidableEq, Repr

/-- The flags byte of a stored page header with RECOVERED set, as a rewrite of one byte (R197). -/
def recoveredFlag (mem : List Host.Cell) (e : Entry) (pageStart : Nat) : Maint :=
  let o := pageStart + 14
  let seg := e.chain.getD (seqOf o) 0
  let at_ := o - segStart (seqOf o)
  .headerRewrite e.id (seqOf o) at_ [Memory.read mem (segAddress seg (segPayloadStart (seqOf o) + at_)) ||| 4#8]

/-- A message left open is recovered (R141); none when nothing of it remains. A segment that the cut-back of a FAX message falls inside keeps
its bytes used: DESIGN CHOICE, log entry 103. -/
def scanRecover (mem : List Host.Cell) (chain : List ScanSeg) (e : Entry) : Option ScanVerdict :=
  let total := (chain.map (·.used)).sum
  if e.kind = .fax then
    let bytes := chainBytes mem chain
    let (pageAt, len, pages) := walkPages (bytes.length / 16) bytes 0 (0, 0, 0)
    if pages = 0 then none
    else
      let keep := (e.chain.length - ((List.range e.chain.length).filter fun i => decide (len ≤ segStart i)).length)
      let e' := { e with length := len, pages := pages, recovered := true, chain := e.chain.take keep }
      some ⟨e', e.chain.drop keep, [recoveredFlag mem e' pageAt, .copyRewrite e.id]⟩
  else if total = 0 then none
  else some ⟨{ e with length := total, pages := 0, recovered := true }, [], [.copyRewrite e.id]⟩

/-- The judgement of an id. -/
def scanJudgeId (mem : List Host.Cell) (groups : List ScanSeg) (id : Nat) : Option ScanVerdict :=
  match scanFound mem groups id with
  | some (chain, e, closed) => if closed then some ⟨e, [], []⟩ else scanRecover mem chain e
  | none => none

/-- The verdicts in ascending creation order. -/
def insertVerdict (v : ScanVerdict) : List ScanVerdict → List ScanVerdict
  | [] => [v]
  | w :: rest => if v.entry.creation < w.entry.creation then v :: w :: rest else w :: insertVerdict v rest

/-- The segments of a dropped id, in ascending order of reading. -/
def groupSegs (groups : List ScanSeg) (id : Nat) : List Nat := (groups.filter fun g => decide (g.id = id)).map (·.seg)

/-- An id is dropped: its segments are to be freed and STORE SCAN_DROP is queued. -/
def scanDrop (groups : List ScanSeg) (s : State) (id : Nat) : State :=
  queueReport (.store .scanDrop id)
    (modStore (fun t => { t with maint := t.maint ++ (groupSegs groups id).map fun g => .freeHeader g .scan }) s)

/-- A kept message enters the directory with its writes. -/
def scanKeep (s : State) (v : ScanVerdict) : State :=
  modStore (fun t => { t with
    dir := t.dir ++ [v.entry], maint := t.maint ++ (v.freed.map fun g => .freeHeader g .scan) ++ v.writes }) s

/-- The greatest creation number of a directory and the id that has it. -/
def newest (dir : List Entry) : Option (Nat × Nat) :=
  dir.foldl (fun m e => match m with
    | some (c, i) => if c < e.creation then some (e.creation, e.id) else some (c, i)
    | none => some (e.creation, e.id)) none

/-- The lists and counters the scan rebuilds (R141). The greatest creation number found is taken over the kept messages alone, not over good
copies of dropped ids: DESIGN CHOICE, log entry 83. -/
def scanRebuild (s : State) : State :=
  let s := modStore (fun t => { t with
    unheard := ((t.dir.filter Entry.unheard).map (·.id)).dedup
    creation := match newest t.dir with | some (c, _) => nextCreation c | none => 0
    nextId := match newest t.dir with | some (_, i) => skipIds t.dir 97 (nextIdAfter i) | none => 1 }) s
  (s.store.dir.filter fun e => e.unheard && decide (e.kind = .voice)).foldl (fun s e => setNewFlag e.mailbox s) s

/-- Every header and page has been read: each grouped id is judged, the directory and lists are rebuilt (R141). The SCAN_DROP
reports go in the order in which the ids were first met, then those of the excess over 96 in creation order: DESIGN CHOICE, log entry
92. -/
def scanJudge (s : State) : State :=
  match s.store.scan with
  | some sc =>
    let mem := s.store.memory
    let ids := scanIds sc.groups
    let good := ids.filterMap fun id => scanJudgeId mem sc.groups id
    let ordered := good.foldl (fun l v => insertVerdict v l) []
    let excess := ordered.take (ordered.length - 96)
    let kept := ordered.drop (ordered.length - 96)
    let s := (ids.filter fun id => (scanJudgeId mem sc.groups id).isNone).foldl (scanDrop sc.groups) s
    let s := (excess.map (·.entry.id)).foldl (scanDrop sc.groups) s
    let s := modStore (fun t => { t with dir := [], unheard := [] }) s
    let s := scanRebuild (kept.foldl scanKeep s)
    scanEnd (modScan (fun c => { c with judged := true }) s)
  | none => s

/-- The next page read of the scan, or its judgement. -/
def scanWalkNext (s : State) : State :=
  match s.store.scan with
  | some sc =>
    match sc.walk with
    | g :: rest => askMaint (.scanRead (.walk g)) (modScan (fun c => { c with walk := rest }) s)
    | [] => scanJudge s
  | none => s

/-- The next header read of the scan; after the last, the segments of the FAX messages left open are read, each
of them by one read, message by message in the order first met: DESIGN CHOICE, log entry 93. -/
def scanNext (s : State) : State :=
  match s.store.scan with
  | some sc =>
    match sc.todo with
    | g :: rest => askMaint (.scanRead (.header g)) (modScan (fun c => { c with todo := rest }) s)
    | [] =>
      let ids := (scanIds sc.groups).filter (needsWalk s.store.memory sc.groups)
      scanWalkNext (modScan (fun c => { c with walk := ids.flatMap (groupSegs sc.groups) }) s)
  | none => s

/-- The label has been read (R140). -/
def scanLabel (s : State) : State :=
  match readLabel (Memory.readBytes s.store.memory 0 24) with
  | some (regions, n) =>
    scanNext (modScan (fun c => { c with todo := presentSegments regions })
      (modStore (fun t => { t with regions := regions, formatCount := n }) s))
  | none =>
    queueReport (.store .unformatted 0) (modStore (fun t => { t with
      st := .unformatted, scan := none, regions := List.replicate 4 absentRegion, formatCount := 0 }) s)

/-- A segment header has been read (R140). -/
def scanHeader (seg : Nat) (s : State) : State :=
  match readHeader (Memory.readBytes s.store.memory (segAddress seg 0) 8) with
  | .used id seq used =>
    let s := modScan (fun c => { c with groups := c.groups ++ [⟨seg, id, seq, used⟩] }) s
    if seq = 0 then askMaint (.scanRead (.copy seg)) s else scanNext s
  | .free => scanNext (joinPool seg s)
  | .bad => scanNext (askMaint (.freeHeader seg .scan) s)

/-- A scan read has been made. -/
def scanReadDone (r : ScanRead) (s : State) : State :=
  match r with
  | .label => scanLabel s
  | .header seg => scanHeader seg s
  | .copy seg => scanNext (modScan (fun c => { c with copies := c.copies ++ [seg] }) s)
  | .walk _ => scanWalkNext s

/-- SCAN_READ_COMPLETE: a scan read of the label, a header or a copy completes (R140, R141). -/
def opScanReadComplete (s : State) : State :=
  match s.store.grant with
  | some (.maint (.scanRead r)) => storeKick (scanReadDone r (freePort s))
  | _ => s

/-! ### FORMAT (R142) -/

/-- A message is OPEN or referenced, or a job is listed. -/
def formatBlocked (s : State) : Bool :=
  (s.store.dir.any fun e => decide (e.state = .opened ∨ 0 < e.inUse)) || !s.jobs.isEmpty

/-- The region table of a FORMAT, when every value is one of those of R136 and region 0 is present. -/
def formatTable (raw : List RegionParams) : Option (List Region) :=
  match raw.mapM fun r => regionOf r.present r.sizeCode r.width r.waitStates with
  | some regions => if (regions.headD absentRegion).present then some regions else none
  | none => none

/-- The format is started (R142). -/
def startFormat (regions : List Region) (s : State) : State :=
  let s := modStore (fun t => { t with
    st := .formatting
    regions := regions
    formatCount := if t.formatCount < 65535 then t.formatCount + 1 else 0
    free := [], dir := [], unheard := [], nextId := 1, creation := 0
    writers := [], waiting := []
    maint := [.label false] ++ (presentSegments regions).map (fun g => .freeHeader g .format) ++ [.label true] }) s
  storeKick { s with mailboxes := s.mailboxes.map fun m => { m with isNew := false } }

/-- FORMAT (R142). -/
def opFormat (raw : List RegionParams) (s : State) : State :=
  let code := 0x67#8
  if s.store.st = .scanning ∨ s.store.st = .formatting then done code .notReady [] s
  else
    match formatTable raw with
    | none => done code .badParam [] s
    | some regions =>
      if formatBlocked s then done code .inUse [] s
      else startFormat regions (done code .ok (numBytes 2 (presentSegments regions).length) s)

/-- LABEL_WRITE_COMPLETE: a label write of a format completes; the final one puts the store in READY (R142). -/
def opLabelWriteComplete (s : State) : State :=
  match s.store.grant with
  | some (.maint (.label mark)) =>
    let s := modStore (fun t => { t with
      grant := none, memory := Memory.writeBytes t.memory 0 (labelBytes mark t.regions t.formatCount) }) s
    storeKick (if mark then enterReady s else s)
  | _ => s

/-! ### STORESET (R156) -/

/-- STORESET (R156). -/
def opStoreset (reserve policy watermark orderMode : Byte) (s : State) : State :=
  let code := 0x73#8
  if storeReady s = false then done code .notReady [] s
  else
    match FullPolicy.ofCode policy.toNat, OrderMode.ofCode orderMode.toNat with
    | some p, some o =>
      let w := min 96 watermark.toNat
      let s := modStore (fun t => { t with settings := ⟨reserve.toNat, p, w, o⟩ }) s
      let s := done code .ok [] s
      if w ≠ 0 ∧ w ≤ s.store.unheard.length then queueReport (.store .watermark s.store.unheard.length) s else s
    | _, _ => done code .badParam [] s

/-! ### Host streams (R149 to R151) -/

/-- A kind and a coding agree: VOICE has one, FAX has none (R149). -/
def kindCodingAgree : MsgKind → Coding → Bool
  | .voice, c => decide (c ≠ .none)
  | .fax, c => decide (c = .none)
  | .file, _ => true

/-- OPEN (R149). A host-written message that a full store ended is never CLOSED; while it is in ERASING, OPEN is not BUSY: DESIGN CHOICE, log
entry 82. -/
def opOpen (kind coding : Byte) (s : State) : State :=
  let code := 0x4F#8
  if storeReady s = false then done code .notReady [] s
  else
    match MsgKind.ofCode kind.toNat, Coding.ofCode coding.toNat with
    | some k, some c =>
      if kindCodingAgree k c = false then done code .badParam [] s
      else if (hostWriter s).isSome then done code .busy [] s
      else if 96 ≤ s.store.dir.length then done code .tableFull [] s
      else if freeCount s ≤ s.store.settings.reserve then done code .storeFull [] s
      else
        let id := freshId s
        let s := modStore (fun t => { t with hostFail := false }) (createMessage .host k none c s)
        lholdLeft .store (done code .ok (numBytes 2 id) s)
    | _, _ => done code .badParam [] s

/-- CLOSE (R150). The pages of a host-written FAX message are 0: DESIGN CHOICE, log entry 70, the spec gives no value. -/
def opClose (s : State) : State :=
  let code := 0x57#8
  if storeReady s = false then done code .notReady [] s
  else if s.store.hostFail then done code .storeFull [] s
  else
    match activeWriter s .host with
    | none => done code .badState [] s
    | some w =>
      let len := ((findEntry s w.id).map (·.length)).getD 0
      let s := done code .ok (numBytes 4 len) s
      if len = 0 then removeEntry w.id (removeWriter w.id s)
      else lholdLeft .store (closeMessageAs w.id (.byRelease .host) false 0 s)

/-- The read in progress stops (R151). -/
def stopHostRead (s : State) : State := closeReader .host (staleSource .hostRead s)

/-- READ (R151). -/
def opRead (message : Word16) (offset : Word32) (s : State) : State :=
  let code := 0x52#8
  if storeReady s = false then done code .notReady [] s
  else if message.toNat = 0 then
    if s.store.readHost.isSome then done code .ok (numBytes 4 0) (stopHostRead s) else done code .noEntry [] s
  else if s.store.readHost.isSome then done code .busy [] s
  else
    match findEntry s message.toNat with
    | some e =>
      if e.state ≠ .closed ∨ e.erasePending then done code .noEntry [] s
      else if e.length < offset.toNat then done code .badParam [] s
      else if canRef s e.id = false then done code .noEntry [] s
      else
        let s := done code .ok (numBytes 4 (e.length - offset.toNat)) s
        if e.length = offset.toNat then s else openReader .host e.id offset.toNat e.length (takeRef e.id s)
    | none => done code .noEntry [] s

/-- A payload byte is accepted into the host write stream, which has room (R8, R149). -/
def acceptHostByte (b : Byte) (s : State) : State :=
  match activeWriter s .host with
  | some w =>
    let s := modWriter w.id (fun w => { w with filling := w.filling ++ [b] }.handOver) s
    storeKick (lholdJoined .store (modEntry w.id (fun e => { e with length := e.length + 1 }) s))
  | none => s

/-- A byte of the host read stream has been sent upstream; the read ends with the last byte of the message (R151). -/
def hostReadSent (s : State) : State :=
  match s.store.readHost with
  | some r =>
    let r' := r.advance 1
    if r'.length ≤ r'.position then closeReader .host s else storeKick (setReader .host (some r') s)
  | none => s

/-! ### Unheard list and erase (R153, R155) -/

/-- A message is acknowledged: it leaves the list, its fetched flag is set and a copy rewrite is requested. -/
def acknowledge (s : State) (id : Nat) : State :=
  askMaint (.copyRewrite id) (modEntry id (fun e => { e with fetched := true }) (leaveUnheard id s))

/-- NEWSACK (R155). -/
def opNewsack (message : Word16) (s : State) : State :=
  let code := 0x4E#8
  if storeReady s = false then done code .notReady [] s
  else
    match s.store.unheard.findIdx? fun id => decide (id = message.toNat) with
    | some i =>
      let ids := s.store.unheard.take (i + 1)
      storeKick (ids.foldl acknowledge (done code .ok (oneByte ids.length) s))
    | none => done code .noEntry [] s

/-- ERASE (R153). -/
def opErase (message : Word16) (s : State) : State :=
  let code := 0x55#8
  if storeReady s = false then done code .notReady [] s
  else
    match findEntry s message.toNat with
    | none => done code .noEntry [] s
    | some e =>
      if e.state = .erasing then done code .busy [] s
      else if e.state = .opened then done code .inUse [] s
      else if 0 < e.inUse then done code .ok [0#8] (modEntry e.id (fun e => { e with erasePending := true }) s)
      else storeKick (startErase e.id (done code .ok [1#8] s))

end Sys2Proof.Machine
end

