-- ==== Sys2Proof/Machine/LineInterface.lean ====
section
/-! DEFINITION. The line interface's operations (Chapter 2): hook and loop, extension, the tone generator, the caller
burst receiver, receive gain and levels, input-side monitors, the profile record, and MONCLEAR. -/

namespace Sys2Proof.Machine

/-! ### Hook and loop (R25) -/

/-- The hook closes (R25, R63): from ON_HOOK the debouncer enters WAIT; a line without a loop pin goes straight to PRESENT
and delivers loop-established. -/
def closeHook (l : Line) (s : State) : State :=
  let s := modIface l (fun i => { i with hook := true, loopSuspended := false }) s
  if (s.line l).iface.loop = .onHook then
    if hasPin s (loopFn l) then
      modIface l (fun i => { i with
        loop := .wait (s.now + 1000) (if i.loopIn then some (s.now + 20) else none) }) s
    else post (.loopUp l) (modIface l (fun i => { i with loop := .present }) s)
  else s

/-- The hook is released (R25): the debouncer is in ON_HOOK and LOOP_LOSS clears. -/
def releaseHook (l : Line) (s : State) : State :=
  setCondition l .loopLoss false (modIface l (fun i => { i with hook := false, loop := .onHook, loopSuspended := false }) s)

/-- The hook opens for a dial-pulse break or a flash: the debouncer is suspended and its timers stop (R25). -/
def openForDial (l : Line) : State → State := modIface l fun i => { i with hook := false, loopSuspended := true }

/-- The hook closes again after a break or flash: a debouncer in PRESENT or DOUBT resumes by the level of LOOP (R25). -/
def closeAfterDial (l : Line) (s : State) : State :=
  modIface l (fun i => { i with
    hook := true, loopSuspended := false
    loop := match i.loop with
      | .present => if i.loopIn || !hasPin s (loopFn l) then .present else .doubt (s.now + 300)
      | .doubt _ => if i.loopIn || !hasPin s (loopFn l) then .present else .doubt (s.now + 300)
      | other => other }) s

/-- The loop debouncer after a change of LOOP (R25). -/
def loopStep (now : Nat) (asserted : Bool) : LoopDeb → LoopDeb
  | .wait n _ => .wait n (if asserted then some (now + 20) else none)
  | .present => if asserted then .present else .doubt (now + 300)
  | .doubt due => if asserted then .present else .doubt due
  | other => other

/-- LOOP_INPUT_CHANGE: a line without a loop pin has no loop input, and a suspended debouncer keeps its place (R25). -/
def opLoopInputChange (l : Line) (asserted : Bool) (s : State) : State :=
  if hasPin s (loopFn l) then
    modIface l (fun i => { i with
      loopIn := asserted
      loop := if i.loopSuspended ∨ i.loopIn = asserted then i.loop else loopStep s.now asserted i.loop }) s
  else s

/-- A no-loop or loop-lost event: the debouncer is in LOST and LOOP_LOSS is set (R25). -/
def loseLoop (l : Line) (due : Nat) (s : State) : State :=
  setCondition l .loopLoss true (modIface l (fun i => { i with loop := .lost }) (elapse due s))

/-! ### Extension (R26) -/

/-- EXT_INPUT_CHANGE: the input changes level and restarts the 50 ms count (R26); a line without an extension pin has none. -/
def opExtInputChange (l : Line) (asserted : Bool) (s : State) : State :=
  if hasPin s (extFn l) then
    modIface l (fun i => { i with
      extIn := asserted
      extDue := if asserted = i.extState then none else if i.extIn = asserted then i.extDue else some (s.now + 50) }) s
  else s

/-! ### The tone generator (R36) -/

/-- The time a signal first sounds. -/
def ToneSignal.firstInterval : ToneSignal → Nat
  | .dtmf _ on _ => on
  | .answer => 3000
  | .faxCalling => 500
  | .dataCalling => 500
  | .beep _ duration => duration

/-- A signal is requested; it replaces a signal under way at once, whose requester gets an aborted event. -/
def requestTone (l : Line) (sig : ToneSignal) (s : State) : State :=
  let s := match (s.line l).iface.tone with
    | some g => post (.toneAborted l g.signal) s
    | none => s
  modIface l (fun i => { i with tone := some ⟨sig, true, s.now + sig.firstInterval⟩ }) s

/-- The requester stops its signal: no completion is delivered. -/
def stopTone (l : Line) : State → State := modIface l fun i => { i with tone := none }

/-- The generator stops at the entry to CLEARDOWN or IDLE, with an aborted event (R36). -/
def silenceTone (l : Line) (s : State) : State :=
  match (s.line l).iface.tone with
  | some g => post (.toneAborted l g.signal) (stopTone l s)
  | none => s

/-- DTMF_ON_TIME_END: the generator falls silent for the off-time while staying engaged (R36). -/
def opDtmfOnTimeEnd (l : Line) (s : State) : State :=
  match (s.line l).iface.tone with
  | some ⟨.dtmf d on off, true, due⟩ =>
    modIface l (fun i => { i with tone := some ⟨.dtmf d on off, false, due + off⟩ }) (elapse due s)
  | _ => s

/-- CALLING_TONE_TOGGLE: the on or off interval of a repeated calling tone ends (R36). -/
def opCallingToneToggle (l : Line) (s : State) : State :=
  match (s.line l).iface.tone with
  | some ⟨.faxCalling, on, due⟩ =>
    modIface l (fun i => { i with tone := some ⟨.faxCalling, !on, due + if on then 3000 else 500⟩ }) (elapse due s)
  | some ⟨.dataCalling, on, due⟩ =>
    modIface l (fun i => { i with tone := some ⟨.dataCalling, !on, due + if on then 2000 else 500⟩ }) (elapse due s)
  | _ => s

/-! ### The caller burst receiver (R27, R28) -/

/-- The caller record is formed from the bytes that arrived, and CALLER is queued; the receiver stops listening. -/
def formRecord (l : Line) (bytes : List Byte) (s : State) : State :=
  let s := modIface l (fun i => { i with window := .heard }) s
  match formCaller bytes with
  | some r => queueReport (.caller l r) (modIface l (fun i => { i with caller := some r }) s)
  | none => s

/-- A byte of the burst arrives within the window (R27). -/
def burstByte (l : Line) (s : State) (b : Byte) : State :=
  match (s.line l).iface.window with
  | .listening => modIface l (fun i => { i with window := .gathering [b] }) s
  | .gathering bs =>
    let bs' := bs ++ [b]
    if burstLength bs' = some bs'.length then formRecord l bs' s
    else modIface l (fun i => { i with window := .gathering bs' }) s
  | _ => s

/-- CALLER_BURST_BYTE (R27). -/
def opCallerBurstByte (l : Line) (b : Byte) (s : State) : State := burstByte l s b

/-- CALLER_MESSAGE: the remaining bytes arrive and complete the message (R28). -/
def opCallerMessage (l : Line) (rest : List Byte) (s : State) : State := rest.foldl (burstByte l) s

/-- CALLER_ABANDON: 100 ms of mark after the message's first byte (R27). -/
def opCallerAbandon (l : Line) (s : State) : State :=
  match (s.line l).iface.window with
  | .gathering bs => formRecord l bs s
  | _ => s

/-- The caller window closes; a message under way is abandoned (R27). -/
def closeWindow (l : Line) (s : State) : State :=
  match (s.line l).iface.window with
  | .gathering bs => modIface l (fun i => { i with window := .closed }) (formRecord l bs s)
  | _ => modIface l (fun i => { i with window := .closed }) s

/-- The caller window opens (R27). -/
def openWindow (l : Line) : State → State := modIface l fun i => { i with window := .listening }

/-! ### Gain and levels (R21 to R23) -/

/-- A raw sample with a gain index applied: truncated toward zero and saturated at ±32767 (R22). -/
def gainSample (index : Nat) (x : Sample) : Int := clampInt (-32767) 32767 ((x.toInt * (gainFactor index : Nat)).tdiv 4096)

/-- The floor of the mean of the magnitudes of a block (R21, R23). -/
def meanMagnitude (xs : List Int) : Nat := (xs.map Int.natAbs).sum / 80

/-- Raw samples at or beyond the clipping level (R21, R32). -/
def clipCount (xs : List Sample) : Nat := (xs.filter fun x => decide (32600 ≤ x.toInt.natAbs)).length

/-- The AGC is active (R23). -/
def agcActive (s : State) (l : Line) : Bool := farEndExpected s l

/-- The direction in which the AGC wants the index to move, for a post-gain level and a target (R23). -/
def agcWants (level target : Nat) : Ordering :=
  if target + target / 4 < level then .lt else if level < target - target / 4 then .gt else .eq

/-- The AGC wants to pass its limit (R23). -/
def agcAtLimit (gain level target : Nat) : Bool :=
  match agcWants level target with
  | .lt => decide (gain = 0)
  | .gt => decide (gain = 72)
  | .eq => false

/-- The index after a block (R23). -/
def agcMove (gain level target : Nat) : Nat :=
  match agcWants level target with
  | .lt => gain - 1
  | .gt => min 72 (gain + 1)
  | .eq => gain

/-- The end of a block for the gain: the post-gain level and, while the AGC is active, the index and the count of GAIN_LIMIT
(R23, R32). The counts of R32 stop at their limits. -/
def gainBlock (l : Line) (postLevel : Nat) (s : State) : State :=
  let target := (s.line l).profile.agcTarget
  if agcActive s l then
    modIface l (fun i => { i with
      postLevel := postLevel
      gain := agcMove i.gain postLevel target
      gainRun := if agcAtLimit i.gain postLevel target then min 10 (i.gainRun + 1) else 0 }) s
  else modIface l (fun i => { i with postLevel := postLevel }) s

/-- The next block is gained with the index that stands now (R22). -/
def latchGain (l : Line) : State → State := modIface l fun i => { i with blockGain := i.gain }

/-! ### Input-side monitor conditions (R32) -/

/-- LEVEL_LOW at a block end: its three-block counts run while a far-end signal is expected. -/
def levelLowBlock (l : Line) (s : State) : State :=
  let x := s.line l
  let fl := x.profile.levelFloor
  if x.iface.expecting then
    let s := modIface l (fun i => { i with
      lowRun := if i.preLevel < fl then min 3 (i.lowRun + 1) else 0
      highRun := if fl + fl / 4 ≤ i.preLevel then min 3 (i.highRun + 1) else 0 }) s
    if (s.line l).iface.lowRun = 3 then setCondition l .levelLow true s
    else if (s.line l).iface.highRun = 3 then setCondition l .levelLow false s
    else s
  else s

/-- CLIP at a block end. -/
def clipBlock (l : Line) (clipped : Nat) (s : State) : State := setCondition l .clip (decide (4 ≤ clipped)) s

/-- GAIN_LIMIT at a block end: set by ten blocks in a row, cleared when the index moves off its limit. -/
def gainLimitBlock (l : Line) (before : Nat) (s : State) : State :=
  let i := (s.line l).iface
  if i.gainRun = 10 ∧ agcActive s l then setCondition l .gainLimit true s
  else if (before = 0 ∨ before = 72) ∧ i.gain ≠ before then setCondition l .gainLimit false s
  else s

/-- The gain index returns to 24 (R23); off a limit, GAIN_LIMIT clears (R32). -/
def resetGain (l : Line) : State → State := modIface l fun i => { i with gain := 24, gainRun := 0 }

/-! ### The profile record (R37, 10.3) -/

/-- A value within its field's enumeration, or any value of a numeric field (R37 check 2). -/
def profileValueOk (field : Nat) (v : Nat) : Bool :=
  match field with
  | 0x01 => decide (v ≤ 4)
  | 0x04 | 0x05 | 0x06 => decide (v / 256 ≤ 4)
  | 0x07 | 0x08 | 0x09 | 0x12 | 0x15 | 0x20 | 0x39 => decide (v ≤ 1)
  | 0x18 | 0x19 | 0x1A | 0x1B | 0x1C | 0x1D | 0x1E | 0x1F => decide (v ≤ 7)
  | 0x38 => decide (v = 3 ∨ v = 4 ∨ v = 5)
  | 0x3A => decide (v = 0 ∨ v = 5 ∨ v = 10 ∨ v = 20 ∨ v = 40)
  | _ => true

/-- The identifier names a field (10.3). -/
def profileFieldNamed (field : Nat) : Bool :=
  decide ((1 ≤ field ∧ field ≤ 0x15) ∨ (0x18 ≤ field ∧ field ≤ 0x22) ∨ (0x28 ≤ field ∧ field ≤ 0x2C) ∨
    (0x30 ≤ field ∧ field ≤ 0x31) ∨ (0x38 ≤ field ∧ field ≤ 0x3D) ∨ (0x40 ≤ field ∧ field ≤ 0x43))

/-- The field is locked outside IDLE (R37 check 3). -/
def profileFieldLocked (field : Nat) : Bool := decide ((0x30 ≤ field ∧ field ≤ 0x31) ∨ (0x38 ≤ field ∧ field ≤ 0x3A))

/-- A ring-class map value: high byte call mode, low byte mailbox, the mailbox clamped. -/
def ringMapValue (v : Nat) : CallMode × Nat := ((CallMode.ofCode (v / 256)).getD .off, clamp 0 7 (v % 256))

/-- A monitor source's settings from its value. -/
def monValue (v : Nat) : MonCfg := ⟨v.testBit 0, v.testBit 1, if v.testBit 2 then .error else .warning⟩

/-- The monitor source of an identifier 18H to 1FH. -/
def monSourceOf (field : Nat) : MonSource := monSources.getD (field - 0x18) .levelLow

/-- One profile pair written, the numeric values clamped to the ranges of R38, R92, R115, R135, R175 and R192. -/
def Profile.write (p : Profile) (field v : Nat) : Profile :=
  match field with
  | 0x01 => { p with answerMode := (CallMode.ofCode v).getD .off }
  | 0x02 => { p with rings := clamp 1 15 v }
  | 0x03 => { p with mailbox := clamp 0 7 v }
  | 0x04 => { p with ringMap1 := ringMapValue v }
  | 0x05 => { p with ringMap2 := ringMapValue v }
  | 0x06 => { p with ringMap3 := ringMapValue v }
  | 0x07 => { p with screenBar := decide (v = 1) }
  | 0x08 => { p with autoCallout := decide (v = 1) }
  | 0x09 => { p with dialMethod := if v = 1 then .pulse else .tone }
  | 0x0A => { p with toneOn := clamp 40 200 v }
  | 0x0B => { p with toneOff := clamp 40 200 v }
  | 0x0C => { p with pulseBreak := clamp 40 80 v }
  | 0x0D => { p with pulseMake := clamp 20 60 v }
  | 0x0E => { p with interdigit := clamp 300 2000 v }
  | 0x0F => { p with comma := clamp 1 10 v }
  | 0x10 => { p with flash := clamp 100 2000 v }
  | 0x11 => { p with dialToneWait := clamp 1 30 v }
  | 0x12 => { p with blindDial := decide (v = 1) }
  | 0x13 => { p with progressTimeout := clamp 10 120 v }
  | 0x14 => { p with classifyWindow := clamp 5 120 v }
  | 0x15 => { p with extPolicy := if v = 1 then .keep else .yieldLine }
  | 0x18 | 0x19 | 0x1A | 0x1B | 0x1C | 0x1D | 0x1E | 0x1F =>
    { p with monitors := p.monitors.set (monSourceOf field) (monValue v) }
  | 0x20 => { p with onError := if v = 1 then .squelch else .continue_ }
  | 0x21 => { p with agcTarget := clamp 256 16000 v }
  | 0x22 => { p with levelFloor := clamp 10 1000 v }
  | 0x28 => { p with freqLimit := clamp 1 30 v }
  | 0x29 => { p with impulseThreshold := clamp 256 8192 v }
  | 0x2A => { p with burstDivisor := clamp 4 64 v }
  | 0x2B => { p with linkPenalty := clamp 0 1024 v }
  | 0x2C => { p with faxPenalty := clamp 0 1024 v }
  | 0x30 => { p with window := clamp 1 8 v }
  | 0x31 => { p with payloadMax := clamp 32 256 v }
  | 0x38 => { p with highestFax := (Mode.ofCode v).getD .l48 }
  | 0x39 => { p with fine := decide (v = 1) }
  | 0x3A => { p with minLineTime := v }
  | 0x3B => { p with goodPerMille := clamp 0 1000 v }
  | 0x3C => { p with retrainPerMille := clamp 0 1000 v }
  | 0x3D => { p with runLimit := clamp 0 255 v }
  | 0x40 => { p with silenceThreshold := clamp 0 2000 v }
  | 0x41 => { p with silenceTime := clamp 1 60 v }
  | 0x42 => { p with beepFrequency := clamp 300 3400 v }
  | 0x43 => { p with beepDuration := clamp 100 2000 v }
  | _ => p

/-- The MONITOR report of one source after a change of settings: a changed reported state, or a changed class of a source
whose reported state is set (R33). -/
def profileMonitor (l : Line) (before : State) (s : State) (src : MonSource) : State :=
  let was := reportedState before l src
  let now := reportedState s l src
  let oldClass := ((before.line l).profile.monitors.get src).cls
  let newClass := ((s.line l).profile.monitors.get src).cls
  if was ≠ now ∨ (now = true ∧ oldClass ≠ newClass) then queueReport (monitorReport s l src) s else s

/-- The MONITOR reports that follow a change of a line's settings or states, against an earlier state, in the order of the sources'
codes: DESIGN CHOICE, log entry 71. Each source is judged once, by the state after all of the change: that a PROFILE which names one
monitor field twice queues nothing for the value in between is DESIGN CHOICE, log entry 88. -/
def monitorReports (l : Line) (before : State) (s : State) : State := monSources.foldl (profileMonitor l before) s

/-- PROFILE (R37). The MONITOR reports compare the states before the first pair and after the last: DESIGN CHOICE, log entry 88. -/
def opProfile (line : Byte) (pairs : List (Byte × Word16)) (s : State) : State :=
  let code := 0x47#8
  match lineOf line with
  | none => done code .badParam [] s
  | some l =>
    if (pairs.all fun p => profileFieldNamed p.1.toNat) = false then done code .badParam [] s
    else if (pairs.all fun p => profileValueOk p.1.toNat p.2.toNat) = false then done code .badParam [] s
    else if (pairs.any fun p => profileFieldLocked p.1.toNat) = true ∧ s.st l ≠ .idle then done code .badState [] s
    else
      let t := modProfile l (fun p => pairs.foldl (fun p q => p.write q.1.toNat q.2.toNat) p) s
      let t := monitorReports l s (done code .ok [] t)
      if (pairs.any fun p => decide (p.1.toNat = 0x08)) then post (.dispatch l) t else t

/-! ### MONCLEAR (R33) -/

/-- A latched state is made equal to the current state. -/
def clearLatch (sources : Byte) (i : Iface) (src : MonSource) : Iface :=
  if sources.toNat.testBit src.code then { i with latched := i.latched.set src (i.current.get src) } else i

/-- MONCLEAR (R33). -/
def opMonclear (line sources : Byte) (s : State) : State :=
  let code := 0x77#8
  match lineOf line with
  | none => done code .badParam [] s
  | some l =>
    let t := modIface l (fun i => monSources.foldl (clearLatch sources) i) s
    monitorReports l s (done code .ok [] t)

/-! ### Resets and IDLE (R40) -/

/-- The monitor currents of a line entering IDLE are cleared, with their MONITOR reports (R31, R33), behind the LINE report and in the
order of the codes: DESIGN CHOICE, log entry 74. -/
def clearCurrents (l : Line) (s : State) : State := monSources.foldl (fun s src => setCondition l src false s) s

/-- The line interface at the entry to IDLE (R40). -/
def ifaceIdle (l : Line) (s : State) : State :=
  let s := releaseHook l (resetGain l (silenceTone l s))
  clearCurrents l (modIface l (fun i => { i with caller := none, window := .closed }) s)

/-- The MONITOR reports of RESET LINE: one for each source whose reported state was set, with clear (R40). -/
def resetMonitorReports (l : Line) (before : State) (s : State) : State :=
  monSources.foldl (fun s src =>
    if reportedState before l src then queueReport (.monitor l src ((before.line l).profile.monitors.get src).cls false) s else s) s

/-- The monitor states are cleared together at RESET LINE, without a report for each (R40). -/
def clearMonitors (l : Line) : State → State := modIface l fun i => { i with current := .all false, latched := .all false }

/-- The other effects of RESET LINE on the line interface (R40): gain, ring debouncer, loop, caller record and window, and the
tone generator, silenced without a completion event. -/
def ifaceReset (l : Line) (s : State) : State :=
  modIface l (fun i => { i with
    gain := 24, gainRun := 0, ring := .quiet, hook := false, loop := .onHook, loopSuspended := false
    caller := none, window := .closed, tone := none, lowRun := 0, highRun := 0 }) s

end Sys2Proof.Machine
end

