-- ==== Sys2Proof/Machine/LineChange.lean ====
section
/-! DEFINITION. A change of line state as every block sees it (R63): the LINE report, the line time, the expectation of a
far-end signal, and FREQ_LIMIT at the leaving of DATA or FAX. -/

namespace Sys2Proof.Machine

/-- A state in which a release request is taken (R65). -/
def LineSt.releasable : LineSt → Bool
  | .seize | .dial | .progress | .classify | .train | .data | .fax | .voice => true
  | _ => false

/-- DATA or FAX. -/
def LineSt.carries : LineSt → Bool
  | .data | .fax => true
  | _ => false

/-- The line enters a state with a reason: one LINE report, the line time from the leaving of IDLE, and the conditions that
follow the state, whose MONITOR reports stand behind LINE: DESIGN CHOICE, log entry 74, the spec gives no order. -/
def changeStateWith (l : Line) (st : LineSt) (reason : LineReason) (missed : Option (Nat × Option CallerRecord)) (s : State) :
    State :=
  let was := s.st l
  let s := modCall l (fun c => { c with
    st := st, reason := some reason, leftAt := if was = .idle then s.now else c.leftAt }) s
  let s := queueReport (.line l st reason missed) s
  let s := judgeExpectation l s
  if was.carries ∧ st.carries = false then setCondition l .freqLimit false s else s

/-- The line enters a state with a reason. -/
def changeState (l : Line) (st : LineSt) (reason : LineReason) (s : State) : State := changeStateWith l st reason none s

/-- A release is requested of the call controller (R65). -/
def askRelease (l : Line) (r : ReleaseReason) (s : State) : State := post (.release l r) s

end Sys2Proof.Machine
end

