-- ==== Sys2Proof/Machine/DataLink.lean ====
section
/-! DEFINITION. The error-corrected data link (Chapter 6). -/

namespace Sys2Proof.Machine

/-! ### Sequence numbers -/

/-- The count forward from a to b, modulo 64. -/
def seqDist (a b : Nat) : Nat := (b + 64 - a % 64) % 64

/-- The number after this one. -/
def seqNext (n : Nat) : Nat := (n + 1) % 64

/-! ### Penalties (R100) -/

/-- A quality penalty is added to Q, saturated at 65535. -/
def addPenalty (l : Line) (p : Nat) : State → State := modModem l fun m => { m with q := min 65535 (m.q + p) }

/-- The link penalty of the profile (R118). -/
def linkPenalty (l : Line) (s : State) : State := addPenalty l (s.line l).profile.linkPenalty s

/-! ### The retransmit timer (R125) -/

/-- The bit rate of the current rung; a line without one counts as the lowest mode of the catalogue (never in DATA). -/
def currentRate (s : State) (l : Line) : Nat :=
  match (s.line l).modem.rung.bind fun r => s.ladder[r]? with
  | some r => r.mode.bitRate
  | none => 300

/-- The negotiated payload maximum. -/
def DataLink.payloadMax (d : DataLink) : Nat := (d.negotiated.map (·.2)).getD 128

/-- The negotiated window. -/
def DataLink.windowSize (d : DataLink) : Nat := (d.negotiated.map (·.1)).getD 8

/-- The ceiling of a quotient. -/
def ceilDiv (a b : Nat) : Nat := (a + b - 1) / b

/-- The period T of the retransmit timer, in ms (R125). -/
def timerPeriod (payloadMax rate : Nat) : Nat := 1000 + ceilDiv (2 * (payloadMax + 6) * 8 * 1000) rate

/-- The retransmit timer starts or restarts. -/
def startTimer (l : Line) (s : State) : State :=
  modDl l (fun d => { d with timer := .running (s.now + timerPeriod d.payloadMax (currentRate s l)) }) s

/-- The retransmit timer runs while the list is not empty or the remote-busy flag is set. -/
def DataLink.timerRuns (d : DataLink) : Bool := !d.list.isEmpty || d.remoteBusy

/-- The timer restarts if it is to run, and stops otherwise. -/
def restartTimer (l : Line) (s : State) : State :=
  if (s.line l).dl.timerRuns then startTimer l s else modDl l (fun d => { d with timer := .stopped }) s

/-- The timer starts if it is to run and stands, and stops if it is not to run. -/
def settleTimer (l : Line) (s : State) : State :=
  let d := (s.line l).dl
  if d.timerRuns then (if d.timer = .stopped then startTimer l s else s) else modDl l (fun d => { d with timer := .stopped }) s

/-! ### The choice of the next frame (R121, R122) -/

/-- No byte has joined the transmit queue for 20 ms (R122). -/
def formingOver (s : State) (l : Line) : Bool :=
  match (s.line l).dl.formDue with
  | some due => decide (due ≤ s.now)
  | none => true

/-- The first of the conditions of R122 that concern the queue and the flags: a new INFO frame may be formed. -/
def mayForm (s : State) (l : Line) : Bool :=
  let d := (s.line l).dl
  decide (d.list.length < d.windowSize) && !d.remoteBusy && d.resend.isNone && decide (d.clear ≠ .received) && !d.clearForced &&
    (decide (d.payloadMax ≤ d.tx.length) || (!d.tx.isEmpty && formingOver s l))

/-- CLEAR is ready (R132). -/
def DataLink.clearReady (d : DataLink) : Bool :=
  decide (d.clear = .graceful) && !d.clearSent && ((d.tx.isEmpty && d.list.isEmpty) || d.clearForced)

/-- The RR, or RNR while the local-busy flag is set, with the expected number. -/
def DataLink.ackFrame (d : DataLink) (poll : Bool) : Frame := if d.localBusy then .rnr d.expected poll else .rr d.expected poll

/-- An RR or RNR begins: it discharges every cause, and a poll sets the poll flag (R121). -/
def beginAck (l : Line) : State → State := modDl l fun d =>
  { d with sending := some (d.ackFrame d.pollDue), rrDue := false, pollDue := false, ackDue := false }

/-- The frame at the resend point begins; after the newest the resend point becomes none (R124). -/
def beginResend (l : Line) (f : InfoFrame) : State → State := modDl l fun d =>
  { d with
    sending := some (.info f.sequence d.expected f.payload), ackDue := false
    resend := if seqNext f.sequence = d.send then none else some (seqNext f.sequence) }

/-- A new INFO frame is formed and begins (R122): LHOLD sees the freed room, and the timer starts if the list was empty. -/
def beginNew (l : Line) (s : State) : State :=
  let d := (s.line l).dl
  let payload := d.tx.take d.payloadMax
  let s := modDl l (fun d => { d with
    tx := d.tx.drop payload.length, list := d.list ++ [⟨d.send, payload⟩], send := seqNext d.send
    sending := some (.info d.send d.expected payload), ackDue := false }) s
  lholdLeft (targetOf l) (if d.list.isEmpty then startTimer l s else s)

/-- The frame at the resend point. -/
def DataLink.resendFrame (d : DataLink) : Option InfoFrame :=
  if d.remoteBusy then none else d.resend.bind fun n => d.list.find? fun f => decide (f.sequence = n)

/-- The data link chooses the next frame while the transmitter is free in DATA (R121). -/
def chooseFrame (l : Line) (s : State) : State :=
  let d := (s.line l).dl
  if s.st l ≠ .data ∨ d.sending ≠ none ∨ d.clear = .received then s
  else
    match d.rateQueue with
    | f :: rest => modDl l (fun d => { d with sending := some f, rateQueue := rest }) s
    | [] =>
      if d.rejDue then modDl l (fun d => { d with sending := some (.rej d.expected), rejDue := false, ackDue := false }) s
      else if d.rrDue || d.pollDue then beginAck l s
      else
        match d.resendFrame with
        | some f => beginResend l f s
        | none =>
          if mayForm s l then beginNew l s
          else if d.ackDue then beginAck l s
          else if d.clearReady then modDl l (fun d => { d with sending := some .clear, clearSent := true }) s
          else s

/-! ### Opening, retrain, end (R119, R120, R130, R134) -/

/-- The window and payload maximum are negotiated, the far values clamped to their ranges first (R119). -/
def negotiate (l : Line) (farWindow farPayload : Nat) (s : State) : State :=
  let p := (s.line l).profile
  modDl l (fun d => { d with
    negotiated := some (min p.window (clamp 1 8 farWindow), min p.payloadMax (clamp 32 256 farPayload)) }) s

/-- The link starts at the first entry to DATA of the call (R120). -/
def startLink (l : Line) (s : State) : State :=
  chooseFrame l (modDl l (fun d => { d with
    send := 0, expected := 0, resend := none, list := [], retries := 0, timer := .stopped, ackDue := false, rejSent := false
    localBusy := false, remoteBusy := false, rejDue := false, rrDue := false, pollDue := false, started := true }) s)

/-- The timer frozen with the time it had left. -/
def DlTimer.freeze (t : DlTimer) (now : Nat) : DlTimer :=
  match t with
  | .running due => .frozen (due - now)
  | other => other

/-- A line in DATA enters TRAIN for a retrain (R130). A CLEAR on the line is abandoned with it and becomes ready again after the retrain:
DESIGN CHOICE, log entry 68, the spec has it sent once (R132) and does not say so of one abandoned. A REJ, an RR or RNR and a poll that
are due and not yet sent stay due: DESIGN CHOICE, log entry 80, R130 lists them neither as kept nor as dropped. -/
def freezeLink (l : Line) (s : State) : State :=
  modDl l (fun d => { d with
    sending := none, timer := d.timer.freeze s.now, formDue := none, resend := none, rateQueue := [], clearSent := false }) s

/-- The retrain completes and the line returns to DATA (R130); after a received CLEAR the timer stays stopped (R133). -/
def resumeLink (l : Line) (s : State) : State :=
  let s := modDl l (fun d => { d with
    resend := if d.remoteBusy then none else d.list.head?.map (·.sequence), rrDue := true }) s
  chooseFrame l (if (s.line l).dl.clear = .received then s else restartTimer l s)

/-- The link at the line's entry to CLEARDOWN (R134, R132). A clear state of GRACEFUL becomes none at every release, also at the one its own
CLEAR has caused: DESIGN CHOICE, log entry 99. -/
def stopLink (l : Line) : State → State := modDl l fun d =>
  { d with
    sending := none, timer := .stopped, clearDue := none, formDue := none, rateQueue := []
    rejDue := false, rrDue := false, pollDue := false, clearForced := false
    clear := if d.clear = .graceful then .none else d.clear }

/-- The link emptied, at the entry to IDLE and at RESET LINE (R134): LHOLD is set afresh if the line is the target, and the
arbiter finds the receive queue empty. -/
def emptyLink (l : Line) (s : State) : State :=
  let s := staleSource (sourceOf l) (modDl l (fun _ => initialDataLink) s)
  if s.link.target = targetOf l then lholdAfresh s else s

/-! ### Acknowledgement (R123) -/

/-- An acknowledgement number is valid: from the oldest frame on the list to the send number. -/
def DataLink.ackValid (d : DataLink) (n : Nat) : Bool :=
  match d.list.head? with
  | some f => decide (n < 64 ∧ seqDist f.sequence n ≤ seqDist f.sequence d.send)
  | none => decide (n = d.send)

/-- The frames a valid acknowledgement removes. -/
def DataLink.ackCount (d : DataLink) (n : Nat) : Nat :=
  match d.list.head? with
  | some f => min d.list.length (seqDist f.sequence n)
  | none => 0

/-- The resend point after a removal: moved to the oldest frame left when its frame has gone. -/
def DataLink.resendAfter (d : DataLink) (left : List InfoFrame) : Option Nat :=
  match d.resend with
  | some r => if left.any fun f => decide (f.sequence = r) then some r else left.head?.map (·.sequence)
  | none => none

/-- A valid acknowledgement removes frames; a removal is progress. An invalid one is ignored. -/
def acknowledgeFrames (l : Line) (n : Nat) (s : State) : State :=
  let d := (s.line l).dl
  if d.ackValid n ∧ 0 < d.ackCount n then
    let left := d.list.drop (d.ackCount n)
    restartTimer l (modDl l (fun d => { d with list := left, resend := d.resendAfter left, retries := 0 }) s)
  else s

/-! ### Received frames (R124, R126, R127, R133) -/

/-- A link frame is acted on: the line is in DATA and no CLEAR has been received (R127, R133). -/
def linkListens (s : State) (l : Line) : Bool := decide (s.st l = .data ∧ (s.line l).dl.clear ≠ .received)

/-- A bad frame: the link penalty (R118), in whatever state the line is (R100; DEDUCED, log entry 78), but for one after a received CLEAR,
which is discarded without any effect (R133). -/
def badFrameTaken (l : Line) (s : State) : State := if (s.line l).dl.clear = .received then s else linkPenalty l s

/-- The payload of an accepted frame joins the receive queue (R127, R129). -/
def acceptPayload (l : Line) (payload : List Byte) (s : State) : State :=
  let s := modDl l (fun d => { d with
    rx := d.rx ++ payload, expected := seqNext d.expected, ackDue := true, rejSent := false }) s
  let d := (s.line l).dl
  let s := if d.localBusy = false ∧ 4096 - d.rx.length < d.payloadMax then
      modDl l (fun d => { d with localBusy := true, rrDue := true }) s else s
  arbiterKick s

/-- The sequence number of a good INFO against the expected number (R127). -/
def receiveInfo (l : Line) (seq : Nat) (payload : List Byte) (s : State) : State :=
  let d := (s.line l).dl
  if 64 ≤ seq then s
  else if seq = d.expected then
    if payload.length ≤ 4096 - d.rx.length then acceptPayload l payload s else s
  else if 1 ≤ seqDist seq d.expected ∧ seqDist seq d.expected ≤ 8 then modDl l (fun d => { d with ackDue := true }) s
  else if 1 ≤ seqDist d.expected seq ∧ seqDist d.expected seq ≤ 8 then
    if d.rejSent then s else modDl l (fun d => { d with rejDue := true, rejSent := true }) s
  else s

/-- INFO (R127); a payload of no byte or of more than 256 makes the frame bad (R118). -/
def opInfo (l : Line) (seq ack : Byte) (payload : List Byte) (s : State) : State :=
  if payload.length = 0 ∨ 256 < payload.length then badFrameTaken l s
  else if linkListens s l then chooseFrame l (receiveInfo l seq.toNat payload (acknowledgeFrames l ack.toNat s))
  else s

/-- A received poll makes an answer due (R126). -/
def pollReceived (l : Line) (poll : Bool) : State → State := modDl l fun d => { d with rrDue := d.rrDue || poll }

/-- The far end can receive again after having been busy: progress, and a resend from the oldest frame (R126). -/
def remoteReady (l : Line) (s : State) : State :=
  if (s.line l).dl.remoteBusy then
    restartTimer l (modDl l (fun d => { d with
      remoteBusy := false, retries := 0, resend := d.list.head?.map (·.sequence) }) s)
  else s

/-- RR (R126). -/
def opRr (l : Line) (ack : Byte) (poll : Bool) (s : State) : State :=
  if linkListens s l then chooseFrame l (pollReceived l poll (remoteReady l (acknowledgeFrames l ack.toNat s))) else s

/-- RNR (R126). -/
def opRnr (l : Line) (ack : Byte) (poll : Bool) (s : State) : State :=
  if linkListens s l then
    let s := modDl l (fun d => { d with remoteBusy := true }) (acknowledgeFrames l ack.toNat s)
    chooseFrame l (pollReceived l poll (settleTimer l s))
  else s

/-- REJ (R124). -/
def opRej (l : Line) (expected : Byte) (s : State) : State :=
  if linkListens s l ∧ (s.line l).dl.ackValid expected.toNat then
    let s := acknowledgeFrames l expected.toNat s
    let s := modDl l (fun d => { d with
      remoteBusy := false, resend := if d.list.isEmpty then none else some expected.toNat }) s
    chooseFrame l (restartTimer l s)
  else s

/-- CLEAR (R133). -/
def opClear (l : Line) (s : State) : State :=
  if linkListens s l then
    let s := modDl l (fun d => { d with clear := .received, timer := .stopped, clearDue := none, clearForced := false }) s
    if (s.line l).dl.rx.isEmpty then askRelease l .farEnd s else s
  else s

/-- BAD_FRAME: the bytes received, when they make no good frame (R118). -/
def opBadFrame (l : Line) (bytes : List Byte) (s : State) : State := if frameGood bytes then s else badFrameTaken l s

/-! ### Transmitter and timers -/

/-- FRAME_SENT: a frame completes; after CLEAR the release is asked for (R121, R132). -/
def opFrameSent (l : Line) (s : State) : State :=
  match (s.line l).dl.sending with
  | some f =>
    let s := modDl l (fun d => { d with sending := none }) s
    if f = .clear ∧ (s.line l).dl.clear = .graceful then askRelease l .host s else chooseFrame l s
  | none => s

/-- FORMING_DELAY_END (R122). -/
def opFormingDelayEnd (l : Line) (s : State) : State :=
  match (s.line l).dl.formDue with
  | some due => chooseFrame l (modDl l (fun d => { d with formDue := none }) (elapse due s))
  | none => s

/-- What an expiry of the retransmit timer brings below the retry limit (R125, R126). -/
def retry (l : Line) (s : State) : State :=
  let s := modDl l (fun d => { d with
    retries := d.retries + 1
    resend := if d.remoteBusy then d.resend else d.list.head?.map (·.sequence)
    pollDue := d.pollDue || d.remoteBusy }) s
  chooseFrame l (startTimer l s)

/-- RETRANSMIT_TIMER_EXPIRY (R125). -/
def opRetransmitTimerExpiry (l : Line) (s : State) : State :=
  match (s.line l).dl.timer with
  | .running due =>
    let s := elapse due s
    if 10 ≤ (s.line l).dl.retries then askRelease l .linkFail (modDl l (fun d => { d with timer := .stopped }) s)
    else retry l s
  | _ => s

/-- GRACEFUL RELEASE taken by the data link (R132). -/
def gracefulClear (l : Line) (s : State) : State :=
  chooseFrame l (modDl l (fun d => { d with clear := .graceful, clearDue := some (s.now + 5000), clearForced := false, clearSent := false }) s)

/-- CLEAR_TIMER_EXPIRY (R132). -/
def opClearTimerExpiry (l : Line) (s : State) : State :=
  match (s.line l).dl.clearDue with
  | some due =>
    let s := modDl l (fun d => { d with clearDue := none }) (elapse due s)
    if s.st l = .data then chooseFrame l (modDl l (fun d => { d with clearForced := true }) s)
    else if s.st l = .train then askRelease l .host s
    else s
  | none => s

/-! ### Queues -/

/-- A downstream payload byte joins the transmit queue (R8, R122). -/
def acceptLineByte (l : Line) (b : Byte) (s : State) : State :=
  let s := modDl l (fun d => { d with tx := d.tx ++ [b], formDue := some (s.now + 20) }) s
  chooseFrame l (lholdJoined (targetOf l) s)

/-- A byte of the receive queue has been sent upstream (R128, R129, R133). -/
def lineByteSent (l : Line) (s : State) : State :=
  let s := modDl l (fun d => { d with rx := d.rx.drop 1 }) s
  let d := (s.line l).dl
  let s := if d.localBusy = true ∧ 2 * d.payloadMax ≤ 4096 - d.rx.length then
      modDl l (fun d => { d with localBusy := false, rrDue := true }) s else s
  if d.clear = .received ∧ d.rx.isEmpty then askRelease l .farEnd s else chooseFrame l s

end Sys2Proof.Machine
end

