-- ==== Sys2Proof/Machine/Modem.lean ====
section
/-! DEFINITION. Line modes, training and line quality (Chapter 5). -/

namespace Sys2Proof.Machine

/-! ### The ladder (R96) -/

/-- The ladder indexes of the fax rungs, lowest first (5.2). -/
def faxRungs (ladder : List Rung) : List Nat :=
  (List.range ladder.length).filter fun i => ((ladder[i]?).map fun r => r.mode.isFax).getD false

/-- Modes in strictly ascending bit rate. -/
def ascendingModes : List Mode → Bool
  | a :: b :: rest => a.below b && ascendingModes (b :: rest)
  | _ => true

/-- A rung as carried, with a named mode. -/
def rungOf (r : RungParams) : Option Rung := (Mode.ofCode r.mode.toNat).map fun m => ⟨m, r.u.toNat, r.d.toNat, r.x.toNat⟩

/-- The ladder a LADDER carries, when its checks of values pass (R96 check 1). -/
def ladderOf (raw : List RungParams) : Option (List Rung) :=
  match raw.mapM rungOf with
  | some rungs =>
    if 1 ≤ rungs.length ∧ rungs.length ≤ 8 ∧ ascendingModes (rungs.map (·.mode)) ∧ (rungs.all fun r => decide (r.u < r.d ∧ r.d < r.x))
    then some rungs else none
  | none => none

/-- A line is in TRAIN, DATA or FAX. -/
def lineCarries (s : State) (l : Line) : Bool := decide (s.st l = .train ∨ s.st l = .data ∨ s.st l = .fax)

/-- LADDER (R96). -/
def opLadder (raw : List RungParams) (s : State) : State :=
  let code := 0x4C#8
  match ladderOf raw with
  | none => done code .badParam [] s
  | some rungs =>
    if lineCarries s .A || lineCarries s .B then done code .badState [] s
    else done code .ok (oneByte rungs.length ++ oneByte (faxRungs rungs).length) { s with ladder := rungs }

/-- The current rung of a line. -/
def currentRung (s : State) (l : Line) : Option Rung := (s.line l).modem.rung.bind fun r => s.ladder[r]?

/-- The ladder index of a mode. -/
def rungOfMode (s : State) (m : Mode) : Option Nat := s.ladder.findIdx? fun r => decide (r.mode = m)

/-- A RATE report of a rung. -/
def reportRate (l : Line) (rung : Nat) (cause : RateCause) (s : State) : State :=
  match s.ladder[rung]? with
  | some r => queueReport (.rate l rung r.mode cause) s
  | none => s

/-! ### Windows (R97 to R99) -/

/-- The symbol error (R97). -/
def symbolError (x : SymbolReading) : Nat := if x.reference = 0 then 65535 else min 65535 (4096 * x.deviation / x.reference)

/-- A window as it begins, with the threshold and divisor that stand then (R99). -/
def Profile.freshWindow (p : Profile) : Window := ⟨p.impulseThreshold, p.burstDivisor, 0, 0, 0⟩

/-- The reception of R98 begins, or resumes, and with it a window (log entry 47). -/
def beginWindow (l : Line) (s : State) : State :=
  modModem l (fun m => { m with window := some (s.line l).profile.freshWindow }) s

/-- A symbol joins the window (R99). -/
def Window.add (w : Window) (e : Nat) : Window :=
  { w with sum := w.sum + min e w.threshold, impulses := w.impulses + (if w.threshold < e then 1 else 0), count := w.count + 1 }

/-- The symbols of a reception join the window. -/
def Window.gather (w : Window) (symbols : List SymbolReading) : Window := symbols.foldl (fun w x => w.add (symbolError x)) w

/-- M, K and the burst verdict of a complete window of W symbols (R99). -/
def Window.result (w : Window) (W : Nat) : WindowResult := ⟨w.sum / W, w.impulses, decide (W / w.divisor < w.impulses)⟩

/-- A window is complete with its result, the next beginning with the following symbol; the carrier offset is estimated in DATA
and FAX (R98, R114). -/
def completeWindow (l : Line) (r : WindowResult) (offset : Int) (s : State) : State :=
  modModem l (fun m => { m with
    window := some (s.line l).profile.freshWindow, lastWindow := some r
    offset := if (s.st l).carries then some offset else m.offset }) s

/-- IMPULSE follows the window (R32, R101). -/
def impulseWindow (l : Line) (r : WindowResult) (s : State) : State := setCondition l .impulse r.burst s

/-- The carrier offset is compared with the frequency limit, in tenths of a Hz (R114). -/
def offsetWindow (l : Line) (offset : Int) (s : State) : State :=
  if (s.st l).carries then setCondition l .freqLimit (decide ((s.line l).profile.freqLimit * 10 < offset.natAbs)) s else s

/-! ### Rate requests (R103 to R106) -/

/-- A RATE or RATE_OK frame is handed to the data link. -/
def handFrame (l : Line) (f : Frame) (s : State) : State :=
  chooseFrame l (modDl l (fun d => { d with rateQueue := d.rateQueue ++ [f] }) s)

/-- A rate request is sent and is outstanding, with its answer timer (R103, R105). The time sent and the 2 s of the timer count
from handing RATE to the data link, even while another frame is on the line: DESIGN CHOICE, log entry 54. -/
def requestRate (l : Line) (rung : Nat) (s : State) : State :=
  match s.ladder[rung]? with
  | some r =>
    let s := modModem l (fun m => { m with request := some ⟨rung, r.mode, lineTime s l, s.now + 2000⟩, upCount := 0 }) s
    handFrame l (.rate false r.mode) s
  | none => s

/-- The rungs of the call below and above the current one (R102). -/
def lowerRung (s : State) (l : Line) : Option Nat :=
  let m := (s.line l).modem
  ((m.rungSet.getD []).filter fun r => decide (r < m.rung.getD 0)).getLast?

/-- The rung of the call above the current one (R102). -/
def higherRung (s : State) (l : Line) : Option Nat :=
  let m := (s.line l).modem
  (m.rungSet.getD []).find? fun r => decide (m.rung.getD 0 < r)

/-- A switch of rung: the window in progress is dropped, and the symbols at the new mode begin a new one (R98, R106). -/
def switchRung (l : Line) (rung : Nat) (cause : RateCause) (s : State) : State :=
  reportRate l rung cause (modModem l (fun m => { m with
    window := some (s.line l).profile.freshWindow, rung := some rung, holdOff := 10, upCount := 0, burstRun := 0, request := none }) s)

/-! ### Retrain (R110) -/

/-- The retrain history with one more time: the last three. -/
def addHistory (h : List Nat) (t : Nat) : List Nat := (h ++ [t]).drop ((h ++ [t]).length - 3)

/-- The history holds three times within 60 s. -/
def historyFull (h : List Nat) : Bool :=
  match h with
  | [a, _, c] => decide (c - a ≤ 60000)
  | _ => false

/-- A retrain is requested (R110, R113): ignored outside DATA and FAX; at the limit the line is released. -/
def requestRetrain (l : Line) (s : State) : State :=
  if (s.st l).carries then
    let s := modModem l (fun m => { m with history := addHistory m.history (lineTime s l) }) s
    if historyFull (s.line l).modem.history then askRelease l .lineQuality s
    else
      post (.retrain l) (modModem l (fun m => { m with
        request := none, retrainFrom := some (s.st l) }) s)
  else s

/-! ### Window ends (R101, R102) -/

/-- Decisions 2 and 3 of R102: downshift and up-count. -/
def shiftDecision (l : Line) (r : Rung) (s : State) : State :=
  let m := (s.line l).modem
  if m.request.isSome then s
  else if r.d ≤ m.q ∧ (lowerRung s l).isSome then requestRate l ((lowerRung s l).getD 0) s
  else
    let up := if m.q < r.u then min 30 (m.upCount + 1) else 0
    let s := modModem l (fun m => { m with upCount := up }) s
    match higherRung s l with
    | some h => if up = 30 then requestRate l h s else s
    | none => s

/-- The decisions of R102 after the blend. -/
def windowDecision (l : Line) (s : State) : State :=
  let m := (s.line l).modem
  if 0 < m.holdOff then modModem l (fun m => { m with holdOff := m.holdOff - 1 }) s
  else
    match currentRung s l with
    | some r =>
      if r.x ≤ m.q then requestRetrain l (setCondition l .quality true s)
      else if s.st l = .data then shiftDecision l r s
      else s
    | none => s

/-- A window end in DATA, or of page data in FAX (R101). -/
def qualityWindow (l : Line) (r : WindowResult) (s : State) : State :=
  let s := impulseWindow l r s
  if r.burst then
    let s := modModem l (fun m => { m with burstRun := m.burstRun + 1, upCount := 0, holdOff := m.holdOff - 1 }) s
    if 3 ≤ (s.line l).modem.burstRun then requestRetrain l s else s
  else
    windowDecision l (modModem l (fun m => { m with q := (3 * m.q + r.mean + 2) / 4, burstRun := 0 }) s)

/-! ### Training (R107 to R109) -/

/-- Training begins: the 10 s timer, PROBE, the second of probe, and the first window of the far end's probe (R98, R107). The call's
rung set and the current rung stand through a retrain (R110). -/
def startTraining (l : Line) (s : State) : State :=
  modModem l (fun m => { m with
    window := some (s.line l).profile.freshWindow, phase := some .probe
    trainDue := some (s.now + 10000), probeDue := some (s.now + 1000), probeSent := false
    probeCount := 0, probeGood := 0, probeSum := 0, proposal := none, farPropose := none, farConfirm := none, chosen := none
    repeatDue := none, sent := [] }) s

/-- The predicted figure of a mode (R108). -/
def predicted (mProbe : Nat) (m : Mode) : Nat := min 65535 (mProbe * m.density / 16)

/-- The proposal: the mode of the highest rung whose predicted figure is below its D (R108). -/
def proposalOf (ladder : List Rung) (mProbe : Nat) : Option Mode :=
  ((ladder.filter fun r => decide (predicted mProbe r.mode < r.d)).getLast?).map (·.mode)

/-- Training ends without a rung, and the release is asked for (R109). -/
def failTraining (l : Line) (s : State) : State :=
  askRelease l .noCarrier (modModem l (fun m => { m with
    phase := none, trainDue := none, probeDue := none, repeatDue := none }) s)

/-- The call's rung set (R108). -/
def commonRungs (ladder : List Rung) (far : List Mode) : List Nat :=
  (List.range ladder.length).filter fun i => ((ladder[i]?).map fun r => decide (r.mode ∈ far)).getD false

/-- Training completes (R109, R111): QUALITY clears after a retrain, RATE is queued, the far end's values go to the data
link, and DATA is asked for. That the MONITOR report of QUALITY stands before the RATE report of the retrain is DESIGN CHOICE, log entry
90. -/
def completeTraining (l : Line) (rung farWindow farPayload : Nat) (s : State) : State :=
  let m := (s.line l).modem
  let q := match s.ladder[rung]? with | some r => predicted (m.mProbe.getD 0) r.mode | none => m.q
  let s := modModem l (fun m => { m with
    rung := some rung, q := q, holdOff := 10, upCount := 0, burstRun := 0
    window := some (s.line l).profile.freshWindow
    rungSet := (m.farPropose.map fun p => commonRungs s.ladder p.2).or m.rungSet
    trainDue := none, probeDue := none, repeatDue := none, phase := none, request := none }) s
  let s := if m.retrainFrom.isSome then setCondition l .quality false s else s
  let s := reportRate l rung (if m.retrainFrom.isSome then .retrain else .train) s
  post (.trained l) (negotiate l farWindow farPayload s)

/-- In CONFIRM with the far end's CONFIRM in hand: training completes, or fails for another mode (R109). -/
def settleConfirm (l : Line) (s : State) : State :=
  let m := (s.line l).modem
  match m.phase, m.chosen, m.farConfirm with
  | some .confirm, some mode, some (far, w, p) =>
    match rungOfMode s mode with
    | some r => if far = mode then completeTraining l r w p s else failTraining l s
    | none => failTraining l s
  | _, _, _ => s

/-- The chosen mode (R108): the highest of the set not above either proposal. -/
def chooseMode (ladder : List Rung) (set : List Nat) (own far : Option Mode) : Option Mode :=
  match own, far with
  | some a, some b =>
    ((set.filterMap fun i => ladder[i]?).filter fun r => decide (r.mode.code ≤ a.code ∧ r.mode.code ≤ b.code)).getLast?.map (·.mode)
  | _, _ => none

/-- PROPOSE, with the modes of the ladder (R108). -/
def proposeMessage (s : State) (own : Option Mode) : TrainMsg := .propose own (s.ladder.map (·.mode))

/-- CONFIRM of a chosen mode (R108, R135). -/
def confirmMessage (s : State) (l : Line) (mode : Mode) : TrainMsg :=
  .confirm mode (s.line l).profile.window (s.line l).profile.payloadMax

/-- The message of the present phase of a line's training (R108). The ladder and the two fields of the profile stand while the line is
not IDLE, so it is the message the phase began with. -/
def phaseMessage (s : State) (l : Line) : Option TrainMsg :=
  let m := (s.line l).modem
  match m.phase with
  | some .propose => some (proposeMessage s m.proposal)
  | some .confirm => m.chosen.map (confirmMessage s l)
  | _ => none

/-- In PROPOSE with the far end's PROPOSE in hand: the rung set, the chosen mode, and CONFIRM, sent after whatever this event has
sent already (R108). -/
def settlePropose (l : Line) (s : State) : State :=
  let m := (s.line l).modem
  match m.phase, m.farPropose with
  | some .propose, some (far, modes) =>
    let set := commonRungs s.ladder modes
    let s := if m.retrainFrom.isSome then s else modModem l (fun m => { m with rungSet := some set }) s
    match chooseMode s.ladder set m.proposal far with
    | some mode =>
      settleConfirm l (modModem l (fun m => { m with
        phase := some .confirm, chosen := some mode, sent := m.sent ++ [confirmMessage s l mode]
        repeatDue := some (s.now + 500) }) s)
    | none => failTraining l s
  | _, _ => s

/-- PROBE ends when its second has been sent and ten windows have been measured (R107). PROPOSE is sent first, whether or not the far
end's is in hand (R108). The I of a probe of burst windows alone is the profile's as PROBE ends: DESIGN CHOICE, log entry 66. -/
def settleProbe (l : Line) (s : State) : State :=
  let m := (s.line l).modem
  if m.phase = some .probe ∧ m.probeSent ∧ 10 ≤ m.probeCount then
    let mp := if m.probeGood = 0 then (s.line l).profile.impulseThreshold else m.probeSum / m.probeGood
    let own := proposalOf s.ladder mp
    settlePropose l (modModem l (fun m => { m with
      phase := some .propose, mProbe := some mp, proposal := own, window := none
      sent := [proposeMessage s own], repeatDue := some (s.now + 500) }) s)
  else s

/-- A window of the far end's probe (R107, R101): the first ten count. -/
def probeWindow (l : Line) (r : WindowResult) (s : State) : State :=
  if (s.line l).modem.probeCount < 10 then
    let s := impulseWindow l r s
    settleProbe l (modModem l (fun m => { m with
      probeCount := m.probeCount + 1
      probeGood := m.probeGood + (if r.burst then 0 else 1)
      probeSum := m.probeSum + (if r.burst then 0 else r.mean) }) s)
  else s

/-- PROBE_SENT (R107). -/
def opProbeSent (l : Line) (s : State) : State :=
  match (s.line l).modem.probeDue with
  | some due =>
    settleProbe l (modModem l (fun m => { m with probeDue := none, probeSent := true }) (elapse due s))
  | none => s

/-- Training goes on: a data call or a retrain of one, in some phase. -/
def inTraining (s : State) (l : Line) : Bool := decide (s.st l = .train) && (s.line l).modem.phase.isSome

/-- PROPOSE (R108); a mode byte that names no mode and is not NONE makes the message no good one, and it is discarded.
A repetition that arrives in CONFIRM changes nothing. -/
def opPropose (l : Line) (proposal modes : Byte) (s : State) : State :=
  if inTraining s l ∧ (s.line l).modem.phase ≠ some .confirm ∧
      (proposal = 0xFF#8 ∨ (Mode.ofCode proposal.toNat).isSome) then
    settlePropose l (modModem l (fun m => { m with
      farPropose := some (Mode.ofCode proposal.toNat, modeSet modes), sent := [] }) s)
  else s

/-- CONFIRM (R109). -/
def opConfirm (l : Line) (mode window : Byte) (payload : Word16) (s : State) : State :=
  match Mode.ofCode mode.toNat with
  | some m =>
    if inTraining s l then
      settleConfirm l (modModem l (fun x => { x with farConfirm := some (m, window.toNat, payload.toNat), sent := [] }) s)
    else s
  | none => s

/-- TRAINING_MESSAGE_REPEAT: the message of the present phase, PROPOSE or CONFIRM, goes out again, until the end leaves that phase,
whatever has been received meanwhile (R108). -/
def opTrainingMessageRepeat (l : Line) (s : State) : State :=
  match (s.line l).modem.repeatDue with
  | some due =>
    modModem l (fun m => { m with repeatDue := some (due + 500), sent := (phaseMessage s l).toList }) (elapse due s)
  | none => s

/-- TRAINING_TIMER_EXPIRY (R109, R113). -/
def opTrainingTimerExpiry (l : Line) (s : State) : State :=
  match (s.line l).modem.trainDue with
  | some due => failTraining l (modModem l (fun m => { m with sent := [] }) (elapse due s))
  | none => s

/-- FAR_PROBE_START: in DATA the far end's probe requests a retrain (R110). -/
def opFarProbeStart (l : Line) (s : State) : State := if s.st l = .data then requestRetrain l s else s

/-! ### Received rate frames (R104, R105) -/

/-- The answer to an upshift request: RATE_OK when the predicted Q is below the target's D and no request of this line is
outstanding (R104). -/
def upshiftAllowed (s : State) (l : Line) (current target : Rung) : Bool :=
  let m := (s.line l).modem
  m.request.isNone && decide (m.q * target.mode.density / current.mode.density < target.d)

/-- RATE (REQUEST) (R104). A request for a mode outside the call's rung set is answered REFUSED, a downshift too: DESIGN CHOICE, log
entry 54. A RATE of this line's abandoned request that still waits behind a frame goes out before the RATE_OK: DESIGN CHOICE, log entry
79, the spec drops a waiting RATE only at a retrain (R130). -/
def opRateRequest (l : Line) (mode : Byte) (s : State) : State :=
  match Mode.ofCode mode.toNat, currentRung s l with
  | some want, some cur =>
    if linkListens s l = false then s
    else
      match ((s.line l).modem.rungSet.getD []).find? fun i => decide ((s.ladder[i]?).map (·.mode) = some want) with
      | some i =>
        match s.ladder[i]? with
        | some target =>
          if want.below cur.mode then switchRung l i .down (handFrame l (.rateOk want) s)
          else if cur.mode.below want ∧ upshiftAllowed s l cur target then switchRung l i .up (handFrame l (.rateOk want) s)
          else handFrame l (.rate true cur.mode) s
        | none => s
      | none => handFrame l (.rate true cur.mode) s
  | none, some cur => if linkListens s l then handFrame l (.rate true cur.mode) s else s
  | _, none => s

/-- RATE (REFUSED) (R105). -/
def opRateRefused (l : Line) (_mode : Byte) (s : State) : State :=
  if linkListens s l then modModem l (fun m => { m with request := none }) s else s

/-- RATE_OK (R105). -/
def opRateOk (l : Line) (mode : Byte) (s : State) : State :=
  match (s.line l).modem.request with
  | some q =>
    if linkListens s l = false then s
    else if q.mode.code = mode.toNat then
      switchRung l q.rung (if (s.line l).modem.rung.getD 0 < q.rung then .up else .down) s
    else requestRetrain l (modModem l (fun m => { m with request := none }) s)
  | none => s

/-- RATE_ANSWER_TIMER_EXPIRY (R105). -/
def opRateAnswerTimerExpiry (l : Line) (s : State) : State :=
  match (s.line l).modem.request with
  | some q => requestRetrain l (modModem l (fun m => { m with request := none }) (elapse q.due s))
  | none => s

/-! ### Fax sessions (R112, R113) -/

/-- The modem at the line's entry to FAX: the highest fax rung, or rung 0 when the ladder has none (R112). -/
def modemEnterFax (l : Line) (s : State) : State :=
  let rung := (faxRungs s.ladder).getLast?.getD 0
  modModem l (fun m => { m with
    rung := some rung, q := 0, holdOff := 10, upCount := 0, burstRun := 0, window := none, faxRungSet := false }) s

/-- The fax engine sets the current rung: a change queues RATE, TRAIN for the first setting and DOWN for a step down (R112). -/
def setFaxRung (l : Line) (rung : Nat) (s : State) : State :=
  let m := (s.line l).modem
  let s := modModem l (fun m => { m with rung := some rung, faxRungSet := true, window := none }) s
  if m.rung = some rung then s else reportRate l rung (if m.faxRungSet then .down else .train) s

/-- The fax engine accepts a check whose good windows have this mean (R112, R113): a retrain completes with it. -/
def acceptCheck (l : Line) (mean : Nat) (s : State) : State :=
  let s := modModem l (fun m => { m with q := mean, holdOff := 10, upCount := 0, burstRun := 0, window := none }) s
  if s.st l = .train then
    let s := setCondition l .quality false (modModem l (fun m => { m with trainDue := none }) s)
    post (.trained l) (match (s.line l).modem.rung with | some r => reportRate l r .retrain s | none => s)
  else s

/-- A retrain of a fax session: only the training timer runs (R113). A window in progress is dropped, and reception that goes on
begins a new one (R98). -/
def startFaxRetrain (l : Line) (s : State) : State :=
  modModem l (fun m => { m with
    window := m.window.map fun _ => (s.line l).profile.freshWindow, trainDue := some (s.now + 10000) }) s

/-- A window in progress is dropped (R98). -/
def dropWindow (l : Line) : State → State := modModem l fun m => { m with window := none }

/-! ### CLEARDOWN and IDLE (R117) -/

/-- The modem at the entry to CLEARDOWN. -/
def stopModem (l : Line) : State → State := modModem l fun m =>
  { m with window := none, request := none, phase := none, trainDue := none, probeDue := none, repeatDue := none }

/-- The modem at the entry to IDLE, at RESET LINE and at RESET TABLES; the figures of the last window go too: DESIGN CHOICE, log entry
77. -/
def clearModem (l : Line) : State → State := modModem l fun _ => initialModem

end Sys2Proof.Machine
end

