-- ==== Sys2Proof/Machine/Fax.lean ====
section
/-! DEFINITION. Fax sessions (Chapter 8). -/

namespace Sys2Proof.Machine

/-! ### Control messages (R160, R161) -/

/-- A session runs on the line: it has a role and the line has not left FAX or its retrain. -/
def faxRuns (s : State) (l : Line) : Bool :=
  (s.line l).fax.role.isSome && decide (s.st l = .fax ∨ s.st l = .train)

/-- The engine is in a role and a phase. -/
def faxIs (s : State) (l : Line) (r : FaxRole) (p : FaxPhase) : Bool :=
  faxRuns s l && decide ((s.line l).fax.role = some r ∧ (s.line l).fax.phase = some p)

/-- A control message goes out and its answer is awaited (R160). -/
def sendControl (l : Line) (m : FaxMsg) : State → State := modFax l fun f =>
  { f with outQueue := f.outQueue ++ [m], outstanding := some ⟨m, 1, none⟩ }

/-- A control message goes out again. -/
def sendAgain (l : Line) (m : FaxMsg) : State → State := modFax l fun f => { f with outQueue := f.outQueue ++ [m] }

/-- The outstanding message is discharged. -/
def discharge (l : Line) : State → State := modFax l fun f => { f with outstanding := none }

/-- The kinds of an outstanding message. -/
def FaxMsg.isSet : FaxMsg → Bool
  | .set _ _ _ => true
  | _ => false

/-- A VERDICT. -/
def FaxMsg.isVerdict : FaxMsg → Bool
  | .verdict _ _ _ => true
  | _ => false

/-- A CAPS. -/
def FaxMsg.isCaps : FaxMsg → Bool
  | .caps _ _ _ => true
  | _ => false

/-- A message of a kind is acted on (R160). -/
def noteTaken (l : Line) (k : FaxKind) : State → State := modFax l fun f => { f with taken := some k }

/-- The answer this end has given to the message it acted on last, when that answer is a control message it still awaits an answer
to: SET or BYE. -/
def FaxMsg.isAnswer : FaxMsg → Bool
  | .set _ _ _ => true
  | .bye _ => true
  | _ => false

/-- A message of a kind received again after it has been answered is answered again, without being acted on afresh; while its answer
is still going out there is nothing to repeat (R160; log entry 58). -/
def answerAgain (l : Line) (k : FaxKind) (s : State) : State :=
  let f := (s.line l).fax
  match f.outstanding with
  | some o => if faxRuns s l ∧ f.taken = some k ∧ o.msg.isAnswer ∧ o.due.isSome then sendAgain l o.msg s else s
  | none => s

/-- The outstanding message passes a test. -/
def awaits (s : State) (l : Line) (p : FaxMsg → Bool) : Bool := ((s.line l).fax.outstanding.map fun o => p o.msg).getD false

/-- The end ends the session with BYE (R161). -/
def sendBye (l : Line) (r : ByeReason) (s : State) : State :=
  sendControl l (.bye r) (modFax l (fun f => { f with
    phase := some .ended, byeSent := some r, capsDue := none, headerUse := none, endCause := some (.bye r) }) s)

/-- The release reason at the end that sent BYE first (R161). -/
def byeRelease (r : ByeReason) (fullEnded : Bool) : ReleaseReason :=
  match r with
  | .done => .faxDone
  | .storeFull => if fullEnded then .storeFull else .faxFail
  | _ => .faxFail

/-- The release reason at the end that answered BYE (R161). -/
def byeAnswerRelease : ByeReason → ReleaseReason
  | .done => .faxDone
  | _ => .faxFail

/-- The session ends with a release and a session end cause. -/
def failSession (l : Line) (r : ReleaseReason) (cause : EndCause) (s : State) : State :=
  askRelease l r (modFax l (fun f => { f with endCause := some cause, outstanding := none, capsDue := none }) s)

/-! ### Start of a session (R159) -/

/-- The modes of the fax rungs handed over that are not above the profile's highest fax mode (R162). -/
def ownModes (s : State) (l : Line) (rungs : List Nat) : List Mode :=
  (rungs.filterMap fun i => (s.ladder[i]?).map (·.mode)).filter fun m =>
    decide (m.code ≤ (s.line l).profile.highestFax.code)

/-- A session begins: the list of fax rungs is taken, and everything of an earlier session is gone; an empty list ends it. -/
def beginSession (l : Line) (role : FaxRole) (s : State) : State :=
  let rungs := faxRungs s.ladder
  if rungs = [] then failSession l .faxFail (.bye .noRung) (modFax l (fun _ => initialFax none) s)
  else
    modFax l (fun _ => { initialFax none with
      role := some role, phase := some .setup, rungs := rungs, page := 1, tryCount := 1 }) s

/-- A sender begins (R159). -/
def startSender (l : Line) (s : State) : State :=
  let s := beginSession l .sender s
  if (s.line l).fax.role = none then s
  else
    let id := ((s.line l).call.cr.message).getD 0
    if canRef s id then
      let len := ((findEntry s id).map (·.length)).getD 0
      openReader (.line l) id 0 len (takeRef id (modFax l (fun f => { f with
        message := some id, capsDue := some (s.now + 13000) }) s))
    else askRelease l .host s

/-- A receiver begins: CAPS is sent (R159, R162). -/
def startReceiver (l : Line) (s : State) : State :=
  let s := beginSession l .receiver s
  if (s.line l).fax.role = none then s
  else
    let p := (s.line l).profile
    sendControl l (.caps (ownModes s l (faxRungs s.ladder)) p.fine p.minLineTime) s

/-! ### Modes and rungs -/

/-- The rung of a fax mode in the list handed over. -/
def faxRungOf (s : State) (l : Line) (m : Mode) : Option Nat :=
  (s.line l).fax.rungs.find? fun i => decide ((s.ladder[i]?).map (·.mode) = some m)

/-- The agreed mode is taken and the modem's rung set to it. -/
def agreeMode (l : Line) (m : Mode) (s : State) : State :=
  let s := modFax l (fun f => { f with agreed := some m }) s
  match faxRungOf s l m with
  | some r => setFaxRung l r s
  | none => s

/-- The session's fax mode next below the agreed one. -/
def nextLowerMode (f : Fax) : Option Mode :=
  match f.agreed with
  | some a => (f.modes.filter fun m => m.below a).getLast?
  | none => none

/-- One step down, if a lower mode exists. -/
def stepDown (l : Line) (s : State) : State :=
  match nextLowerMode (s.line l).fax with
  | some m => agreeMode l m s
  | none => s

/-- SET with its check goes out at the agreed mode (R162). -/
def sendSet (l : Line) (s : State) : State :=
  let f := (s.line l).fax
  let m := FaxMsg.set (f.agreed.getD .l48) f.fine f.lineTime
  sendControl l m (modFax l (fun f => { f with phase := some .check, lastSet := some m }) s)

/-- The rung of the agreed mode. -/
def agreedRung (s : State) (l : Line) : Nat := (((s.line l).fax.agreed).bind (faxRungOf s l)).getD 0

/-- A PAGE report (R169). -/
def reportPage (l : Line) (page : Nat) (v : Verdict) (total bad : Nat) (s : State) : State :=
  queueReport (.page l page v total bad (agreedRung s l)) s

/-! ### The sender's pages (R162, R165, R166) -/

/-- PAGE_END is sent and VERDICT awaited (R165). -/
def sendPageEnd (l : Line) (lines : Nat) (s : State) : State :=
  let last := match readerOf s (.line l) with | some r => decide (r.length ≤ r.position) | none => true
  sendControl l (.pageEnd last lines) (modFax l (fun f => { f with phase := some .verdict }) s)

/-- The least bytes of a record at a line time in ms and a bit rate (R165). -/
def minRecordBytes (lineTime rate : Nat) : Nat := (lineTime * rate + 7999) / 8000

/-- A line record as it goes on the line: number, length, data and check, and the fill that brings it to its least bytes (R165,
10.5). -/
def txRecordOf (f : Fax) (data : List Byte) : TxRecord :=
  let bytes := withCheck (recordBody (BitVec.ofNat 16 f.recordNo) (BitVec.ofNat 16 data.length) data)
  ⟨bytes, minRecordBytes f.lineTime ((f.agreed.map Mode.bitRate).getD 0) - bytes.length⟩

/-- The next record goes on the line once all its bytes can be read; PAGE_END after the last (R165, R166). Bytes not there are an
underrun in the block in which they were first asked for, and not in the later blocks of the same wait: DESIGN CHOICE, log entry 61. -/
def sendRecord (l : Line) (s : State) : State :=
  let f := (s.line l).fax
  match f.header, readerOf s (.line l) with
  | some (_, lines), some r =>
    if lines ≤ f.recordNo then sendPageEnd l lines s
    else
      let held := r.held
      let left := r.length - r.position
      if left < 2 then sendBye l .badMessage s
      else
        match held with
        | h :: lo :: rest =>
          let len := h.toNat * 256 + lo.toNat
          if 512 < len ∨ left < len + 2 then sendBye l .badMessage s
          else if len ≤ rest.length then
            takeBytes (.line l) (len + 2) (modFax l (fun f => { f with txRecord := some (txRecordOf f (rest.take len)) }) s)
          else noteUnderrun l s
        | _ => noteUnderrun l s
  | _, _ => s

/-- The page signal of the page whose header has been read begins (R165). -/
def beginPage (l : Line) (s : State) : State :=
  sendRecord l (modFax l (fun f => { f with phase := some .page, recordNo := 0, txRecord := none }) s)

/-- A page whose resolution CAPS lacks ends the session; otherwise the page's resolution is set (R162). -/
def withResolution (l : Line) (fine : Bool) (go : State → State) (s : State) : State :=
  if fine ∧ (s.line l).fax.capsFine = false then sendBye l .unsupported s
  else go (modFax l (fun f => { f with fine := fine }) s)

/-- The answer to CAPS with the first page's header in hand (R162). -/
def answerCaps (l : Line) (fine : Bool) (s : State) : State :=
  match (s.line l).fax.modes.getLast? with
  | none => sendBye l .unsupported s
  | some m =>
    withResolution l fine (fun s =>
      sendSet l (agreeMode l m (modFax l (fun f => { f with
        lineTime := max f.capsTime (s.line l).profile.minLineTime }) s))) s

/-- What the sender does with a valid header (R162, R165, R170). A page whose resolution is not the one last set has a fresh SET before
it, also where its header is read only after CHECK_OK. -/
def useHeader (l : Line) (use : HeaderUse) (fine : Bool) (s : State) : State :=
  match use with
  | .setup => answerCaps l fine s
  | .nextPage | .again =>
    if fine = (s.line l).fax.fine then beginPage l s else withResolution l fine (sendSet l) s
  | .nextSet => withResolution l fine (sendSet l) s

/-- The next page header is read once its 16 bytes are there; a header that is not valid or runs past the message ends the
session (R166). -/
def fetchHeader (l : Line) (s : State) : State :=
  match (s.line l).fax.headerUse, readerOf s (.line l) with
  | some use, some r =>
    if r.length - r.position < 16 then sendBye l .badMessage s
    else if 16 ≤ r.held.length then
      match readPageHeader (r.held.take 16) with
      | some (fine, lines) =>
        useHeader l use fine (takeBytes (.line l) 16 (modFax l (fun f => { f with
          headerUse := none, header := some (fine, lines), pageStart := some r.position }) s))
      | none => sendBye l .badMessage s
    else noteUnderrun l s
  | _, _ => s

/-- The sender goes on with the header it wants: the page starts where the stream stands (R165). -/
def wantHeader (l : Line) (use : HeaderUse) (s : State) : State :=
  fetchHeader l (modFax l (fun f => { f with
    headerUse := some use, header := none, pageStart := (readerOf s (.line l)).map (·.position) }) s)

/-- Bytes have arrived in the sender's buffers (R165). -/
def faxReadArrived (l : Line) (s : State) : State :=
  if (s.line l).fax.headerUse.isSome then fetchHeader l s
  else if faxIs s l .sender .page ∧ (s.line l).fax.txRecord = none then sendRecord l s
  else s

/-- LINE_RECORD_SENT: a record is complete; the next, or PAGE_END, follows while the page signal goes on (R165). -/
def opLineRecordSent (l : Line) (s : State) : State :=
  if faxRuns s l ∧ (s.line l).fax.txRecord.isSome then
    let s := modFax l (fun f => { f with txRecord := none, recordNo := f.recordNo + 1 }) s
    if faxIs s l .sender .page then sendRecord l s else s
  else s

/-! ### Answers at the sender -/

/-- The session's fax modes (R162). -/
def sessionModes (s : State) (l : Line) (caps : List Mode) : List Mode :=
  (ownModes s l (s.line l).fax.rungs).filter fun m => decide (m ∈ caps)

/-- CAPS (R162); a repeated one is answered by the SET last sent, with its check, or by the BYE that answered it (R160). -/
def opCaps (l : Line) (modes resolutions lineTime : Byte) (s : State) : State :=
  let f := (s.line l).fax
  if faxIs s l .sender .setup ∧ f.capsModes = none then
    wantHeader l .setup (modFax l (fun f => { f with
      taken := some .caps, capsModes := some (modeSet modes), capsFine := resolutions.getLsbD 1, capsTime := lineTime.toNat, capsDue := none
      modes := sessionModes s l (modeSet modes) }) s)
  else if faxRuns s l ∧ f.role = some .sender ∧ f.phase ≠ some .ended then
    match f.lastSet with
    | some m => sendAgain l m s
    | none => s
  else if f.role = some .sender then answerAgain l .caps s
  else s

/-- The check pattern of the SET awaited has been sent, or that SET is being sent again: the far end has a check to answer. -/
def checkAnswerable (s : State) (l : Line) : Bool :=
  ((s.line l).fax.outstanding.map fun o => o.msg.isSet && (o.due.isSome || decide (1 < o.sends))).getD false

/-- CHECK_OK: the page signal starts (R163). -/
def opCheckOk (l : Line) (s : State) : State :=
  if faxIs s l .sender .check ∧ checkAnswerable s l then
    let s := noteTaken l .check (discharge l s)
    if (s.line l).fax.header.isSome then beginPage l s
    else wantHeader l .again (modFax l (fun f => { f with phase := some .page }) s)
  else s

/-- The page is sent again lower down, or the session ends with BYE (FAILED) (R170). -/
def resendPage (l : Line) (s : State) : State :=
  let f := (s.line l).fax
  if 3 ≤ f.tryCount ∨ (nextLowerMode f).isNone then sendBye l .failed s
  else
    let s := stepDown l (modFax l (fun f => { f with tryCount := f.tryCount + 1, header := none, headerUse := none }) s)
    sendSet l (moveReader (.line l) (f.pageStart.getD 0) s)

/-- CHECK_FAIL: a step down and SET again, or BYE (NO_RUNG) (R163); in PAGE the page has failed (R171). One that comes again while
the SET that answers it is going out is a repeat, and changes nothing (R160). -/
def opCheckFail (l : Line) (s : State) : State :=
  if faxIs s l .sender .check ∧ checkAnswerable s l then
    let s := noteTaken l .check (discharge l s)
    if (nextLowerMode (s.line l).fax).isSome then sendSet l (stepDown l s) else sendBye l .noRung s
  else if faxIs s l .sender .page then
    let f := (s.line l).fax
    let nb := Config.unjudgedPage f.page f.tryCount
    resendPage l (reportPage l f.page .bad nb.1 nb.2 (noteTaken l .check s))
  else if faxIs s l .sender .ended then answerAgain l .check s
  else s

/-- The page counts as good, and the next one is taken up (R170). -/
def nextPage (l : Line) (v : Verdict) (s : State) : State :=
  let s := modFax l (fun f => { f with page := f.page + 1, tryCount := 1 }) s
  if v = .good then wantHeader l .nextPage (modFax l (fun f => { f with phase := some .page }) s)
  else wantHeader l .nextSet (modFax l (fun f => { f with phase := some .check }) (stepDown l s))

/-- A verdict acted on (R170). -/
def takeVerdict (l : Line) (last : Bool) (v : Verdict) (s : State) : State :=
  match v with
  | .bad => resendPage l s
  | _ =>
    let s := modFax l (fun f => { f with good := f.good + 1, allGood := last }) s
    if last then sendBye l .done s else nextPage l v s

/-- The PAGE_END outstanding carried LAST. -/
def pageEndLast (s : State) (l : Line) : Option Bool :=
  (s.line l).fax.outstanding.bind fun o => match o.msg with | .pageEnd last _ => some last | _ => none

/-- VERDICT (R170); a code that names no verdict is not taken. A repeated one is answered again by the SET or BYE that answered it
(R160); the page signal that answered GOOD is going on by itself. -/
def opVerdict (l : Line) (verdict : Byte) (total bad : Word16) (s : State) : State :=
  match Verdict.ofCode verdict.toNat, pageEndLast s l with
  | some v, some last =>
    if faxIs s l .sender .verdict ∧ v ≠ .none then
      takeVerdict l last v (reportPage l (s.line l).fax.page v total.toNat bad.toNat (noteTaken l .verdict (discharge l s)))
    else s
  | some v, none => if (s.line l).fax.role = some .sender ∧ v ≠ .none then answerAgain l .verdict s else s
  | _, _ => s

/-- CAPS_WAIT_EXPIRY (R159). -/
def opCapsWaitExpiry (l : Line) (s : State) : State :=
  match (s.line l).fax.capsDue with
  | some due => failSession l .faxFail (.release .noAnswer) (elapse due s)
  | none => s

/-! ### The receiver's check (R163, R164) -/

/-- The page counters at the start of a page (R167). -/
def freshPage (l : Line) : State → State := modFax l fun f =>
  { f with placed := 0, bad := 0, run := 0, longest := 0, expected := 0, prevGood := none, stored := 0, lineEnds := []
           pageStart := none, afterCut := none }

/-- The counts of a check start again. -/
def freshCheck (l : Line) : State → State := modFax l fun f => { f with checkCount := 0, checkGood := 0, checkSum := 0 }

/-- SET (R162): in its phase, as the answer awaited, or repeated (R160); one that BYE has answered is answered so again. One whose
resolution byte is neither NORMAL nor FINE is ignored: DESIGN CHOICE, log entry 84. -/
def opSet (l : Line) (mode resolution lineTime : Byte) (s : State) : State :=
  let f := (s.line l).fax
  let wanted := decide (f.phase = some .check) ||
    awaits s l fun m => m.isCaps || m.isVerdict || decide (m = .checkOk ∨ m = .checkFail)
  if faxRuns s l ∧ f.role = some .receiver ∧ f.phase ≠ some .ended ∧ wanted then
    match Mode.ofCode mode.toNat, onOff resolution.toNat with
    | some m, some fine =>
      let s := noteTaken l .set (discharge l s)
      if (faxRungOf s l m).isNone ∨ (fine ∧ (s.line l).profile.fine = false) then sendBye l .unsupported s
      else
        beginWindow l (freshCheck l (agreeMode l m (modFax l (fun f => { f with
          phase := some .check, fine := fine, lineTime := lineTime.toNat }) s)))
    | none, some _ => sendBye l .unsupported (noteTaken l .set (discharge l s))
    | _, none => s
  else if f.role = some .receiver ∧ f.phase = some .ended then answerAgain l .set s
  else s

/-- A window of the line check, handed over with its M and burst verdict (R163). -/
def checkWindow (l : Line) (r : WindowResult) (s : State) : State :=
  impulseWindow l r (modFax l (fun f => { f with
    checkCount := f.checkCount + 1
    checkGood := f.checkGood + (if r.burst then 0 else 1)
    checkSum := f.checkSum + (if r.burst then 0 else r.mean) }) s)

/-- The check's M (R163); I is the profile's as the check ends: DESIGN CHOICE, log entry 66. -/
def checkMean (s : State) (l : Line) : Nat :=
  let f := (s.line l).fax
  if f.checkGood = 0 then (s.line l).profile.impulseThreshold else f.checkSum / f.checkGood

/-- The receiver's message is created at its first accepted check, or the store refuses (R164). -/
def prepareMessage (l : Line) (s : State) : Option State :=
  if (s.line l).fax.message.isSome then some s
  else if storeReady s = false ∨ createRefused s then none
  else
    let id := freshId s
    some (modFax l (fun f => { f with message := some id }) (createMessage (.line l) .fax none .none s))

/-- The check is accepted (R163, R164). -/
def checkAccepted (l : Line) (s : State) : State :=
  match prepareMessage l (acceptCheck l (checkMean s l) s) with
  | some s => sendControl l .checkOk (beginWindow l (freshPage l (modFax l (fun f => { f with phase := some .page }) s)))
  | none => sendBye l .storeFull (acceptCheck l (checkMean s l) s)

/-- CHECK_FAIL goes out, the receiver in CHECK. -/
def sendCheckFail (l : Line) (s : State) : State :=
  sendControl l .checkFail (modFax l (fun f => { f with phase := some .check, failNext := false }) s)

/-- The check is judged against D of the receiver's rung of the agreed mode (R163, R171). -/
def judgeCheck (l : Line) (s : State) : State :=
  match s.ladder[agreedRung s l]? with
  | some r =>
    if checkMean s l < r.d ∧ (s.line l).fax.failNext = false then checkAccepted l s else sendCheckFail l s
  | none => sendCheckFail l s

/-- CHECK_PATTERN_END (R163): the window in progress is dropped (R98); a check of fewer than 15 windows is not judged. -/
def opCheckPatternEnd (l : Line) (s : State) : State :=
  if faxIs s l .receiver .check ∧ (s.line l).fax.agreed.isSome then
    let s := dropWindow l s
    freshCheck l (if 15 ≤ (s.line l).fax.checkCount then judgeCheck l s else s)
  else s

/-! ### The receiver's pages (R167, R168) -/

/-- The page header is appended at the page start (R168). A header that the stream drops for overrun is tried again at each later line
and at PAGE_END, and until it is in, every line of the page is dropped too: DESIGN CHOICE, log entry 86. -/
def startPage (l : Line) (id : Nat) (s : State) : State :=
  let f := (s.line l).fax
  if f.pageStart.isSome then s
  else
    let h := pageHeader f.page f.fine openLines 0 0 .none false false false f.lineTime
    appendRecord l id h (if recordFits s id h.length then modFax l (fun f => { f with pageStart := some (acceptedOf s id) }) s else s)

/-- The writing stream of the fax message has been ended by a full store in this command (R145): the engine is being told. -/
def writerEnded (s : State) (l : Line) : Bool :=
  (((s.line l).fax.message.bind (findWriter s)).map (·.failed)).getD false

/-- A line is placed at e: stored, or dropped and then counted bad without a penalty (R167, R168). None is placed once the store has ended
the writer: the page is in progress no more (R145, R173; DEDUCED, log entry 57). -/
def placeLine (l : Line) (data : List Byte) (countedBad : Bool) (s : State) : State :=
  if writerEnded s l then s
  else
    let id := (s.line l).fax.message.getD 0
    let s := startPage l id s
    let bytes := numBytes 2 data.length ++ data
    let kept := (s.line l).fax.pageStart.isSome && recordFits s id bytes.length
    let s := if kept then appendRecord l id bytes s else noteSlip l s
    let isBad := countedBad || !kept
    modFax l (fun f => { f with
      placed := f.placed + 1, expected := f.expected + 1
      bad := f.bad + (if isBad then 1 else 0)
      run := if isBad then f.run + 1 else 0
      longest := if isBad then max f.longest (f.run + 1) else f.longest
      stored := f.stored + (if kept then 1 else 0)
      lineEnds := if kept then f.lineEnds ++ [acceptedOf s id] else f.lineEnds }) s

/-- A concealed line: a copy of the previous good line, or a blank line (R167). -/
def concealLine (l : Line) (s : State) : State := placeLine l ((s.line l).fax.prevGood.getD []) true s

/-- So many concealed lines. -/
def concealLines (l : Line) : Nat → State → State
  | 0, s => s
  | n + 1, s => concealLines l n (concealLine l s)

/-- A bad record: one concealed line and the fax penalty (R167, R100). -/
def placeBad (l : Line) (s : State) : State :=
  addPenalty l (s.line l).profile.faxPenalty (concealLine l s)

/-- A record with a good check (R167). -/
def placeGood (l : Line) (number : Nat) (data : List Byte) (s : State) : State :=
  let e := (s.line l).fax.expected
  if e ≤ number ∧ number ≤ e + 64 ∧ data.length ≤ 512 then
    placeLine l data false (modFax l (fun f => { f with prevGood := some data }) (concealLines l (number - e) s))
  else placeBad l s

/-- The start of page signal answers CHECK_OK or VERDICT (R160). -/
def pageSignal (l : Line) (s : State) : State :=
  if awaits s l fun m => m.isVerdict || decide (m = .checkOk) then discharge l s else s

/-- LINE_RECORD (R167). -/
def opLineRecord (l : Line) (r : RecordInput) (s : State) : State :=
  if faxIs s l .receiver .page ∧ s.st l = .fax then
    let s := pageSignal l s
    if RecordInput.good r ∧ r.length.toNat = r.data.length then placeGood l r.number.toNat r.data s else placeBad l s
  else s

/-! ### Verdicts (R169) -/

/-- The verdict of a page by its profile's limits. -/
def pageVerdict (p : Profile) (total bad longest : Nat) : Verdict :=
  if bad * 1000 ≤ total * p.goodPerMille ∧ longest ≤ p.runLimit then .good
  else if bad * 1000 ≤ total * p.retrainPerMille ∧ longest ≤ 2 * p.runLimit then .retrainGood
  else .bad

/-- The verdict with the modem's Q taken in (R169). -/
def judgedVerdict (s : State) (l : Line) : Verdict :=
  let f := (s.line l).fax
  let v := pageVerdict (s.line l).profile f.placed f.bad f.longest
  if v = .good ∧ ((currentRung s l).map fun r => decide (r.d ≤ (s.line l).modem.q)).getD false then .retrainGood else v

/-- The page at hand as the message's list of pages keeps it. -/
def Fax.mark (f : Fax) (start : Nat) (whole : Bool) : PageMark :=
  ⟨start, f.page, f.fine, f.bad, f.longest, f.lineTime, f.lineEnds, whole⟩

/-- A page that has its verdict joins the message's pages, its header rewritten in place (R168, R169). A page whose header never came in
has nothing in the message to rewrite: DESIGN CHOICE, log entry 86. -/
def notePage (l : Line) (v : Verdict) (s : State) : State :=
  let f := (s.line l).fax
  match f.pageStart, f.message with
  | some o, some id =>
    let m := f.mark o true
    storeKick (rewriteMark id m v false (modWriter id (fun w => { w with pages := w.pages ++ [m] }) s))
  | _, _ => s

/-- VERDICT is sent, with the PAGE report. -/
def sendVerdict (l : Line) (page : Nat) (v : Verdict) (total bad : Nat) (s : State) : State :=
  let m := FaxMsg.verdict v total bad
  sendControl l m (reportPage l page v total bad (modFax l (fun f => { f with lastVerdict := some m }) s))

/-- The page in progress is cut back; what follows waits for the store to report the cut complete (R169, R171). -/
def cutPage (l : Line) (after : AfterCut) (s : State) : State :=
  let f := (s.line l).fax
  match f.pageStart, f.message with
  | some o, some id => storeKick (cutTo id o (modFax l (fun f => { f with afterCut := some after }) s))
  | _, some id => post (.cutDone (.line l) id) (modFax l (fun f => { f with afterCut := some after }) s)
  | _, _ => s

/-- The page is judged (R169). -/
def judgePage (l : Line) (s : State) : State :=
  let f := (s.line l).fax
  match judgedVerdict s l with
  | .bad => cutPage l (.verdictBad f.placed f.bad) (modFax l (fun f => { f with phase := some .verdict }) s)
  | v =>
    let s := notePage l v s
    sendVerdict l f.page v f.placed f.bad (modFax l (fun f => { f with
      phase := some .verdict, page := f.page + 1, pageCount := f.pageCount + 1, pageStart := none }) s)

/-- PAGE_END repeated for a page whose VERDICT has been sent: the same VERDICT again (R160). -/
def repeatVerdict (l : Line) (s : State) : State :=
  match (s.line l).fax.lastVerdict with
  | some m => sendAgain l m s
  | none => s

/-- A PAGE_END taken as the repeat of the one judged last: its VERDICT is still outstanding and no record of a next page has come, and it
carries the same LAST flag and line count; a different one is the PAGE_END of a next page (R160, R168; DEDUCED, log entry 49). -/
def repeatsPageEnd (s : State) (l : Line) (last : Bool) (lines : Nat) : Bool :=
  awaits s l FaxMsg.isVerdict && decide ((s.line l).fax.lastPageEnd = some (last, lines))

/-- PAGE_END (R167, R169). A page whose tail lines meet a full store is not judged: the store has ended the writer, and the page closes
TRUNCATED with BYE (STORE_FULL) (R145, R173; DEDUCED, log entry 57). -/
def opPageEnd (l : Line) (last : Bool) (lineCount : Word16) (s : State) : State :=
  let f := (s.line l).fax
  if faxRuns s l = false ∨ f.role ≠ some .receiver then s
  else if repeatsPageEnd s l last lineCount.toNat ∧ f.phase ≠ some .verdict ∧ f.phase ≠ some .ended then repeatVerdict l s
  else if f.phase = some .page ∧ s.st l = .fax then
    let s := modFax l (fun f => { f with lastPageEnd := some (last, lineCount.toNat) }) (noteTaken l .pageEnd (pageSignal l s))
    let s := dropWindow l (concealLines l (lineCount.toNat - f.placed) (startPage l (f.message.getD 0) s))
    if writerEnded s l then s else judgePage l s
  else s

/-- The store reports the cut complete (R169, R171). A session that has ended meanwhile sends neither VERDICT nor CHECK_FAIL: its BYE
stands (R161, R173; DEDUCED, log entry 57). -/
def faxCutDone (l : Line) (s : State) : State :=
  let f := (s.line l).fax
  if faxRuns s l then
    match f.afterCut with
    | some after =>
      let s := freshPage l s
      if f.phase = some .ended then s
      else
        match after with
        | .verdictBad n b => sendVerdict l f.page .bad n b s
        | .checkFail => sendCheckFail l s
    | none => s
  else s

/-- A GOOD verdict still waiting to go out becomes RETRAIN_GOOD (R171). -/
def goodToRetrainGood : FaxMsg → FaxMsg
  | .verdict .good n b => .verdict .retrainGood n b
  | m => m

/-- A GOOD verdict. -/
def FaxMsg.isGood : FaxMsg → Bool
  | .verdict .good _ _ => true
  | _ => false

/-- Of reports latest first, the PAGE report of a page of a line with verdict GOOD becomes RETRAIN_GOOD. -/
def regradeReport (l : Line) (number : Nat) : List Report → List Report
  | [] => []
  | .page m n .good total bad rung :: rest =>
    if m = l ∧ n = number then .page m n .retrainGood total bad rung :: rest
    else .page m n .good total bad rung :: regradeReport l number rest
  | r :: rest => r :: regradeReport l number rest

/-- The page judged last is recorded RETRAIN_GOOD in place of GOOD: in its stored header and in its PAGE report (R171). -/
def regradePage (l : Line) (s : State) : State :=
  match (s.line l).fax.message.bind (findWriter s) with
  | some w =>
    match w.pages.getLast? with
    | some m =>
      storeKick (rewriteMark w.id m .retrainGood false
        (modLink (fun k => { k with reports := (regradeReport l m.number k.reports.reverse).reverse }) s))
    | none => s
  | none => s

/-- Of messages waiting to go out, the last VERDICT, which is the one of the page judged last, becomes RETRAIN_GOOD if it is GOOD. -/
def regradeOwn : List FaxMsg → List FaxMsg
  | [] => []
  | m :: rest => (if rest.any FaxMsg.isVerdict then m else goodToRetrainGood m) :: regradeOwn rest

/-- The VERDICT of the page judged last waits to go out, and it is GOOD: no cut holds it back, and it is the message outstanding. -/
def Fax.ownGoodWaits (f : Fax) : Bool :=
  f.afterCut.isNone && (f.outstanding.map fun o => o.msg.isGood).getD false

/-- A retrain requested by the modem in FAX reaches the engine (R171). One requested in PAGE before any record, with no page in progress,
ends the coming page all the same, with N and B 0: DESIGN CHOICE, log entry 87. -/
def faxRetrain (l : Line) (s : State) : State :=
  let f := (s.line l).fax
  if f.role ≠ some .receiver then s
  else
    match f.phase with
    | some .page =>
      cutPage l .checkFail (reportPage l f.page .bad f.placed f.bad
        (discharge l (dropWindow l (modFax l (fun f => { f with phase := some .check }) s))))
    | some .verdict =>
      if f.ownGoodWaits then
        regradePage l (modFax l (fun f => { f with
          outQueue := regradeOwn f.outQueue
          outstanding := f.outstanding.map fun o => { o with msg := goodToRetrainGood o.msg }
          lastVerdict := f.lastVerdict.map goodToRetrainGood }) s)
      else s
    | some .check => modFax l (fun f => { f with failNext := true }) s
    | _ => s

/-! ### The end of a session (R172, R173) -/

/-- The receiver's message is still open. -/
def faxMessageOpen (s : State) (l : Line) : Option Nat :=
  match (s.line l).fax.role, activeWriter s (.line l) with
  | some .receiver, some w => if (s.line l).fax.message = some w.id then some w.id else none
  | _, _ => none

/-- The page in progress, with no verdict yet: its header stands in the message and no cut takes it back. -/
def Fax.progressMarks (f : Fax) : List PageMark :=
  match f.pageStart with
  | some o => if f.afterCut.isNone then [f.mark o false] else []
  | none => []

/-- The message is closed with the pages that a length of it holds, the last of them TRUNCATED where it has no verdict or loses
lines, or with erase when none is left (R172, R173). The cut of a BAD page that is still in progress completes first (R173); an erase
waits for no other cut (R147). -/
def closePages (l : Line) (id limit : Nat) (reason : EndReason) (s : State) : State :=
  let f := (s.line l).fax
  let kept := keepPages limit (((findWriter s id).map (·.pages)).getD [] ++ f.progressMarks)
  let s := modFax l (fun f => { f with pageCount := kept.length, truncated := lastTruncated kept, pageStart := none })
    (keepInWriter id kept s)
  if kept = [] then (if f.afterCut.isSome then closeEraseAfterCut id s else closeWithErase id s)
  else closeAt id (pagesLength kept) reason (lastTruncated kept) kept.length s

/-- The receiver ends its message with what it has accepted, or with what has been written (R145, R158, R173). -/
def endReceiver (l : Line) (reason : EndReason) (writtenOnly : Bool) (s : State) : State :=
  match faxMessageOpen s l with
  | some id =>
    let limit := min (if writtenOnly then writtenOf s id else acceptedOf s id) (((findEntry s id).map (·.length)).getD 0)
    closePages l id limit reason s
  | none => s

/-- The session at the line's entry to CLEARDOWN, with the reason of the release (R173, R176). -/
def endFax (l : Line) (r : ReleaseReason) (s : State) : State :=
  match (s.line l).fax.role with
  | none => s
  | some role =>
    let s := match role with
      | .sender => closeReader (.line l) s
      | .receiver => endReceiver l (.byRelease r) (decide (r = .reset)) s
    modFax l (fun f => { f with
      phase := some .ended, outQueue := [], outstanding := none, capsDue := none, headerUse := none, txRecord := none
      afterCut := none, endCause := f.endCause.or (some (.release r)) }) s

/-- The store ends the receiver as its writer (R145, R173): the page closes TRUNCATED, the message is closed, and BYE
(STORE_FULL) is sent. -/
def faxWriterFull (l : Line) (id : Nat) (s : State) : State :=
  if faxMessageOpen s l = some id then
    let s := endReceiver l (.byRelease .storeFull) true (modFax l (fun f => { f with fullEnded := true }) s)
    if faxRuns s l ∧ (s.line l).fax.phase ≠ some .ended then sendBye l .storeFull s else s
  else s

/-! ### BYE and the timers (R160, R161) -/

/-- BYE received (R161): the answer to this end's own, or answered with the same reason; at a receiver the message closes
before the answer to BYE (DONE) (R172). A good BYE whose reason byte names none of the six is ignored, neither answered nor taken as
the answer to this end's own: DESIGN CHOICE, log entry 85. Messages that wait behind the one on the line are dropped: DESIGN CHOICE, log
entry 105. -/
def opBye (l : Line) (reason : Byte) (s : State) : State :=
  match ByeReason.ofCode reason.toNat with
  | some r =>
    let f := (s.line l).fax
    if faxRuns s l = false ∨ f.byeAnswer.isSome then s
    else
      match f.byeSent with
      | some own => askRelease l (byeRelease own f.fullEnded) (discharge l s)
      | none =>
        let s := if r = .done then endReceiver l (.byRelease .faxDone) false s else s
        modFax l (fun f => { f with
          phase := some .ended, byeAnswer := some r, endCause := some (.bye r), outstanding := none, capsDue := none
          headerUse := none, outQueue := f.outQueue.take 1 ++ [.bye r] }) s
  | none => s

/-- The phase after the VERDICT of the page judged last has been sent: PAGE after GOOD, otherwise CHECK (R169). While the cut of a BAD page
goes on that VERDICT has not been queued, and what was sent is an earlier one. -/
def afterVerdictSent (l : Line) (v : Verdict) (s : State) : State :=
  if (s.line l).fax.phase = some .verdict ∧ (s.line l).fax.afterCut = none then
    let s := freshPage l (modFax l (fun f => { f with phase := some (if v = .good then .page else .check) }) s)
    if v = .good then beginWindow l s else s
  else s

/-- What follows a message sent: its answer timer, the receiver's next phase, or the release after an answering BYE. -/
def messageSent (l : Line) (m : FaxMsg) (s : State) : State :=
  let s := modFax l (fun f => { f with
    outstanding := f.outstanding.map fun o => if o.msg = m then { o with due := some (s.now + 3000) } else o }) s
  match m with
  | .verdict v _ _ => afterVerdictSent l v s
  | .bye r => if (s.line l).fax.byeAnswer = some r then askRelease l (byeAnswerRelease r) s else s
  | _ => s

/-- A message is a VERDICT with another behind it: a repeat of an earlier one, for which PAGE_END or the answer timer has called, that goes
out before the one that counts (R160). -/
def earlierVerdict (m : FaxMsg) (rest : List FaxMsg) : Bool := m.isVerdict && rest.any FaxMsg.isVerdict

/-- CONTROL_MESSAGE_SENT (R160, R169): nothing follows the repeat of an earlier VERDICT. -/
def opControlMessageSent (l : Line) (s : State) : State :=
  match (s.line l).fax.outQueue with
  | m :: rest =>
    let t := modFax l (fun f => { f with outQueue := rest }) s
    if faxRuns s l = false then s else if earlierVerdict m rest then t else messageSent l m t
  | [] => s

/-- An expiry after the fourth send (R160, R161). -/
def giveUp (l : Line) (m : FaxMsg) (s : State) : State :=
  match m with
  | .bye r => askRelease l (byeRelease r (s.line l).fax.fullEnded) (discharge l s)
  | _ => failSession l .faxFail (.release .noAnswer) s

/-- ANSWER_TIMER_EXPIRY (R160). -/
def opAnswerTimerExpiry (l : Line) (s : State) : State :=
  match (s.line l).fax.outstanding with
  | some o =>
    match o.due with
    | some due =>
      let s := elapse due s
      if 4 ≤ o.sends then giveUp l o.msg s
      else sendAgain l o.msg (modFax l (fun f => { f with outstanding := some { o with sends := o.sends + 1, due := none } }) s)
    | none => s
  | none => s

/-- The fax result of a try for its job (R174). -/
def faxResult (f : Fax) : JobResult := if f.allGood then .sent else if 0 < f.good then .partlySent else .failed

/-! ### Windows (R98, R101, R114) -/

/-- The mode whose symbols a window end measures: the rung's, or L48 in PROBE. -/
def windowMode (s : State) (l : Line) : Mode := ((currentRung s l).map (·.mode)).getD .l48

/-- The engine measures its check pattern. -/
def inCheck (s : State) (l : Line) : Bool := faxIs s l .receiver .check

/-- WINDOW_END: the window in progress is complete, of the probe, of DATA, of a fax check or of page data; no other reception is
gathered (R98, R99). The order of the reports of one window end, IMPULSE, QUALITY or the rate request, FREQ_LIMIT, then the line's move
to TRAIN, is DESIGN CHOICE, log entry 67. -/
def opWindowEnd (l : Line) (symbols : List SymbolReading) (offset : Int) (s : State) : State :=
  match (s.line l).modem.window with
  | some w =>
    let result := fun m : Mode => (w.gather symbols).result m.windowLength
    let complete := fun (m : Mode) (act : WindowResult → State → State) => act (result m) (completeWindow l (result m) offset s)
    if s.st l = .train ∧ (s.line l).modem.phase = some .probe then complete .l48 (probeWindow l)
    else if inCheck s l then complete (windowMode s l) fun r t => offsetWindow l offset (checkWindow l r t)
    else if s.st l = .data ∨ faxIs s l .receiver .page ∧ s.st l = .fax then
      complete (windowMode s l) fun r t => offsetWindow l offset (qualityWindow l r t)
    else s
  | none => s

end Sys2Proof.Machine
end

