-- ==== Sys2Proof/Machine/Voice.lean ====
section
/-! DEFINITION. Voice messaging (Chapter 9): coding, greetings, recording, playback, mailboxes. -/

namespace Sys2Proof.Machine

/-! ### Coding (R177, R178) -/

/-- The coder state: predictor and step index. -/
structure Coder where
  p : Int
  k : Nat
deriving DecidableEq, Repr

/-- The change of the step index for a magnitude, clamped to 0 to 47. -/
def stepIndex (coding : Coding) (m k : Nat) : Nat :=
  match coding with
  | .adc2 => if m = 0 then k - 1 else min 47 (k + 2)
  | _ => if m ≤ 1 then k - 1 else if m ≤ 3 then k else min 47 (k + (m - 3))

/-- The magnitude of a difference at a step. -/
def magnitude (coding : Coding) (d : Int) (step : Nat) : Nat :=
  match coding with
  | .adc2 => min 1 (d.natAbs / step)
  | _ => min 7 (4 * d.natAbs / step)

/-- The reconstructed difference of a magnitude at a step. -/
def reconstructed (coding : Coding) (m step : Nat) : Nat :=
  match coding with
  | .adc2 => (2 * m + 1) * step / 2
  | _ => (2 * m + 1) * step / 8

/-- The bits of a code. -/
def codeBits : Coding → Nat
  | .adc2 => 2
  | _ => 4

/-- The sign weight of a code: bit 3 in ADC4, bit 1 in ADC2 (10.7). -/
def signWeight (coding : Coding) : Nat := 2 ^ (codeBits coding - 1)

/-- What coder and decoder make of a code: the predictor and the step index after it. -/
def Coder.apply (c : Coder) (coding : Coding) (code : Nat) : Coder :=
  let m := code % signWeight coding
  let q : Int := (reconstructed coding m (voiceStep c.k) : Nat)
  { p := clampInt (-8192) 8191 (if signWeight coding ≤ code then c.p - q else c.p + q), k := stepIndex coding m c.k }

/-- The code of x. -/
def Coder.code (c : Coder) (coding : Coding) (x : Int) : Nat :=
  let d := x - c.p
  magnitude coding d (voiceStep c.k) + (if d < 0 then signWeight coding else 0)

/-- The codes of samples in order, and the coder after them. -/
def Coder.encode (c : Coder) (coding : Coding) : List Int → List Nat × Coder
  | [] => ([], c)
  | x :: rest =>
    let code := c.code coding x
    let r := (c.apply coding code).encode coding rest
    (code :: r.1, r.2)

/-- Codes packed into bytes, the earliest in the lowest bits. -/
def packCodes (coding : Coding) : List Nat → List Byte
  | [] => []
  | a :: rest =>
    match coding, rest with
    | .adc2, b :: c :: d :: more => BitVec.ofNat 8 (a + 4 * b + 16 * c + 64 * d) :: packCodes coding more
    | .adc2, _ => [BitVec.ofNat 8 a]
    | _, b :: more => BitVec.ofNat 8 (a + 16 * b) :: packCodes coding more
    | _, [] => [BitVec.ofNat 8 a]

/-- The codes of a byte, the earliest first. -/
def unpackByte (coding : Coding) (b : Byte) : List Nat :=
  match coding with
  | .adc2 => [b.toNat % 4, b.toNat / 4 % 4, b.toNat / 16 % 4, b.toNat / 64]
  | _ => [b.toNat % 16, b.toNat / 16]

/-- The output samples of codes, 4 × p with p after the update, and the decoder after them. -/
def Coder.decode (c : Coder) (coding : Coding) : List Nat → List Int × Coder
  | [] => ([], c)
  | code :: rest =>
    let c' := c.apply coding code
    let r := c'.decode coding rest
    (4 * c'.p :: r.1, r.2)

/-- x of a gained sample: floor(s / 4). -/
def voiceX (s : Int) : Int := s / 4

/-- Bytes of a receive block in a coding. -/
def blockBytes : Coding → Nat
  | .adc2 => 20
  | _ => 40

/-! ### Reports and state -/

/-- A VOICE report. -/
def reportVoice (l : Line) (event : VoiceEvent) (reason : EndReason) (position : Nat) : State → State :=
  queueReport (.voice l event reason position)

/-- The substate changes; the expectation of a far-end signal follows RECORDING (R32). -/
def setSub (l : Line) (sub : Option VoiceSub) (s : State) : State :=
  judgeExpectation l (modVoice l (fun v => { v with sub := sub }) s)

/-- A message is playable (R187). -/
def playable (e : Entry) : Bool :=
  decide (e.state = .closed) && (decide (e.kind = .voice) || (decide (e.kind = .file) && decide (e.coding ≠ .none)))

/-- The engine's stream is opened on a message at an offset, its reference taken, p and k reset. -/
def openVoiceStream (l : Line) (e : Entry) (offset : Nat) (s : State) : State :=
  openReader (.line l) e.id offset e.length (takeRef e.id (modVoice l (fun v => { v with
    message := some e.id, coding := e.coding, p := 0, k := 0, position := offset, output := [] }) s))

/-! ### Greeting (R182) -/

/-- The greeting of a mailbox: the message it names. -/
def greetingOf (s : State) (mailbox : Option Nat) : Option Entry :=
  ((mailbox.bind fun m => s.mailboxes[m]?).bind (·.greeting)).bind (findEntry s)

/-- The greeting of the call's mailbox begins: its message, or 5 s of silence. -/
def startGreeting (l : Line) (mailbox : Option Nat) (s : State) : State :=
  let s := closeReader (.line l) s
  let s := setSub l (some .greeting) (modVoice l (fun _ => { initialVoice with
    sub := (s.line l).voice.sub, kind := some .answered, mailbox := mailbox }) s)
  match greetingOf s mailbox with
  | some e => if canRef s e.id then openVoiceStream l e 0 s else modVoice l (fun v => { v with silentDue := some (s.now + 5000) }) s
  | none => modVoice l (fun v => { v with silentDue := some (s.now + 5000) }) s

/-- The greeting stream closes. -/
def closeGreeting (l : Line) (s : State) : State := closeReader (.line l) (modVoice l (fun v => { v with silentDue := none }) s)

/-- The greeting ends and is reported to the call controller (R182). -/
def endGreeting (l : Line) (s : State) : State := post (.greetingEnd l) (closeGreeting l s)

/-! ### Recording (R183 to R186) -/

/-- The running block of the line began at this moment. -/
def atBlockStart (s : State) (l : Line) : Bool := decide ((s.line l).iface.blockDue = s.now + 10)

/-- The recording begins with the block that begins now (R184). -/
def beginRecording (l : Line) (s : State) : State :=
  reportVoice l .start .none 0 (modVoice l (fun v => { v with begun := true, p := 0, k := 0, silenceRun := 0, position := 0 }) s)

/-- The engine enters RECORDING: the recording begins with the first block that begins from now on (R184). -/
def enterRecording (l : Line) (s : State) : State :=
  let s := setSub l (some .recording) (modVoice l (fun v => { v with begun := false, offsets := [], silenceStart := 0 }) s)
  if atBlockStart s l then beginRecording l s else s

/-- BEEP is entered and the beep requested (R183). -/
def enterBeep (l : Line) (s : State) : State :=
  let p := (s.line l).profile
  requestTone l (.beep p.beepFrequency p.beepDuration) (setSub l (some .beep) s)

/-- A message is created for a recording, with its limit in seconds (R183, R189). -/
def createRecording (l : Line) (kind : VoiceKind) (mailbox : Option Nat) (coding : Coding) (seconds : Nat) (s : State) : State :=
  let id := freshId s
  modVoice l (fun v => { initialVoice with
      sub := v.sub, kind := some kind, message := some id, mailbox := mailbox, coding := coding
      limit := seconds * secondBytes coding })
    (createMessage (.line l) .voice mailbox coding s)

/-- The coding and the limit of a mailbox, or ADC4 and 120 s for none (R183, R189). -/
def mailboxSettings (s : State) (mailbox : Option Nat) : Coding × Nat :=
  match mailbox.bind fun m => s.mailboxes[m]? with
  | some m => (m.coding, m.maxLength)
  | none => (.adc4, 120)

/-- A create request of a voice engine is refused (R139, R143). -/
def recordingRefused (s : State) : Bool := !storeReady s || createRefused s

/-- The line's entry to VOICE from CLASSIFY (R183). The position 0 of VOICE END (NO_SPACE) is DESIGN CHOICE, log entry 104. -/
def voiceFromClassify (l : Line) (s : State) : State :=
  let mailbox := (s.line l).call.cr.mailbox
  let s := closeGreeting l s
  if recordingRefused s then
    askRelease l .voiceDone (reportVoice l .ended .noSpace 0 (setSub l none s))
  else
    let m := mailboxSettings s mailbox
    enterBeep l (createRecording l .answered mailbox m.1 m.2 s)

/-- The offset noted at the start of the block in which a time falls: 0 before the first block, the bytes handed after the
last (R185). -/
def offsetAt (offsets : List (Nat × Nat)) (handed time : Nat) : Nat :=
  match offsets with
  | [] => 0
  | (start, _) :: _ =>
    if start + 10 ≤ time then handed
    else match offsets.find? fun o => decide (o.1 ≤ time) with
      | some o => o.2
      | none => 0

/-- The truncated flag of a recording's close (R186). -/
def truncatedFor : EndReason → Bool
  | .limit => true
  | .byRelease .storeFull => true
  | .byRelease .reset => true
  | _ => false

/-- The end of a recording at a length (R186): the cut is asked for first, in a close with erase too, which waits for none of the
cut's writes (R147). The substate is left to the caller. -/
def closeRecording (l : Line) (reason : EndReason) (length : Nat) (s : State) : State :=
  let v := (s.line l).voice
  match v.message with
  | some id =>
    let final := min length (acceptedOf s id)
    let s := reportVoice l .ended reason final (modVoice l (fun v => { v with position := final, begun := false }) s)
    if final < secondBytes v.coding then closeWithErase id (cutFirst id final s)
    else closeAt id final reason (truncatedFor reason) 0 s
  | none => s

/-- The bytes handed of the line's recording. -/
def handedOf (s : State) (l : Line) : Nat := (((s.line l).voice.message).map (acceptedOf s)).getD 0

/-- What the engine does after a recording, by its kind (R186). -/
def afterRecording (l : Line) (reason : EndReason) (s : State) : State :=
  let s := setSub l (some .waiting) s
  match reason, (s.line l).voice.kind with
  | .limit, some .answered => askRelease l .voiceDone s
  | .silence, some .answered => askRelease l .voiceDone s
  | .byRelease .farEnd, _ => askRelease l .farEnd s
  | .byRelease .storeFull, some .answered => askRelease l .storeFull s
  | _, _ => s

/-- A recording ends with a reason at a length, and the engine acts by its kind. -/
def endRecording (l : Line) (reason : EndReason) (length : Nat) (s : State) : State :=
  afterRecording l reason (closeRecording l reason length s)

/-- The level of a block for the silence run (R184). -/
def blockLevel (xs : List Int) : Nat := (xs.map Int.natAbs).sum / 80

/-- A block of a recording that has begun (R184). `start` is when the block began. -/
def recordBlock (l : Line) (start : Nat) (gained : List Int) (s : State) : State :=
  let v := (s.line l).voice
  let p := (s.line l).profile
  match v.message with
  | some id =>
    let xs := gained.map voiceX
    let offset := acceptedOf s id
    let r := (Coder.mk v.p v.k).encode v.coding xs
    let s := appendSpeech l id (packCodes v.coding r.1) s
    let silent := decide (blockLevel xs < p.silenceThreshold)
    let s := modVoice l (fun v => { v with
      p := r.2.p, k := r.2.k, offsets := (start, offset) :: v.offsets, position := acceptedOf s id
      silenceRun := if silent then v.silenceRun + 1 else 0
      silenceStart := if silent ∧ v.silenceRun = 0 then offset else v.silenceStart }) s
    if v.limit ≤ acceptedOf s id then endRecording l .limit (acceptedOf s id) s
    else if p.silenceTime * 100 ≤ (s.line l).voice.silenceRun then endRecording l .silence (s.line l).voice.silenceStart s
    else s
  | none => s

/-! ### Playback (R187, R188, R190) -/

/-- So many bytes are taken from the stream and decoded: the position advances. -/
def playBytes (l : Line) (n : Nat) (s : State) : State :=
  match readerOf s (.line l) with
  | some r =>
    let v := (s.line l).voice
    let d := (Coder.mk v.p v.k).decode v.coding ((r.held.take n).flatMap (unpackByte v.coding))
    takeBytes (.line l) n (modVoice l (fun v => { v with
      p := d.2.p, k := d.2.k, position := v.position + n, output := d.1 }) s)
  | none => s

/-- A block of a greeting or playback: the bytes held, up to a block; a shortage of a ready stream is an underrun (R187). -/
def playBlock (l : Line) (s : State) : State :=
  match readerOf s (.line l) with
  | some r =>
    let want := min (blockBytes (s.line l).voice.coding) (r.length - r.position)
    let n := min want r.held.length
    let s := playBytes l n s
    if n < want then noteUnderrun l s else s
  | none => modVoice l (fun v => { v with output := [] }) s

/-- Playback ends with a reason (R187): the stream closes, VOICE END is queued, and the engine waits; a delivery ended with
END or KEY asks for release (R190). -/
def endPlayback (l : Line) (reason : EndReason) (s : State) : State :=
  let v := (s.line l).voice
  let s := setSub l (some .waiting) (modVoice l (fun v => { v with output := [] }) (closeReader (.line l) s))
  let s := reportVoice l .ended reason v.position s
  if v.kind = some .delivery ∧ (reason = .ended ∨ reason = .key) then askRelease l .voiceDone s else s

/-- Playback begins (R187): an offset equal to the length ends it at once. -/
def startPlaying (l : Line) (kind : VoiceKind) (e : Entry) (offset : Nat) (s : State) : State :=
  let s := modVoice l (fun v => { initialVoice with sub := v.sub, kind := some kind }) s
  let s := openVoiceStream l e offset (setSub l (some .playing) s)
  let s := reportVoice l .start .none offset s
  if offset = e.length then endPlayback l .ended s else s

/-- The line's entry to VOICE from PROGRESS: the delivery of the call's message (R190). The position 0 of VOICE END (NO_ENTRY)
is DESIGN CHOICE, log entry 104. -/
def startDelivery (l : Line) (s : State) : State :=
  let e := ((s.line l).call.cr.message).bind (findEntry s)
  match e.filter fun e => canRef s e.id with
  | some e => startPlaying l .delivery e 0 s
  | none => askRelease l .host (reportVoice l .ended .noEntry 0 s)

/-- The last code of the stream can be output: what is left fits a block and is held. -/
def lastBlockHeld (s : State) (l : Line) : Bool :=
  match readerOf s (.line l) with
  | some r =>
    decide (r.length - r.position ≤ blockBytes (s.line l).voice.coding ∧ r.length - r.position ≤ r.held.length)
  | none => false

/-- The last bytes of the stream are output. -/
def playRest (l : Line) (s : State) : State :=
  match readerOf s (.line l) with
  | some r => playBytes l (r.length - r.position) s
  | none => s

/-- GREETING_END (R182). -/
def opGreetingEnd (l : Line) (s : State) : State :=
  let v := (s.line l).voice
  if v.sub ≠ some .greeting then s
  else
    match v.silentDue with
    | some due => endGreeting l (elapse due s)
    | none => if lastBlockHeld s l then endGreeting l (playRest l s) else s

/-- PLAYBACK_COMPLETE (R187). -/
def opPlaybackComplete (l : Line) (s : State) : State :=
  if (s.line l).voice.sub = some .playing ∧ lastBlockHeld s l then endPlayback l .ended (playRest l s) else s

/-- A skip: a new stream at the new position, p and k reset, VOICE SKIP (R188). -/
def skipTo (l : Line) (position : Nat) (s : State) : State :=
  reportVoice l .skip .none position (moveReader (.line l) position (modVoice l (fun v => { v with
    p := 0, k := 0, position := position, output := [] }) s))

/-- A control operation of the detector (R188). -/
def voiceControl (l : Line) (op : ControlOp) (s : State) : State :=
  let v := (s.line l).voice
  let span := 5 * secondBytes v.coding
  if v.sub = some .playing ∨ v.sub = some .paused then
    match op with
    | .stop => endPlayback l .key s
    | .skipBack => skipTo l (v.position - span) s
    | .skipFwd =>
      match readerOf s (.line l) with
      | some r => if r.length ≤ v.position + span then endPlayback l .ended s else skipTo l (v.position + span) s
      | none => s
    | .pause =>
      if v.sub = some .playing then
        reportVoice l .pause .none v.position (setSub l (some .paused) (modVoice l (fun v => { v with output := [] }) s))
      else reportVoice l .resume .none v.position (setSub l (some .playing) s)
  else s

/-! ### Meanings and releases (R181, R191) -/

/-- The created message of a BEEP is closed with erase. -/
def dropBeep (l : Line) (s : State) : State :=
  match (s.line l).voice.message with
  | some id => setSub l none (closeWithErase id s)
  | none => setSub l none s

/-- A BUSY or DIALTONE meaning tells the engine that the far end has gone (R181). `time` is when its run began. -/
def voiceFarEnd (l : Line) (time : Nat) (s : State) : State :=
  let v := (s.line l).voice
  match v.sub with
  | none => s
  | some .recording => endRecording l (.byRelease .farEnd) (offsetAt v.offsets (handedOf s l) time) s
  | some .playing => askRelease l .farEnd (endPlayback l (.byRelease .farEnd) s)
  | some .paused => askRelease l .farEnd (endPlayback l (.byRelease .farEnd) s)
  | some .greeting => askRelease l .farEnd (closeGreeting l s)
  | some .beep => askRelease l .farEnd (dropBeep l s)
  | some .waiting => askRelease l .farEnd s

/-- The length of a recording ended by a release (R185): FAR_END cuts to 300 ms before it, RESET keeps the bytes written. -/
def releaseLength (s : State) (l : Line) (r : ReleaseReason) : Nat :=
  let v := (s.line l).voice
  match r with
  | .farEnd => offsetAt v.offsets (handedOf s l) (s.now - 300)
  | .reset => ((v.message).map (writtenOf s)).getD 0
  | _ => handedOf s l

/-- The engine at the line's entry to CLEARDOWN (R191). -/
def endVoice (l : Line) (r : ReleaseReason) (s : State) : State :=
  let v := (s.line l).voice
  let s := match v.sub with
    | some .greeting => closeGreeting l s
    | some .beep => dropBeep l s
    | some .recording => closeRecording l (.byRelease r) (releaseLength s l r) s
    | some .playing => endPlayback l .releaseEnd s
    | some .paused => endPlayback l .releaseEnd s
    | some .waiting => s
    | none => s
  judgeExpectation l (modVoice l (fun _ => initialVoice) s)

/-- The line leaves CLASSIFY for FAX or TRAIN: the greeting stops and the engine has no substate (R182). -/
def stopGreeting (l : Line) (s : State) : State :=
  modVoice l (fun _ => initialVoice) (if (s.line l).voice.sub = some .greeting then closeGreeting l s else s)

/-- The store ends the recording as its writer (R145, R185). -/
def voiceWriterFull (l : Line) (id : Nat) (s : State) : State :=
  let v := (s.line l).voice
  if v.sub = some .recording ∧ v.message = some id then endRecording l (.byRelease .storeFull) (writtenOf s id) s else s

/-- The beep is complete, or aborted (R183). -/
def beepDone (l : Line) (s : State) : State := if (s.line l).voice.sub = some .beep then enterRecording l s else s

/-- A receive block for the voice engine, with the gained samples and the time the block began. -/
def voiceBlock (l : Line) (start : Nat) (gained : List Int) (s : State) : State :=
  let v := (s.line l).voice
  match v.sub with
  | some .recording => if v.begun then recordBlock l start gained s else beginRecording l s
  | some .playing => playBlock l s
  | some .greeting => playBlock l s
  | _ => s

/-! ### Directives (R179, R180, R187 to R189) -/

/-- PLAY (R187). -/
def opPlay (line : Byte) (message : Word16) (offset : Word32) (s : State) : State :=
  let code := 0x56#8
  match lineOf line with
  | none => done code .badParam [] s
  | some l =>
    if s.st l ≠ .voice then done code .badState [] s
    else if (s.line l).voice.sub ≠ some .waiting then done code .busy [] s
    else if storeReady s = false then done code .notReady [] s
    else
      match findEntry s message.toNat with
      | some e =>
        if playable e = false ∨ canRef s e.id = false then done code .noEntry [] s
        else if e.length < offset.toNat then done code .badParam [] s
        else startPlaying l .host e offset.toNat (done code .ok (numBytes 4 (e.length - offset.toNat)) s)
      | none => done code .noEntry [] s

/-- The mailbox byte of RECORD and ANSWER: 0 to 7, FFH for none. -/
def mailboxOf (b : Byte) : Option (Option Nat) :=
  if b.toNat ≤ 7 then some (some b.toNat) else if b = 0xFF#8 then some none else none

/-- The coding of RECORD: DEFAULT, ADC4 or ADC2, taken with the mailbox's (R189). -/
def recordCoding (s : State) (mailbox : Option Nat) (coding : Coding) : Coding :=
  if coding = .none then (mailboxSettings s mailbox).1 else coding

/-- A named mailbox is enabled. -/
def mailboxEnabled (s : State) (m : Nat) : Bool := ((s.mailboxes[m]?).map (·.enabled)).getD false

/-- RECORD (R189). -/
def opRecord (line mailbox coding : Byte) (limit : Word16) (beep : Byte) (s : State) : State :=
  let code := 0x42#8
  match lineOf line, mailboxOf mailbox, Coding.ofCode coding.toNat, onOff beep.toNat with
  | some l, some mb, some c, some withBeep =>
    if s.st l ≠ .voice then done code .badState [] s
    else if (s.line l).voice.sub ≠ some .waiting then done code .busy [] s
    else if storeReady s = false then done code .notReady [] s
    else if (mb.map (mailboxEnabled s)) = some false then done code .noEntry [] s
    else if createRefused s then done code .storeFull [] s
    else
      let id := freshId s
      let seconds := if limit.toNat = 0 then (mailboxSettings s mb).2 else clamp 5 600 limit.toNat
      let s := done code .ok (numBytes 2 id) (createRecording l .host mb (recordCoding s mb c) seconds s)
      if withBeep then enterBeep l s else enterRecording l s
  | _, _, _, _ => done code .badParam [] s

/-- STOP (R188). -/
def opStop (line : Byte) (s : State) : State :=
  let code := 0x49#8
  match lineOf line with
  | none => done code .badParam [] s
  | some l =>
    match (s.line l).voice.sub with
    | some .playing => endPlayback l (.byRelease .host) (done code .ok [] s)
    | some .paused => endPlayback l (.byRelease .host) (done code .ok [] s)
    | some .recording =>
      let s := done code .ok [] s
      endRecording l (.byRelease .host) (handedOf s l) s
    | some .greeting => endGreeting l (done code .ok [] s)
    | some .beep => done code .busy [] s
    | some .waiting => done code .badState [] s
    | none => done code .badState [] s

/-- The coding of a mailbox: ADC4 or ADC2. -/
def mailboxCoding (b : Byte) : Option Coding := (Coding.ofCode b.toNat).filter fun c => decide (c ≠ .none)

/-- The greeting a MAILBOX names may be taken. -/
def greetingResult (s : State) (id : Nat) : Result :=
  if id = 0 then .ok
  else if storeReady s = false then .notReady
  else
    match findEntry s id with
    | some e => if playable e ∧ canRef s id then .ok else .noEntry
    | none => .noEntry

/-- The entry of a mailbox is written; a changed greeting takes its reference first, then returns the old one (R179). -/
def writeMailbox (i : Nat) (old new : Mailbox) (s : State) : State :=
  let s := { s with mailboxes := s.mailboxes.set i new }
  if old.greeting = new.greeting then s
  else
    let s := match new.greeting with | some id => takeRef id s | none => s
    match old.greeting with
    | some id => storeKick (returnRef id s)
    | none => s

/-- MAILBOX (R179). -/
def opMailbox (index enabled : Byte) (greeting maxLength : Word16) (coding : Byte) (digits : List Byte) (s : State) : State :=
  let code := 0x4D#8
  match s.mailboxes[index.toNat]?, onOff enabled.toNat, mailboxCoding coding with
  | some old, some en, some c =>
    if digits.length = 0 ∨ 4 < digits.length ∨ (digits.all isDtmfChar) = false then done code .badParam [] s
    else
      match greetingResult s greeting.toNat with
      | .ok =>
        let new : Mailbox :=
          { enabled := en, digits := digits, greeting := if greeting.toNat = 0 then none else some greeting.toNat
            maxLength := clamp 5 600 maxLength.toNat, coding := c, isNew := old.isNew }
        writeMailbox index.toNat old new (done code .ok [] s)
      | r => done code r [] s
  | _, _, _ => done code .badParam [] s

/-- The mailboxes of a set whose new flag is set. -/
def flagsFound (mailboxes : List Mailbox) (set : Byte) : Nat :=
  (mailboxes.zipIdx.filter fun m => m.1.isNew && set.toNat.testBit m.2).length

/-- MAILCLEAR (R180). -/
def opMailclear (set : Byte) (s : State) : State :=
  done 0x63#8 .ok (oneByte (flagsFound s.mailboxes set))
    { s with mailboxes := s.mailboxes.zipIdx.map fun m => if set.toNat.testBit m.2 then { m.1 with isNew := false } else m.1 }

end Sys2Proof.Machine
end

