-- ==== Sys2Proof/Machine/CallTables.lean ====
section
/-! DEFINITION. The call controller's tables (Chapter 4): the screen list, the attempt records and the call-out list. -/

namespace Sys2Proof.Machine

/-! ### Screen list (R82 to R84) -/

/-- The subject of a consultation (R83). -/
inductive Subject where
  | number (digits : List Byte)
  | withheld
  | none
deriving DecidableEq, Repr

/-- The subject of an incoming consultation (R83). -/
def callerSubject : Option CallerRecord → Subject
  | some r =>
    if r.valid then
      match r.number, r.withheld with
      | some n, _ => .number n
      | .none, some _ => .withheld
      | .none, .none => .none
    else .none
  | .none => .none

/-- Pattern symbols against the first digits of a number: the digits left over, if every symbol matches. -/
def matchSymbols : List PatSym → List Byte → Option (List Byte)
  | [], n => some n
  | _ :: _, [] => Option.none
  | .any :: ps, _ :: n => matchSymbols ps n
  | .digit d :: ps, x :: n => if d = x then matchSymbols ps n else Option.none

/-- A pattern matches a subject (R83). -/
def Pattern.fits : Pattern → Subject → Bool
  | .digits syms star, .number n =>
    match matchSymbols syms n with
    | some rest => star || rest.isEmpty
    | Option.none => false
  | .withheld, .withheld => true
  | .none, .none => true
  | _, _ => false

/-- A direction takes part in a consultation. -/
def ScreenDir.serves (d : ScreenDir) (incoming : Bool) : Bool :=
  match d with
  | .both => true
  | .incoming => incoming
  | .outgoing => !incoming

/-- A consultation of the screen list: the action of the first entry that matches (R83). -/
def consult (s : State) (incoming : Bool) (subject : Subject) : Option ScreenAction :=
  (s.screen.findSome? fun e => e.filter fun e => e.dir.serves incoming && e.pattern.fits subject).map (·.action)

/-- The outgoing consultation bars a number under an outgoing screen default (R83). -/
def outgoingBarred (s : State) (defaultBar : Bool) (number : List Byte) : Bool :=
  match consult s false (.number number) with
  | some .bar => true
  | some _ => false
  | Option.none => defaultBar

/-- A symbol of a pattern. -/
def patSym (b : Byte) : Option PatSym :=
  if isDigitChar b then some (.digit b) else if b.toNat = 0x3F then some .any else Option.none

/-- The pattern a SCREEN WRITE carries: 1 to 20 symbols, the last of which may be '*', or WITHHELD or NONE (R82). -/
def patternOf (length : Byte) (bytes : List Byte) : Option Pattern :=
  if length = 0xFE#8 then some .withheld
  else if length = 0xFF#8 then some .none
  else if bytes.length = 0 ∨ 20 < bytes.length ∨ bytes.length ≠ length.toNat then Option.none
  else
    let star := decide (bytes.getLast? = some 0x2A#8)
    ((if star then bytes.dropLast else bytes).mapM patSym).map fun syms => .digits syms star

/-- The entry a SCREEN WRITE gives, when the checks of R82 pass. -/
def screenEntryOf (f : ScreenParams) : Option ScreenEntry :=
  match patternOf f.patternLength f.pattern, ScreenDir.ofCode f.direction.toNat,
      ScreenAction.ofCode f.action.toNat f.argument.toNat with
  | some p, some d, some a =>
    if a.allowed d = false then Option.none
    else if (p = .withheld ∨ p = .none) ∧ d = .outgoing then Option.none
    else
      match a with
      | .route m => if 7 < m then Option.none else some ⟨p, d, a⟩
      | _ => some ⟨p, d, a⟩
  | _, _, _ => Option.none

/-- SCREEN WRITE (R82). -/
def opScreenWrite (index : Byte) (fields : ScreenParams) (s : State) : State :=
  let code := 0x53#8
  match screenEntryOf fields with
  | some e =>
    if 31 < index.toNat then done code .badParam [] s
    else done code .ok [] { s with screen := s.screen.set index.toNat (some e) }
  | Option.none => done code .badParam [] s

/-- SCREEN DELETE (R82). -/
def opScreenDelete (index : Byte) (s : State) : State :=
  let code := 0x53#8
  if 31 < index.toNat then done code .badParam [] s
  else
    match entryAt s.screen index.toNat with
    | some _ => done code .ok [] { s with screen := s.screen.set index.toNat Option.none }
    | Option.none => done code .noEntry [] s

/-! ### Attempt records (R85, R86) -/

/-- A record is barred at 12 failures. -/
def AttemptRecord.barred (a : AttemptRecord) : Bool := decide (12 ≤ a.failures)

/-- The seconds a record still delays its number, 0 where it does not. -/
def AttemptRecord.left (a : AttemptRecord) (seconds : Nat) : Nat := a.next - seconds

/-- The entry that holds a number's record. -/
def attemptIndex (s : State) (number : List Byte) : Option Nat :=
  s.attempts.findIdx? fun a => decide (a.map (·.number) = some number)

/-- The record of a number. -/
def attemptOf (s : State) (number : List Byte) : Option AttemptRecord := (attemptIndex s number).bind (entryAt s.attempts)

/-- All entries hold barred records. -/
def allBarred (s : State) : Bool := s.attempts.all fun a => (a.map (·.barred)).getD false

/-- What the attempt records say of a number. -/
inductive AttemptVerdict where
  | allowed
  | barred
  | delayed (seconds : Nat)
deriving DecidableEq, Repr

/-- The consultation of the attempt records at DIAL and at dispatch (R85). -/
def consultAttempts (s : State) (number : List Byte) : AttemptVerdict :=
  match attemptOf s number with
  | some a =>
    if a.barred then .barred
    else if 0 < a.left s.link.seconds then .delayed (a.left s.link.seconds)
    else .allowed
  | none => if allBarred s then .barred else .allowed

/-- Of the non-barred records, the entry with the smallest last attempt, the lowest index among equals. -/
def oldestAttempt (s : State) : Option Nat :=
  (s.attempts.zipIdx.foldl (fun (best : Option (Nat × Nat)) x =>
    match x.1 with
    | some a =>
      if a.barred then best
      else match best with
        | some (t, _) => if a.last < t then some (a.last, x.2) else best
        | none => some (a.last, x.2)
    | none => best) none).map (·.2)

/-- The entry a number without a record takes: the lowest free one, or that of the oldest record not barred. -/
def attemptSlot (s : State) : Option Nat :=
  match s.attempts.findIdx? fun a => a.isNone with
  | some i => some i
  | none => oldestAttempt s

/-- The record is prepared when a call is allowed (R85). -/
def prepareAttempt (number : List Byte) (s : State) : State :=
  let t := s.link.seconds
  match attemptIndex s number with
  | some i => { s with attempts := s.attempts.set i ((entryAt s.attempts i).map fun a => { a with last := t }) }
  | none =>
    match attemptSlot s with
    | some i => { s with attempts := s.attempts.set i (some ⟨number, 0, t, t⟩) }
    | none => s

/-- The earliest next attempt after so many failures, at a value of the seconds counter (R86). -/
def nextAttempt (failures seconds : Nat) : Nat :=
  if failures ≤ 1 then seconds
  else if failures ≤ 3 then seconds + 60
  else if failures ≤ 11 then seconds + 180
  else Config.barredNext seconds

/-- A record after one more failure. -/
def AttemptRecord.fail (a : AttemptRecord) (seconds : Nat) : AttemptRecord :=
  { a with failures := min 12 (a.failures + 1), next := nextAttempt (min 12 (a.failures + 1)) seconds }

/-- A failed call counts in the record of its number, which is prepared first where it is gone (R86). -/
def settleFailure (number : List Byte) (s : State) : State :=
  let s := if (attemptIndex s number).isSome then s else prepareAttempt number s
  match attemptIndex s number with
  | some i => { s with attempts := s.attempts.set i ((entryAt s.attempts i).map fun a => a.fail s.link.seconds) }
  | none => s

/-- The record of a number is freed (R86). -/
def freeAttempt (number : List Byte) (s : State) : State :=
  match attemptIndex s number with
  | some i => { s with attempts := s.attempts.set i none }
  | none => s

/-- ATTEMPTCLEAR (R86). -/
def opAttemptclear (s : State) : State :=
  done 0x61#8 .ok (oneByte (s.attempts.filter Option.isSome).length) { s with attempts := s.attempts.map fun _ => none }

/-! ### Call-out list (R87, R88, R90, R91) -/

/-- The job of an id. -/
def findJob (s : State) (id : Nat) : Option Job := s.jobs.find? fun j => decide (j.id = id)

/-- A job changed. -/
def modJob (id : Nat) (f : Job → Job) (s : State) : State := { s with jobs := updateWhere (fun j => decide (j.id = id)) f s.jobs }

/-- The JOB report of a job as it stands. -/
def reportJob (id : Nat) (s : State) : State :=
  match findJob s id with
  | some j => queueReport (.job j.id j.state j.tries j.outcome) s
  | none => s

/-- Dispatch is to be evaluated for both lines (R89), at a job that enters WAITING and at an advance of the seconds counter. Line A
evaluates before line B: DESIGN CHOICE, log entry 76, R89 does not say which line is taken first. -/
def askDispatch (s : State) : State := post (.dispatch .B) (post (.dispatch .A) s)

/-- A job becomes DONE with a result, its outcome record filled in (R90). -/
def finishJob (id : Nat) (result : JobResult) (s : State) : State :=
  reportJob id (modJob id (fun j => { j with
    state := .done, outcome := some ⟨result, j.lastTry.1, j.lastTry.2, s.link.dayClock⟩ }) s)

/-- A job returns to WAITING, and dispatch is evaluated for both lines. -/
def requeueJob (id : Nat) (s : State) : State := askDispatch (reportJob id (modJob id (fun j => { j with state := .waiting }) s))

/-- Jobs in list order (R87). -/
def listOrder (mode : OrderMode) (jobs : List Job) : List Job :=
  match mode with
  | .fifo => jobs
  | .priority => [7, 6, 5, 4, 3, 2, 1, 0].flatMap fun p => jobs.filter fun j => decide (j.priority = p)

/-- The id after this one, 255 wrapping to 1. -/
def nextJobId (n : Nat) : Nat := if n < 255 then n + 1 else 1

/-- The first id from a value on that no job holds. -/
def freeJobId (jobs : List Job) : Nat → Nat → Nat
  | 0, id => id
  | n + 1, id => if jobs.any fun j => decide (j.id = id) then freeJobId jobs n (nextJobId id) else id

/-- A message may be sent in a call of this mode: the check of R74 step 4. -/
def messageFits (s : State) (mode : CallMode) (id : Nat) : Bool :=
  match findEntry s id with
  | some e => canRef s id && (match mode with | .fax => decide (e.kind = .fax) | _ => playable e)
  | none => false

/-- A dial string DIAL takes, under a dial method (R74 step 1). -/
def dialStringOk (method : DialMethod) (symbols : List Byte) : Bool :=
  decide (1 ≤ symbols.length ∧ symbols.length ≤ 40) && symbols.all isDialChar && symbols.any isDtmfChar &&
    (decide (method = .tone) || symbols.all fun b => !isDtmfChar b || isDigitChar b)

/-- The lines a job may use. -/
def LinePref.lines : LinePref → List Line
  | .a => [.A]
  | .b => [.B]
  | .any => [.A, .B]

/-- JOBADD (R88). A dial string or a number is judged by the dial methods and the outgoing screen defaults of the lines the job
may use: every method must take the string, and the number is barred where every default bars it (DESIGN CHOICE, log entry 17). -/
def opJobadd (kind : Byte) (message : Word16) (priority preference maxTries : Byte) (symbols : List Byte) (s : State) : State :=
  let code := 0x4A#8
  let number := dialNumber symbols
  match JobKind.ofCode kind.toNat, LinePref.ofCode preference.toNat with
  | some k, some pref =>
    if (pref.lines.all fun l => dialStringOk (s.line l).profile.dialMethod symbols) = false then done code .badParam [] s
    else if 16 ≤ s.jobs.length then done code .tableFull [] s
    else if k = .fax ∧ faxRungs s.ladder = [] then done code .badState [] s
    else if storeReady s = false then done code .notReady [] s
    else if messageFits s k.mode message.toNat = false then done code .noEntry [] s
    else if (pref.lines.all fun l => outgoingBarred s (s.line l).profile.screenBar number) then done code .screened [] s
    else
      let id := freeJobId s.jobs 16 (nextJobId s.lastJob)
      let job : Job :=
        { id := id, kind := k, symbols := symbols, number := number, message := message.toNat, priority := clamp 0 7 priority.toNat,
          preference := pref, maxTries := clamp 1 15 maxTries.toNat, tries := 0, state := .waiting, outcome := none,
          lastTry := (0, none) }
      let s := takeRef message.toNat { s with jobs := s.jobs ++ [job], lastJob := id }
      askDispatch (reportJob id (done code .ok (oneByte id) s))
  | _, _ => done code .badParam [] s

/-- JOBCLEAR (R91). -/
def opJobclear (id : Byte) (s : State) : State :=
  let code := 0x58#8
  match findJob s id.toNat with
  | none => done code .noEntry [] s
  | some j =>
    if j.state = .active then done code .busy [] s
    else
      let s := done code .ok [] s
      let s := if j.state = .waiting then
          finishJob j.id .cancelled (modJob j.id (fun j => { j with lastTry := (0, none) }) s) else s
      storeKick (returnRef j.message { s with jobs := s.jobs.filter fun x => decide (x.id ≠ j.id) })

end Sys2Proof.Machine
end

