-- ==== Sys2Proof/Machine/CallControl.lean ====
section
/-! DEFINITION. The call controller (Chapter 4): line states, release, incoming calls, classification, outgoing calls,
extension pickup and dispatch. -/

namespace Sys2Proof.Machine

/-! ### Call record and timers -/

/-- The timers, the dial step and the watches of a state that the line leaves. The digit timer runs in CLASSIFY alone
(R63; DEDUCED, log entry 18). -/
def clearTimers (l : Line) : State → State := modCall l fun c =>
  { c with
    ringDue := none, dialToneDue := none, blindDue := none, progressDue := none, watchDue := none, classifyDue := none
    digitDue := none, step := .none, stepDue := none, firstRing := false, watchArmed := false }

/-- The enablement check of R69: the mailbox if it is enabled, otherwise the default mailbox if that is, otherwise none. -/
def mailboxChecked (s : State) (l : Line) (m : Option Nat) : Option Nat :=
  match m.filter (mailboxEnabled s) with
  | some m => some m
  | none => (some (s.line l).profile.mailbox).filter (mailboxEnabled s)

/-- An outgoing call has entered DATA, FAX or VOICE: its number's record is freed (R86). It is freed
at the call's first such entry, not again at the entry after a retrain: DESIGN CHOICE, log entry 96. -/
def reachCall (l : Line) (s : State) : State :=
  let c := (s.line l).call
  if c.cr.dir = some .outgoing ∧ c.reached = false then
    modCall l (fun c => { c with reached := true }) (freeAttempt c.cr.number s)
  else s

/-! ### Release (R65, R86, R90) -/

/-- What the try leaves for its job's outcome record: the pages sent and the rung held (R90). -/
def lastTryOf (s : State) (l : Line) : Nat × Option Nat := ((s.line l).fax.good, (s.line l).modem.rung)

/-- One more try is used; the job waits while tries remain, and is DONE otherwise (R90). -/
def failJob (j : Job) (pages : Nat) (s : State) : State :=
  let s := modJob j.id (fun j => { j with tries := j.tries + 1 }) s
  if j.tries + 1 < j.maxTries then requeueJob j.id s
  else finishJob j.id (if 0 < pages then .partlySent else .failed) s

/-- The ACTIVE job of a released call is settled by the release reason (R90). -/
def settleJob (l : Line) (r : ReleaseReason) (s : State) : State :=
  match (s.line l).call.cr.job.bind (findJob s) with
  | some j =>
    let last := lastTryOf s l
    let s := modJob j.id (fun j => { j with lastTry := last }) s
    match r with
    | .faxDone => finishJob j.id (faxResult (s.line l).fax) s
    | .voiceDone => finishJob j.id .sent s
    | .host => finishJob j.id .cancelled s
    | .extension => requeueJob j.id s
    | .reset => requeueJob j.id s
    | _ => failJob j last.1 s
  | none => s

/-- A failure of an outgoing call is settled in the record of its number (R86). -/
def settleAttempt (l : Line) (r : ReleaseReason) (s : State) : State :=
  let c := (s.line l).call
  if c.cr.dir = some .outgoing ∧ c.reached = false ∧ (r = .busy ∨ r = .noAnswer ∨ r = .noCarrier) then
    settleFailure c.cr.number s
  else s

/-- The message reference taken by DIAL is returned (R75). -/
def returnCallRef (l : Line) (s : State) : State :=
  if (s.line l).call.refHeld then
    let s := modCall l (fun c => { c with refHeld := false }) s
    match (s.line l).call.cr.message with
    | some id => storeKick (returnRef id s)
    | none => s
  else s

/-- The blocks end their work at the entry to CLEARDOWN (R65). -/
def endWork (l : Line) (r : ReleaseReason) (s : State) : State :=
  endVoice l r (endFax l r (stopLink l (stopModem l (silenceTone l s))))

/-- The line enters CLEARDOWN with a reason (R65): at once, with its LINE report, the blocks told, and the job and the attempt
record settled; a line already there only starts its timer afresh (R94). -/
def enterCleardown (l : Line) (r : ReleaseReason) (s : State) : State :=
  let was := s.st l
  let s := releaseHook l (changeState l .cleardown (.release r) s)
  let s := clearTimers l (modRecord l (fun cr => { cr with release := some r }) s)
  let s := returnCallRef l (endWork l r s)
  let s := if was = .cleardown then s else settleAttempt l r (settleJob l r s)
  modCall l (fun c => { c with cleardownDue := some (s.now + 2000) }) s

/-- A release request is taken in the states that take it, and ignored in the others (R65). -/
def releaseLine (l : Line) (r : ReleaseReason) (s : State) : State :=
  if (s.st l).releasable then enterCleardown l r s else s

/-- The line enters IDLE (R65, R40, R57, R117, R134, R176, R192). -/
def enterIdle (l : Line) (reason : LineReason) (missed : Option (Nat × Option CallerRecord)) (s : State) : State :=
  let s := changeStateWith l .idle reason missed s
  let s := modCall l (fun c => { initialCall with reason := c.reason }) s
  let s := ifaceIdle l s
  let s := modDet l (fun d => { d with aligns := d.aligns.map fun _ => emptyAlign s.now }) s
  let s := emptyLink l (clearModem l s)
  let s := modFax l (fun f => initialFax f.endCause) (modVoice l (fun _ => initialVoice) s)
  post (.dispatch l) s

/-- CLEARDOWN_TIMER_EXPIRY (R65). -/
def opCleardownTimerExpiry (l : Line) (s : State) : State :=
  let c := (s.line l).call
  match c.cleardownDue with
  | some due => if c.st = .cleardown then enterIdle l (.release (c.cr.release.getD .reset)) none (elapse due s) else s
  | none => s

/-- RELEASE (R66). -/
def opRelease (line kind : Byte) (s : State) : State :=
  let code := 0x48#8
  match lineOf line with
  | none => done code .badParam [] s
  | some l =>
    if ¬ (kind = 1#8 ∨ kind = 2#8) then done code .badParam [] s
    else if (s.st l).releasable = false then done code .badState [] s
    else if kind = 1#8 then
      if (s.line l).dl.clear ≠ .none then done code .busy [] s
      else if s.st l = .data ∨ (s.st l = .train ∧ (s.line l).call.beenInData) then gracefulClear l (done code .ok [] s)
      else enterCleardown l .host (done code .ok [] s)
    else enterCleardown l .host (done code .ok [] s)

/-! ### Answering (R68 to R70) -/

/-- The greeting of the call's mailbox plays, the classify window of this entry to CLASSIFY runs from now, and the digit buffer is
empty (R72, R73). -/
def restartClassify (l : Line) (s : State) : State :=
  startGreeting l (s.line l).call.cr.mailbox (modCall l (fun c => { c with
    digits := [], digitDue := none, classifyDue := some (s.now + c.classifyTime * 1000) }) s)

/-- The line enters CLASSIFY's work: the classify window is taken from the profile (R72, R92), and the rest as at each restart. -/
def beginClassify (l : Line) (s : State) : State :=
  restartClassify l (modCall l (fun c => { c with classifyTime := (s.line l).profile.classifyWindow }) s)

/-- An answer in a mode, with its mailbox (R69): the hook closes and the line enters the state of the mode. -/
def answerLine (l : Line) (mode : CallMode) (mailbox : Option Nat) (s : State) : State :=
  let s := closeHook l (clearTimers l (closeWindow l s))
  let checked := match mode with | .voice | .auto => mailboxChecked s l mailbox | _ => mailbox
  let s := modRecord l (fun cr => { cr with dir := some .incoming, mode := some mode, mailbox := checked }) s
  match mode with
  | .data => requestTone l .answer (changeState l .train (.change .answer) s)
  | .fax => requestTone l .answer (modemEnterFax l (changeState l .fax (.change .answer) s))
  | .voice | .auto => beginClassify l (changeState l .classify (.change .answer) s)
  | .off => s

/-- An answer plan (R68): none when the call is declined. -/
structure Plan where
  mode : CallMode
  mailbox : Option Nat
  rings : Nat
deriving DecidableEq, Repr

/-- The ring-class map of the profile. -/
def ringMap (p : Profile) : Nat → CallMode × Nat
  | 1 => p.ringMap1
  | 2 => p.ringMap2
  | _ => p.ringMap3

/-- Steps 2 and 3 of the plan: the ring class, or the profile (R68). -/
def basePlan (s : State) (l : Line) (rings : Nat) : Plan :=
  let p := (s.line l).profile
  match (s.line l).call.cr.ringClass with
  | some n => ⟨(ringMap p n).1, some (ringMap p n).2, rings⟩
  | none => ⟨p.answerMode, some p.mailbox, rings⟩

/-- The answer plan as evaluated now (R68). The profile's rings are those read when the call began to ring (R37). -/
def answerPlan (s : State) (l : Line) : Option Plan :=
  let rings := (s.line l).call.ringsToAnswer.getD (s.line l).profile.rings
  let action := if 2 ≤ (s.line l).call.cr.rings then consult s true (callerSubject (s.line l).iface.caller) else none
  match action with
  | some .noAnswer => none
  | some .bar => none
  | some (.answerRings n) => some (basePlan s l n)
  | some (.route m) => some ⟨.voice, some m, rings⟩
  | some .faxOnly => some ⟨.fax, none, rings⟩
  | some .dataOnly => some ⟨.data, none, rings⟩
  | some .allow => some (basePlan s l rings)
  | none => some (basePlan s l rings)

/-- The plan answers now: not OFF, its rings reached, a hook pin, and the store READY but for DATA (R68). -/
def planAnswers (s : State) (l : Line) (p : Plan) : Bool :=
  decide (p.mode ≠ .off) && decide (p.rings ≤ (s.line l).call.cr.rings) && hasHook s l && (decide (p.mode = .data) || storeReady s)

/-- The answer plan is evaluated, and the line answers by it or goes on ringing (R68). -/
def evaluatePlan (l : Line) (s : State) : State :=
  match answerPlan s l with
  | some p => if planAnswers s l p then answerLine l p.mode p.mailbox s else s
  | none => s

/-- ANSWER (R70): the mailbox passes the enablement check of R69 whatever the mode (log entry 29). -/
def opAnswer (line mode mailbox : Byte) (s : State) : State :=
  let code := 0x41#8
  match lineOf line, CallMode.ofAnswer mode.toNat, mailboxOf mailbox with
  | some l, some m, some mb =>
    if ¬ (s.st l = .idle ∨ s.st l = .ringing) ∨ hasHook s l = false then done code .badState [] s
    else if m ≠ .data ∧ storeReady s = false then done code .notReady [] s
    else
      let mailbox := mailboxChecked s l (some (mb.getD (s.line l).profile.mailbox))
      answerLine l m mailbox (done code .ok [] s)
  | _, _, _ => done code .badParam [] s

/-! ### Ringing (R67, R71, R78) -/

/-- A ring-on takes an IDLE line to RINGING, unless an extension holds the line under YIELD (R67). The call takes its rings before
answer from the profile here (R37). -/
def startRinging (l : Line) (s : State) : State :=
  if (s.line l).profile.extPolicy = .yieldLine ∧ (s.line l).iface.extState then s
  else
    let s := changeState l .ringing (.change .ring) s
    evaluatePlan l (modCall l (fun c => { c with
      cr := { emptyCallRecord with dir := some .incoming, rings := 1 }, ringDue := some (s.now + 8000), firstRing := true
      ringsToAnswer := some (s.line l).profile.rings }) s)

/-- A further ring-on in RINGING (R67). -/
def countRing (l : Line) (s : State) : State :=
  evaluatePlan l (modCall l (fun c => { c with
    cr := { c.cr with rings := min 255 (c.cr.rings + 1) }, ringDue := some (s.now + 8000), firstRing := false }) s)

/-- The job of a call turned by glare returns to WAITING, tries unchanged (R78, R90). -/
def glareJob (l : Line) (s : State) : State :=
  match (s.line l).call.cr.job.bind (findJob s) with
  | some j =>
    let last := lastTryOf s l
    requeueJob j.id (modJob j.id (fun j => { j with lastTry := last }) s)
  | none => s

/-- Glare: a ring-on in SEIZE (R78). -/
def glare (l : Line) (s : State) : State :=
  let s := glareJob l (clearTimers l (returnCallRef l s))
  let mailbox := mailboxChecked s l (some (s.line l).profile.mailbox)
  let mode := if storeReady s then CallMode.auto else CallMode.data
  let s := modRecord l (fun _ => { emptyCallRecord with
    dir := some .incoming, rings := 1, mode := some mode, mailbox := mailbox }) s
  if storeReady s then beginClassify l (changeState l .classify (.change .glare) s)
  else requestTone l .answer (changeState l .train (.change .glare) s)

/-- A ring-on event at the call controller (R67). -/
def callRingOn (l : Line) (s : State) : State :=
  match s.st l with
  | .idle => startRinging l s
  | .ringing => countRing l s
  | .seize => glare l s
  | _ => s

/-- A ring-off event at the call controller: the caller window opens after the first ring-on of the call (R27). -/
def callRingOff (l : Line) (s : State) : State :=
  let c := (s.line l).call
  if c.firstRing then
    let s := modCall l (fun c => { c with firstRing := false }) s
    if c.st = .ringing then openWindow l s else s
  else s

/-- RING_TIMER_EXPIRY (R67): the window closes as the line leaves RINGING, and the LINE report carries the caller record. -/
def opRingTimerExpiry (l : Line) (s : State) : State :=
  match (s.line l).call.ringDue with
  | some due =>
    if s.st l = .ringing then
      let s := closeWindow l (elapse due s)
      enterIdle l (.change .missed) (some ((s.line l).call.cr.rings, (s.line l).iface.caller)) s
    else s
  | none => s

/-! ### Extension (R71, R81) -/

/-- An extension pickup at the call controller. -/
def callPickup (l : Line) (s : State) : State :=
  if s.st l = .ringing then enterIdle l (.change .extension) none (closeWindow l s)
  else if (s.st l).releasable then
    match (s.line l).profile.extPolicy with
    | .yieldLine => enterCleardown l .extension s
    | .keep => queueReport (.line l (s.st l) (.change .extension) none) s
  else s

/-! ### Classification (R72, R73) -/

/-- The line enters VOICE from CLASSIFY. -/
def classifyToVoice (l : Line) (r : ChangeReason) (s : State) : State :=
  voiceFromClassify l (changeState l .voice (.change r) (clearTimers l s))

/-- The voice engine reports the end of the greeting (R64, R72). -/
def greetingEnded (l : Line) (s : State) : State := if s.st l = .classify then classifyToVoice l .greetingEnd s else s

/-- CLASSIFY_WINDOW_EXPIRY (R72). -/
def opClassifyWindowExpiry (l : Line) (s : State) : State :=
  match (s.line l).call.classifyDue with
  | some due => if s.st l = .classify then classifyToVoice l .windowEnd (elapse due s) else s
  | none => s

/-- The enabled mailbox whose access digits are the buffer, the lowest index first (R73). -/
def matchMailbox (s : State) (digits : List Byte) : Option Nat :=
  s.mailboxes.findIdx? fun m => m.enabled && decide (m.digits = digits)

/-- A DTMF digit joins the digit buffer (R73). -/
def takeDigit (l : Line) (d : Byte) (s : State) : State :=
  let digits := (s.line l).call.digits ++ [d]
  match matchMailbox s digits with
  | some m => restartClassify l (modRecord l (fun cr => { cr with mailbox := some m }) s)
  | none =>
    if 4 ≤ digits.length then modCall l (fun c => { c with digits := [], digitDue := none }) s
    else modCall l (fun c => { c with digits := digits, digitDue := some (s.now + 3000) }) s

/-- DIGIT_TIMER_EXPIRY (R73). -/
def opDigitTimerExpiry (l : Line) (s : State) : State :=
  match (s.line l).call.digitDue with
  | some due => modCall l (fun c => { c with digits := [], digitDue := none }) (elapse due s)
  | none => s

/-- CALL_FAX in CLASSIFY, mode AUTO: the line enters FAX and the fax engine begins as receiver (R72). -/
def classifyToFax (l : Line) (s : State) : State :=
  let s := changeState l .fax (.change .callFax) (clearTimers l (stopGreeting l s))
  startReceiver l (modemEnterFax l s)

/-- CALL_DATA in CLASSIFY, mode AUTO: the line enters TRAIN and the modem begins training (R72). -/
def classifyToTrain (l : Line) (s : State) : State :=
  startTraining l (changeState l .train (.change .callData) (clearTimers l (stopGreeting l s)))

/-! ### Outgoing calls (R74 to R80) -/

/-- The line enters SEIZE (R76): the hook closes and the two conditions are awaited. -/
def enterSeize (l : Line) (r : ChangeReason) (s : State) : State :=
  let s := changeState l .seize (.change r) s
  closeHook l (modCall l (fun c => { c with loopUp := false, toneHeard := false }) s)

/-- DIAL (R74, R75). A DIAL for DATA that names a message id other than 0 is taken, and its call has no message: DESIGN CHOICE, log entry
75, R74 lists no check of it. -/
def opDial (line mode : Byte) (message : Word16) (symbols : List Byte) (s : State) : State :=
  let code := 0x44#8
  let number := dialNumber symbols
  match lineOf line, CallMode.ofDial mode.toNat with
  | some l, some m =>
    let p := (s.line l).profile
    if dialStringOk p.dialMethod symbols = false ∨ (m ≠ .data ∧ message = 0#16) then done code .badParam [] s
    else if s.st l ≠ .idle ∨ hasHook s l = false ∨ (m = .fax ∧ faxRungs s.ladder = []) then done code .badState [] s
    else if p.extPolicy = .yieldLine ∧ (s.line l).iface.extState then done code .busy [] s
    else if m ≠ .data ∧ storeReady s = false then done code .notReady [] s
    else if m ≠ .data ∧ messageFits s m message.toNat = false then done code .noEntry [] s
    else if outgoingBarred s p.screenBar number then done code .screened [] s
    else
      match consultAttempts s number with
      | .barred => done code .barred [] s
      | .delayed left => done code .delayed (numBytes 2 (min 65535 left)) s
      | .allowed =>
        let s := done code .ok [] s
        let s := modRecord l (fun _ => { emptyCallRecord with
          dir := some .outgoing, mode := some m, dialled := symbols, number := number
          message := if m = .data then none else some message.toNat }) s
        let s := prepareAttempt number s
        let s := if m = .data then s else modCall l (fun c => { c with refHeld := true }) (takeRef message.toNat s)
        enterSeize l .dial s
  | _, _ => done code .badParam [] s

/-- The line enters PROGRESS (R79, R80). -/
def enterProgress (l : Line) (s : State) : State :=
  let s := changeState l .progress (.change .digits) (clearTimers l s)
  let mode := (s.line l).call.cr.mode
  let s := modCall l (fun c => { c with
    progressDue := some (s.now + (s.line l).profile.progressTimeout * 1000)
    watchDue := if mode = some .voice then some (s.now + 10000) else none
    ringback := false, watchArmed := false, speechRun := 0, silentRun := 0 }) s
  if mode = some .fax then requestTone l .faxCalling s
  else if mode = some .data then requestTone l .dataCalling s
  else s

/-- The breaks of a digit: n for digit n, 10 for 0 (R77). -/
def pulseCount (d : Byte) : Nat := if d.toNat = 0x30 then 10 else d.toNat - 0x30

/-- A dial step begins. -/
def beginStep (l : Line) (st : DialStep) (time : Nat) (s : State) : State :=
  modCall l (fun c => { c with step := st, stepDue := some (s.now + time) }) s

/-- The pulse timings of the profile as they stand. -/
def pulseTimes (p : Profile) : PulseTimes := ⟨p.pulseBreak, p.pulseMake, p.interdigit⟩

/-- A digit goes out by the dial method and with the timings as they stand: a new timing applies from the next symbol (R77, R92). -/
def dialDigit (l : Line) (d : Byte) (s : State) : State :=
  let p := (s.line l).profile
  if p.dialMethod = .pulse ∧ isDigitChar d then
    beginStep l (.brk (pulseCount d - 1)) p.pulseBreak (openForDial l (modCall l (fun c => { c with pulse := pulseTimes p }) s))
  else requestTone l (.dtmf d p.toneOn p.toneOff) (modCall l (fun c => { c with step := .toneDigit, stepDue := none }) s)

/-- A 'W' that finds no dial tone remembered waits for one, with a fresh dial-tone wait (R77). -/
def waitForTone (l : Line) (s : State) : State :=
  modCall l (fun c => { c with
    step := .waitTone, stepDue := none, dialToneDue := some (s.now + (s.line l).profile.dialToneWait * 1000) }) s

/-- The symbols from here on are taken up: the first that takes time begins, and a 'W' with a dial tone remembered goes on at
once and forgets it; after the last symbol the line enters PROGRESS (R77). -/
def dialSymbols (l : Line) : List Byte → State → State
  | [], s => enterProgress l s
  | b :: rest, s =>
    let p := (s.line l).profile
    if b.toNat = 0x2C then beginStep l .comma (p.comma * 1000) s
    else if b.toNat = 0x21 then beginStep l .flash p.flash (openForDial l s)
    else if b.toNat = 0x57 then
      if (s.line l).call.toneHeard then
        dialSymbols l rest (modCall l (fun c => { c with toneHeard := false, cr := { c.cr with position := c.cr.position + 1 } }) s)
      else waitForTone l s
    else dialDigit l b s

/-- The dial string is carried on from its position (R77). -/
def dialOn (l : Line) (s : State) : State := dialSymbols l ((s.line l).call.cr.dialled.drop (s.line l).call.cr.position) s

/-- The symbol being carried out is complete, and the next begins (R77). -/
def symbolDone (l : Line) (s : State) : State :=
  dialOn l (modCall l (fun c => { c with
    step := .none, stepDue := none, dialToneDue := none, cr := { c.cr with position := c.cr.position + 1 } }) s)

/-- The line enters DIAL (R76, R77). -/
def enterDial (l : Line) (r : ChangeReason) (s : State) : State :=
  let s := changeState l .dial (.change r) (clearTimers l s)
  dialOn l (modCall l (fun c => { c with toneHeard := false, cr := { c.cr with position := 0 } }) s)

/-- The loop is established: in SEIZE the dial-tone wait starts, or the blind delay (R76). -/
def loopArrived (l : Line) (s : State) : State :=
  if s.st l = .seize then
    let p := (s.line l).profile
    let s := modCall l (fun c => { c with loopUp := true }) s
    if p.blindDial then modCall l (fun c => { c with blindDue := some (s.now + 2000) }) s
    else if (s.line l).call.toneHeard then enterDial l .dialtone s
    else modCall l (fun c => { c with dialToneDue := some (s.now + p.dialToneWait * 1000) }) s
  else s

/-- A DIALTONE meaning in SEIZE (R76). -/
def dialtoneInSeize (l : Line) (s : State) : State :=
  if (s.line l).profile.blindDial then s
  else
    let s := modCall l (fun c => { c with toneHeard := true }) s
    if (s.line l).call.loopUp then enterDial l .dialtone s else s

/-- A DIALTONE meaning in DIAL: it ends the wait of a 'W', or is remembered (R77). -/
def dialtoneInDial (l : Line) (s : State) : State :=
  if (s.line l).call.step = .waitTone then symbolDone l s else modCall l (fun c => { c with toneHeard := true }) s

/-- DIAL_TONE_WAIT_EXPIRY (R76, R77). -/
def opDialToneWaitExpiry (l : Line) (s : State) : State :=
  match (s.line l).call.dialToneDue with
  | some due => releaseLine l .noDialtone (modCall l (fun c => { c with dialToneDue := none }) (elapse due s))
  | none => s

/-- BLIND_DIAL_DELAY (R76). -/
def opBlindDialDelay (l : Line) (s : State) : State :=
  match (s.line l).call.blindDue with
  | some due => if s.st l = .seize then enterDial l .blind (elapse due s) else s
  | none => s

/-- PULSE_BREAK_END (R77). -/
def opPulseBreakEnd (l : Line) (s : State) : State :=
  match (s.line l).call.step with
  | .brk left =>
    let s := closeAfterDial l (elapseTo (s.line l).call.stepDue s)
    beginStep l (.mk left) (s.line l).call.pulse.makeTime s
  | _ => s

/-- PULSE_MAKE_END (R77). -/
def opPulseMakeEnd (l : Line) (s : State) : State :=
  match (s.line l).call.step with
  | .mk left =>
    let s := elapseTo (s.line l).call.stepDue s
    let p := (s.line l).call.pulse
    if left = 0 then beginStep l .interdigit p.interdigit s
    else beginStep l (.brk (left - 1)) p.breakTime (openForDial l s)
  | _ => s

/-- INTERDIGIT_TIME_END (R77). -/
def opInterdigitTimeEnd (l : Line) (s : State) : State :=
  match (s.line l).call.step with
  | .interdigit => symbolDone l (elapseTo (s.line l).call.stepDue s)
  | _ => s

/-- COMMA_PAUSE_END (R77). -/
def opCommaPauseEnd (l : Line) (s : State) : State :=
  match (s.line l).call.step with
  | .comma => symbolDone l (elapseTo (s.line l).call.stepDue s)
  | _ => s

/-- FLASH_TIME_END (R77). -/
def opFlashTimeEnd (l : Line) (s : State) : State :=
  match (s.line l).call.step with
  | .flash => symbolDone l (closeAfterDial l (elapseTo (s.line l).call.stepDue s))
  | _ => s

/-- PROGRESS_TIMER_EXPIRY (R79). -/
def opProgressTimerExpiry (l : Line) (s : State) : State :=
  match (s.line l).call.progressDue with
  | some due => releaseLine l .noAnswer (modCall l (fun c => { c with progressDue := none }) (elapse due s))
  | none => s

/-- The line leaves PROGRESS for an answered state: the calling tone and the timers stop (R79). -/
def leaveProgress (l : Line) (s : State) : State := clearTimers l (stopTone l s)

/-- ANSWER_DATA in PROGRESS (R79). -/
def progressAnswer (l : Line) (s : State) : State :=
  match (s.line l).call.cr.mode with
  | some .data => startTraining l (changeState l .train (.change .answerData) (leaveProgress l s))
  | some .fax =>
    let s := modemEnterFax l (changeState l .fax (.change .answerData) (leaveProgress l s))
    startSender l (reachCall l s)
  | _ => s

/-- RINGBACK in PROGRESS: recorded as heard; the answer watch is disarmed (R79, R80). -/
def progressRingback (l : Line) : State → State := modCall l fun c =>
  { c with ringback := true, watchArmed := false, watchDue := none, speechRun := 0, silentRun := 0 }

/-- The line enters VOICE from PROGRESS, and the delivery begins (R80, R190). -/
def progressToVoice (l : Line) (r : ChangeReason) (s : State) : State :=
  startDelivery l (reachCall l (changeState l .voice (.change r) (leaveProgress l s)))

/-- The answer watch is armed (R80). -/
def armWatch (l : Line) : State → State := modCall l fun c =>
  { c with watchArmed := true, watchDue := none, speechRun := 0, silentRun := 0 }

/-- ANSWER_WATCH_ARM (R80). -/
def opAnswerWatchArm (l : Line) (s : State) : State :=
  match (s.line l).call.watchDue with
  | some due => if s.st l = .progress ∧ (s.line l).call.ringback = false then armWatch l (elapse due s) else s
  | none => s

/-- A cadence entry with meaning RINGBACK has its matched flag set on the line (R80). -/
def ringbackMatched (s : State) (l : Line) : Bool :=
  (s.cadences.zip (s.line l).det.aligns).any fun x =>
    match x.1 with
    | some e => decide (e.meaning = .ringback) && x.2.matched
    | none => false

/-- A block counted by the armed watch (R80). -/
def countWatch (l : Line) (s : State) : State :=
  let level := (s.line l).iface.preLevel
  let floor := (s.line l).profile.levelFloor
  let s := modCall l (fun c => { c with
    speechRun := if 4 * floor ≤ level then c.speechRun + 1 else 0
    silentRun := if level < floor then c.silentRun + 1 else 0 }) s
  if 30 ≤ (s.line l).call.speechRun then progressToVoice l .speech s
  else if 300 ≤ (s.line l).call.silentRun then progressToVoice l .silence s
  else s

/-- The answer watch at a block end: an armed watch counts the block; one that may be armed begins with the next (R80). -/
def watchBlock (l : Line) (s : State) : State :=
  let c := (s.line l).call
  if s.st l = .progress ∧ c.cr.mode = some .voice then
    if c.watchArmed then countWatch l s
    else if c.ringback ∧ ringbackMatched s l = false then armWatch l s
    else s
  else s

/-! ### Meanings (R51, R68, R72, R76, R77, R79) -/

/-- A meaning delivered to the call controller, with its digit. -/
def callMeaning (l : Line) (m : Meaning) (digit : Option Byte) (s : State) : State :=
  match s.st l, m with
  | .ringing, .ringClass n => evaluatePlan l (modRecord l (fun cr => { cr with ringClass := some n }) s)
  | .seize, .dialtone => dialtoneInSeize l s
  | .dial, .dialtone => dialtoneInDial l s
  | .progress, .busy => enterCleardown l .busy s
  | .progress, .answerData => progressAnswer l s
  | .progress, .ringback => progressRingback l s
  | .classify, .callFax => if (s.line l).call.cr.mode = some .auto then classifyToFax l s else s
  | .classify, .callData => if (s.line l).call.cr.mode = some .auto then classifyToTrain l s else s
  | .classify, .dtmf => match digit with | some d => takeDigit l d s | none => s
  | _, _ => s

/-! ### Requests of the modem (R64) -/

/-- The modem asks for DATA, or for the state its retrain was entered from (R64, R109, R120, R130). -/
def trainedRequest (l : Line) (s : State) : State :=
  if s.st l = .train then
    let from_ := ((s.line l).modem.retrainFrom).getD .data
    let s := modModem l (fun m => { m with retrainFrom := none }) s
    let s := changeState l from_ (.change .trained) s
    if from_ = .data then
      let s := reachCall l (modCall l (fun c => { c with beenInData := true }) s)
      if (s.line l).dl.started then resumeLink l s else startLink l s
    else s
  else s

/-- The modem asks for TRAIN (R64, R110, R113). -/
def retrainRequest (l : Line) (s : State) : State :=
  match s.st l with
  | .data => startTraining l (freezeLink l (changeState l .train (.change .retrain) s))
  | .fax => faxRetrain l (startFaxRetrain l (changeState l .train (.change .retrain) s))
  | _ => s

/-! ### The tone generator's requesters (R36, R69, R77, R183) -/

/-- The answer tone is over: training begins as answerer, or the fax session as receiver (R69). -/
def answerToneOver (l : Line) (s : State) : State :=
  if s.st l = .train ∧ (s.line l).modem.phase = none ∧ (s.line l).modem.retrainFrom = none then startTraining l s
  else if s.st l = .fax ∧ (s.line l).fax.role = none then startReceiver l s
  else s

/-- A signal has completed or has been aborted, and its requester goes on. -/
def toneOver (l : Line) (sig : ToneSignal) (s : State) : State :=
  match sig with
  | .dtmf _ _ _ => if s.st l = .dial ∧ (s.line l).call.step = .toneDigit then symbolDone l s else s
  | .answer => answerToneOver l s
  | .beep _ _ => beepDone l s
  | _ => s

/-- A signal's time has passed: a DTMF digit in its off-time, or an answer tone or beep. -/
def toneTimed (g : ToneGen) : Bool :=
  match g.signal with
  | .dtmf _ _ _ => !g.sounding
  | .answer => true
  | .beep _ _ => true
  | _ => false

/-- TONE_GENERATOR_COMPLETION (R36). -/
def opToneGeneratorCompletion (l : Line) (s : State) : State :=
  match (s.line l).iface.tone with
  | some g => if toneTimed g then toneOver l g.signal (stopTone l (elapse g.due s)) else s
  | none => s

/-! ### Loop events at the call controller (R69, R76) -/

/-- LOOP_ESTABLISHED (R25). -/
def opLoopEstablished (l : Line) (s : State) : State :=
  match (s.line l).iface.loop with
  | .wait _ (some due) => loopArrived l (modIface l (fun i => { i with loop := .present }) (elapse due s))
  | _ => s

/-- The release reason where no loop current has come within 1 s: NO_LOOP in SEIZE, FAR_END in every other state (R65, R69, R76). -/
def noLoopReason (s : State) (l : Line) : ReleaseReason := if s.st l = .seize then .noLoop else .farEnd

/-- NO_LOOP (R25, R69, R76). -/
def opNoLoop (l : Line) (s : State) : State :=
  match (s.line l).iface.loop with
  | .wait due _ => releaseLine l (noLoopReason s l) (loseLoop l due s)
  | _ => s

/-- LOOP_LOST (R25): a loop lost after it was established releases with FAR_END in every state, SEIZE among them, as the table of R65 has it
(DEDUCED, log entry 19: R25 leaves the reason to Chapter 4). -/
def opLoopLost (l : Line) (s : State) : State :=
  match (s.line l).iface.loop with
  | .doubt due => if (s.line l).iface.loopSuspended then s else releaseLine l .farEnd (loseLoop l due s)
  | _ => s

/-! ### Dispatch (R89) -/

/-- The line can take a job. -/
def canTakeJob (s : State) (l : Line) : Bool :=
  let p := (s.line l).profile
  decide (s.st l = .idle) && p.autoCallout && hasHook s l && storeReady s &&
    !(decide (p.extPolicy = .yieldLine) && (s.line l).iface.extState)

/-- The job is taken by the line (R89). -/
def takeJob (l : Line) (j : Job) (s : State) : State :=
  let s := reportJob j.id (modJob j.id (fun j => { j with state := .active }) s)
  let s := modRecord l (fun _ => { emptyCallRecord with
    dir := some .outgoing, mode := some j.kind.mode, dialled := j.symbols, number := j.number
    message := some j.message, job := some j.id }) s
  enterSeize l .job (prepareAttempt j.number s)

/-- The WAITING jobs examined in list order (R89). -/
def examineJobs (l : Line) : List Job → State → State
  | [], s => s
  | j :: rest, s =>
    if l ∉ j.preference.lines then examineJobs l rest s
    else
      match consultAttempts s j.number with
      | .barred => examineJobs l rest (finishJob j.id .barred s)
      | .delayed _ => examineJobs l rest s
      | .allowed =>
        if outgoingBarred s (s.line l).profile.screenBar j.number then examineJobs l rest (finishJob j.id .screened s)
        else takeJob l j s

/-- Dispatch is evaluated for a line (R89). -/
def dispatchLine (l : Line) (s : State) : State :=
  if canTakeJob s l then
    examineJobs l ((listOrder s.store.settings.order s.jobs).filter fun j => decide (j.state = .waiting)) s
  else s

end Sys2Proof.Machine
end

