-- ==== Sys2Proof/Machine/Requests.lean ====
section
/-! DEFINITION. The requests between blocks, taken in the order made at the end of each command (R64, R65, log entry 20). -/

namespace Sys2Proof.Machine

/-- A request is taken by the block it is made to. -/
def takeRequest (r : Request) (s : State) : State :=
  match r with
  | .release l reason => releaseLine l reason s
  | .loopUp l => loopArrived l s
  | .trained l => trainedRequest l s
  | .retrain l => retrainRequest l s
  | .greetingEnd l => greetingEnded l s
  | .toneAborted l sig => toneOver l sig s
  | .writerFull (.line l) id => voiceWriterFull l id (faxWriterFull l id s)
  | .writerFull .host _ => s
  | .cutDone (.line l) _ => faxCutDone l s
  | .cutDone .host _ => s
  | .readArrived l => faxReadArrived l s
  | .dispatch l => dispatchLine l s
  | .extHangup l => dispatchLine l s

/-- Requests are taken first made first, those made meanwhile behind them. The fuel bounds how many are taken in one command; it
is far beyond what a command can cause, and what it would not reach is dropped (log entry 20). -/
def takeRequests : Nat → State → State
  | 0, s => { s with requests := [] }
  | n + 1, s =>
    match s.requests with
    | [] => s
    | r :: rest => takeRequests n (takeRequest r { s with requests := rest })

/-- The end of a command: every request between blocks is taken. -/
def finish (s : State) : State := takeRequests 256 s

end Sys2Proof.Machine
end

