-- ==== Sys2Proof/Machine/Detector.lean ====
section
/-! DEFINITION. Tone, cadence and digit detection (Chapter 3): presence, edges, declarations, cadences, capture slots and
the priority status. -/

namespace Sys2Proof.Machine

/-! ### Frequencies and live counts (R41, R42) -/

/-- The frequency set of an entry (R41). -/
def ToneEntry.freqs (e : ToneEntry) : List Nat :=
  match e.kind with
  | .single => [e.f1]
  | .dual => [e.f1, e.f2]
  | .dtmf => dtmfRows ++ dtmfCols

/-- The live count of a line state (R41). -/
def liveCount (tones : List (Option ToneEntry)) (st : LineSt) : Nat :=
  (((tones.filterMap id).filter fun e => decide (st ∈ e.live)).flatMap ToneEntry.freqs).dedup.length

/-- The greatest live count over the eleven line states (R42). -/
def greatestLive (tones : List (Option ToneEntry)) : Nat := (LineSt.all.map (liveCount tones)).foldl max 0

/-- The entry is live in a line state. -/
def liveIn (e : Option ToneEntry) (st : LineSt) : Option ToneEntry := e.filter fun e => decide (st ∈ e.live)

/-! ### Presence (R44 to R47) -/

/-- The power of a block: the sum of the squares of its samples. -/
def blockPower (samples : List Sample) : Nat := (samples.map fun x => x.toInt.natAbs * x.toInt.natAbs).sum

/-- The power of 80 samples of a full-scale sine, which is +3 dBm0 (the levels' convention, Chapter 2): 80 times half the
square of 32767. -/
def fullScalePower : Nat := 40 * (32767 * 32767)

/-- A power is at least the level of `k` tenths of a decibel above -60 dBm0, less half a tenth: with P the power and F the power
at 30 tenths, 100 log10 (P / F) + 30 ≥ k - 600 - 1/2, raised to whole numbers (rounding: DESIGN CHOICE, log entry 12). -/
def reachesLevel (power k : Nat) : Bool := decide (fullScalePower ^ 200 * 10 ^ 59 ≤ power ^ 200 * 10 ^ (1320 - 2 * k))

/-- The steps by which the level of a block is found. -/
def levelSteps : List Nat := [512, 256, 128, 64, 32, 16, 8, 4, 2, 1]

/-- The greatest number of tenths, of 0 to 660, whose level the power reaches; 0 where it reaches none. -/
def levelSearch (power : Nat) : Nat :=
  levelSteps.foldl (fun k step => if k + step ≤ 660 ∧ reachesLevel power (k + step) then k + step else k) 0

/-- The level of a power, in tenths of a dBm0: none below the floor (R44). -/
def levelOf (power : Nat) : Int := (levelSearch power : Int) - 600

/-- The total level of a block (R44). -/
def totalLevel (b : List Sample) : Int := levelOf (blockPower b)

/-- A component's frequency, in hundredths of a hertz, lies within 2 % of a frequency in Hz, or within 10 Hz where that is wider (R44). -/
def inBand (f component : Nat) : Bool :=
  decide (100 * f ≤ component + max 1000 (2 * f) ∧ component ≤ 100 * f + max 1000 (2 * f))

/-- The power of a block's component at a frequency (R44): what the components of its samples within the band carry together, never
more than the block itself. Which components a block has is a free value, log entry 23. -/
def powerAt (b : List Sample) (f : Nat) : Nat :=
  min (blockPower b) (((Config.components b).filter fun c => inBand f c.1).map (·.2)).sum

/-- The level at a frequency (R44). -/
def levelAt (b : List Sample) (f : Nat) : Int := levelOf (powerAt b f)

/-- The frequencies of a list that reach a level. -/
def reaching (b : List Sample) (level : Int) (fs : List Nat) : List (Nat × Nat) :=
  fs.zipIdx.filter fun f => decide (level ≤ levelAt b f.1)

/-- The digit of a row and a column (R46). -/
def digitOf (row col : Nat) : Option Byte := (dtmfDigits[row]?).bind (·[col]?)

/-- A live entry is present in a block, with the digit of a DTMF entry (R45, R46). -/
def presence (e : ToneEntry) (b : List Sample) : Option (Option Byte) :=
  let m := e.minLevel * 10
  match e.kind with
  | .single => if m ≤ levelAt b e.f1 ∧ totalLevel b - 30 ≤ levelAt b e.f1 then some none else none
  | .dual =>
    if m ≤ levelAt b e.f1 ∧ m ≤ levelAt b e.f2 ∧ (levelAt b e.f1 - levelAt b e.f2).natAbs ≤ e.twist * 10 ∧
        totalLevel b - 30 ≤ combinedLevel (levelAt b e.f1) (levelAt b e.f2) then some none else none
  | .dtmf =>
    match reaching b m dtmfRows, reaching b m dtmfCols with
    | [r], [c] =>
      if (levelAt b r.1 - levelAt b c.1).natAbs ≤ e.twist * 10 then some (digitOf r.2 c.2) else none
    | _, _ => none

/-- What a block shows of each entry in index order: none for an entry not live, otherwise its presence; an entry whose
frequencies are claimed counts as absent (R47). -/
def presences (st : LineSt) (b : List Sample) : List (Option ToneEntry) → List Nat → List (Option (Option (Option Byte)))
  | [], _ => []
  | x :: rest, claimed =>
    match liveIn x st with
    | none => none :: presences st b rest claimed
    | some e =>
      if e.freqs.any fun f => decide (f ∈ claimed) then some none :: presences st b rest claimed
      else
        match presence e b with
        | some d => some (some d) :: presences st b rest (claimed ++ e.freqs)
        | none => some none :: presences st b rest claimed

/-! ### Edges (R48) -/

/-- The on-need of an entry, in blocks. -/
def ToneEntry.onNeed (e : ToneEntry) : Nat := (e.onTime + 9) / 10

/-- The off-need of an entry, in blocks. -/
def ToneEntry.offNeed (e : ToneEntry) : Nat := (e.offTime + 9) / 10

/-- What an edge step declares. -/
inductive EdgeEvent where
  /-- ON: the digit, the time at the beginning of the first present block, and the off interval that ended, in blocks. -/
  | on (digit : Option Byte) (start : Nat) (off : Option Nat)
  /-- OFF: the digit, the time at the beginning of the run, and its duration in ms. -/
  | off (digit : Option Byte) (start duration : Nat)
deriving DecidableEq, Repr

/-- The duration of a run in ms (R48). -/
def EdgeState.duration (x : EdgeState) : Nat := (x.last + 1 - x.first) * 10

/-- ON is declared at block n. -/
def EdgeState.declareOn (x : EdgeState) (n : Nat) : EdgeState × List EdgeEvent :=
  ({ x with st := .on, last := n }, [.on x.digit x.startTime (x.offFrom.map fun p => x.first - 1 - p)])

/-- A run begins at block n, which began at a time. -/
def EdgeState.beginRun (x : EdgeState) (e : ToneEntry) (n start : Nat) (digit : Option Byte) : EdgeState × List EdgeEvent :=
  let x := { x with st := .rising, first := n, startTime := start, onCount := 1, absent := 0, digit := digit }
  if e.onNeed ≤ 1 then x.declareOn n else (x, [])

/-- READY, after a run. -/
def EdgeState.toReady (x : EdgeState) : EdgeState := { x with st := .ready, onCount := 0, absent := 0, digit := none }

/-- A present block (R48). -/
def EdgeState.present (x : EdgeState) (e : ToneEntry) (n start : Nat) (digit : Option Byte) : EdgeState × List EdgeEvent :=
  match x.st with
  | .ready => x.beginRun e n start digit
  | .rising =>
    if digit ≠ x.digit then x.beginRun e n start digit
    else
      let x := { x with onCount := x.onCount + 1 }
      if e.onNeed ≤ x.onCount then x.declareOn n else (x, [])
  | .on | .bridge =>
    if digit ≠ x.digit then
      let r := { x with offFrom := some x.last }.beginRun e n start digit
      (r.1, .off x.digit x.startTime x.duration :: r.2)
    else ({ x with st := .on, last := n }, [])
  | .recover => ({ x with absent := 0 }, [])

/-- RECOVER becomes READY once the absent count is at least the off-need (R48). -/
def EdgeState.settle (x : EdgeState) (e : ToneEntry) : EdgeState := if e.offNeed ≤ x.absent then x.toReady else x

/-- An absent block (R48). -/
def EdgeState.absence (x : EdgeState) (e : ToneEntry) : EdgeState × List EdgeEvent :=
  match x.st with
  | .ready => (x, [])
  | .rising => (x.toReady, [])
  | .on => ({ x with st := .bridge }, [])
  | .bridge =>
    ({ x with st := .recover, absent := 2, offFrom := some x.last }.settle e, [.off x.digit x.startTime x.duration])
  | .recover => ({ x with absent := x.absent + 1 }.settle e, [])

/-! ### Alignments (R55, R56) -/

/-- An observed interval matches an element (R55). -/
def intervalMatches (e : CadEntry) (obs pat : Nat) : Bool :=
  decide (((obs : Int) - (pat : Int)).natAbs * 100 ≤ pat * e.tolerance)

/-- An interval still running has passed the upper bound of an element (R56). -/
def pastBound (e : CadEntry) (len pat : Nat) : Bool := decide (pat * (100 + e.tolerance) < len * 100)

/-- An element of the pattern. -/
def CadEntry.elem (e : CadEntry) (k : Nat) : Nat := e.pattern.getD k 0

/-- The alignment emptied, its match ended. -/
def Alignment.emptied (a : Alignment) : Alignment :=
  { a with held := false, expect := 0, cycles := 0, runStart := 0, matched := false, prevOn := none }

/-- An empty alignment meets an on: the run starts if it matches on1 (R55). -/
def Alignment.startRun (a : Alignment) (e : CadEntry) (len start : Nat) : Alignment :=
  if intervalMatches e len (e.elem 0) then
    { a.emptied with held := true, expect := 1, runStart := start, prevOn := some (len, start) }
  else a.emptied

/-- An on is observed; `time` is the moment it began and `start` its line time (R55, R56, R57). -/
def Alignment.seeOn (a : Alignment) (e : CadEntry) (len time start : Nat) : Alignment :=
  if time < a.validFrom then a
  else if a.held = false then a.startRun e len start
  else if intervalMatches e len (e.elem a.expect) then { a with expect := a.expect + 1, prevOn := some (len, start) }
  else a.startRun e len start

/-- The pattern's next element, or one more full cycle, after a matched off; whether the meaning is delivered (R55). -/
def Alignment.afterOff (a : Alignment) (e : CadEntry) : Alignment × Bool :=
  if a.expect + 1 < e.pattern.length then ({ a with expect := a.expect + 1 }, false)
  else
    let full := decide (e.repeats ≤ a.cycles + 1)
    ({ a with expect := 0, cycles := a.cycles + 1, matched := a.matched || full }, full)

/-- An off is observed; whether the meaning is delivered (R55, R56). -/
def Alignment.seeOff (a : Alignment) (e : CadEntry) (len : Nat) : Alignment × Bool :=
  if a.held = false then (a, false)
  else if intervalMatches e len (e.elem a.expect) then a.afterOff e
  else
    match a.prevOn with
    | some (on, start) =>
      let fresh := a.startRun e on start
      if fresh.held ∧ intervalMatches e len (e.elem 1) then fresh.afterOff e else (a.emptied, false)
    | none => (a.emptied, false)

/-- An on still running is judged (R56). -/
def Alignment.judgeOn (a : Alignment) (e : CadEntry) (len : Nat) : Alignment :=
  if a.held ∧ a.expect % 2 = 0 ∧ pastBound e len (e.elem a.expect) then a.emptied else a

/-- An off still running is judged (R56). -/
def Alignment.judgeOff (a : Alignment) (e : CadEntry) (len : Nat) : Alignment :=
  if a.held ∧ a.expect % 2 = 1 ∧ pastBound e len (e.elem a.expect) then a.emptied else a

/-- The alignment of a cadence entry on a line. -/
def alignOf (s : State) (l : Line) (k : Nat) : Alignment := (s.line l).det.aligns.getD k (emptyAlign 0)

/-- The alignment replaced. -/
def setAlign (l : Line) (k : Nat) (a : Alignment) : State → State := modDet l fun d => { d with aligns := d.aligns.set k a }

/-- An alignment is cleared to empty: it waits for an on that begins from now on (R57). -/
def clearAlign (l : Line) (k : Nat) (s : State) : State := setAlign l k (emptyAlign s.now) s

/-- The alignments of the cadence entries with a source are cleared (R57). -/
def clearSource (l : Line) (src : CadSource) (s : State) : State :=
  s.cadences.zipIdx.foldl (fun s x =>
    match x.1 with
    | some e => if e.source = src then clearAlign l x.2 s else s
    | none => s) s

/-! ### Deliveries (R51, R55) -/

/-- A meaning is delivered to the call controller and then to the voice engine, with its start as a line time (R51, R181). That order is
DESIGN CHOICE, log entry 62: the spec delivers to both and gives none. -/
def deliver (l : Line) (m : Meaning) (digit : Option Byte) (start : Nat) (s : State) : State :=
  let leftAt := (s.line l).call.leftAt
  let s := callMeaning l m digit s
  if m = .busy ∨ m = .dialtone then voiceFarEnd l (leftAt + start) s else s

/-- A full match of a cadence entry: its CADENCE report and its meaning (R55). The report is queued before the effects of the
meaning: DESIGN CHOICE, log entry 50, the spec gives no order. -/
def deliverCadence (l : Line) (k : Nat) (e : CadEntry) (start : Nat) (s : State) : State :=
  deliver l e.meaning none start (if e.report then queueReport (.cadence l k e.meaning) s else s)

/-- Each valid cadence entry of a source, in index order (DESIGN CHOICE, log entry 64), has something done to its alignment. -/
def eachCadence (src : CadSource) (f : Nat → CadEntry → State → State) (s : State) : State :=
  s.cadences.zipIdx.foldl (fun s x =>
    match x.1 with
    | some e => if e.source = src then f x.2 e s else s
    | none => s) s

/-- An on of a source has ended with its length (R54, R55). -/
def cadenceOn (l : Line) (src : CadSource) (len time : Nat) (s : State) : State :=
  eachCadence src (fun k e s => setAlign l k ((alignOf s l k).seeOn e len time (lineTimeAt s l time)) s) s

/-- An off of a source has ended with its length; a match is delivered (R54, R55). -/
def cadenceOff (l : Line) (src : CadSource) (len : Nat) (s : State) : State :=
  eachCadence src (fun k e s =>
    let r := (alignOf s l k).seeOff e len
    let s := setAlign l k r.1 s
    if r.2 then deliverCadence l k e r.1.runStart s else s) s

/-- An on of a source still running is judged. -/
def runningOn (l : Line) (src : CadSource) (len : Nat) : State → State :=
  eachCadence src fun k e s => setAlign l k ((alignOf s l k).judgeOn e len) s

/-- An off of a source still running is judged. -/
def runningOff (l : Line) (src : CadSource) (len : Nat) : State → State :=
  eachCadence src fun k e s => setAlign l k ((alignOf s l k).judgeOff e len) s

/-! ### Capture slots and priority status (R58 to R60) -/

/-- The position of the line's active store stream: the next byte to be taken, or the bytes written so far (R58). -/
def streamPosition (s : State) (l : Line) : Option (Nat × Nat) :=
  match readerOf s (.line l) with
  | some r => some (r.id, r.position)
  | none => (activeWriter s (.line l)).map fun w => (w.id, w.accepted)

/-- The slot result of a capture made now (R58). -/
def captureSlot (d : Detector) : SlotResult := if d.slot0.isNone then .slot0 else if d.slot1.isNone then .slot1 else .lost

/-- A capture goes into a free slot, or is lost (R58). -/
def Detector.capture (d : Detector) (c : Capture) : Detector :=
  match captureSlot d with
  | .slot0 => { d with slot0 := some c, slot1Older := d.slot1.isSome }
  | .slot1 => { d with slot1 := some c, slot1Older := false }
  | _ => { d with overflow := true }

/-- A capture is made at an ON declaration (R58), with the priority update of a marked entry (R60). -/
def makeCapture (l : Line) (i : Nat) (mark : Bool) (digit : Option Byte) (s : State) : State :=
  let slot := captureSlot (s.line l).det
  let time := lineTime s l
  let position := streamPosition s l
  modDet l (fun d =>
    { d.capture ⟨i, digit, position, time⟩ with priority := if mark then some ⟨i, time, slot⟩ else d.priority }) s

/-- The priority status is updated by a PRIORITY entry (R60). -/
def notePriority (l : Line) (i : Nat) (s : State) : State :=
  let time := lineTime s l
  modDet l (fun d => { d with priority := some ⟨i, time, .none⟩ }) s

/-- The number of occupied slots. -/
def Detector.occupied (d : Detector) : Nat := (if d.slot0.isSome then 1 else 0) + (if d.slot1.isSome then 1 else 0)

/-- The oldest occupied slot is slot 1. -/
def Detector.oldestIsSlot1 (d : Detector) : Bool := d.slot1.isSome && (d.slot0.isNone || d.slot1Older)

/-- The oldest capture. -/
def Detector.oldest (d : Detector) : Option Capture := if d.oldestIsSlot1 then d.slot1 else d.slot0

/-- The oldest slot freed, the overflow flag cleared (R59). -/
def Detector.freeOldest (d : Detector) : Detector :=
  if d.oldestIsSlot1 then { d with slot1 := none, slot1Older := false, overflow := false }
  else { d with slot0 := none, slot1Older := false, overflow := false }

/-- MARKREAD (R59). -/
def opMarkread (line : Byte) (s : State) : State :=
  let code := 0x6D#8
  match lineOf line with
  | none => done code .badParam [] s
  | some l =>
    let d := (s.line l).det
    match d.oldest with
    | some c =>
      let s := modDet l Detector.freeOldest (done code .ok (oneByte (d.occupied - 1)) s)
      queueReport (.mark l false d.overflow (some c.entry) c.digit c.position c.lineTime) s
    | none =>
      let reading : Report := .mark l true d.overflow none none (streamPosition s l) (lineTime s l)
      queueReport reading (done code .ok (oneByte 0) s)

/-! ### Declarations (R50, R51) -/

/-- The entry is the source of a valid cadence entry. -/
def isCadenceSource (s : State) (i : Nat) : Bool := s.cadences.any fun e => decide (e.map (·.source) = some (.tone i))

/-- A TONE report. -/
def reportTone (l : Line) (i : Nat) (e : ToneEntry) (digit : Option Byte) (on : Bool) (duration : Nat) : State → State :=
  queueReport (.tone l i e.meaning digit on duration)

/-- The effects of an entry's action at ON (R50). -/
def actOn (l : Line) (i : Nat) (e : ToneEntry) (digit : Option Byte) (s : State) : State :=
  let reported := reportTone l i e digit true (e.onNeed * 10)
  match e.action with
  | .ignore => s
  | .report => reported s
  | .priority => notePriority l i (reported s)
  | .capture => reported (makeCapture l i e.priorityMark digit s)
  | .control op => voiceControl l op (reported s)

/-- An ON declaration: the action with its TONE report, then the meaning unless it is withheld, or the end of an off interval (R50,
R51, R54). The action before the effects of the meaning is DESIGN CHOICE, log entry 62. -/
def declaredOn (l : Line) (i : Nat) (e : ToneEntry) (digit : Option Byte) (start : Nat) (off : Option Nat) (s : State) : State :=
  let s := actOn l i e digit s
  if isCadenceSource s i then
    match off with
    | some blocks => cadenceOff l (.tone i) (blocks * 10) s
    | none => s
  else if e.meaning = .none then s
  else deliver l e.meaning digit (lineTimeAt s l start) s

/-- An OFF declaration: the report of a REPORT entry, and the end of an on interval (R50, R54). -/
def declaredOff (l : Line) (i : Nat) (e : ToneEntry) (digit : Option Byte) (start duration : Nat) (s : State) : State :=
  let s := if e.action = .report then reportTone l i e digit false duration s else s
  cadenceOn l (.tone i) duration start s

/-- A declaration takes effect. -/
def declare (l : Line) (i : Nat) (e : ToneEntry) (s : State) : EdgeEvent → State
  | .on digit start off => declaredOn l i e digit start off s
  | .off digit start duration => declaredOff l i e digit start duration s

/-- The edge state of an entry on a line. -/
def edgeOf (s : State) (l : Line) (i : Nat) : EdgeState := (s.line l).det.edges.getD i readyEdge

/-- The edge state replaced. -/
def setEdge (l : Line) (i : Nat) (x : EdgeState) : State → State := modDet l fun d => { d with edges := d.edges.set i x }

/-- An edge state is ended outside the table of R48 (R49), and the alignments of its cadence entries are cleared (R57). -/
def endEdge (l : Line) (i : Nat) (e : ToneEntry) (s : State) : State :=
  let x := edgeOf s l i
  let s := if (x.st = .on ∨ x.st = .bridge) ∧ e.action = .report then reportTone l i e x.digit false x.duration s else s
  clearSource l (.tone i) (setEdge l i { x.toReady with offFrom := none } s)

/-- The interval of a tone source still running at a block end is judged (R56). In BRIDGE the on is taken to its last present
block, without the block that bridges: DESIGN CHOICE, log entry 50, the spec does not say. -/
def judgeTone (l : Line) (i n : Nat) (s : State) : State :=
  let x := edgeOf s l i
  match x.st with
  | .on => runningOn l (.tone i) ((n + 1 - x.first) * 10) s
  | .bridge => runningOn l (.tone i) x.duration s
  | .rising => match x.offFrom with | some p => runningOff l (.tone i) ((x.first - 1 - p) * 10) s | none => s
  | _ => match x.offFrom with | some p => runningOff l (.tone i) ((n - p) * 10) s | none => s

/-- A block for one entry: n is the block's number, start the moment it began (R48, R49). -/
def entryBlock (l : Line) (n start i : Nat) (e : ToneEntry) (seen : Option (Option (Option Byte))) (s : State) : State :=
  match seen with
  | none => endEdge l i e s
  | some p =>
    let x := edgeOf s l i
    let r := match p with
      | some digit => x.present e n start digit
      | none => x.absence e
    judgeTone l i n (r.2.foldl (declare l i e) (setEdge l i r.1 s))

/-- A block for the detector: the live entries are those of the line state that stands at the block's end (R44). -/
def detectBlock (l : Line) (n start : Nat) (b : List Sample) (s : State) : State :=
  (s.tones.zip (presences (s.st l) b s.tones [])).zipIdx.foldl (fun s x =>
    match x.1.1 with
    | some e => entryBlock l n start x.2 e x.1.2 s
    | none => s) s

/-! ### Rings at the matcher (R24, R54, R56) -/

/-- The running interval of the ring source is judged (R56). While a ring-on is PENDING the off is taken to the start of that
ring-on, as R54 words it for a tone source in RISING: DESIGN CHOICE, log entry 50, the spec does not say it of rings. -/
def judgeRing (l : Line) (s : State) : State :=
  let i := (s.line l).iface
  match i.ring, i.ringOff with
  | .on start _, _ => runningOn l .ring (s.now - start) s
  | .pending start _, some t => runningOff l .ring (start - t) s
  | .quiet, some t => runningOff l .ring (s.now - t) s
  | _, none => s

/-- A ring-on ends now: its length goes to the call controller and to the matcher (R24). -/
def ringOffNow (l : Line) (start : Nat) (s : State) : State :=
  let s := modIface l (fun i => { i with ring := .quiet, ringOff := some s.now }) s
  callRingOff l (cadenceOn l .ring (s.now - start) start s)

/-- RING_PULSE: the caller window closes, and the debouncer takes the pulse (R24, R27). -/
def opRingPulse (l : Line) (s : State) : State :=
  if hasPin s (ringFn l) then
    let s := closeWindow l s
    judgeRing l (modIface l (fun i => { i with
      ring := match i.ring with
        | .quiet => .pending s.now (s.now + 150)
        | .pending start _ => .pending start (s.now + 150)
        | .on start _ => .on start (s.now + 150) }) s)
  else s

/-- RING_ON: the ring-on has lasted 200 ms; the off interval before it ends, and the event goes to the call controller
(R24, R54, R67). That the matcher observes the off, with its RING_CLASS, CADENCE report and plan, before the ring-on is counted is DESIGN
CHOICE, log entry 95: R68 leaves open which is taken first. -/
def opRingOn (l : Line) (s : State) : State :=
  match (s.line l).iface.ring with
  | .pending start due =>
    let off := (s.line l).iface.ringOff
    let s := modIface l (fun i => { i with ring := .on start due }) (elapse (start + 200) s)
    let s := match off with
      | some t => cadenceOff l .ring (start - t) s
      | none => s
    callRingOn l (judgeRing l s)
  | _ => s

/-- RING_END_TIMER_EXPIRY (R24). -/
def opRingEndTimerExpiry (l : Line) (s : State) : State :=
  match (s.line l).iface.ring with
  | .pending _ due => judgeRing l (modIface l (fun i => { i with ring := .quiet }) (elapse due s))
  | .on start due => ringOffNow l start (elapse due s)
  | .quiet => s

/-! ### The block end (R21) -/

/-- The STREAM_SLIP condition of the block (R146). -/
def slipBlock (l : Line) (s : State) : State := clearSlip l (setCondition l .streamSlip (streamSlip s l) s)

/-- The moment a receive block ends: when it is due; a block that is overdue ends a whole block from now (log entry 1). -/
def blockEndTime (s : State) (l : Line) : Nat :=
  if (s.line l).iface.blockDue < s.now then s.now + 10 else (s.line l).iface.blockDue

/-- BLOCK_END: the 80 samples of a receive block. The order of its parts is DESIGN CHOICE, log
entry 21: the level before the gain, the voice engine, the detector, the ring source at the matcher, the answer watch, the level
after the gain with the gain itself, GAIN_LIMIT, LEVEL_LOW, CLIP, STREAM_SLIP, and the gain of the next block. -/
def opBlockEnd (l : Line) (b : List Sample) (s : State) : State :=
  let i := (s.line l).iface
  let gained := b.map (gainSample i.blockGain)
  let n := i.blockNo + 1
  let fin := blockEndTime s l
  let start := fin - 10
  let s := modIface l (fun i => { i with
    blockDue := fin + 10, blockNo := n, preLevel := meanMagnitude (b.map BitVec.toInt) }) (elapse fin s)
  let s := judgeRing l (detectBlock l n start b (voiceBlock l start gained s))
  let s := watchBlock l s
  let before := (s.line l).iface.gain
  let s := gainLimitBlock l before (gainBlock l (meanMagnitude gained) s)
  latchGain l (slipBlock l (clipBlock l (clipCount b) (levelLowBlock l s)))

/-! ### Table directives (R42, R43, R53) -/

/-- The entry a TONE WRITE gives, when the checks of R42 step 1 pass on its fields. -/
def toneEntryOf (f : ToneParams) : Option ToneEntry :=
  match ToneKind.ofCode f.kind.toNat, ToneAction.ofCodes f.action.toNat f.controlOp.toNat, onOff f.priorityMark.toNat,
      Meaning.ofTone f.meaning.toNat, stateSet f.liveStates with
  | some kind, some action, some mark, some meaning, some live =>
    let inRange := fun n : Nat => decide (300 ≤ n ∧ n ≤ 3400)
    let freqsOk := match kind with
      | .single => inRange f.f1.toNat
      | .dual => inRange f.f1.toNat && inRange f.f2.toNat && decide (f.f1 ≠ f.f2)
      | .dtmf => true
    let meaningOk := match kind with
      | .dtmf => decide (meaning = .dtmf ∨ meaning = .none)
      | _ => decide (meaning ≠ .dtmf)
    if freqsOk && meaningOk then
      some { kind := kind, f1 := f.f1.toNat, f2 := f.f2.toNat, minLevel := clampInt (-50) 0 f.minLevel.toInt,
             twist := clamp 0 12 f.twist.toNat, onTime := clamp 10 5000 f.onTime.toNat, offTime := clamp 10 5000 f.offTime.toNat,
             action := action, priorityMark := mark, meaning := meaning, live := live }
    else none
  | _, _, _, _, _ => none

/-- The edge states of an entry end on both lines (R49), on line A first: DESIGN CHOICE, log entry 63. -/
def endEdges (i : Nat) (old : Option ToneEntry) (s : State) : State :=
  match old with
  | some e => endEdge .B i e (endEdge .A i e s)
  | none => s

/-- TONE WRITE (R42, R49). -/
def opToneWrite (index : Byte) (fields : ToneParams) (s : State) : State :=
  let code := 0x45#8
  let i := index.toNat
  match toneEntryOf fields with
  | none => done code .badParam [] s
  | some e =>
    let tones := s.tones.set i (some e)
    if 23 < i then done code .badParam [] s
    else if (entryAt s.tones i).isSome ∧ isCadenceSource s i ∧ e.kind = .dtmf then done code .inUse [] s
    else if LineSt.all.any fun st => decide (16 < liveCount tones st) then done code .tableFull [] s
    else { endEdges i (entryAt s.tones i) (done code .ok (oneByte (greatestLive tones)) s) with tones := tones }

/-- TONE DELETE (R43, R49). -/
def opToneDelete (index : Byte) (s : State) : State :=
  let code := 0x45#8
  let i := index.toNat
  if 23 < i then done code .badParam [] s
  else
    match entryAt s.tones i with
    | none => done code .noEntry [] s
    | some e =>
      let tones := s.tones.set i none
      if isCadenceSource s i then done code .inUse [] s
      else { endEdges i (some e) (done code .ok (oneByte (greatestLive tones)) s) with tones := tones }

/-- The source of a CADENCE WRITE: a tone index, or RING (10.2). -/
def cadSourceOf (b : Byte) : Option CadSource :=
  if b = 0xFF#8 then some .ring else if b.toNat ≤ 23 then some (.tone b.toNat) else none

/-- The entry a CADENCE WRITE gives, when the checks of R53 step 1 pass on its fields. -/
def cadEntryOf (f : CadenceParams) : Option CadEntry :=
  match cadSourceOf f.source, Meaning.ofCadence f.meaning.toNat, onOff f.reportFlag.toNat with
  | some source, some meaning, some report =>
    if f.pairs.length = 0 ∨ 4 < f.pairs.length then none
    else
      some { source := source, pattern := f.pairs.flatMap fun p => [clamp 50 8000 p.1.toNat, clamp 50 8000 p.2.toNat],
             tolerance := clamp 5 30 f.tolerance.toNat, repeats := clamp 1 4 f.repeats.toNat, meaning := meaning, report := report }
  | _, _, _ => none

/-- The tone entry a cadence source names is missing, or is of kind DTMF (R53 steps 2 and 3). -/
def cadSourceResult (s : State) : CadSource → Result
  | .ring => .ok
  | .tone i =>
    match entryAt s.tones i with
    | none => .noEntry
    | some e => if e.kind = .dtmf then .badParam else .ok

/-- A cadence entry's alignments on both lines are cleared. -/
def clearAligns (k : Nat) (s : State) : State := clearAlign .B k (clearAlign .A k s)

/-- CADENCE WRITE (R53). -/
def opCadenceWrite (index : Byte) (fields : CadenceParams) (s : State) : State :=
  let code := 0x59#8
  let k := index.toNat
  match cadEntryOf fields with
  | none => done code .badParam [] s
  | some e =>
    if 7 < k then done code .badParam [] s
    else
      match cadSourceResult s e.source with
      | .ok => clearAligns k { done code .ok [] s with cadences := s.cadences.set k (some e) }
      | r => done code r [] s

/-- CADENCE DELETE (R53). -/
def opCadenceDelete (index : Byte) (s : State) : State :=
  let code := 0x59#8
  let k := index.toNat
  if 7 < k then done code .badParam [] s
  else
    match entryAt s.cadences k with
    | none => done code .noEntry [] s
    | some _ => clearAligns k { done code .ok [] s with cadences := s.cadences.set k none }

/-! ### Extension events (R26, R71, R81) -/

/-- EXTENSION_PICKUP. -/
def opExtensionPickup (l : Line) (s : State) : State :=
  let i := (s.line l).iface
  match i.extDue with
  | some due =>
    if i.extIn ∧ i.extState = false then
      callPickup l (modIface l (fun i => { i with extState := true, extDue := none }) (elapse due s))
    else s
  | none => s

/-- EXTENSION_HANGUP: dispatch is evaluated for the line (R89). -/
def opExtensionHangup (l : Line) (s : State) : State :=
  let i := (s.line l).iface
  match i.extDue with
  | some due =>
    if i.extIn = false ∧ i.extState then
      post (.extHangup l) (modIface l (fun i => { i with extState := false, extDue := none }) (elapse due s))
    else s
  | none => s

/-! ### PINS (R30) -/

/-- The assignment a PINS carries, when check 1 passes; a level is kept for OUT only. -/
def pinsOf (raw : List (Byte × Byte)) : Option (List PinCfg) :=
  raw.mapM fun p =>
    match PinFn.ofCode p.1.toNat, onOff p.2.toNat with
    | some f, some level => some ⟨f, level && decide (f = .out)⟩
    | _, _ => none

/-- Check 2 of R30: a function other than IN or OUT on one pin at most, and no input function on GP8 to GP11. -/
def pinsPlaced (pins : List PinCfg) : Bool :=
  (PinFn.all.all fun f => decide (f = .inp ∨ f = .out ∨ (pins.filter fun p => decide (p.fn = f)).length ≤ 1)) &&
    (pins.drop 8).all fun p => !p.fn.isInput

/-- The pin that carries a function. -/
def pinOf (pins : List PinCfg) (f : PinFn) : Option Nat := pins.findIdx? fun p => decide (p.fn = f)

/-- RING withdrawn: a ring-on in PENDING is dropped, one in ON ends at once (R30). -/
def withdrawRing (l : Line) (s : State) : State :=
  match (s.line l).iface.ring with
  | .on start _ => ringOffNow l start s
  | _ => modIface l (fun i => { i with ring := .quiet }) s

/-- LOOP withdrawn: an off-hook line in WAIT or DOUBT goes to PRESENT, from WAIT with loop-established (R30). -/
def withdrawLoop (l : Line) (s : State) : State :=
  let s' := modIface l (fun i => { i with loopIn := false }) s
  match (s.line l).iface.loop with
  | .wait _ _ => post (.loopUp l) (modIface l (fun i => { i with loop := .present }) s')
  | .doubt _ => modIface l (fun i => { i with loop := .present }) s'
  | _ => s'

/-- EXT withdrawn: an extension state of ON becomes OFF and delivers hang-up (R30). -/
def withdrawExt (l : Line) (s : State) : State :=
  let was := (s.line l).iface.extState
  let s := modIface l (fun i => { i with extIn := false, extState := false, extDue := none }) s
  if was then post (.extHangup l) s else s

/-- The level of a pin to which an input has newly moved (log entry 4). -/
def samplePin (pin : Nat) (s : State) : Bool × State := (Config.pinSample s.samples pin, { s with samples := s.samples + 1 })

/-- LOOP newly placed: the debouncer goes on from its state with the level as it stands, its counts starting at once. -/
def placeLoop (l : Line) (pin : Nat) (s : State) : State :=
  let r := samplePin pin s
  modIface l (fun i => { i with
    loopIn := r.1
    loop := if i.loopSuspended then i.loop else match i.loop with
      | .doubt _ => if r.1 then .present else .doubt (s.now + 300)
      | other => loopStep s.now r.1 other }) r.2

/-- EXT newly placed: its count starts at once. -/
def placeExt (l : Line) (pin : Nat) (s : State) : State :=
  let r := samplePin pin s
  modIface l (fun i => { i with extIn := r.1, extDue := if r.1 = i.extState then none else some (s.now + 50) }) r.2

/-- A function's move from the old assignment to the new one. -/
def moveInput (old new : List PinCfg) (f : PinFn) (withdraw : State → State) (place : Nat → State → State) (s : State) : State :=
  match pinOf old f, pinOf new f with
  | some _, none => withdraw s
  | a, some p => if a = some p then s else place p s
  | none, none => s

/-- The inputs of a line move with an assignment, RING before LOOP before EXT: DESIGN CHOICE, log entry 73, R30 gives no order. -/
def moveInputs (l : Line) (old new : List PinCfg) (s : State) : State :=
  let s := moveInput old new (ringFn l) (withdrawRing l) (fun _ s => s) s
  let s := moveInput old new (loopFn l) (withdrawLoop l) (placeLoop l) s
  moveInput old new (extFn l) (withdrawExt l) (placeExt l) s

/-- The HOOK pin of a line that is not IDLE would change (R30 check 3). -/
def hookMoves (s : State) (pins : List PinCfg) (l : Line) : Bool :=
  decide (s.st l ≠ .idle ∧ pinOf s.pins (hookFn l) ≠ pinOf pins (hookFn l))

/-- PINS (R30). The inputs of line A move before those of line B: DESIGN CHOICE, log entry 73, R30 gives no order. -/
def opPins (raw : List (Byte × Byte)) (s : State) : State :=
  let code := 0x50#8
  match pinsOf raw with
  | none => done code .badParam [] s
  | some pins =>
    if pins.length ≠ 12 ∨ pinsPlaced pins = false then done code .badParam [] s
    else if hookMoves s pins .A || hookMoves s pins .B then done code .badState [] s
    else
      let old := s.pins
      moveInputs .B old pins (moveInputs .A old pins { done code .ok [] s with pins := pins })

end Sys2Proof.Machine
end

