-- ==== Sys2Proof/Machine/Snapshot.lean ====
section
/-! DEFINITION. QUERY and the contents of SNAPSHOT reports (R18, R39, R62, R86, R91, R93, R96, R116, R135, R157, R176, R192,
R195). Widths of numbers the spec does not give are those of log entry 22. -/

namespace Sys2Proof.Machine

/-! ### Field forms (R195) -/

/-- A number of so many bytes, or FFH for none. -/
def optNum (width : Nat) : Option Nat → List Byte
  | some n => numBytes width n
  | none => [0xFF#8]

/-- A message id, 0 for none. -/
def idBytes (o : Option Nat) : List Byte := numBytes 2 (o.getD 0)

/-- A field that holds a value, or FFH where the value is absent (R195). -/
def presentOr (present : Bool) (bytes : List Byte) : List Byte := if present then bytes else [0xFF#8]

/-- A flag. -/
def flagByte (b : Bool) : List Byte := [boolByte b]

/-- A list as a count byte followed by its members. -/
def listBytes {α : Type} (f : α → List Byte) (l : List α) : List Byte := oneByte l.length ++ l.flatMap f

/-- The time left to a due time, in so many bytes, FFH while the timer does not run. -/
def leftBytes (s : State) (width : Nat) (due : Option Nat) : List Byte := optNum width (due.map fun t => t - s.now)

/-! ### The LINK snapshot (R18) -/

/-- The LINK snapshot. -/
def linkSnapshot (s : State) : List Byte :=
  let k := s.link
  oneByte k.rate.toNat ++ optByte (k.pendingRate.map BitVec.toNat) ++ oneByte k.target.code ++
    flagByte k.discard.none ++ flagByte k.discard.lineA ++ flagByte k.discard.lineB ++ flagByte k.discard.store ++
    oneByte k.reports.length ++ flagByte k.loss ++ optByte (k.announced.map Source.code) ++ oneByte k.roundRobin.code ++
    flagByte k.lhold ++ flagByte k.hhold ++ timeBytes k.dayClock ++ numBytes 4 k.seconds

/-! ### The LINE snapshot, block by block -/

/-- The fields of one monitor source (R39). -/
def monitorSnapshot (s : State) (l : Line) (src : MonSource) : List Byte :=
  let cfg := (s.line l).profile.monitors.get src
  flagByte cfg.enable ++ flagByte cfg.latchEnable ++ oneByte cfg.cls.code ++ flagByte ((s.line l).iface.current.get src) ++
    flagByte ((s.line l).iface.latched.get src) ++ flagByte (reportedState s l src)

/-- The signal the tone generator is sounding. -/
def soundingSignal (i : Iface) : Option Nat := (i.tone.filter (·.sounding)).map (·.signal.code)

/-- The pins that carry IN. -/
def inPins (s : State) : List Nat := (s.pins.zipIdx.filter fun p => decide (p.1.fn = .inp)).map (·.2)

/-- The sampled levels of the pins that carry IN (log entry 4). -/
def inLevels (s : State) : List Bool := (inPins s).zipIdx.map fun p => Config.pinSample (s.samples + p.2) p.1

/-- The pin assignment, the OUT levels, and the IN levels (R39). -/
def pinsSnapshot (s : State) : List Byte :=
  s.pins.flatMap (fun p => oneByte p.fn.code) ++
    listBytes (fun p => flagByte p.level) (s.pins.filter fun p => decide (p.fn = .out)) ++ listBytes flagByte (inLevels s)

/-- The line interface's fields (R39). -/
def ifaceSnapshot (s : State) (l : Line) : List Byte :=
  let i := (s.line l).iface
  oneByte i.gain ++ numBytes 2 i.preLevel ++ numBytes 2 i.postLevel ++ oneByte i.ring.code ++ oneByte i.loop.code ++
    flagByte i.extState ++ callerOrZero i.caller ++ monSources.flatMap (monitorSnapshot s l) ++ flagByte (squelched s l) ++
    optByte (soundingSignal i) ++ flagByte (alarm s) ++ pinsSnapshot s

/-- A live entry: its index, edge state and digit (R62). An entry in READY is listed like the others, with state code 0 and
digit FFH: DESIGN CHOICE, log entry 51. -/
def liveSnapshot (s : State) (l : Line) (i : Nat) : List Byte :=
  let x := edgeOf s l i
  oneByte i ++ oneByte x.st.code ++ [x.digit.getD 0xFF#8]

/-- The indexes of the live entries of the present state. -/
def liveEntries (s : State) (l : Line) : List Nat :=
  (List.range 24).filter fun i => (liveIn (entryAt s.tones i) (s.st l)).isSome

/-- The cadence entries whose matched flag is set on the line. -/
def matchedEntries (s : State) (l : Line) : List Nat :=
  (List.range 8).filter fun k => (entryAt s.cadences k).isSome && (alignOf s l k).matched

/-- A slot: a byte 0 when free, or a byte 1 and its contents when occupied: DESIGN CHOICE, log entry 22. -/
def slotSnapshot : Option Capture → List Byte
  | none => [0#8]
  | some c =>
    [1#8] ++ oneByte c.entry ++ [c.digit.getD 0xFF#8] ++ idBytes (c.position.map (·.1)) ++ optNum 4 (c.position.map (·.2)) ++
      numBytes 4 c.lineTime

/-- The slots in fill order. -/
def slotsInOrder (d : Detector) : List (Option Capture) := if d.oldestIsSlot1 then [d.slot1, d.slot0] else [d.slot0, d.slot1]

/-- The priority status. -/
def prioritySnapshot : Option Priority → List Byte
  | some p => oneByte p.entry ++ numBytes 4 p.lineTime ++ oneByte p.slot.code
  | none => [0xFF#8, 0xFF#8] ++ oneByte SlotResult.none.code

/-- The detector's fields (R62). -/
def detectorSnapshot (s : State) (l : Line) : List Byte :=
  let d := (s.line l).det
  listBytes (liveSnapshot s l) (liveEntries s l) ++ listBytes oneByte (matchedEntries s l) ++
    (slotsInOrder d).flatMap slotSnapshot ++ flagByte d.overflow ++ prioritySnapshot d.priority

/-- The call record (Chapter 4). -/
def recordSnapshot (r : CallRecord) : List Byte :=
  optByte (r.dir.map Direction.code) ++ optByte (r.mode.map CallMode.code) ++ optByte r.mailbox ++ oneByte r.rings ++
    countedBytes r.dialled ++ oneByte r.position ++ countedBytes r.number ++ idBytes r.message ++ oneByte (r.job.getD 0) ++
    optByte r.ringClass ++ optByte (r.release.map ReleaseReason.code)

/-- The call controller's fields (R93). -/
def callSnapshot (s : State) (l : Line) : List Byte :=
  let c := (s.line l).call
  oneByte c.st.code ++ optByte (c.reason.map LineReason.code) ++ recordSnapshot c.cr ++ countedBytes c.digits ++
    leftBytes s 2 c.ringDue ++ leftBytes s 2 c.dialToneDue ++ leftBytes s 3 c.progressDue ++ leftBytes s 3 c.classifyDue ++
    leftBytes s 2 c.digitDue ++ leftBytes s 2 c.cleardownDue ++ flagByte c.ringback ++ flagByte c.watchArmed ++
    flagByte (decide ((s.line l).dl.clear = .graceful))

/-- The modem's fields (R116). The target of the outstanding rate request is shown as its mode code: DESIGN CHOICE, log entry 98. -/
def modemSnapshot (s : State) (l : Line) : List Byte :=
  let m := (s.line l).modem
  optByte m.rung ++ optByte ((currentRung s l).map (·.mode.code)) ++ numBytes 2 m.q ++ oneByte m.holdOff ++ oneByte m.upCount ++
    oneByte m.burstRun ++
    (match m.lastWindow with
     | some w => numBytes 2 w.mean ++ numBytes 2 w.impulses ++ flagByte w.burst
     | none => [0xFF#8, 0xFF#8, 0xFF#8]) ++
    (match m.offset with | some o => intBytes 2 o | none => [0xFF#8]) ++
    optByte (m.request.map (·.mode.code)) ++ leftBytes s 2 (m.request.map (·.due)) ++ optByte (m.phase.map Phase.code) ++
    optNum 2 m.mProbe ++ (match m.rungSet with | some r => listBytes oneByte r | none => [0xFF#8]) ++
    listBytes (numBytes 4) m.history

/-- The retransmit timer: the time left, FFH for stopped, FEH for frozen. -/
def timerSnapshot (s : State) : DlTimer → List Byte
  | .stopped => [0xFF#8]
  | .frozen _ => [0xFE#8]
  | .running due => numBytes 2 (due - s.now)

/-- The data link's fields (R135). -/
def linkLayerSnapshot (s : State) (l : Line) : List Byte :=
  let d := (s.line l).dl
  numBytes 2 d.tx.length ++ numBytes 2 d.rx.length ++ optByte (d.negotiated.map (·.1)) ++ optNum 2 (d.negotiated.map (·.2)) ++
    oneByte d.send ++ oneByte d.expected ++ optByte d.resend ++
    listBytes (fun f => oneByte f.sequence ++ numBytes 2 f.payload.length) d.list ++ oneByte d.retries ++
    timerSnapshot s d.timer ++ flagByte d.ackDue ++ flagByte d.rejSent ++ flagByte d.localBusy ++ flagByte d.remoteBusy ++
    oneByte d.clear.code ++ leftBytes s 2 d.clearDue

/-- The line stream: message id, direction, position, readiness, or none (R157). -/
def streamSnapshot (s : State) (o : Owner) : List Byte :=
  match readerOf s o with
  | some r => numBytes 2 r.id ++ [0#8] ++ numBytes 4 r.position ++ flagByte r.ready
  | none =>
    match activeWriter s o with
    | some w => numBytes 2 w.id ++ [1#8] ++ numBytes 4 w.accepted ++ [0xFF#8]
    | none => [0#8, 0#8, 0xFF#8, 0xFF#8, 0xFF#8]

/-- The receiver's counters of the page in progress (R176). -/
def receiverSnapshot (f : Fax) : List Byte :=
  if f.role = some .receiver then
    numBytes 2 f.placed ++ numBytes 2 f.bad ++ numBytes 2 f.run ++ numBytes 2 f.longest ++ numBytes 2 f.expected ++
      numBytes 2 f.pageCount
  else List.replicate 6 0xFF#8

/-- The page number, the try count and the good-page count: none without a session (R176), each then one byte FFH (R195). -/
def pageSnapshot (f : Fax) : List Byte :=
  if f.role.isSome then numBytes 2 f.page ++ oneByte f.tryCount ++ numBytes 2 f.good else List.replicate 3 0xFF#8

/-- The fax engine's fields (R176). -/
def faxSnapshot (s : State) (l : Line) : List Byte :=
  let f := (s.line l).fax
  optByte (f.role.map FaxRole.code) ++ optByte (f.phase.map FaxPhase.code) ++ listBytes (fun m : Mode => oneByte m.code) f.modes ++
    optByte (f.agreed.map Mode.code) ++ optByte (f.agreed.map fun _ => if f.fine then 1 else 0) ++
    optByte (f.agreed.map fun _ => f.lineTime) ++ idBytes f.message ++ pageSnapshot f ++
    receiverSnapshot f ++
    (match f.outstanding with
     | some o => o.msg.bytes.take 1 ++ oneByte o.sends ++ leftBytes s 2 o.due
     | none => [0xFF#8, 0xFF#8, 0xFF#8]) ++
    optByte (f.endCause.map EndCause.code)

/-- The engine has a stream position and a coder state: an operation under way that has, or had, a message (R192). -/
def Voice.hasCoder (v : Voice) : Bool := v.sub.isSome && v.message.isSome

/-- The voice engine's fields (R192). Absent (R195) are the position, p and k of an engine that codes no message, whose coder state is
none (R192), the limit of an operation that records nothing, and the start offset of a silence run of no block (R184); that the three
stand while the engine waits after a message is DESIGN CHOICE, log entry 22. -/
def voiceSnapshot (v : Voice) : List Byte :=
  optByte (v.sub.map VoiceSub.code) ++ optByte (v.kind.map VoiceKind.code) ++ idBytes v.message ++ optByte v.mailbox ++
    oneByte v.coding.code ++ presentOr v.hasCoder (numBytes 4 v.position) ++ presentOr v.hasCoder (intBytes 2 v.p) ++
    presentOr v.hasCoder (oneByte v.k) ++ presentOr (decide (0 < v.limit)) (numBytes 3 v.limit) ++
    numBytes 2 v.silenceRun ++ presentOr (decide (0 < v.silenceRun)) (numBytes 3 v.silenceStart)

/-- The LINE snapshot: the fields of each block in the order of the chapters (R39). -/
def lineSnapshot (s : State) (l : Line) : List Byte :=
  ifaceSnapshot s l ++ detectorSnapshot s l ++ callSnapshot s l ++ modemSnapshot s l ++ linkLayerSnapshot s l ++
    streamSnapshot s (.line l) ++ faxSnapshot s l ++ voiceSnapshot (s.line l).voice

/-! ### The STORE and DIRECTORY snapshots (R157) -/

/-- One of the four streams of the part: whether it is open, with its id, direction and position. -/
def openStreamSnapshot (reader : Option RStream) (writer : Option WStream) : List Byte :=
  match reader, writer with
  | some r, _ => [1#8] ++ numBytes 2 r.id ++ [0#8] ++ numBytes 4 r.position
  | none, some w => [1#8] ++ numBytes 2 w.id ++ [1#8] ++ numBytes 4 w.accepted
  | none, none => [0#8, 0#8, 0#8, 0xFF#8, 0xFF#8]

/-- The STORE snapshot. A region that is not present has no sustain count (R136, R195). -/
def storeSnapshot (s : State) : List Byte :=
  let t := s.store
  oneByte t.st.code ++ t.regions.flatMap (fun r => regionBytes r ++ presentOr r.present (oneByte r.sustain)) ++ numBytes 2 t.formatCount ++
    (List.range 4).flatMap (fun r => numBytes 2 (freeInRegion s r)) ++ numBytes 2 (freeCount s) ++
    oneByte t.settings.reserve ++ oneByte t.settings.policy.code ++ oneByte t.settings.watermark ++ oneByte t.settings.order.code ++
    oneByte t.dir.length ++ numBytes 2 t.nextId ++ numBytes 4 t.creation ++ listBytes (numBytes 2) t.unheard ++
    openStreamSnapshot t.readA (activeWriter s (.line .A)) ++ openStreamSnapshot t.readB (activeWriter s (.line .B)) ++
    openStreamSnapshot t.readHost none ++ openStreamSnapshot none (activeWriter s .host) ++
    listBytes (fun e : Entry => numBytes 2 e.id) (t.dir.filter fun e => decide (e.state = .erasing)) ++
    oneByte t.waiting.length ++ flagByte t.hostFail

/-- The writer of an entry: a target's code, 3 for the host write stream, FFH for none. -/
def writerCode : Option Owner → List Byte
  | some (.line .A) => [1#8]
  | some (.line .B) => [2#8]
  | some .host => [3#8]
  | none => [0xFF#8]

/-- The length of an entry: while OPEN, the bytes accepted so far (R138). -/
def entryLength (s : State) (e : Entry) : Nat := if e.state = .opened ∧ (findWriter s e.id).isSome then acceptedOf s e.id else e.length

/-- The DIRECTORY snapshot of an entry. -/
def entrySnapshot (s : State) (e : Entry) : List Byte :=
  numBytes 2 e.id ++ oneByte e.kind.code ++ oneByte e.state.code ++ writerCode e.writer ++ optByte e.mailbox ++
    oneByte e.coding.code ++ numBytes 4 (entryLength s e) ++ numBytes 2 e.pages ++ timeBytes e.created ++
    numBytes 4 e.creation ++ callerOrZero e.caller ++ flagByte e.fetched ++ flagByte e.truncated ++ flagByte e.recovered ++
    flagByte e.erasePending ++ oneByte e.inUse ++ optNum 2 e.chain.head? ++ numBytes 2 e.chain.length

/-! ### The snapshots of table entries -/

/-- A tone entry's state on one line: edge state, run's digit, and on-count or absent count (R62): the absent count in RECOVER, the
on-count in every other state, BRIDGE included: DESIGN CHOICE, log entry 65, the spec does not say which count in which state. -/
def edgeSnapshot (x : EdgeState) : List Byte :=
  oneByte x.st.code ++ [x.digit.getD 0xFF#8] ++ numBytes 2 (if x.st = .recover then x.absent else x.onCount)

/-- The TONE snapshot (R62). An action other than CONTROL has no operation (R41, R195). -/
def toneSnapshot (s : State) (i : Nat) (e : ToneEntry) : List Byte :=
  flagByte true ++ oneByte e.kind.code ++ numBytes 2 e.f1 ++ numBytes 2 e.f2 ++ intBytes 1 e.minLevel ++ oneByte e.twist ++
    numBytes 2 e.onTime ++ numBytes 2 e.offTime ++ oneByte e.action.code ++ optByte e.action.opCode ++ flagByte e.priorityMark ++
    oneByte e.meaning.toneCode ++ numBytes 2 (stateSetCode e.live) ++ edgeSnapshot (edgeOf s .A i) ++ edgeSnapshot (edgeOf s .B i)

/-- A cadence entry's state on one line (R62). The element is coded from 0, for on1, and the cycles of an alignment without a run are 0:
DESIGN CHOICE, log entry 65. Its run start is absent (R55, R195). -/
def alignSnapshot (a : Alignment) : List Byte :=
  oneByte a.expect ++ numBytes 2 a.cycles ++ optNum 4 (if a.held then some a.runStart else none) ++ flagByte a.matched

/-- The source of a cadence entry: a tone index, FFH for RING (10.2). -/
def cadSourceByte : CadSource → List Byte
  | .tone i => oneByte i
  | .ring => [0xFF#8]

/-- The CADENCE snapshot (R62). -/
def cadenceSnapshot (s : State) (k : Nat) (e : CadEntry) : List Byte :=
  flagByte true ++ cadSourceByte e.source ++ oneByte (e.pattern.length / 2) ++ e.pattern.flatMap (numBytes 2) ++
    oneByte e.tolerance ++ oneByte e.repeats ++ oneByte e.meaning.cadenceCode ++ flagByte e.report ++
    alignSnapshot (alignOf s .A k) ++ alignSnapshot (alignOf s .B k)

/-- A pattern symbol as a character. -/
def patChar : PatSym → Byte
  | .digit d => d
  | .any => 0x3F#8

/-- A pattern: its length and symbols, FEH for WITHHELD, FFH for NONE (10.2). -/
def patternSnapshot : Pattern → List Byte
  | .digits syms star => countedBytes (syms.map patChar ++ if star then [0x2A#8] else [])
  | .withheld => [0xFE#8]
  | .none => [0xFF#8]

/-- The SCREEN snapshot (R93). An action other than ANSWER_RINGS and ROUTE has no argument (R82, R195). -/
def screenSnapshot (e : ScreenEntry) : List Byte :=
  flagByte true ++ patternSnapshot e.pattern ++ oneByte e.dir.code ++ oneByte e.action.code ++ optByte e.action.argument

/-- The ATTEMPT snapshot (R86). -/
def attemptSnapshot (s : State) (a : AttemptRecord) : List Byte :=
  let left := a.left s.link.seconds
  countedBytes a.number ++ oneByte a.failures ++ numBytes 4 a.last ++ numBytes 4 a.next ++ flagByte a.barred ++
    optByte (if 0 < left then some left else none)

/-- The LADDER snapshot (R96). -/
def rungSnapshot (r : Rung) : List Byte :=
  oneByte r.mode.code ++ numBytes 2 r.u ++ numBytes 2 r.d ++ numBytes 2 r.x ++ flagByte r.mode.isFax

/-- The MAILBOX snapshot (R192). -/
def mailboxSnapshot (s : State) (m : Mailbox) : List Byte :=
  flagByte m.enabled ++ countedBytes m.digits ++ idBytes m.greeting ++ numBytes 2 m.maxLength ++ oneByte m.coding.code ++
    flagByte m.isNew ++ optByte ((m.greeting.bind (findEntry s)).map (·.inUse))

/-- The snapshot of one job (R87). -/
def jobSnapshot (j : Job) : List Byte :=
  oneByte j.id ++ oneByte j.kind.code ++ countedBytes j.symbols ++ countedBytes j.number ++ numBytes 2 j.message ++
    oneByte j.priority ++ oneByte j.preference.code ++ oneByte j.maxTries ++ oneByte j.tries ++ oneByte j.state.code ++
    (match j.outcome with
     | some o => oneByte o.result.code ++ numBytes 2 o.pages ++ optByte o.rung ++ timeBytes o.time
     | none => [0xFF#8])

/-! ### QUERY (R18, R195) -/

/-- Contents cut into parts of at most 250 bytes; the fuel is the number of bytes. -/
def cutParts : Nat → List Byte → List (List Byte)
  | 0, b => [b]
  | n + 1, b => if b.length ≤ 250 then [b] else b.take 250 :: cutParts n (b.drop 250)

/-- The SNAPSHOT reports of one subject's contents (R195). -/
def snapshotReports (subject : Byte) (index : Word16) (contents : List Byte) : List Report :=
  let parts := cutParts contents.length contents
  parts.zipIdx.map fun p => .snapshot subject index (p.2 + 1) parts.length p.1

/-- What a QUERY finds: a refusal, or the contents of its snapshots. -/
inductive QueryResult where
  | refused (r : Result)
  | found (contents : List (List Byte))
deriving DecidableEq, Repr

/-- One snapshot, or NO_ENTRY. -/
def foundOr (o : Option (List Byte)) : QueryResult :=
  match o with
  | some c => .found [c]
  | none => .refused .noEntry

/-- An index within a table, or BAD_PARAM. -/
def within (i size : Nat) (r : QueryResult) : QueryResult := if i < size then r else .refused .badParam

/-- QUERY's subjects (R18). Where several refusals of a DIRECTORY query apply, BAD_PARAM for the id 0 goes before NOT_READY, and NOT_READY
before NO_ENTRY: DESIGN CHOICE, log entry 72; R18 lists the refusals and R139 NOT_READY without an order. -/
def queryResult (s : State) (subject i : Nat) : QueryResult :=
  match subject with
  | 0 => .found [linkSnapshot s]
  | 1 => .found [lineSnapshot s .A]
  | 2 => .found [lineSnapshot s .B]
  | 3 => .found [storeSnapshot s]
  | 4 => .found (oneByte s.jobs.length :: (listOrder s.store.settings.order s.jobs).map jobSnapshot)
  | 5 => within i 24 (foundOr ((entryAt s.tones i).map (toneSnapshot s i)))
  | 6 => within i 8 (foundOr ((entryAt s.cadences i).map (cadenceSnapshot s i)))
  | 7 => within i 32 (foundOr ((entryAt s.screen i).map screenSnapshot))
  | 8 => within i 16 (foundOr ((entryAt s.attempts i).map (attemptSnapshot s)))
  | 9 => within i 8 (foundOr ((s.ladder[i]?).map rungSnapshot))
  | 10 => within i 8 (foundOr ((s.mailboxes[i]?).map (mailboxSnapshot s)))
  | 11 =>
    if i = 0 then .refused .badParam
    else if storeReady s = false then .refused .notReady
    else foundOr ((findEntry s i).map (entrySnapshot s))
  | _ => .refused .badParam

/-- The free pin samples a QUERY takes: a LINE snapshot samples every pin carrying IN. -/
def samplesTaken (s : State) (subject : Nat) : Nat := if subject = 1 ∨ subject = 2 then (inPins s).length else 0

/-- QUERY (R18): the arbiter has looked at the queue by the time the directive is taken. The index:2 bytes of a SNAPSHOT whose subject
takes no index (LINK, LINE, STORE, JOBS with each job) are 0: DESIGN CHOICE, log entry 60, the spec gives no value. The snapshots are taken before QUERY's
own DONE is queued, so the number of queued reports in the LINK snapshot does not count it: DESIGN CHOICE, log entry 51. -/
def opQuery (subject : Byte) (index : Word16) (s : State) : State :=
  let code := 0x51#8
  let s := arbiterKick s
  match queryResult s subject.toNat index.toNat with
  | .refused r => done code r [] s
  | .found contents =>
    let reports := contents.flatMap (snapshotReports subject index)
    let s := { s with samples := s.samples + samplesTaken s subject.toNat }
    queueReports reports (done code .ok (oneByte reports.length) s)

end Sys2Proof.Machine
end

