-- ==== Sys2Proof/Machine/Link.lean ====
section
/-! DEFINITION. The terminal link's commands (Chapter 1): the downstream parser, payload delivery, the upstream units, the
clocks, the resets of every block, and the taking of a directive. -/

namespace Sys2Proof.Machine

/-! ### Targets, rate and clocks -/

/-- TARGET (R7). -/
def opTarget (code : Byte) (s : State) : State :=
  match Target.ofCode code.toNat with
  | none => done 0x54#8 .badParam [] s
  | some t => lholdAfresh (modLink (fun k => { k with target := t }) (done 0x54#8 .ok [] s))

/-- LINKRATE (R15): the switch pends, unless its DONE finds the report queue full. -/
def opLinkrate (code : Byte) (s : State) : State :=
  if 7 < code.toNat then done 0x4B#8 .badParam [] s
  else if s.link.pendingRate.isSome then done 0x4B#8 .busy [] s
  else
    let rate := if reportFits s then some (BitVec.ofNat 3 code.toNat) else none
    done 0x4B#8 .ok [] (modLink (fun k => { k with pendingRate := rate }) s)

/-- CLOCK (R16). -/
def opClock (year month day hour minute : Byte) (s : State) : State :=
  let t : DayClock := ⟨year.toNat, month.toNat, day.toNat, hour.toNat, minute.toNat⟩
  if t.inRange = false then done 0x43#8 .badParam [] s
  else done 0x43#8 .ok [] (modLink (fun k => { k with dayClock := some t, minuteDue := some (s.now + 60000) }) s)

/-- MINUTE_TICK (R16): an unset clock does not advance. -/
def opMinuteTick (s : State) : State :=
  match s.link.minuteDue with
  | some due =>
    modLink (fun k => { k with dayClock := k.dayClock.map DayClock.nextMinute, minuteDue := some (due + 60000) }) (elapse due s)
  | none => s

/-- SECONDS_TICK (R17, R89). -/
def opSecondsTick (s : State) : State :=
  let s := elapse s.link.secondDue s
  askDispatch (modLink (fun k => { k with seconds := min secondsMax (k.seconds + 1), secondDue := k.secondDue + 1000 }) s)

/-! ### Upstream (R11 to R13, R15) -/

/-- What the end of a report brings: the discard flag of a DISCARD clears (R8), and the DONE of a LINKRATE switches the
rate (R15). -/
def reportGone (r : Report) (k : Link) : Link :=
  match r with
  | .discard t => { k with discard := k.discard.put t false }
  | .done 0x4B#8 .ok _ =>
    match k.pendingRate with
    | some rate => { k with rate := rate, pendingRate := none }
    | none => k
  | _ => k

/-- REPORT_SENT: a report or SOURCE report ends, and the arbiter chooses again (R11). -/
def opReportSent (s : State) : State :=
  let s := arbiterKick s
  match s.link.sending with
  | .report r => arbiterKick (modLink (fun k => reportGone r { k with sending := .idle }) s)
  | .source _ => arbiterKick (modLink (fun k => { k with sending := .idle }) s)
  | _ => s

/-- A byte of a source has left TXD: it leaves its queue or buffer (R11). -/
def sourceByteSent (src : Source) (s : State) : State :=
  match src.line? with
  | some l => lineByteSent l s
  | none => hostReadSent s

/-- PAYLOAD_BYTE_SENT: the unit goes on, or ends at its 64th byte, at an empty source or at HHOLD (R11, R13). -/
def opPayloadByteSent (s : State) : State :=
  let s := arbiterKick s
  match s.link.sending with
  | .payload src sent closing live =>
    let s := if live then sourceByteSent src s else s
    if closing ∨ 63 ≤ sent ∨ sourceReady s src = false then
      arbiterKick (modLink (fun k => { k with sending := .idle, roundRobin := src.next }) s)
    else modLink (fun k => { k with sending := .payload src (sent + 1) false true }) s
  | _ => s

/-- A payload unit is cut short after the byte under way (R13). -/
def Sending.hold : Sending → Sending
  | .payload src n _ live => .payload src n true live
  | other => other

/-- HHOLD_CHANGE (R13). -/
def opHholdChange (asserted : Bool) (s : State) : State :=
  let s := arbiterKick s
  if asserted then modLink (fun k => { k with hhold := true, sending := k.sending.hold }) s
  else arbiterKick (modLink (fun k => { k with hhold := false }) s)

/-! ### Power-on and resets (R19, R20, and each chapter's table) -/

/-- The level a line's input finds after a reset that returns the pins to their default assignment: the level as it stands
where the function keeps its pin, and a fresh sample where it moves (log entry 4). -/
def defaultLevel (s : State) (f : PinFn) (level : Bool) (k : Nat) : Bool :=
  if pinOf s.pins f = pinOf defaultPins f then level else Config.pinSample (s.samples + k) ((pinOf defaultPins f).getD 0)

/-- Everything at its initial value, with these straps and the input levels as they stand. -/
def restart (byDirective : Bool) (straps : BitVec 3) (s : State) : State :=
  initialState byDirective straps s.link.hhold (defaultLevel s .loopA s.lineA.iface.loopIn 0)
    (defaultLevel s .loopB s.lineB.iface.loopIn 1) (defaultLevel s .extA s.lineA.iface.extIn 2)
    (defaultLevel s .extB s.lineB.iface.extIn 3) s.store.memory (s.samples + 4) s.pending

/-- POWER_ON (R20). -/
def opPowerOn (straps : BitVec 3) (s : State) : State := restart false straps s

/-- RESET PART (R14, R19, R20): as power-on, the straps read anew (log entry 53); its DONE goes with the rest of the report
queue. -/
def opResetPart (s : State) : State := restart true (Config.strapSample s.samples) s

/-- The detector of a line at RESET LINE (R62). -/
def detectorReset (l : Line) (s : State) : State :=
  modDet l (fun _ => { initialDetector with aligns := List.replicate 8 (emptyAlign s.now) }) s

/-- The close of a writing stream of the line goes on, and RESET LINE takes bytes from it that are not written. -/
def closingCut (l : Line) (w : WStream) (e : Option Entry) : Bool :=
  decide (w.owner = .line l) && !w.active && (w.closing.map fun c => !c.copyAsked && !c.erase).getD false &&
    decide (w.written < (e.map (·.length)).getD 0)

/-- The waiting write request of a stream of the line whose close goes on is discarded (R148, R158): its message closes truncated
with the bytes written. The read-back of a cut in progress is kept, waiting or granted: DESIGN CHOICE, log entry 69. -/
def dropClosing (l : Line) (s : State) : State :=
  s.store.writers.foldl (fun s w => if closingCut l w (findEntry s w.id) then storeKick (shortenClose w.id s) else s) s

/-- RESET of a line (R19, R40, R62, R94, R117, R134, R158, R176, R191). -/
def opResetLine (l : Line) (s : State) : State :=
  let before := s
  let s := ifaceReset l (clearMonitors l (done 0x5A#8 .ok [] s))
  let s := detectorReset l (resetMonitorReports l before s)
  let s := dropClosing l s
  let s := if s.st l = .idle then s else enterCleardown l .reset s
  modFax l (fun _ => initialFax (some (.release .reset))) (emptyLink l (clearModem l s))

/-- The MONITOR reports of reported states that RESET TABLES has changed (R33). -/
def tablesMonitors (l : Line) (before s : State) : State :=
  monSources.foldl (fun s src => monitorChange (reportedState before l src) l src s) s

/-- The detector of a line at RESET TABLES (R62): edge states READY and alignments empty. -/
def detectorTables (l : Line) (s : State) : State :=
  modDet l (fun d => { d with
    edges := List.replicate 24 readyEdge, aligns := List.replicate 8 (emptyAlign s.now) }) s

/-- A mailbox at its defaults, its new flag kept (R192). -/
def mailboxDefault (i : Nat) (m : Mailbox) : Mailbox := { defaultMailbox i with isNew := m.isNew }

/-- The mailbox table at its defaults; the greeting references are returned (R192). -/
def mailboxTables (s : State) : State :=
  let greetings := s.mailboxes.filterMap (·.greeting)
  let s := { s with mailboxes := s.mailboxes.zipIdx.map fun m => mailboxDefault m.2 m.1 }
  greetings.foldl (fun s id => storeKick (returnRef id s)) s

/-- RESET TABLES (R19). -/
def opResetTables (s : State) : State :=
  if s.st .A ≠ .idle ∨ s.st .B ≠ .idle then done 0x5A#8 .badState [] s
  else
    let before := s
    let s := done 0x5A#8 .ok [] s
    let s := modProfile .B (fun _ => defaultProfile) (modProfile .A (fun _ => defaultProfile) s)
    let s := tablesMonitors .B before (tablesMonitors .A before s)
    let s := detectorTables .B (detectorTables .A { s with
      tones := defaultTones, cadences := defaultCadences, screen := List.replicate 32 none, ladder := defaultLadder })
    mailboxTables (clearModem .B (clearModem .A s))

/-! ### Taking a directive (R5) -/

/-- The owner of a directive applies its checks and carries it out; an event is no directive and has no effect here. -/
def directiveOp (i : Instr) (s : State) : State :=
  match i with
  | .target t => opTarget t s
  | .linkrate r => opLinkrate r s
  | .query subject index => opQuery subject index s
  | .resetLine l => opResetLine l s
  | .resetTables => opResetTables s
  | .resetPart => opResetPart s
  | .clock y m d h mi => opClock y m d h mi s
  | .pins a => opPins a s
  | .profile l ps => opProfile l ps s
  | .monclear l set => opMonclear l set s
  | .toneWrite index f => opToneWrite index f s
  | .toneDelete index => opToneDelete index s
  | .cadenceWrite index f => opCadenceWrite index f s
  | .cadenceDelete index => opCadenceDelete index s
  | .markread l => opMarkread l s
  | .screenWrite index f => opScreenWrite index f s
  | .screenDelete index => opScreenDelete index s
  | .dial l m msg str => opDial l m msg str s
  | .answer l m mb => opAnswer l m mb s
  | .release l k => opRelease l k s
  | .jobadd k msg p pref t str => opJobadd k msg p pref t str s
  | .jobclear id => opJobclear id s
  | .attemptclear => opAttemptclear s
  | .ladder rungs => opLadder rungs s
  | .format regions => opFormat regions s
  | .storeset r p w o => opStoreset r p w o s
  | .openMessage k c => opOpen k c s
  | .closeMessage => opClose s
  | .readMessage m o => opRead m o s
  | .newsack m => opNewsack m s
  | .erase m => opErase m s
  | .mailbox index en g ml c digits => opMailbox index en g ml c digits s
  | .mailclear set => opMailclear set s
  | .play l m o => opPlay l m o s
  | .record l mb c lim bp => opRecord l mb c lim bp s
  | .stop l => opStop l s
  | _ => s

/-- A complete directive is taken (R5): UNKNOWN, BAD_PARAM, or its owner's answer. -/
def takeDirective (code : Byte) (params : List Byte) (s : State) : State :=
  match decodeDirective code params with
  | .unknown => done code .unknown [] s
  | .badParam => done code .badParam [] s
  | .directive i => directiveOp i s

/-! ### Downstream payload (R8) -/

/-- A payload byte is discarded: DISCARD is queued while the target's flag is clear, which that report sets (R8). -/
def discardByte (t : Target) (s : State) : State :=
  if s.link.discard.get t then s
  else if reportFits s then queueReport (.discard t) (modLink (fun k => { k with discard := k.discard.put t true }) s)
  else queueReport (.discard t) s

/-- A line accepts a payload byte: outside IDLE and RINGING, with room in its transmit queue (R8). -/
def lineAccepts (s : State) (l : Line) : Bool :=
  decide (s.st l ≠ .idle ∧ s.st l ≠ .ringing ∧ (s.line l).dl.tx.length < 2048)

/-- A payload byte is offered to the current target (R8). -/
def deliverPayload (b : Byte) (s : State) : State :=
  match s.link.target with
  | .none => discardByte .none s
  | .lineA => if lineAccepts s .A then acceptLineByte .A b s else discardByte .lineA s
  | .lineB => if lineAccepts s .B then acceptLineByte .B b s else discardByte .lineB s
  | .store => if hostWriteOpen s ∧ hostWriteRoom s ≠ 0 then acceptHostByte b s else discardByte .store s

/-! ### The parser (R1 to R4) -/

/-- The parser enters a state; the stall timer runs from this byte outside PAYLOAD (R3). -/
def setParser (p : Parser) (s : State) : State :=
  modLink (fun k => { k with parser := p, stallDue := if p = .payload then none else some (s.now + 500) }) s

/-- A parser fault queues its FAULT report (R4). -/
def parserFault (kind : FaultKind) (detail : Byte) : State → State := queueReport (.fault kind detail)

/-- A directive code (R1). -/
def isDirectiveCode (b : Byte) : Bool := decide (0x20 ≤ b.toNat ∧ b.toNat ≤ 0x7E)

/-- The last byte of a sequence in PARAMS: the directive is taken, or a length above 200 is a fault (R2). -/
def endParams (code n : Byte) (gathered : List Byte) (s : State) : State :=
  if 200 < n.toNat then parserFault .badLength code s else takeDirective code gathered s

/-- DOWNSTREAM_BYTE (R1, R2). -/
def opDownstreamByte (b : Byte) (s : State) : State :=
  match s.link.parser with
  | .payload => if b = 0xC5#8 then setParser .shifted s else deliverPayload b s
  | .shifted =>
    if b = 0xC5#8 then deliverPayload b (setParser .payload s)
    else if isDirectiveCode b then setParser (.count b) s
    else parserFault .badCode b (setParser .payload s)
  | .count code =>
    if b = 0#8 then takeDirective code [] (setParser .payload s) else setParser (.params code b []) s
  | .params code n gathered =>
    let gathered := gathered ++ [b]
    if n.toNat ≤ gathered.length then endParams code n gathered (setParser .payload s)
    else setParser (.params code n gathered) s

/-- The detail byte of a TIMEOUT (10.4). -/
def Parser.stallDetail : Parser → Byte
  | .payload => 0#8
  | .shifted => 1#8
  | .count _ => 2#8
  | .params _ _ _ => 3#8

/-- STALL_TIMER_EXPIRY (R3). -/
def opStallTimerExpiry (s : State) : State :=
  match s.link.stallDue with
  | some due =>
    let detail := s.link.parser.stallDetail
    parserFault .timeout detail (setParser .payload (elapse due s))
  | none => s

end Sys2Proof.Machine
end

