-- ==== Sys2Proof/Machine/CallCommands.lean ====
section
/-! DEFINITION. The meanings of the commands of the call controller (Chapter 4): each is its operation on the state, followed by the requests
between blocks that it has caused. -/

namespace Sys2Proof.Machine

/-- SCREEN_WRITE (R82). -/
def execScreenWrite (index : Byte) (fields : ScreenParams) (s : State) : Host.Outcome State Fault Refusal :=
  .next (finish (opScreenWrite index fields s))

/-- SCREEN_DELETE (R82). -/
def execScreenDelete (index : Byte) (s : State) : Host.Outcome State Fault Refusal :=
  .next (finish (opScreenDelete index s))

/-- DIAL (R74). -/
def execDial (line : Byte) (mode : Byte) (message : Word16) (symbols : List Byte) (s : State) : Host.Outcome State Fault Refusal :=
  .next (finish (opDial line mode message symbols s))

/-- ANSWER (R70). -/
def execAnswer (line : Byte) (mode : Byte) (mailbox : Byte) (s : State) : Host.Outcome State Fault Refusal :=
  .next (finish (opAnswer line mode mailbox s))

/-- RELEASE (R66). -/
def execRelease (line : Byte) (kind : Byte) (s : State) : Host.Outcome State Fault Refusal :=
  .next (finish (opRelease line kind s))

/-- CLEARDOWN_TIMER_EXPIRY (R65). -/
def execCleardownTimerExpiry (line : Line) (s : State) : Host.Outcome State Fault Refusal :=
  .next (finish (opCleardownTimerExpiry line s))

/-- CLASSIFY_WINDOW_EXPIRY (R72). -/
def execClassifyWindowExpiry (line : Line) (s : State) : Host.Outcome State Fault Refusal :=
  .next (finish (opClassifyWindowExpiry line s))

/-- DIGIT_TIMER_EXPIRY (R73). -/
def execDigitTimerExpiry (line : Line) (s : State) : Host.Outcome State Fault Refusal :=
  .next (finish (opDigitTimerExpiry line s))

/-- DIAL_TONE_WAIT_EXPIRY (R76). -/
def execDialToneWaitExpiry (line : Line) (s : State) : Host.Outcome State Fault Refusal :=
  .next (finish (opDialToneWaitExpiry line s))

/-- BLIND_DIAL_DELAY (R76). -/
def execBlindDialDelay (line : Line) (s : State) : Host.Outcome State Fault Refusal :=
  .next (finish (opBlindDialDelay line s))

/-- PULSE_BREAK_END (R77). -/
def execPulseBreakEnd (line : Line) (s : State) : Host.Outcome State Fault Refusal :=
  .next (finish (opPulseBreakEnd line s))

/-- PULSE_MAKE_END (R77). -/
def execPulseMakeEnd (line : Line) (s : State) : Host.Outcome State Fault Refusal :=
  .next (finish (opPulseMakeEnd line s))

/-- INTERDIGIT_TIME_END (R77). -/
def execInterdigitTimeEnd (line : Line) (s : State) : Host.Outcome State Fault Refusal :=
  .next (finish (opInterdigitTimeEnd line s))

/-- COMMA_PAUSE_END (R77). -/
def execCommaPauseEnd (line : Line) (s : State) : Host.Outcome State Fault Refusal :=
  .next (finish (opCommaPauseEnd line s))

/-- FLASH_TIME_END (R77). -/
def execFlashTimeEnd (line : Line) (s : State) : Host.Outcome State Fault Refusal :=
  .next (finish (opFlashTimeEnd line s))

/-- PROGRESS_TIMER_EXPIRY (R79). -/
def execProgressTimerExpiry (line : Line) (s : State) : Host.Outcome State Fault Refusal :=
  .next (finish (opProgressTimerExpiry line s))

/-- ANSWER_WATCH_ARM (R80). -/
def execAnswerWatchArm (line : Line) (s : State) : Host.Outcome State Fault Refusal :=
  .next (finish (opAnswerWatchArm line s))

/-- JOBADD (R88). -/
def execJobadd (kind : Byte) (message : Word16) (priority : Byte) (preference : Byte) (maxTries : Byte) (symbols : List Byte) (s : State) : Host.Outcome State Fault Refusal :=
  .next (finish (opJobadd kind message priority preference maxTries symbols s))

/-- JOBCLEAR (R91). -/
def execJobclear (id : Byte) (s : State) : Host.Outcome State Fault Refusal :=
  .next (finish (opJobclear id s))

/-- ATTEMPTCLEAR (R86). -/
def execAttemptclear (s : State) : Host.Outcome State Fault Refusal :=
  .next (finish (opAttemptclear s))

end Sys2Proof.Machine
end

