-- ==== Sys2Proof/Machine/DataLinkCommands.lean ====
section
/-! DEFINITION. The meanings of the commands of the data link (Chapter 6): each is its operation on the state, followed by the requests
between blocks that it has caused. -/

namespace Sys2Proof.Machine

/-- FRAME_SENT (R121). -/
def execFrameSent (line : Line) (s : State) : Host.Outcome State Fault Refusal :=
  .next (finish (opFrameSent line s))

/-- FORMING_DELAY_END (R122). -/
def execFormingDelayEnd (line : Line) (s : State) : Host.Outcome State Fault Refusal :=
  .next (finish (opFormingDelayEnd line s))

/-- INFO (R127). -/
def execInfo (line : Line) (sequence : Byte) (ack : Byte) (payload : List Byte) (s : State) : Host.Outcome State Fault Refusal :=
  .next (finish (opInfo line sequence ack payload s))

/-- RR (R126). -/
def execRr (line : Line) (ack : Byte) (poll : Bool) (s : State) : Host.Outcome State Fault Refusal :=
  .next (finish (opRr line ack poll s))

/-- RNR (R126). -/
def execRnr (line : Line) (ack : Byte) (poll : Bool) (s : State) : Host.Outcome State Fault Refusal :=
  .next (finish (opRnr line ack poll s))

/-- REJ (R124). -/
def execRej (line : Line) (expected : Byte) (s : State) : Host.Outcome State Fault Refusal :=
  .next (finish (opRej line expected s))

/-- CLEAR (R133). -/
def execClearFrame (line : Line) (s : State) : Host.Outcome State Fault Refusal :=
  .next (finish (opClear line s))

/-- BAD_FRAME (R118). -/
def execBadFrame (line : Line) (bytes : List Byte) (s : State) : Host.Outcome State Fault Refusal :=
  .next (finish (opBadFrame line bytes s))

/-- RETRANSMIT_TIMER_EXPIRY (R125). -/
def execRetransmitTimerExpiry (line : Line) (s : State) : Host.Outcome State Fault Refusal :=
  .next (finish (opRetransmitTimerExpiry line s))

/-- CLEAR_TIMER_EXPIRY (R132). -/
def execClearTimerExpiry (line : Line) (s : State) : Host.Outcome State Fault Refusal :=
  .next (finish (opClearTimerExpiry line s))

end Sys2Proof.Machine
end

