-- ==== Sys2Proof/Machine/DetectorCommands.lean ====
section
/-! DEFINITION. The meanings of the commands of the detector (Chapter 3): each is its operation on the state, followed by the requests
between blocks that it has caused. -/

namespace Sys2Proof.Machine

/-- TONE_WRITE (R42). -/
def execToneWrite (index : Byte) (fields : ToneParams) (s : State) : Host.Outcome State Fault Refusal :=
  .next (finish (opToneWrite index fields s))

/-- TONE_DELETE (R43). -/
def execToneDelete (index : Byte) (s : State) : Host.Outcome State Fault Refusal :=
  .next (finish (opToneDelete index s))

/-- CADENCE_WRITE (R53). -/
def execCadenceWrite (index : Byte) (fields : CadenceParams) (s : State) : Host.Outcome State Fault Refusal :=
  .next (finish (opCadenceWrite index fields s))

/-- CADENCE_DELETE (R53). -/
def execCadenceDelete (index : Byte) (s : State) : Host.Outcome State Fault Refusal :=
  .next (finish (opCadenceDelete index s))

/-- MARKREAD (R59). -/
def execMarkread (line : Byte) (s : State) : Host.Outcome State Fault Refusal :=
  .next (finish (opMarkread line s))

end Sys2Proof.Machine
end

