-- ==== Sys2Proof/Machine/FaxCommands.lean ====
section
/-! DEFINITION. The meanings of the commands of the fax engine (Chapter 8): each is its operation on the state, followed by the requests
between blocks that it has caused. -/

namespace Sys2Proof.Machine

/-- CAPS (R162). -/
def execCaps (line : Line) (modes : Byte) (resolutions : Byte) (lineTime : Byte) (s : State) : Host.Outcome State Fault Refusal :=
  .next (finish (opCaps line modes resolutions lineTime s))

/-- SET (R162). -/
def execSetMessage (line : Line) (mode : Byte) (resolution : Byte) (lineTime : Byte) (s : State) : Host.Outcome State Fault Refusal :=
  .next (finish (opSet line mode resolution lineTime s))

/-- CHECK_PATTERN_END (R163). -/
def execCheckPatternEnd (line : Line) (s : State) : Host.Outcome State Fault Refusal :=
  .next (finish (opCheckPatternEnd line s))

/-- CHECK_OK (R163). -/
def execCheckOk (line : Line) (s : State) : Host.Outcome State Fault Refusal :=
  .next (finish (opCheckOk line s))

/-- CHECK_FAIL (R163). -/
def execCheckFail (line : Line) (s : State) : Host.Outcome State Fault Refusal :=
  .next (finish (opCheckFail line s))

/-- LINE_RECORD (R167). -/
def execLineRecord (line : Line) (record : RecordInput) (s : State) : Host.Outcome State Fault Refusal :=
  .next (finish (opLineRecord line record s))

/-- LINE_RECORD_SENT (R165). -/
def execLineRecordSent (line : Line) (s : State) : Host.Outcome State Fault Refusal :=
  .next (finish (opLineRecordSent line s))

/-- PAGE_END (R169). -/
def execPageEnd (line : Line) (last : Bool) (lineCount : Word16) (s : State) : Host.Outcome State Fault Refusal :=
  .next (finish (opPageEnd line last lineCount s))

/-- VERDICT (R170). -/
def execVerdict (line : Line) (verdict : Byte) (total : Word16) (bad : Word16) (s : State) : Host.Outcome State Fault Refusal :=
  .next (finish (opVerdict line verdict total bad s))

/-- BYE (R161). -/
def execBye (line : Line) (reason : Byte) (s : State) : Host.Outcome State Fault Refusal :=
  .next (finish (opBye line reason s))

/-- CONTROL_MESSAGE_SENT (R160). -/
def execControlMessageSent (line : Line) (s : State) : Host.Outcome State Fault Refusal :=
  .next (finish (opControlMessageSent line s))

/-- ANSWER_TIMER_EXPIRY (R160). -/
def execAnswerTimerExpiry (line : Line) (s : State) : Host.Outcome State Fault Refusal :=
  .next (finish (opAnswerTimerExpiry line s))

/-- CAPS_WAIT_EXPIRY (R159). -/
def execCapsWaitExpiry (line : Line) (s : State) : Host.Outcome State Fault Refusal :=
  .next (finish (opCapsWaitExpiry line s))

end Sys2Proof.Machine
end

