-- ==== Sys2Proof/Machine/InterfaceCommands.lean ====
section
/-! DEFINITION. The meanings of the commands of the line interface (Chapter 2): each is its operation on the state, followed by the requests
between blocks that it has caused. -/

namespace Sys2Proof.Machine

/-- BLOCK_END (R21). -/
def execBlockEnd (line : Line) (samples : List Sample) (s : State) : Host.Outcome State Fault Refusal :=
  .next (finish (opBlockEnd line samples s))

/-- RING_PULSE (R24). -/
def execRingPulse (line : Line) (s : State) : Host.Outcome State Fault Refusal :=
  .next (finish (opRingPulse line s))

/-- RING_ON (R67). -/
def execRingOn (line : Line) (s : State) : Host.Outcome State Fault Refusal :=
  .next (finish (opRingOn line s))

/-- RING_END_TIMER_EXPIRY (R24). -/
def execRingEndTimerExpiry (line : Line) (s : State) : Host.Outcome State Fault Refusal :=
  .next (finish (opRingEndTimerExpiry line s))

/-- RING_TIMER_EXPIRY (R67). -/
def execRingTimerExpiry (line : Line) (s : State) : Host.Outcome State Fault Refusal :=
  .next (finish (opRingTimerExpiry line s))

/-- CALLER_MESSAGE (R28). -/
def execCallerMessage (line : Line) (rest : List Byte) (s : State) : Host.Outcome State Fault Refusal :=
  .next (finish (opCallerMessage line rest s))

/-- CALLER_ABANDON (R27). -/
def execCallerAbandon (line : Line) (s : State) : Host.Outcome State Fault Refusal :=
  .next (finish (opCallerAbandon line s))

/-- LOOP_INPUT_CHANGE (R25). -/
def execLoopInputChange (line : Line) (asserted : Bool) (s : State) : Host.Outcome State Fault Refusal :=
  .next (finish (opLoopInputChange line asserted s))

/-- LOOP_ESTABLISHED (R25). -/
def execLoopEstablished (line : Line) (s : State) : Host.Outcome State Fault Refusal :=
  .next (finish (opLoopEstablished line s))

/-- NO_LOOP (R25). -/
def execNoLoop (line : Line) (s : State) : Host.Outcome State Fault Refusal :=
  .next (finish (opNoLoop line s))

/-- LOOP_LOST (R25). -/
def execLoopLost (line : Line) (s : State) : Host.Outcome State Fault Refusal :=
  .next (finish (opLoopLost line s))

/-- EXT_INPUT_CHANGE (R26). -/
def execExtInputChange (line : Line) (asserted : Bool) (s : State) : Host.Outcome State Fault Refusal :=
  .next (finish (opExtInputChange line asserted s))

/-- EXTENSION_PICKUP (R81). -/
def execExtensionPickup (line : Line) (s : State) : Host.Outcome State Fault Refusal :=
  .next (finish (opExtensionPickup line s))

/-- EXTENSION_HANGUP (R26). -/
def execExtensionHangup (line : Line) (s : State) : Host.Outcome State Fault Refusal :=
  .next (finish (opExtensionHangup line s))

/-- TONE_GENERATOR_COMPLETION (R36). -/
def execToneGeneratorCompletion (line : Line) (s : State) : Host.Outcome State Fault Refusal :=
  .next (finish (opToneGeneratorCompletion line s))

/-- CALLING_TONE_TOGGLE (R36). -/
def execCallingToneToggle (line : Line) (s : State) : Host.Outcome State Fault Refusal :=
  .next (finish (opCallingToneToggle line s))

/-- PINS (R30). -/
def execPins (assignment : List (Byte × Byte)) (s : State) : Host.Outcome State Fault Refusal :=
  .next (finish (opPins assignment s))

/-- PROFILE (R37). -/
def execProfile (line : Byte) (pairs : List (Byte × Word16)) (s : State) : Host.Outcome State Fault Refusal :=
  .next (finish (opProfile line pairs s))

/-- MONCLEAR (R33). -/
def execMonclear (line : Byte) (sources : Byte) (s : State) : Host.Outcome State Fault Refusal :=
  .next (finish (opMonclear line sources s))

end Sys2Proof.Machine
end

