-- ==== Sys2Proof/Machine/LinkCommands.lean ====
section
/-! DEFINITION. The meanings of the commands of the terminal link (Chapter 1): each is its operation on the state, followed by the requests
between blocks that it has caused. -/

namespace Sys2Proof.Machine

/-- POWER_ON (R20). -/
def execPowerOn (straps : BitVec 3) (s : State) : Host.Outcome State Fault Refusal :=
  .next (finish (opPowerOn straps s))

/-- DOWNSTREAM_BYTE (R1). -/
def execDownstreamByte (b : Byte) (s : State) : Host.Outcome State Fault Refusal :=
  .next (finish (opDownstreamByte b s))

/-- STALL_TIMER_EXPIRY (R3). -/
def execStallTimerExpiry (s : State) : Host.Outcome State Fault Refusal :=
  .next (finish (opStallTimerExpiry s))

/-- TARGET (R7). -/
def execTarget (code : Byte) (s : State) : Host.Outcome State Fault Refusal :=
  .next (finish (opTarget code s))

/-- LINKRATE (R15). -/
def execLinkrate (code : Byte) (s : State) : Host.Outcome State Fault Refusal :=
  .next (finish (opLinkrate code s))

/-- QUERY (R18). -/
def execQuery (subject : Byte) (index : Word16) (s : State) : Host.Outcome State Fault Refusal :=
  .next (finish (opQuery subject index s))

/-- RESET_LINE (R94). -/
def execResetLine (line : Line) (s : State) : Host.Outcome State Fault Refusal :=
  .next (finish (opResetLine line s))

/-- RESET_TABLES (R19). -/
def execResetTables (s : State) : Host.Outcome State Fault Refusal :=
  .next (finish (opResetTables s))

/-- RESET_PART (R20). -/
def execResetPart (s : State) : Host.Outcome State Fault Refusal :=
  .next (finish (opResetPart s))

/-- CLOCK (R16). -/
def execClock (year : Byte) (month : Byte) (day : Byte) (hour : Byte) (minute : Byte) (s : State) : Host.Outcome State Fault Refusal :=
  .next (finish (opClock year month day hour minute s))

/-- MINUTE_TICK (R16). -/
def execMinuteTick (s : State) : Host.Outcome State Fault Refusal :=
  .next (finish (opMinuteTick s))

/-- SECONDS_TICK (R17). -/
def execSecondsTick (s : State) : Host.Outcome State Fault Refusal :=
  .next (finish (opSecondsTick s))

/-- REPORT_SENT (R11). -/
def execReportSent (s : State) : Host.Outcome State Fault Refusal :=
  .next (finish (opReportSent s))

/-- PAYLOAD_BYTE_SENT (R11). -/
def execPayloadByteSent (s : State) : Host.Outcome State Fault Refusal :=
  .next (finish (opPayloadByteSent s))

/-- HHOLD_CHANGE (R13). -/
def execHholdChange (asserted : Bool) (s : State) : Host.Outcome State Fault Refusal :=
  .next (finish (opHholdChange asserted s))

end Sys2Proof.Machine
end

