-- ==== Sys2Proof/Machine/ModemCommands.lean ====
section
/-! DEFINITION. The meanings of the commands of the modem (Chapter 5): each is its operation on the state, followed by the requests
between blocks that it has caused. -/

namespace Sys2Proof.Machine

/-- LADDER (R96). -/
def execLadder (rungs : List RungParams) (s : State) : Host.Outcome State Fault Refusal :=
  .next (finish (opLadder rungs s))

/-- WINDOW_END (R101). -/
def execWindowEnd (line : Line) (symbols : List SymbolReading) (offset : Int) (s : State) : Host.Outcome State Fault Refusal :=
  .next (finish (opWindowEnd line symbols offset s))

/-- PROBE_SENT (R107). -/
def execProbeSent (line : Line) (s : State) : Host.Outcome State Fault Refusal :=
  .next (finish (opProbeSent line s))

/-- PROPOSE (R108). -/
def execPropose (line : Line) (proposal : Byte) (modes : Byte) (s : State) : Host.Outcome State Fault Refusal :=
  .next (finish (opPropose line proposal modes s))

/-- CONFIRM (R109). -/
def execConfirm (line : Line) (mode : Byte) (window : Byte) (payload : Word16) (s : State) : Host.Outcome State Fault Refusal :=
  .next (finish (opConfirm line mode window payload s))

/-- TRAINING_MESSAGE_REPEAT (R108). -/
def execTrainingMessageRepeat (line : Line) (s : State) : Host.Outcome State Fault Refusal :=
  .next (finish (opTrainingMessageRepeat line s))

/-- TRAINING_TIMER_EXPIRY (R109). -/
def execTrainingTimerExpiry (line : Line) (s : State) : Host.Outcome State Fault Refusal :=
  .next (finish (opTrainingTimerExpiry line s))

/-- FAR_PROBE_START (R110). -/
def execFarProbeStart (line : Line) (s : State) : Host.Outcome State Fault Refusal :=
  .next (finish (opFarProbeStart line s))

/-- RATE_REQUEST (R104). -/
def execRateRequest (line : Line) (mode : Byte) (s : State) : Host.Outcome State Fault Refusal :=
  .next (finish (opRateRequest line mode s))

/-- RATE_REFUSED (R105). -/
def execRateRefused (line : Line) (mode : Byte) (s : State) : Host.Outcome State Fault Refusal :=
  .next (finish (opRateRefused line mode s))

/-- RATE_OK (R105). -/
def execRateOk (line : Line) (mode : Byte) (s : State) : Host.Outcome State Fault Refusal :=
  .next (finish (opRateOk line mode s))

/-- RATE_ANSWER_TIMER_EXPIRY (R105). -/
def execRateAnswerTimerExpiry (line : Line) (s : State) : Host.Outcome State Fault Refusal :=
  .next (finish (opRateAnswerTimerExpiry line s))

end Sys2Proof.Machine
end

