-- ==== Sys2Proof/Machine/StoreCommands.lean ====
section
/-! DEFINITION. The meanings of the commands of the message store (Chapter 7): each is its operation on the state, followed by the requests
between blocks that it has caused. -/

namespace Sys2Proof.Machine

/-- FORMAT (R142). -/
def execFormat (regions : List RegionParams) (s : State) : Host.Outcome State Fault Refusal :=
  .next (finish (opFormat regions s))

/-- STORESET (R156). -/
def execStoreset (reserve : Byte) (policy : Byte) (watermark : Byte) (orderMode : Byte) (s : State) : Host.Outcome State Fault Refusal :=
  .next (finish (opStoreset reserve policy watermark orderMode s))

/-- OPEN (R149). -/
def execOpenMessage (kind : Byte) (coding : Byte) (s : State) : Host.Outcome State Fault Refusal :=
  .next (finish (opOpen kind coding s))

/-- CLOSE (R150). -/
def execCloseMessage (s : State) : Host.Outcome State Fault Refusal :=
  .next (finish (opClose s))

/-- READ (R151). -/
def execReadMessage (message : Word16) (offset : Word32) (s : State) : Host.Outcome State Fault Refusal :=
  .next (finish (opRead message offset s))

/-- NEWSACK (R155). -/
def execNewsack (message : Word16) (s : State) : Host.Outcome State Fault Refusal :=
  .next (finish (opNewsack message s))

/-- ERASE (R153). -/
def execErase (message : Word16) (s : State) : Host.Outcome State Fault Refusal :=
  .next (finish (opErase message s))

/-- SEGMENT_WRITE_COMPLETE (R146). -/
def execSegmentWriteComplete (s : State) : Host.Outcome State Fault Refusal :=
  .next (finish (opSegmentWriteComplete s))

/-- SEGMENT_READ_COMPLETE (R146). -/
def execSegmentReadComplete (s : State) : Host.Outcome State Fault Refusal :=
  .next (finish (opSegmentReadComplete s))

/-- FREE_HEADER_WRITE_COMPLETE (R143). -/
def execFreeHeaderWriteComplete (s : State) : Host.Outcome State Fault Refusal :=
  .next (finish (opFreeHeaderWriteComplete s))

/-- CUT_COMPLETE (R147). -/
def execCutComplete (s : State) : Host.Outcome State Fault Refusal :=
  .next (finish (opCutComplete s))

/-- COPY_REWRITE_COMPLETE (R147). -/
def execCopyRewriteComplete (s : State) : Host.Outcome State Fault Refusal :=
  .next (finish (opCopyRewriteComplete s))

/-- HEADER_REWRITE_COMPLETE (R168). -/
def execHeaderRewriteComplete (s : State) : Host.Outcome State Fault Refusal :=
  .next (finish (opHeaderRewriteComplete s))

/-- SCAN_READ_COMPLETE (R140). -/
def execScanReadComplete (s : State) : Host.Outcome State Fault Refusal :=
  .next (finish (opScanReadComplete s))

/-- LABEL_WRITE_COMPLETE (R142). -/
def execLabelWriteComplete (s : State) : Host.Outcome State Fault Refusal :=
  .next (finish (opLabelWriteComplete s))

end Sys2Proof.Machine
end

