-- ==== Sys2Proof/Machine/VoiceCommands.lean ====
section
/-! DEFINITION. The meanings of the commands of the voice engine (Chapter 9): each is its operation on the state, followed by the requests
between blocks that it has caused. -/

namespace Sys2Proof.Machine

/-- MAILBOX (R179). -/
def execMailbox (index : Byte) (enabled : Byte) (greeting : Word16) (maxLength : Word16) (coding : Byte) (digits : List Byte) (s : State) : Host.Outcome State Fault Refusal :=
  .next (finish (opMailbox index enabled greeting maxLength coding digits s))

/-- MAILCLEAR (R180). -/
def execMailclear (set : Byte) (s : State) : Host.Outcome State Fault Refusal :=
  .next (finish (opMailclear set s))

/-- PLAY (R187). -/
def execPlay (line : Byte) (message : Word16) (offset : Word32) (s : State) : Host.Outcome State Fault Refusal :=
  .next (finish (opPlay line message offset s))

/-- RECORD (R189). -/
def execRecord (line : Byte) (mailbox : Byte) (coding : Byte) (limit : Word16) (beep : Byte) (s : State) : Host.Outcome State Fault Refusal :=
  .next (finish (opRecord line mailbox coding limit beep s))

/-- STOP (R188). -/
def execStop (line : Byte) (s : State) : Host.Outcome State Fault Refusal :=
  .next (finish (opStop line s))

/-- GREETING_END (R182). -/
def execGreetingEnd (line : Line) (s : State) : Host.Outcome State Fault Refusal :=
  .next (finish (opGreetingEnd line s))

/-- PLAYBACK_COMPLETE (R187). -/
def execPlaybackComplete (line : Line) (s : State) : Host.Outcome State Fault Refusal :=
  .next (finish (opPlaybackComplete line s))

/-- DTMF_ON_TIME_END (R36). -/
def execDtmfOnTimeEnd (line : Line) (s : State) : Host.Outcome State Fault Refusal :=
  .next (finish (opDtmfOnTimeEnd line s))

/-- CALLER_BURST_BYTE (R27). -/
def execCallerBurstByte (line : Line) (b : Byte) (s : State) : Host.Outcome State Fault Refusal :=
  .next (finish (opCallerBurstByte line b s))

end Sys2Proof.Machine
end

