-- ==== Sys2Proof/Machine/Dispatch.lean ====
section
/-! DEFINITION. One arm per command: a direct call of its meaning. -/

namespace Sys2Proof.Machine

/-- The effect of a command on everything but the queue of waiting commands. -/
def exec (i : Instr) (s : State) : Host.Outcome State Fault Refusal :=
  match i with
  | .powerOn straps => Sys2Proof.Machine.execPowerOn straps s
  | .downstreamByte b => Sys2Proof.Machine.execDownstreamByte b s
  | .stallTimerExpiry => Sys2Proof.Machine.execStallTimerExpiry s
  | .target code => Sys2Proof.Machine.execTarget code s
  | .linkrate code => Sys2Proof.Machine.execLinkrate code s
  | .query subject index => Sys2Proof.Machine.execQuery subject index s
  | .resetLine line => Sys2Proof.Machine.execResetLine line s
  | .resetTables => Sys2Proof.Machine.execResetTables s
  | .resetPart => Sys2Proof.Machine.execResetPart s
  | .clock year month day hour minute => Sys2Proof.Machine.execClock year month day hour minute s
  | .minuteTick => Sys2Proof.Machine.execMinuteTick s
  | .secondsTick => Sys2Proof.Machine.execSecondsTick s
  | .reportSent => Sys2Proof.Machine.execReportSent s
  | .payloadByteSent => Sys2Proof.Machine.execPayloadByteSent s
  | .hholdChange asserted => Sys2Proof.Machine.execHholdChange asserted s
  | .blockEnd line samples => Sys2Proof.Machine.execBlockEnd line samples s
  | .ringPulse line => Sys2Proof.Machine.execRingPulse line s
  | .ringOn line => Sys2Proof.Machine.execRingOn line s
  | .ringEndTimerExpiry line => Sys2Proof.Machine.execRingEndTimerExpiry line s
  | .ringTimerExpiry line => Sys2Proof.Machine.execRingTimerExpiry line s
  | .callerMessage line rest => Sys2Proof.Machine.execCallerMessage line rest s
  | .callerAbandon line => Sys2Proof.Machine.execCallerAbandon line s
  | .loopInputChange line asserted => Sys2Proof.Machine.execLoopInputChange line asserted s
  | .loopEstablished line => Sys2Proof.Machine.execLoopEstablished line s
  | .noLoop line => Sys2Proof.Machine.execNoLoop line s
  | .loopLost line => Sys2Proof.Machine.execLoopLost line s
  | .extInputChange line asserted => Sys2Proof.Machine.execExtInputChange line asserted s
  | .extensionPickup line => Sys2Proof.Machine.execExtensionPickup line s
  | .extensionHangup line => Sys2Proof.Machine.execExtensionHangup line s
  | .toneGeneratorCompletion line => Sys2Proof.Machine.execToneGeneratorCompletion line s
  | .callingToneToggle line => Sys2Proof.Machine.execCallingToneToggle line s
  | .pins assignment => Sys2Proof.Machine.execPins assignment s
  | .profile line pairs => Sys2Proof.Machine.execProfile line pairs s
  | .monclear line sources => Sys2Proof.Machine.execMonclear line sources s
  | .toneWrite index fields => Sys2Proof.Machine.execToneWrite index fields s
  | .toneDelete index => Sys2Proof.Machine.execToneDelete index s
  | .cadenceWrite index fields => Sys2Proof.Machine.execCadenceWrite index fields s
  | .cadenceDelete index => Sys2Proof.Machine.execCadenceDelete index s
  | .markread line => Sys2Proof.Machine.execMarkread line s
  | .screenWrite index fields => Sys2Proof.Machine.execScreenWrite index fields s
  | .screenDelete index => Sys2Proof.Machine.execScreenDelete index s
  | .dial line mode message symbols => Sys2Proof.Machine.execDial line mode message symbols s
  | .answer line mode mailbox => Sys2Proof.Machine.execAnswer line mode mailbox s
  | .release line kind => Sys2Proof.Machine.execRelease line kind s
  | .cleardownTimerExpiry line => Sys2Proof.Machine.execCleardownTimerExpiry line s
  | .classifyWindowExpiry line => Sys2Proof.Machine.execClassifyWindowExpiry line s
  | .digitTimerExpiry line => Sys2Proof.Machine.execDigitTimerExpiry line s
  | .dialToneWaitExpiry line => Sys2Proof.Machine.execDialToneWaitExpiry line s
  | .blindDialDelay line => Sys2Proof.Machine.execBlindDialDelay line s
  | .pulseBreakEnd line => Sys2Proof.Machine.execPulseBreakEnd line s
  | .pulseMakeEnd line => Sys2Proof.Machine.execPulseMakeEnd line s
  | .interdigitTimeEnd line => Sys2Proof.Machine.execInterdigitTimeEnd line s
  | .commaPauseEnd line => Sys2Proof.Machine.execCommaPauseEnd line s
  | .flashTimeEnd line => Sys2Proof.Machine.execFlashTimeEnd line s
  | .progressTimerExpiry line => Sys2Proof.Machine.execProgressTimerExpiry line s
  | .answerWatchArm line => Sys2Proof.Machine.execAnswerWatchArm line s
  | .jobadd kind message priority preference maxTries symbols => Sys2Proof.Machine.execJobadd kind message priority preference maxTries symbols s
  | .jobclear id => Sys2Proof.Machine.execJobclear id s
  | .attemptclear => Sys2Proof.Machine.execAttemptclear s
  | .ladder rungs => Sys2Proof.Machine.execLadder rungs s
  | .windowEnd line symbols offset => Sys2Proof.Machine.execWindowEnd line symbols offset s
  | .probeSent line => Sys2Proof.Machine.execProbeSent line s
  | .propose line proposal modes => Sys2Proof.Machine.execPropose line proposal modes s
  | .confirm line mode window payload => Sys2Proof.Machine.execConfirm line mode window payload s
  | .trainingMessageRepeat line => Sys2Proof.Machine.execTrainingMessageRepeat line s
  | .trainingTimerExpiry line => Sys2Proof.Machine.execTrainingTimerExpiry line s
  | .farProbeStart line => Sys2Proof.Machine.execFarProbeStart line s
  | .rateRequest line mode => Sys2Proof.Machine.execRateRequest line mode s
  | .rateRefused line mode => Sys2Proof.Machine.execRateRefused line mode s
  | .rateOk line mode => Sys2Proof.Machine.execRateOk line mode s
  | .rateAnswerTimerExpiry line => Sys2Proof.Machine.execRateAnswerTimerExpiry line s
  | .frameSent line => Sys2Proof.Machine.execFrameSent line s
  | .formingDelayEnd line => Sys2Proof.Machine.execFormingDelayEnd line s
  | .info line sequence ack payload => Sys2Proof.Machine.execInfo line sequence ack payload s
  | .rr line ack poll => Sys2Proof.Machine.execRr line ack poll s
  | .rnr line ack poll => Sys2Proof.Machine.execRnr line ack poll s
  | .rej line expected => Sys2Proof.Machine.execRej line expected s
  | .clearFrame line => Sys2Proof.Machine.execClearFrame line s
  | .badFrame line bytes => Sys2Proof.Machine.execBadFrame line bytes s
  | .retransmitTimerExpiry line => Sys2Proof.Machine.execRetransmitTimerExpiry line s
  | .clearTimerExpiry line => Sys2Proof.Machine.execClearTimerExpiry line s
  | .caps line modes resolutions lineTime => Sys2Proof.Machine.execCaps line modes resolutions lineTime s
  | .setMessage line mode resolution lineTime => Sys2Proof.Machine.execSetMessage line mode resolution lineTime s
  | .checkPatternEnd line => Sys2Proof.Machine.execCheckPatternEnd line s
  | .checkOk line => Sys2Proof.Machine.execCheckOk line s
  | .checkFail line => Sys2Proof.Machine.execCheckFail line s
  | .lineRecord line record => Sys2Proof.Machine.execLineRecord line record s
  | .lineRecordSent line => Sys2Proof.Machine.execLineRecordSent line s
  | .pageEnd line last lineCount => Sys2Proof.Machine.execPageEnd line last lineCount s
  | .verdict line verdict total bad => Sys2Proof.Machine.execVerdict line verdict total bad s
  | .bye line reason => Sys2Proof.Machine.execBye line reason s
  | .controlMessageSent line => Sys2Proof.Machine.execControlMessageSent line s
  | .answerTimerExpiry line => Sys2Proof.Machine.execAnswerTimerExpiry line s
  | .capsWaitExpiry line => Sys2Proof.Machine.execCapsWaitExpiry line s
  | .format regions => Sys2Proof.Machine.execFormat regions s
  | .storeset reserve policy watermark orderMode => Sys2Proof.Machine.execStoreset reserve policy watermark orderMode s
  | .openMessage kind coding => Sys2Proof.Machine.execOpenMessage kind coding s
  | .closeMessage => Sys2Proof.Machine.execCloseMessage s
  | .readMessage message offset => Sys2Proof.Machine.execReadMessage message offset s
  | .newsack message => Sys2Proof.Machine.execNewsack message s
  | .erase message => Sys2Proof.Machine.execErase message s
  | .segmentWriteComplete => Sys2Proof.Machine.execSegmentWriteComplete s
  | .segmentReadComplete => Sys2Proof.Machine.execSegmentReadComplete s
  | .freeHeaderWriteComplete => Sys2Proof.Machine.execFreeHeaderWriteComplete s
  | .cutComplete => Sys2Proof.Machine.execCutComplete s
  | .copyRewriteComplete => Sys2Proof.Machine.execCopyRewriteComplete s
  | .headerRewriteComplete => Sys2Proof.Machine.execHeaderRewriteComplete s
  | .scanReadComplete => Sys2Proof.Machine.execScanReadComplete s
  | .labelWriteComplete => Sys2Proof.Machine.execLabelWriteComplete s
  | .mailbox index enabled greeting maxLength coding digits => Sys2Proof.Machine.execMailbox index enabled greeting maxLength coding digits s
  | .mailclear set => Sys2Proof.Machine.execMailclear set s
  | .play line message offset => Sys2Proof.Machine.execPlay line message offset s
  | .record line mailbox coding limit beep => Sys2Proof.Machine.execRecord line mailbox coding limit beep s
  | .stop line => Sys2Proof.Machine.execStop line s
  | .greetingEnd line => Sys2Proof.Machine.execGreetingEnd line s
  | .playbackComplete line => Sys2Proof.Machine.execPlaybackComplete line s
  | .dtmfOnTimeEnd line => Sys2Proof.Machine.execDtmfOnTimeEnd line s
  | .callerBurstByte line b => Sys2Proof.Machine.execCallerBurstByte line b s

end Sys2Proof.Machine
end

