-- ==== Sys2Proof/Safety.lean ====
section
/-! DEFINITION. What a safe state and a safe step are: the limits that Chapters 1 to 9 set on the tables, the report queue,
the transmit queues and the form of the external memory, and the shapes of change that the statements about single commands
speak of. -/

namespace Sys2Proof.Machine

/-- The limits of a data link: a transmit queue of at most 2048 bytes (R8), a receive queue of at most 4096 (R127), and a retransmit
list of at most 8 frames under a window of at most 8 (R119, R122). -/
def LinkSound (d : DataLink) : Prop :=
  d.tx.length ≤ 2048 ∧ d.rx.length ≤ 4096 ∧ d.list.length ≤ 8 ∧ d.windowSize ≤ 8

/-- The limits of the message store: an external memory in its canonical form, a directory of at most 96 entries (R138), and an
unheard list that holds each id once and only ids of the directory (R155). -/
def StoreSound (t : Store) : Prop :=
  Memory.wf t.memory = true ∧ t.dir.length ≤ 96 ∧ t.unheard.Nodup ∧ ∀ id ∈ t.unheard, id ∈ t.dir.map (·.id)

/-- The limits a state keeps, whatever commands have been taken, with the queue of waiting commands `q`. -/
structure Sound (q : List Instr) (s : State) : Prop where
  /-- The commands that are waiting. -/
  pending : s.pending = q
  /-- The report queue holds up to 32 reports (R10). -/
  reports : s.link.reports.length ≤ 32
  /-- The limits of the message store (R138, R155). -/
  store : StoreSound s.store
  /-- Twelve general pins (R29). -/
  pins : s.pins.length = 12
  /-- 24 tone entries (R41). -/
  tones : s.tones.length = 24
  /-- 8 cadence entries (R52). -/
  cadences : s.cadences.length = 8
  /-- 32 screen entries (R82). -/
  screen : s.screen.length = 32
  /-- 16 attempt records (R85). -/
  attempts : s.attempts.length = 16
  /-- At most 16 jobs (R87). -/
  jobs : s.jobs.length ≤ 16
  /-- A ladder of 1 to 8 rungs (R96). -/
  ladder : 1 ≤ s.ladder.length ∧ s.ladder.length ≤ 8
  /-- 8 mailboxes (R179). -/
  mailboxes : s.mailboxes.length = 8
  /-- The limits of the data link of line A (R8, R122, R127). -/
  linkA : LinkSound s.lineA.dl
  /-- The limits of the data link of line B (R8, R122, R127). -/
  linkB : LinkSound s.lineB.dl

/-- The invariant of the part between commands: its limits, an unheard list of at most 96 ids (R155), and no request between blocks
left over. -/
def Inv (s : State) : Prop := Sound s.pending s ∧ s.store.unheard.length ≤ 96 ∧ s.requests = []

/-- A safe step: it answers a next state, which is no fault and no refusal, and which keeps the invariant. -/
def SafeStep (s : State) : Prop := ∃ t, step s = .next t ∧ Inv t

/-- No stream, no maintenance request and no waiting writer stands at the memory port, besides the grant in progress. -/
def portQuiet (s : State) : Prop :=
  s.store.writers = [] ∧ s.store.readA = none ∧ s.store.readB = none ∧ s.store.readHost = none ∧ s.store.maint = [] ∧
    s.store.waiting = []

/-- `t` is `s` but for the terminal link. -/
def OnlyLink (s t : State) : Prop := t = { s with link := t.link }

/-- `t` is `s` but for the terminal link and one line. -/
def OnlyLinkAndLine (l : Line) (s t : State) : Prop := t = { s.setLine l (t.line l) with link := t.link }

/-- `t` is `s` but for the terminal link and the message store. -/
def OnlyLinkAndStore (s t : State) : Prop := t = { s with link := t.link, store := t.store }

/-- `t` is `s` but for one line. -/
def OnlyLine (l : Line) (s t : State) : Prop := t = s.setLine l (t.line l)

/-- `t` is `s` but for the clock and one line. -/
def OnlyClockAndLine (l : Line) (s t : State) : Prop := t = { s.setLine l (t.line l) with now := t.now }

end Sys2Proof.Machine
end

