-- ==== Sys2Proof/Certificates/Slice0/Obligations.lean ====
section
/-! DEFINITION. The statements for the provers, in the order of the chapters of the specification. -/

open Sys2Proof Sys2Proof.Machine

/-! ### The queue of commands, reset, and the invariant -/

/-- A step takes the command at the front of the queue and runs it with the queue's rest; on an empty queue the block idles (the
idling is the MODEL's choice, log entry 9). -/
def Obligations.StepRunsTheFrontCommand : Prop :=
  (∀ (c : Instr) (rest : List Instr) (s : State), s.pending = c :: rest → step s = exec c { s with pending := rest }) ∧
  (∀ s : State, s.pending = [] → step s = .next s)

/-- Every step, from every state that has them, keeps the limits of the spec: 32 reports, 12 pins, 24 tone, 8 cadence, 32 screen
and 16 attempt entries, 16 jobs, 1 to 8 rungs and 8 mailboxes; on each line a transmit queue of 2048 bytes, a receive queue of 4096, a
retransmit list of 8 frames and a window of 8; a directory of 96 entries, an unheard list of at most 96 ids, each once and each in the
directory; the external memory in its canonical form; and no request between blocks left over (R8, R10, R29, R41, R52, R82, R85, R87,
R96, R119, R122, R127, R138, R155, R179). -/
def Obligations.EveryStepKeepsTheLimits : Prop :=
  ∀ s t : State, Inv s → step s = .next t → Inv t

/-- The state after reset has the limits. -/
def Obligations.ResetHasTheLimits : Prop :=
  Inv State.reset

/-- Every command completes, in every state that has the limits: it answers a next state, which has them again and in which the
commands that wait behind it stand untouched. No command ends in a fault or a refusal (log entry 2). -/
def Obligations.EveryCommandCompletes : Prop :=
  ∀ (c : Instr) (s : State), Inv s → ∃ t, exec c s = .next t ∧ Inv t ∧ t.pending = s.pending

/-- The state after reset. The terminal link's table of R20; the pins of R29; the tone, cadence and ladder tables of R61 and R96; the
mailboxes of R179; no screen entry, attempt record or job; the store SCANNING with its directory and unheard list empty and the
settings of R156; and on each line the profile of R38, R92, R115, R135, R175 and R192 with the monitor settings of R32, and the initial
values of R40 (gain, debouncers, hook, extension state, caller record and window, monitor states, tone generator), R62 (edges,
alignments, slots, overflow, priority status), R94 (IDLE, the call record, the recorded digits), R117 (rung, Q, offset, hold-off,
counts, history, training), R134 (queues, numbers, negotiated values, clear state), R176 and R192 (no session, no voice operation). (Straps
at 0, input levels and blank memory are the model's, log entries 7 and 8, and are not stated. What is stated and is the MODEL's, log entry
10: the levels 0 before and after the gain, until the first block ends, which R40's table does not list.) -/
def Obligations.ResetLeavesInitialValues : Prop :=
  let s := State.reset
  (s.link.parser = .payload ∧ s.link.stallDue = none ∧ s.link.target = .none ∧ s.link.discard = ⟨false, false, false, false⟩ ∧
    s.link.lhold = false ∧ s.link.reports = [.begin false .scanning] ∧ s.link.loss = false ∧ s.link.sending = .idle ∧
    s.link.announced = none ∧ s.link.roundRobin = .lineA ∧ s.link.pendingRate = none ∧ s.link.dayClock = none ∧
    s.link.seconds = 0) ∧
  (s.jobs = [] ∧ s.lastJob = 0 ∧ s.screen = List.replicate 32 none ∧ s.attempts = List.replicate 16 none) ∧
  (s.pins.map (·.fn) = [.hookA, .ringA, .loopA, .extA, .hookB, .ringB, .loopB, .extB, .msg, .alarm, .out, .out] ∧
    ∀ p ∈ s.pins, p.level = false) ∧
  (s.tones.length = 24 ∧ (∀ o ∈ s.tones.drop 6, o = none) ∧
    (∀ o ∈ s.tones.take 6, ∃ e : ToneEntry, o = some e ∧ e.twist = 6 ∧ e.priorityMark = false) ∧
    (∃ e : ToneEntry, s.tones[0]? = some (some e) ∧ e.kind = .dtmf ∧ e.minLevel = -30 ∧ e.onTime = 40 ∧ e.offTime = 40 ∧ e.action = .report ∧
      e.meaning = .dtmf ∧ e.live = [.classify, .voice]) ∧
    (∃ e : ToneEntry, s.tones[1]? = some (some e) ∧ e.kind = .single ∧ e.f1 = 425 ∧ e.minLevel = -35 ∧ e.onTime = 1000 ∧ e.offTime = 100 ∧
      e.action = .ignore ∧ e.meaning = .dialtone ∧ e.live = [.seize, .dial]) ∧
    (∃ e : ToneEntry, s.tones[2]? = some (some e) ∧ e.kind = .single ∧ e.f1 = 425 ∧ e.minLevel = -35 ∧ e.onTime = 200 ∧ e.offTime = 200 ∧
      e.action = .ignore ∧ e.meaning = .none ∧ e.live = [.progress, .voice]) ∧
    (∃ e : ToneEntry, s.tones[3]? = some (some e) ∧ e.kind = .single ∧ e.f1 = 1100 ∧ e.minLevel = -40 ∧ e.onTime = 400 ∧ e.offTime = 1000 ∧
      e.action = .report ∧ e.meaning = .callFax ∧ e.live = [.classify]) ∧
    (∃ e : ToneEntry, s.tones[4]? = some (some e) ∧ e.kind = .single ∧ e.f1 = 1300 ∧ e.minLevel = -40 ∧ e.onTime = 400 ∧ e.offTime = 1000 ∧
      e.action = .report ∧ e.meaning = .callData ∧ e.live = [.classify]) ∧
    (∃ e : ToneEntry, s.tones[5]? = some (some e) ∧ e.kind = .single ∧ e.f1 = 2250 ∧ e.minLevel = -40 ∧ e.onTime = 500 ∧ e.offTime = 100 ∧
      e.action = .report ∧ e.meaning = .answerData ∧ e.live = [.progress])) ∧
  s.cadences = [some ⟨.tone 2, [500, 500], 20, 2, .busy, true⟩, some ⟨.tone 2, [1000, 4000], 20, 1, .ringback, true⟩,
    some ⟨.ring, [2000, 4000], 20, 1, .ringClass 1, true⟩, some ⟨.ring, [400, 200, 400, 2000], 20, 1, .ringClass 2, true⟩,
    none, none, none, none] ∧
  s.ladder = [⟨.l12, 60, 200, 600⟩, ⟨.l24, 60, 200, 600⟩, ⟨.l48, 60, 200, 600⟩, ⟨.l96, 60, 200, 600⟩, ⟨.l144, 60, 200, 600⟩,
    ⟨.l192, 60, 200, 600⟩, ⟨.l240, 60, 200, 600⟩] ∧
  s.mailboxes = (List.range 8).map (fun i => ⟨true, [BitVec.ofNat 8 (0x31 + i)], none, 120, .adc4, false⟩) ∧
  (s.store.st = .scanning ∧ s.store.dir = [] ∧ s.store.unheard = [] ∧ s.store.settings = ⟨32, .keep, 0, .fifo⟩ ∧
    s.store.writers = [] ∧ s.store.readA = none ∧ s.store.readB = none ∧ s.store.readHost = none ∧ s.store.waiting = []) ∧
  ∀ l,
    (let p := (s.line l).profile;
      p.answerMode = .auto ∧ p.rings = 4 ∧ p.mailbox = 0 ∧ p.ringMap1 = (.auto, 0) ∧ p.ringMap2 = (.fax, 0) ∧ p.ringMap3 = (.data, 0) ∧
      p.screenBar = false ∧ p.autoCallout = false ∧ p.dialMethod = .tone ∧ p.toneOn = 80 ∧ p.toneOff = 80 ∧ p.pulseBreak = 60 ∧
      p.pulseMake = 40 ∧ p.interdigit = 750 ∧ p.comma = 2 ∧ p.flash = 500 ∧ p.dialToneWait = 5 ∧ p.blindDial = false ∧
      p.progressTimeout = 45 ∧ p.classifyWindow = 30 ∧ p.extPolicy = .yieldLine ∧ p.onError = .continue_ ∧ p.agcTarget = 2000 ∧
      p.levelFloor = 60 ∧ p.freqLimit = 7 ∧ p.impulseThreshold = 2048 ∧ p.burstDivisor = 16 ∧ p.linkPenalty = 64 ∧
      p.faxPenalty = 32 ∧ p.window = 8 ∧ p.payloadMax = 128 ∧ p.highestFax = .l144 ∧ p.fine = true ∧ p.minLineTime = 10 ∧
      p.goodPerMille = 10 ∧ p.retrainPerMille = 50 ∧ p.runLimit = 3 ∧ p.silenceThreshold = 40 ∧ p.silenceTime = 4 ∧
      p.beepFrequency = 1000 ∧ p.beepDuration = 400 ∧
      ∀ src, p.monitors.get src =
        ⟨true, false, if src = MonSource.levelLow ∨ src = .quality ∨ src = .loopLoss then MonClass.error else .warning⟩) ∧
    (let i := (s.line l).iface;
      i.gain = 24 ∧ i.preLevel = 0 ∧ i.postLevel = 0 ∧ i.ring = .quiet ∧ i.loop = .onHook ∧ i.hook = false ∧ i.extState = false ∧
      i.caller = none ∧ i.window = .closed ∧ i.tone = none ∧ ∀ src, i.current.get src = false ∧ i.latched.get src = false) ∧
    (let d := (s.line l).det;
      d.slot0 = none ∧ d.slot1 = none ∧ d.overflow = false ∧ d.priority = none ∧ d.edges.length = 24 ∧
      (∀ e ∈ d.edges, e.st = .ready) ∧ d.aligns.length = 8 ∧ ∀ a ∈ d.aligns, a.held = false ∧ a.matched = false) ∧
    (let k := (s.line l).call;
      k.st = .idle ∧ k.cr = ⟨none, none, none, 0, [], 0, [], none, none, none, none⟩ ∧ k.digits = [] ∧ k.cleardownDue = none) ∧
    (let m := (s.line l).modem;
      m.rung = none ∧ m.q = 0 ∧ m.window = none ∧ m.offset = none ∧ m.holdOff = 0 ∧ m.upCount = 0 ∧ m.burstRun = 0 ∧
      m.request = none ∧ m.phase = none ∧ m.history = []) ∧
    (let d := (s.line l).dl;
      d.tx = [] ∧ d.rx = [] ∧ d.list = [] ∧ d.send = 0 ∧ d.expected = 0 ∧ d.negotiated = none ∧ d.timer = .stopped ∧ d.clear = .none) ∧
    (s.line l).fax.role = none ∧ (s.line l).fax.phase = none ∧ (s.line l).voice.sub = none ∧ (s.line l).voice.kind = none

/-! ### Directives and their bytes -/

/-- A directive in bytes reads as the directive: no bit of a layout of 10.2 is dropped, every operand at every value. -/
def Obligations.DirectiveBytesReadBack : Prop :=
  ∀ (i : Instr) (code : Byte), i.wellFormed = true → directiveCode i = some code →
    decodeDirective code (directiveParams i) = .directive i

/-- A directive sent downstream byte by byte (SHF, code, count, parameters) does exactly what the directive's command does:
every earlier byte changes the parser alone, and the last byte carries the directive out (R1, R2, R5). -/
def Obligations.DirectiveSentInBytesIsTheCommand : Prop :=
  ∀ (i : Instr) (s : State), i.wellFormed = true → (directiveCode i).isSome = true → s.requests = [] →
    s.link.parser = .payload → s.link.stallDue = none →
    (directiveBytes i).foldlM (fun u b => match exec (.downstreamByte b) u with | .next v => some v | _ => none) s
      = match exec i s with | .next t => some t | _ => none

/-! ### The downstream parser -/

/-- The downstream parser (R1 to R6). In its four states a byte is delivered, moves the parser on, raises CODE or LENGTH, or
completes a directive, which is then taken. The terminal link refuses UNKNOWN a code that names no directive and BAD_PARAM a count
its layout does not allow. STALL_TIMER_EXPIRY discards the partial sequence with TIMEOUT and the state it stood in; with the
parser in PAYLOAD no timer runs; an expiry with no timer running changes nothing, which is the MODEL's (log entries 1 and 2). -/
def Obligations.ParserFollowsItsStates : Prop :=
  (∀ (b : Byte) (s : State), s.requests = [] →
    (s.link.parser = .payload → b = 0xC5#8 → exec (.downstreamByte b) s =
      .next { s with link := { s.link with parser := .shifted, stallDue := some (s.now + 500) } }) ∧
    (s.link.parser = .shifted → 0x20 ≤ b.toNat → b.toNat ≤ 0x7E → exec (.downstreamByte b) s =
      .next { s with link := { s.link with parser := .count b, stallDue := some (s.now + 500) } }) ∧
    (s.link.parser = .shifted → b ≠ 0xC5#8 → (b.toNat < 0x20 ∨ 0x7E < b.toNat) → exec (.downstreamByte b) s =
      .next (queueReport (.fault .badCode b) { s with link := { s.link with parser := .payload, stallDue := none } })) ∧
    (∀ code, s.link.parser = .count code → b ≠ 0#8 → exec (.downstreamByte b) s =
      .next { s with link := { s.link with parser := .params code b [], stallDue := some (s.now + 500) } }) ∧
    (∀ code n g, s.link.parser = .params code n g → g.length + 1 < n.toNat → exec (.downstreamByte b) s =
      .next { s with link := { s.link with parser := .params code n (g ++ [b]), stallDue := some (s.now + 500) } }) ∧
    (∀ code n g, s.link.parser = .params code n g → n.toNat = g.length + 1 → 200 < n.toNat → exec (.downstreamByte b) s =
      .next (queueReport (.fault .badLength code) { s with link := { s.link with parser := .payload, stallDue := none } })) ∧
    (s.link.parser = .payload → b ≠ 0xC5#8 → exec (.downstreamByte b) s = .next (finish (deliverPayload b s))) ∧
    (let back := { s with link := { s.link with parser := .payload, stallDue := none } };
      (s.link.parser = .shifted → b = 0xC5#8 → exec (.downstreamByte b) s = .next (finish (deliverPayload b back))) ∧
      (∀ code, s.link.parser = .count code → b = 0#8 →
        exec (.downstreamByte b) s = .next (finish (takeDirective code [] back))) ∧
      (∀ code n g, s.link.parser = .params code n g → n.toNat = g.length + 1 → n.toNat ≤ 200 →
        exec (.downstreamByte b) s = .next (finish (takeDirective code (g ++ [b]) back))))) ∧
  (∀ (b code n : Byte) (g : List Byte) (s : State), s.requests = [] → s.link.parser = .params code n g →
    n.toNat = g.length + 1 → n.toNat ≤ 200 →
    (code.toNat ∉ directiveCodes → exec (.downstreamByte b) s =
      .next (done code .unknown [] { s with link := { s.link with parser := .payload, stallDue := none } })) ∧
    (code.toNat ∈ directiveCodes → (∀ i, decodeDirective code (g ++ [b]) ≠ .directive i) → exec (.downstreamByte b) s =
      .next (done code .badParam [] { s with link := { s.link with parser := .payload, stallDue := none } }))) ∧
  (∀ (s : State), s.requests = [] →
    (∀ due d, s.link.stallDue = some due →
      (s.link.parser = .shifted ∧ d = 1#8 ∨ (∃ c, s.link.parser = .count c) ∧ d = 2#8 ∨
        (∃ c n g, s.link.parser = .params c n g) ∧ d = 3#8) →
      exec .stallTimerExpiry s = .next (queueReport (.fault .timeout d)
        { s with link := { s.link with parser := .payload, stallDue := none }, now := max s.now due })) ∧
    (s.link.stallDue = none → exec .stallTimerExpiry s = .next s))

/-- A payload byte (in PAYLOAD, or the second of a doubled shift) that a line accepts joins its transmit queue and restarts the
forming delay; LHOLD is asserted when fewer than 64 bytes are left free (R1, R8, R9, R122; no new frame begins, the line not being
in DATA or a frame being on the line). A payload byte the current target does not take is discarded: DISCARD is queued and the
target's flag set where the flag is clear and the queue has room; with the queue full the flag stays clear and the loss flag is
set; with the flag set nothing happens (R8, R10). -/
def Obligations.PayloadByteJoinsOrIsDiscarded : Prop :=
  (∀ (l : Line) (b : Byte) (s u : State), s.requests = [] →
    (s.link.parser = .payload ∧ b ≠ 0xC5#8 ∧ u = s ∨ s.link.parser = .shifted ∧ b = 0xC5#8 ∧
      u = { s with link := { s.link with parser := .payload, stallDue := none } }) →
    s.link.target = targetOf l → s.st l ≠ .idle → s.st l ≠ .ringing → (s.line l).dl.tx.length < 2048 →
    (s.st l ≠ .data ∨ (s.line l).dl.sending ≠ none) →
    exec (.downstreamByte b) s = .next { u.setLine l { s.line l with
        dl := { (s.line l).dl with tx := (s.line l).dl.tx ++ [b], formDue := some (s.now + 20) } } with
      link := { u.link with lhold := u.link.lhold || decide (2048 - ((s.line l).dl.tx.length + 1) < 64) } }) ∧
  (∀ (b : Byte) (s : State), s.requests = [] → s.link.parser = .payload → b ≠ 0xC5#8 →
    (s.link.target = .none ∨
      (∃ l, s.link.target = targetOf l ∧ (s.st l = .idle ∨ s.st l = .ringing ∨ 2048 ≤ (s.line l).dl.tx.length)) ∨
      s.link.target = .store ∧ (hostWriteOpen s = false ∨ hostWriteRoom s = 0)) →
    (s.link.discard.get s.link.target = false → s.link.reports.length < 32 → exec (.downstreamByte b) s =
      .next (queueReport (.discard s.link.target)
        { s with link := { s.link with discard := s.link.discard.put s.link.target true } })) ∧
    (s.link.discard.get s.link.target = false → 32 ≤ s.link.reports.length → exec (.downstreamByte b) s =
      .next { s with link := { s.link with loss := true } }) ∧
    (s.link.discard.get s.link.target = true → exec (.downstreamByte b) s = .next s))

/-! ### Reports and the upstream path -/

/-- A report that is queued joins the tail behind an engaged or held arbiter, goes out at once from an idle one, and is dropped with
the loss flag set where the queue holds 32; DONE is such a report (R5, R10). The arbiter's choice when no unit is in progress:
nothing under HHOLD; else the report at the head, LOSS taking its room while the loss flag is set; else the first ready source from
the round-robin position, announced first if it is not the announced one; else idle (R10 to R13). -/
def Obligations.ReportsQueueAndTheArbiterChooses : Prop :=
  (∀ (r : Report) (s : State),
    (s.link.reports.length < 32 → (s.link.sending ≠ .idle ∨ s.link.hhold = true) →
      queueReport r s = { s with link := { s.link with reports := s.link.reports ++ [r] } }) ∧
    (s.link.reports = [] → s.link.sending = .idle → s.link.hhold = false →
      queueReport r s = { s with link := { s.link with
        reports := if s.link.loss then [.loss] else [], loss := false, sending := .report r } }) ∧
    (32 ≤ s.link.reports.length → queueReport r s = { s with link := { s.link with loss := true } }) ∧
    (∀ code res vs, done code res vs s = queueReport (.done code res vs) s)) ∧
  (∀ (s : State), s.link.sending = .idle →
    (s.link.hhold = true → arbiterKick s = s) ∧
    (∀ r rest, s.link.hhold = false → s.link.reports = r :: rest → arbiterKick s = { s with link := { s.link with
      reports := if s.link.loss then rest ++ [.loss] else rest, loss := false, sending := .report r } }) ∧
    (∀ src, s.link.hhold = false → s.link.reports = [] →
      (src = s.link.roundRobin ∨ src = s.link.roundRobin.next ∧ sourceReady s s.link.roundRobin = false ∨
        src = s.link.roundRobin.next.next ∧ sourceReady s s.link.roundRobin = false ∧
          sourceReady s s.link.roundRobin.next = false) →
      sourceReady s src = true →
      (s.link.announced = some src →
        arbiterKick s = { s with link := { s.link with sending := .payload src 0 false true } }) ∧
      (s.link.announced ≠ some src →
        arbiterKick s = { s with link := { s.link with sending := .source src, announced := some src } })) ∧
    (s.link.hhold = false → s.link.reports = [] → (∀ src, sourceReady s src = false) → arbiterKick s = s))

/-- REPORT_SENT: the report or SOURCE report ends and the arbiter chooses again; the end of a DISCARD clears its target's flag (R8),
and the end of LINKRATE's DONE (OK) switches the rate (R15). HHOLD_CHANGE: asserted, a payload unit under way ends with the byte
being shifted out and a report is completed; released, the arbiter makes a fresh choice (R13). Nothing else changes. That the arbiter
chooses afresh after a SOURCE report too, so that a report queued meanwhile goes first, is the MODEL's reading (log entry 26) of Chapter
95's sentence: The last byte of a report or SOURCE report leaves TXD; the unit ends and the arbiter makes its next choice. -/
def Obligations.ReportSentEndsTheUnitAndHholdHolds : Prop :=
  (∀ (s : State), s.requests = [] →
    (∀ src, s.link.sending = .source src →
      exec .reportSent s = .next (arbiterKick { s with link := { s.link with sending := .idle } })) ∧
    (∀ g, s.link.sending = .report (.discard g) →
      exec .reportSent s = .next (arbiterKick { s with link := { s.link with
        sending := .idle, discard := s.link.discard.put g false } })) ∧
    (∀ vs rate, s.link.sending = .report (.done 0x4B#8 .ok vs) → s.link.pendingRate = some rate →
      exec .reportSent s = .next (arbiterKick { s with link := { s.link with
        sending := .idle, rate := rate, pendingRate := none } })) ∧
    (∀ r, s.link.sending = .report r → (∀ g, r ≠ .discard g) → (∀ vs, r ≠ .done 0x4B#8 .ok vs) →
      exec .reportSent s = .next (arbiterKick { s with link := { s.link with sending := .idle } }))) ∧
  (∀ (s : State), s.requests = [] → (s.link.sending ≠ .idle ∨ s.link.hhold = true) →
    (∀ src n c v, s.link.sending = .payload src n c v → exec (.hholdChange true) s =
      .next { s with link := { s.link with hhold := true, sending := .payload src n true v } }) ∧
    ((∀ src n c v, s.link.sending ≠ .payload src n c v) → exec (.hholdChange true) s =
      .next { s with link := { s.link with hhold := true } }) ∧
    exec (.hholdChange false) s = .next (arbiterKick { s with link := { s.link with hhold := false } }))

/-- PAYLOAD_BYTE_SENT in a unit of a line's receive queue: the byte leaves the queue; the unit ends at its 64th byte, at HHOLD
or at the emptied queue, and the round-robin position moves to the next source (R11, R13). The link is not local-busy, no CLEAR
has been received, and no frame can begin. In a unit of the host read stream the byte leaves the stream's buffer and the position moves on;
the unit ends likewise, and with the last byte of the message the read ends and its reference is returned (R151; the port is busy, and the
reference is no withdrawn message's last). -/
def Obligations.PayloadByteSentLeavesReceiveQueue : Prop :=
  (∀ (l : Line) (n : Nat) (closing : Bool) (s : State), s.requests = [] →
    s.link.sending = .payload (sourceOf l) n closing true → (s.line l).dl.localBusy = false →
    (s.line l).dl.clear ≠ .received → (s.st l ≠ .data ∨ (s.line l).dl.sending ≠ none) →
    let u := s.setLine l { s.line l with dl := { (s.line l).dl with rx := (s.line l).dl.rx.drop 1 } }
    (closing = false → n < 63 → 2 ≤ (s.line l).dl.rx.length → exec .payloadByteSent s =
      .next { u with link := { s.link with sending := .payload (sourceOf l) (n + 1) false true } }) ∧
    (closing = true ∨ 63 ≤ n ∨ (s.line l).dl.rx.length ≤ 1 → exec .payloadByteSent s =
      .next (arbiterKick { u with link := { s.link with sending := .idle, roundRobin := (sourceOf l).next } }))) ∧
  (∀ (n : Nat) (closing : Bool) (r : RStream) (b : Byte) (rest : List Byte) (s : State), s.requests = [] →
    s.link.sending = .payload .hostRead n closing true → s.store.readHost = some r → r.buffers = [b :: rest] → s.store.grant ≠ none →
    let ended := { s.link with sending := Sending.idle, roundRobin := Source.lineA }
    let r' := { r with position := r.position + 1, buffers := if rest = [] then [] else [rest] }
    (r.position + 1 < r.length →
      (closing = false → n < 63 → rest ≠ [] → exec .payloadByteSent s = .next { s with
        store := { s.store with readHost := some r' }
        link := { s.link with sending := .payload .hostRead (n + 1) false true } }) ∧
      (closing = true ∨ 63 ≤ n ∨ rest = [] → exec .payloadByteSent s =
        .next (arbiterKick { s with store := { s.store with readHost := some r' }, link := ended }))) ∧
    (∀ e, r.length ≤ r.position + 1 → findEntry s r.id = some e → 1 ≤ e.inUse → e.erasePending = false ∨ 2 ≤ e.inUse →
      exec .payloadByteSent s = .next (arbiterKick { s with
        store := { s.store with
          readHost := none
          dir := updateWhere (fun e => decide (e.id = r.id)) (fun e => { e with inUse := e.inUse - 1 }) s.store.dir }
        link := ended })))

/-! ### TARGET, LINKRATE, clocks -/

/-- TARGET selects the target in every state and evaluates LHOLD afresh; any value but 0 to 3 is BAD_PARAM and leaves the
target (R7). -/
def Obligations.TargetSelectsTheTarget : Prop :=
  ∀ (code : Byte) (s : State), s.requests = [] →
    (∀ g, (code, g) ∈ [(0#8, Target.none), (1#8, .lineA), (2#8, .lineB), (3#8, .store)] →
      exec (.target code) s = .next { done 0x54#8 .ok [] s with
        link := { (done 0x54#8 .ok [] s).link with
          target := g
          lhold := match g with
            | .none => false
            | .lineA => decide (2048 - s.lineA.dl.tx.length < 64)
            | .lineB => decide (2048 - s.lineB.dl.tx.length < 64)
            | .store => decide (hostWriteRoom s < 64) } }) ∧
    (3 < code.toNat → exec (.target code) s = .next (done 0x54#8 .badParam [] s))

/-- LINKRATE: a code above 7 is BAD_PARAM, a second one before the switch is BUSY, and an accepted one pends, unless its DONE
finds the report queue full: then it is abandoned (R15). -/
def Obligations.LinkrateAwaitsItsAnswer : Prop :=
  ∀ (code : Byte) (s : State), s.requests = [] →
    (7 < code.toNat → exec (.linkrate code) s = .next (done 0x4B#8 .badParam [] s)) ∧
    (code.toNat ≤ 7 → s.link.pendingRate ≠ none → exec (.linkrate code) s = .next (done 0x4B#8 .busy [] s)) ∧
    (code.toNat ≤ 7 → s.link.pendingRate = none → s.link.reports.length < 32 → exec (.linkrate code) s =
      .next (done 0x4B#8 .ok [] { s with link := { s.link with pendingRate := some (code.truncate 3) } })) ∧
    (code.toNat ≤ 7 → s.link.pendingRate = none → 32 ≤ s.link.reports.length → exec (.linkrate code) s =
      .next { s with link := { s.link with loss := true } })

/-- CLOCK sets the day clock and starts a new minute, or is refused with BAD_PARAM when a value is out of range, the length of
February following the year; MINUTE_TICK advances a set clock by one minute with its carries, and does nothing to an unset one
(R16). SECONDS_TICK advances the seconds counter by 1 and holds it at 4294967295 (R17; no job is there to dispatch). -/
def Obligations.ClocksAreSetAndCount : Prop :=
  (∀ (y mo d h mi : Byte) (len : Nat) (s : State), s.requests = [] →
    len = (if mo.toNat = 2 then (if y.toNat % 4 = 0 then 29 else 28)
      else if mo.toNat = 4 ∨ mo.toNat = 6 ∨ mo.toNat = 9 ∨ mo.toNat = 11 then 30 else 31) →
    (y.toNat ≤ 99 ∧ 1 ≤ mo.toNat ∧ mo.toNat ≤ 12 ∧ 1 ≤ d.toNat ∧ d.toNat ≤ len ∧ h.toNat ≤ 23 ∧ mi.toNat ≤ 59 →
      exec (.clock y mo d h mi) s = .next (done 0x43#8 .ok [] { s with link := { s.link with
        dayClock := some ⟨y.toNat, mo.toNat, d.toNat, h.toNat, mi.toNat⟩, minuteDue := some (s.now + 60000) } })) ∧
    (¬(y.toNat ≤ 99 ∧ 1 ≤ mo.toNat ∧ mo.toNat ≤ 12 ∧ 1 ≤ d.toNat ∧ d.toNat ≤ len ∧ h.toNat ≤ 23 ∧ mi.toNat ≤ 59) →
      exec (.clock y mo d h mi) s = .next (done 0x43#8 .badParam [] s))) ∧
  (∀ (s : State), s.requests = [] →
    (∀ due c, s.link.minuteDue = some due → s.link.dayClock = some c →
      ∃ c', exec .minuteTick s = .next { s with
          link := { s.link with dayClock := some c', minuteDue := some (due + 60000) }, now := max s.now due } ∧
        (c.minute < 59 → c' = { c with minute := c.minute + 1 }) ∧
        (c.minute = 59 → c.hour < 23 → c' = { c with minute := 0, hour := c.hour + 1 }) ∧
        (c.minute = 59 → c.hour = 23 → c.day < monthLength c.year c.month →
          c' = { c with minute := 0, hour := 0, day := c.day + 1 }) ∧
        (c.minute = 59 → c.hour = 23 → c.day = monthLength c.year c.month → c.month < 12 →
          c' = { c with minute := 0, hour := 0, day := 1, month := c.month + 1 }) ∧
        (c.minute = 59 → c.hour = 23 → c.day = monthLength c.year c.month → c.month = 12 →
          c' = { year := if c.year < 99 then c.year + 1 else 0, month := 1, day := 1, hour := 0, minute := 0 })) ∧
    (s.link.minuteDue = none → exec .minuteTick s = .next s)) ∧
  (∀ (s : State), s.requests = [] → s.jobs = [] →
    exec .secondsTick s = .next { s with
      link := { s.link with
        seconds := if s.link.seconds < 4294967295 then s.link.seconds + 1 else 4294967295
        secondDue := s.link.secondDue + 1000 }
      now := max s.now s.link.secondDue })

/-! ### Power-on, resets and QUERY -/

/-- POWER_ON and RESET PART leave the link's table of R20, every line IDLE with the default profile, the default tables, no job, record or
screen entry, and the store SCANNING; every block of a line has its initial values, the line interface up to the levels its LOOP and EXT
inputs show; the external memory and the waiting commands stand (R14, R19, R20, R40, R62, R94, R117, R134, R158, R176, R192). The rate comes
from the straps: those POWER_ON is given, and at RESET PART the levels read at that moment, which nothing in the part fixes (log entry 53).
That the queue then holds BEGIN alone, the DONE of RESET PART being lost, is the MODEL's reading of R19 and R20 (log entry 27). Carrying the
level of HHOLD and the other input levels through the reset is the MODEL's (log entry 7), and so are those values of the initial records
that the chapters do not list (log entry 10), the figures of the modem's last window (log entry 77), the frequencies that a default tone
entry of its kind does not use (log entry 89) and the reason of the last change, none (log entry 97), among them. -/
def Obligations.PowerOnAndResetPartLeaveTheTable : Prop :=
  ∀ (c : Instr) (byDirective : Bool) (straps : BitVec 3) (s : State),
    (c = .powerOn straps ∧ byDirective = false ∨ c = .resetPart ∧ byDirective = true ∧ straps = Config.strapSample s.samples) →
    ∃ t, exec c s = .next t ∧
      t.link = { parser := .payload, stallDue := none, target := .none, discard := ⟨false, false, false, false⟩,
                 reports := [.begin byDirective .scanning], loss := false, sending := .idle, announced := none,
                 roundRobin := .lineA, rate := straps, pendingRate := none, lhold := false, hhold := s.link.hhold,
                 straps := straps, dayClock := none, minuteDue := none, seconds := 0, secondDue := 1000 } ∧
      t.pins = defaultPins ∧ t.tones = defaultTones ∧ t.cadences = defaultCadences ∧ t.ladder = defaultLadder ∧
      t.mailboxes = defaultMailboxes ∧ t.screen = List.replicate 32 none ∧ t.attempts = List.replicate 16 none ∧
      t.jobs = [] ∧ t.store = initialStore s.store.memory ∧ t.pending = s.pending ∧ t.requests = [] ∧
      ∀ l, t.st l = .idle ∧ (t.line l).profile = defaultProfile ∧ (t.line l).call = initialCall ∧
        (t.line l).det = initialDetector ∧ (t.line l).modem = initialModem ∧ (t.line l).dl = initialDataLink ∧
        (t.line l).fax = initialFax none ∧ (t.line l).voice = initialVoice ∧
        ∃ loopIn extIn, (t.line l).iface = initialIface loopIn extIn

/-- RESET TABLES: BAD_STATE while a line is not IDLE; otherwise DONE (OK), then a MONITOR report for each source whose reported state
changes under the default monitor settings (R33; line A before line B, the sources in the order of their codes: the MODEL's order, log entry
71), and profile, tone, cadence, screen, ladder and mailbox tables at their defaults, the new flags kept; in the detector of each line the
edge states READY and the alignments empty, slots, overflow and priority kept (R62); calls, jobs, attempt records, fax and voice state, the
store, the clocks, the target and the discard flags stand (R19). No mailbox names a greeting. (The modem is the initial one; that the
figures of its last window go with the rest is the MODEL's, log entry 77, and so are the frequencies 0 that a default tone entry of its kind
does not use, log entry 89.) -/
def Obligations.ResetTablesRestoresDefaults : Prop :=
  ∀ s : State, s.requests = [] →
    ((∃ l, s.st l ≠ .idle) → exec .resetTables s = .next (done 0x5A#8 .badState [] s)) ∧
    ((∀ l, s.st l = .idle) → (∀ m ∈ s.mailboxes, m.greeting = none) → ∃ t, exec .resetTables s = .next t ∧
      t.tones = defaultTones ∧ t.cadences = defaultCadences ∧ t.screen = List.replicate 32 none ∧ t.ladder = defaultLadder ∧
      (∀ (i : Nat) (m : Mailbox), s.mailboxes[i]? = some m →
        t.mailboxes[i]? = some { defaultMailbox i with isNew := m.isNew }) ∧
      t.store = s.store ∧ t.jobs = s.jobs ∧ t.attempts = s.attempts ∧ t.pins = s.pins ∧ t.pending = s.pending ∧
      t.link.target = s.link.target ∧ t.link.discard = s.link.discard ∧ t.link.parser = s.link.parser ∧
      t.link.rate = s.link.rate ∧ t.link.dayClock = s.link.dayClock ∧ t.link.seconds = s.link.seconds ∧
      (let reported := fun (l : Line) (src : MonSource) =>
          let m := (s.line l).profile.monitors.get src
          m.enable && (if m.latchEnable then (s.line l).iface.latched.get src else (s.line l).iface.current.get src)
        let changed := fun (l : Line) => (monSources.filter fun src =>
          decide (reported l src ≠ (s.line l).iface.current.get src)).map fun src =>
            Report.monitor l src (defaultProfile.monitors.get src).cls ((s.line l).iface.current.get src)
        t.link = (queueReports (changed .A ++ changed .B) (done 0x5A#8 .ok [] s)).link) ∧
      ∀ l, (t.line l).profile = defaultProfile ∧ (t.line l).call = (s.line l).call ∧ (t.line l).dl = (s.line l).dl ∧
        (t.line l).modem = initialModem ∧ (t.line l).iface = (s.line l).iface ∧ (t.line l).fax = (s.line l).fax ∧
        (t.line l).voice = (s.line l).voice ∧
        (t.line l).det = { (s.line l).det with
          edges := List.replicate 24 readyEdge, aligns := List.replicate 8 (emptyAlign s.now) })

/-- RESET LINE: accepted in every state; a line that is not IDLE enters CLEARDOWN with RESET, an IDLE line stays (R19, R94); detector,
modem, data link and fax engine at their initial values, gain 24, ring QUIET, on-hook, monitor states clear (R40, R62, R117, R134,
R176); everything else of the part stands. The line has no session, voice operation, job or held message, and no stream of its own
whose close still takes bytes that are not written. That the figures of the modem's last window go with the rest is the MODEL's choice,
log entry 77. That a line without a session is left with the session end cause RESET, and that the
caller message under way is dropped without a record, are the MODEL's reading (log entry 31). -/
def Obligations.ResetLineResetsTheLine : Prop :=
  ∀ (l : Line) (s : State), s.requests = [] → (s.line l).fax.role = none → (s.line l).voice.sub = none →
    (s.line l).call.cr.job = none → (s.line l).call.refHeld = false →
    (∀ w ∈ s.store.writers, closingCut l w (findEntry s w.id) = false) →
    ∃ t, exec (.resetLine l) s = .next t ∧
      (s.st l = .idle → t.st l = .idle ∧ (t.line l).call = (s.line l).call) ∧
      (s.st l ≠ .idle → t.st l = .cleardown ∧ (t.line l).call.reason = some (.release .reset) ∧
        (t.line l).call.cleardownDue = some (s.now + 2000)) ∧
      (t.line l).det = { initialDetector with aligns := List.replicate 8 (emptyAlign s.now) } ∧
      (t.line l).modem = initialModem ∧ (t.line l).dl = initialDataLink ∧
      (t.line l).fax = initialFax (some (.release .reset)) ∧ (t.line l).iface.gain = 24 ∧ (t.line l).iface.ring = .quiet ∧
      (t.line l).iface.loop = .onHook ∧ (t.line l).iface.hook = false ∧ (t.line l).iface.caller = none ∧
      (t.line l).iface.current = .all false ∧ (t.line l).iface.latched = .all false ∧
      (t.line l).profile = (s.line l).profile ∧ t.link.target = s.link.target ∧ t.link.discard = s.link.discard ∧
      t.link.dayClock = s.link.dayClock ∧ t.link.seconds = s.link.seconds ∧
      t = { s.setLine l (t.line l) with link := t.link }

/-- QUERY (R18, R195): refused with BAD_PARAM, NO_ENTRY or NOT_READY as R18 lists (an entry id of 0 is BAD_PARAM in every state of the
store, and NOT_READY goes before NO_ENTRY: the MODEL's order, log entry 72). Otherwise, for every subject, DONE (OK) is queued with
the number of SNAPSHOT reports as its value, and the SNAPSHOT reports follow it at once: one contents for each subject, and for JOBS the
number of jobs and then each job in list order, each contents cut into parts of 250 bytes, the last one shorter, that together are
the contents. A LINE snapshot takes a fresh sample of each pin that carries IN. The arbiter has no unit to begin. (That the contents are
those before the DONE is queued is the MODEL's choice, log entry 51; so are the widths and absent forms of the fields in them, log entries
22 and 97, and the rate request's target shown as a mode, log entry 98.) -/
def Obligations.QueryRefusesOrAnswers : Prop :=
  ∀ (subject : Byte) (index : Word16) (s : State), s.requests = [] → arbiterKick s = s →
    let i := index.toNat
    (11 < subject.toNat ∨ subject = 5#8 ∧ 23 < i ∨ subject = 6#8 ∧ 7 < i ∨ subject = 7#8 ∧ 31 < i ∨ subject = 8#8 ∧ 15 < i ∨
      subject = 9#8 ∧ 7 < i ∨ subject = 10#8 ∧ 7 < i ∨ subject = 11#8 ∧ i = 0 →
      exec (.query subject index) s = .next (done 0x51#8 .badParam [] s)) ∧
    (subject = 5#8 ∧ i < 24 ∧ entryAt s.tones i = none ∨ subject = 6#8 ∧ i < 8 ∧ entryAt s.cadences i = none ∨
      subject = 7#8 ∧ i < 32 ∧ entryAt s.screen i = none ∨ subject = 8#8 ∧ i < 16 ∧ entryAt s.attempts i = none ∨
      subject = 9#8 ∧ i < 8 ∧ s.ladder.length ≤ i ∨ subject = 11#8 ∧ i ≠ 0 ∧ s.store.st = .ready ∧ findEntry s i = none →
      exec (.query subject index) s = .next (done 0x51#8 .noEntry [] s)) ∧
    (subject = 11#8 → i ≠ 0 → s.store.st ≠ .ready →
      exec (.query subject index) s = .next (done 0x51#8 .notReady [] s)) ∧
    (∀ contents : List (List Byte),
      (subject = 0#8 ∧ contents = [linkSnapshot s] ∨ subject = 1#8 ∧ contents = [lineSnapshot s .A] ∨
        subject = 2#8 ∧ contents = [lineSnapshot s .B] ∨ subject = 3#8 ∧ contents = [storeSnapshot s] ∨
        subject = 4#8 ∧ contents = [BitVec.ofNat 8 s.jobs.length] :: (listOrder s.store.settings.order s.jobs).map jobSnapshot ∨
        (∃ e, subject = 5#8 ∧ i < 24 ∧ entryAt s.tones i = some e ∧ contents = [toneSnapshot s i e]) ∨
        (∃ e, subject = 6#8 ∧ i < 8 ∧ entryAt s.cadences i = some e ∧ contents = [cadenceSnapshot s i e]) ∨
        (∃ e, subject = 7#8 ∧ i < 32 ∧ entryAt s.screen i = some e ∧ contents = [screenSnapshot e]) ∨
        (∃ e, subject = 8#8 ∧ i < 16 ∧ entryAt s.attempts i = some e ∧ contents = [attemptSnapshot s e]) ∨
        (∃ r, subject = 9#8 ∧ i < 8 ∧ s.ladder[i]? = some r ∧ contents = [rungSnapshot r]) ∨
        (∃ m, subject = 10#8 ∧ i < 8 ∧ s.mailboxes[i]? = some m ∧ contents = [mailboxSnapshot s m]) ∨
        (∃ e, subject = 11#8 ∧ i ≠ 0 ∧ s.store.st = .ready ∧ findEntry s i = some e ∧ contents = [entrySnapshot s e])) →
      let reports := contents.flatMap (snapshotReports subject index)
      exec (.query subject index) s = .next (queueReports reports (done 0x51#8 .ok [BitVec.ofNat 8 reports.length] { s with
        samples := s.samples + (if subject = 1#8 ∨ subject = 2#8 then (inPins s).length else 0) }))) ∧
    (∀ contents : List Byte, ∃ parts : List (List Byte), parts.flatten = contents ∧ parts ≠ [] ∧
      (∀ (k : Nat) (p : List Byte), parts[k]? = some p → p.length ≤ 250 ∧ (k + 1 < parts.length → p.length = 250)) ∧
      snapshotReports subject index contents =
        parts.zipIdx.map (fun p => .snapshot subject index (p.2 + 1) parts.length p.1))

/-! ### Chapter 2: ring, caller, loop and extension -/

/-- RING_PULSE and RING_END_TIMER_EXPIRY at the ring debouncer (R24, R27): a pulse starts or restarts the 150 ms timer and closes the
caller window, a caller message under way there being abandoned and reported; the timer's end drops a pending ring-on, and ends one in
ON, at which the caller window opens where it is the first ring-on of the call and the line still in RINGING. No cadence entry watches
the ring. -/
def Obligations.RingDebouncerTakesPulsesAndEnds : Prop :=
  ∀ (l : Line) (s : State), s.requests = [] → (∀ e, some e ∈ s.cadences → e.source ≠ .ring) →
    let i := (s.line l).iface
    let pulsed := { i with
      window := .closed
      ring := match i.ring with
        | .quiet => .pending s.now (s.now + 150)
        | .pending start _ => .pending start (s.now + 150)
        | .on start _ => .on start (s.now + 150) }
    (hasPin s (ringFn l) = true →
      ((∀ bs, i.window ≠ .gathering bs) → exec (.ringPulse l) s = .next (s.setLine l { s.line l with iface := pulsed })) ∧
      (∀ bs r, i.window = .gathering bs → formCaller bs = some r → exec (.ringPulse l) s =
        .next (queueReport (.caller l r) (s.setLine l { s.line l with iface := { pulsed with caller := some r } })))) ∧
    (hasPin s (ringFn l) = false → exec (.ringPulse l) s = .next s) ∧
    (∀ start due, i.ring = .pending start due → exec (.ringEndTimerExpiry l) s = .next
      { s.setLine l { s.line l with iface := { i with ring := .quiet } } with now := max s.now due }) ∧
    (∀ start due, i.ring = .on start due → exec (.ringEndTimerExpiry l) s = .next
      { s.setLine l { s.line l with
          iface := { i with
            ring := .quiet, ringOff := some (max s.now due)
            window := if (s.line l).call.firstRing = true ∧ s.st l = .ringing then .listening else i.window }
          call := { (s.line l).call with firstRing := false } } with
        now := max s.now due })

/-- RING_ON with the debouncer in PENDING (R24, R67): an IDLE line enters RINGING with one ring, reason RING and an 8 s ring timer, the
rings before answer read from the profile for this call (R37); a RINGING line counts one more ring, up to 255. The answer mode is OFF, so
the plan does not answer, and no entry of the screen list or cadence entry on the ring is there. -/
def Obligations.RingOnStartsOrCountsRinging : Prop :=
  ∀ (l : Line) (start due : Nat) (s : State), s.requests = [] → (s.line l).iface.ring = .pending start due →
    (∀ e, some e ∈ s.cadences → e.source ≠ .ring) → (∀ e ∈ s.screen, e = none) →
    (s.line l).profile.answerMode = .off → (s.line l).iface.expecting = false → (s.line l).voice.sub = none →
    let now := max s.now (start + 200)
    (s.st l = .idle → ¬((s.line l).profile.extPolicy = .yieldLine ∧ (s.line l).iface.extState = true) →
      ∃ t, exec (.ringOn l) s = .next t ∧ t.st l = .ringing ∧ (t.line l).call.reason = some (.change .ring) ∧
        (t.line l).call.leftAt = now ∧ (t.line l).call.cr = { emptyCallRecord with dir := some .incoming, rings := 1 } ∧
        (t.line l).call.ringsToAnswer = some (s.line l).profile.rings ∧
        (t.line l).call.ringDue = some (now + 8000) ∧ (t.line l).iface = { (s.line l).iface with ring := .on start due } ∧
        t = { s.setLine l { s.line l with call := (t.line l).call, iface := (t.line l).iface } with
          link := t.link, now := now }) ∧
    (s.st l = .ringing → (s.line l).call.cr.ringClass = none →
      exec (.ringOn l) s = .next { s.setLine l { s.line l with
        iface := { (s.line l).iface with ring := .on start due }
        call := { (s.line l).call with
          cr := { (s.line l).call.cr with rings := min 255 ((s.line l).call.cr.rings + 1) }
          ringDue := some (now + 8000), firstRing := false } } with now := now })

/-- The caller burst receiver (R27, R28): a byte begins or continues a message in an open window; the byte that completes it, and
CALLER_ABANDON, form the record, queue CALLER and end the listening; bytes outside a window are not taken. CALLER_MESSAGE brings
the bytes left. The record: none before the type byte; valid with all L + 3 bytes and a sum of 0 modulo 256. In a message of fields each
field code gives its last content (an unknown code is passed over), decoding ends at a field that runs past L or has not wholly
arrived, and a content that fails its rule leaves its field absent: a number of 1 to 20 digits, a name of 20H to 7EH of which 15
characters are kept, eight digits of date and time, a withheld code P or U. In a number-only message the content is the number. A message
abandoned gives the fields that have wholly arrived. -/
def Obligations.CallerBurstFormsTheRecord : Prop :=
  (∀ (l : Line) (b : Byte) (bs : List Byte) (r : CallerRecord) (s : State), s.requests = [] →
    let i := (s.line l).iface
    let heard := queueReport (.caller l r) (s.setLine l { s.line l with iface := { i with window := .heard, caller := some r } })
    (i.window = .listening →
      exec (.callerBurstByte l b) s = .next (s.setLine l { s.line l with iface := { i with window := .gathering [b] } })) ∧
    (i.window = .gathering bs → burstLength (bs ++ [b]) ≠ some (bs.length + 1) →
      exec (.callerBurstByte l b) s =
        .next (s.setLine l { s.line l with iface := { i with window := .gathering (bs ++ [b]) } })) ∧
    (i.window = .gathering bs → burstLength (bs ++ [b]) = some (bs.length + 1) → formCaller (bs ++ [b]) = some r →
      exec (.callerBurstByte l b) s = .next heard ∧ exec (.callerMessage l [b]) s = .next heard) ∧
    (i.window = .gathering bs → formCaller bs = some r → exec (.callerAbandon l) s = .next heard) ∧
    (i.window = .closed ∨ i.window = .heard →
      exec (.callerBurstByte l b) s = .next s ∧ exec (.callerMessage l bs) s = .next s ∧ exec (.callerAbandon l) s = .next s)) ∧
  (let digits := fun (c : List Byte) => ∀ b ∈ c, 0x30 ≤ b.toNat ∧ b.toNat ≤ 0x39
  let numberOf := fun (c : List Byte) (o : Option (List Byte)) =>
    (1 ≤ c.length ∧ c.length ≤ 20 ∧ digits c → o = some c) ∧ (¬(1 ≤ c.length ∧ c.length ≤ 20 ∧ digits c) → o = none)
  formCaller [] = none ∧
  (∀ (b : Byte) (bs : List Byte), ∃ r, formCaller (b :: bs) = some r ∧
    (r.valid = true ↔ (∃ L more, bs = L :: more ∧ more.length = L.toNat + 1) ∧ ((b :: bs).map BitVec.toNat).sum % 256 = 0)) ∧
  (∀ (L : Byte) (content tail : List Byte), content.length = L.toNat ∨ content.length < L.toNat ∧ tail = [] →
    (∀ (fs : List (Byte × List Byte)) (rest : List Byte), (∀ f ∈ fs, f.2.length < 256) →
      content = (fs.flatMap fun f => f.1 :: BitVec.ofNat 8 f.2.length :: f.2) ++ rest →
      rest.length ≤ 1 ∨ (∃ code len c, rest = code :: len :: c ∧ c.length < len.toNat) →
      let last := fun (code : Byte) => (((fs.filter fun f => decide (f.1 = code)).getLast?).map (·.2))
      ∃ r, formCaller (0x51#8 :: L :: content ++ tail) = some r ∧
        (last 0x11#8 = none → r.dateTime = none) ∧ (last 0x12#8 = none → r.number = none) ∧
        (last 0x13#8 = none → r.name = none) ∧ (last 0x14#8 = none → r.withheld = none) ∧
        (∀ c, last 0x11#8 = some c → r.dateTime = if c.length = 8 ∧ digits c then some c else none) ∧
        (∀ c, last 0x12#8 = some c → numberOf c r.number) ∧
        (∀ c, last 0x13#8 = some c → r.name = if ∀ b ∈ c, 0x20 ≤ b.toNat ∧ b.toNat ≤ 0x7E then some (c.take 15) else none) ∧
        (∀ c, last 0x14#8 = some c → r.withheld = if c = [0x50#8] then some .priv else if c = [0x55#8] then some .unavailable else none)) ∧
    (∃ r, formCaller (0x52#8 :: L :: content ++ tail) = some r ∧ r.name = none ∧ r.dateTime = none ∧ r.withheld = none ∧
      (content.length = L.toNat → numberOf content r.number) ∧ (content.length < L.toNat → r.number = none))))

/-- LOOP_INPUT_CHANGE, LOOP_ESTABLISHED, EXT_INPUT_CHANGE and EXTENSION_HANGUP at the debouncers (R25, R26): the loop input starts
and stops the 20 ms and 300 ms counts, 20 ms of loop in WAIT reach PRESENT, an extension change starts its 50 ms count, and the
count's end after a hang-up clears the extension state. The lines have a loop and an extension pin, and dispatch finds no line
for a job. -/
def Obligations.LoopAndExtensionAreDebounced : Prop :=
  ∀ (l : Line) (v : Bool) (s : State), s.requests = [] → hasPin s (loopFn l) = true → hasPin s (extFn l) = true →
    let i := (s.line l).iface
    (i.loopIn ≠ v → i.loopSuspended = false → exec (.loopInputChange l v) s = .next (s.setLine l { s.line l with iface := { i with
        loopIn := v
        loop := match i.loop with
          | .onHook => .onHook
          | .wait n _ => .wait n (if v then some (s.now + 20) else none)
          | .present => if v then .present else .doubt (s.now + 300)
          | .doubt due => if v then .present else .doubt due
          | .lost => .lost } })) ∧
    (∀ n due, i.loop = .wait n (some due) → s.st l ≠ .seize → exec (.loopEstablished l) s =
      .next { s.setLine l { s.line l with iface := { i with loop := .present } } with now := max s.now due }) ∧
    (v ≠ i.extState → i.extIn ≠ v → exec (.extInputChange l v) s =
      .next (s.setLine l { s.line l with iface := { i with extIn := v, extDue := some (s.now + 50) } })) ∧
    (v = i.extState → exec (.extInputChange l v) s =
      .next (s.setLine l { s.line l with iface := { i with extIn := v, extDue := none } })) ∧
    (∀ due, i.extDue = some due → i.extIn = false → i.extState = true → (s.line l).profile.autoCallout = false →
      exec (.extensionHangup l) s = .next { s.setLine l { s.line l with iface := { i with extState := false, extDue := none } }
        with now := max s.now due })

/-- The tone generator (R36): a DTMF digit falls silent for its off-time; a calling tone alternates 500 ms on with 3000 ms (fax)
or 2000 ms (data) off; a beep, an answer tone or a digit whose time is over leaves the generator free (no requester goes on here);
the end of the first answer tone of a data call begins training with PROBE and its 10 s timer (R69, R107). Each signal is made of its
sines, with the frequencies and levels of R36's table, each starting at phase zero: a DTMF digit the row at -11 dBm0 and the column at
-9 dBm0, the other signals one sine at -10 dBm0; while the generator sounds and is the line's source they are what it puts out (R21),
and while it is silent or squelched it puts out nothing. -/
def Obligations.ToneGeneratorKeepsItsTimes : Prop :=
  (∀ (l : Line) (due : Nat) (s : State), s.requests = [] →
    let i := (s.line l).iface
    let tone := fun g => { s.setLine l { s.line l with iface := { i with tone := g } } with now := max s.now due }
    (∀ d on off, i.tone = some ⟨.dtmf d on off, true, due⟩ →
      exec (.dtmfOnTimeEnd l) s = .next (tone (some ⟨.dtmf d on off, false, due + off⟩))) ∧
    (∀ v, i.tone = some ⟨.faxCalling, v, due⟩ → exec (.callingToneToggle l) s =
      .next (tone (some ⟨.faxCalling, !v, due + if v then 3000 else 500⟩))) ∧
    (∀ v, i.tone = some ⟨.dataCalling, v, due⟩ → exec (.callingToneToggle l) s =
      .next (tone (some ⟨.dataCalling, !v, due + if v then 2000 else 500⟩))) ∧
    (∀ f d, i.tone = some ⟨.beep f d, true, due⟩ → (s.line l).voice.sub ≠ some .beep →
      exec (.toneGeneratorCompletion l) s = .next (tone none)) ∧
    (i.tone = some ⟨.answer, true, due⟩ → s.st l ≠ .train → s.st l ≠ .fax →
      exec (.toneGeneratorCompletion l) s = .next (tone none)) ∧
    (∀ d on off, i.tone = some ⟨.dtmf d on off, false, due⟩ → s.st l ≠ .dial →
      exec (.toneGeneratorCompletion l) s = .next (tone none))) ∧
  (∀ (l : Line) (due : Nat) (s : State), s.requests = [] → (s.line l).iface.tone = some ⟨.answer, true, due⟩ →
    s.st l = .train → (s.line l).modem.phase = none → (s.line l).modem.retrainFrom = none →
    ∃ t, exec (.toneGeneratorCompletion l) s = .next t ∧ (t.line l).iface = { (s.line l).iface with tone := none } ∧
      (t.line l).modem.phase = some .probe ∧ (t.line l).modem.trainDue = some (max s.now due + 10000) ∧
      (t.line l).modem.probeDue = some (max s.now due + 1000) ∧ (t.line l).modem.probeCount = 0 ∧
      t = { s.setLine l { s.line l with iface := (t.line l).iface, modem := (t.line l).modem } with now := max s.now due }) ∧
  ((∀ (r k on off : Nat) (row col : Nat) (ds : List Byte) (d : Byte), [697, 770, 852, 941][r]? = some row →
    [1209, 1336, 1477, 1633][k]? = some col →
    [[0x31#8, 0x32#8, 0x33#8, 0x41#8], [0x34#8, 0x35#8, 0x36#8, 0x42#8], [0x37#8, 0x38#8, 0x39#8, 0x43#8],
      [0x2A#8, 0x30#8, 0x23#8, 0x44#8]][r]? = some ds → ds[k]? = some d →
    (ToneSignal.dtmf d on off).components = [⟨row, -11, 0⟩, ⟨col, -9, 0⟩]) ∧
  ToneSignal.answer.components = [⟨2250, -10, 0⟩] ∧ ToneSignal.faxCalling.components = [⟨1100, -10, 0⟩] ∧
  ToneSignal.dataCalling.components = [⟨1300, -10, 0⟩] ∧ (∀ f d, (ToneSignal.beep f d).components = [⟨f, -10, 0⟩]) ∧
  ∀ (l : Line) (s : State) (g : ToneGen), (s.line l).iface.tone = some g →
    (s.st l ≠ .idle → s.st l ≠ .ringing → s.st l ≠ .cleardown → squelched s l = false → g.sounding = true →
      toneOutput s l = g.signal.components) ∧
    (g.sounding = false ∨ squelched s l = true → toneOutput s l = []))

/-- PINS (R30): an unnamed function or level, a function other than IN or OUT on two pins, or an input on GP8 to GP11 is BAD_PARAM;
moving the HOOK of a line that is not IDLE is BAD_STATE; an accepted assignment sets the functions and the OUT levels, and of one that
withdraws or moves one input at most: RING withdrawn drops a ring-on in PENDING and ends one in ON at once, no cadence entry watching the
ring; LOOP withdrawn takes WAIT and DOUBT to PRESENT (the line is not in SEIZE, where the loop established would go on to the call); EXT
withdrawn clears the extension state (no job is dispatched). An input moved to another pin, or newly placed, leaves its debouncer in its
state, which goes on with the new pin: LOOP and EXT are sampled there, the level a free value (log entry 4), their counts starting at
once. -/
def Obligations.PinsAssignsFunctions : Prop :=
  ∀ (raw : List (Byte × Byte)) (s : State), s.requests = [] →
    ((∃ p ∈ raw, 11 < p.1.toNat ∨ 1 < p.2.toNat) → exec (.pins raw) s = .next (done 0x50#8 .badParam [] s)) ∧
    (∀ pins, pinsOf raw = some pins → pins.length = 12 →
      ((∃ (j k : Nat) (p q : PinCfg), j ≠ k ∧ pins[j]? = some p ∧ pins[k]? = some q ∧ p.fn = q.fn ∧ p.fn ≠ .inp ∧
          p.fn ≠ .out) ∨
        (∃ (k : Nat) (p : PinCfg), 8 ≤ k ∧ pins[k]? = some p ∧ p.fn.isInput = true) →
        exec (.pins raw) s = .next (done 0x50#8 .badParam [] s)) ∧
      (pinsPlaced pins = true → (∃ l, s.st l ≠ .idle ∧ pinOf s.pins (hookFn l) ≠ pinOf pins (hookFn l)) →
        exec (.pins raw) s = .next (done 0x50#8 .badState [] s)) ∧
      (pinsPlaced pins = true → (∀ l, s.st l = .idle ∨ pinOf s.pins (hookFn l) = pinOf pins (hookFn l)) →
        let assigned := { done 0x50#8 .ok [] s with pins := pins }
        let others := fun (g : PinFn) =>
          ∀ l, ∀ f ∈ [ringFn l, loopFn l, extFn l], f ≠ g → pinOf s.pins f = pinOf pins f
        ((∀ g, others g) → exec (.pins raw) s = .next assigned) ∧
        ∀ l : Line,
          let x := s.line l
          let i := x.iface
          let with_ := fun (i' : Iface) => assigned.setLine l { x with iface := i' }
          (others (ringFn l) → pinOf s.pins (ringFn l) ≠ none → pinOf pins (ringFn l) = none →
            ((∀ start due, i.ring ≠ .on start due) → exec (.pins raw) s = .next (with_ { i with ring := .quiet })) ∧
            (∀ start due, i.ring = .on start due → (∀ e, some e ∈ s.cadences → e.source ≠ .ring) →
              exec (.pins raw) s = .next (assigned.setLine l { x with
                iface := { i with
                  ring := .quiet, ringOff := some s.now
                  window := if x.call.firstRing = true ∧ s.st l = .ringing then .listening else i.window }
                call := { x.call with firstRing := false } }))) ∧
          (others (ringFn l) → pinOf pins (ringFn l) ≠ none → exec (.pins raw) s = .next assigned) ∧
          (others (loopFn l) → pinOf s.pins (loopFn l) ≠ none → pinOf pins (loopFn l) = none → s.st l ≠ .seize →
            exec (.pins raw) s = .next (with_ { i with
              loopIn := false
              loop := match i.loop with
                | .wait _ _ => .present
                | .doubt _ => .present
                | other => other })) ∧
          (∀ p, others (loopFn l) → pinOf pins (loopFn l) = some p → pinOf s.pins (loopFn l) ≠ some p →
            i.loopSuspended = false →
            let v := Config.pinSample s.samples p
            exec (.pins raw) s = .next { with_ { i with
              loopIn := v
              loop := match i.loop with
                | .onHook => .onHook
                | .wait n _ => .wait n (if v then some (s.now + 20) else none)
                | .present => if v then .present else .doubt (s.now + 300)
                | .doubt _ => if v then .present else .doubt (s.now + 300)
                | .lost => .lost } with samples := s.samples + 1 }) ∧
          (others (extFn l) → pinOf s.pins (extFn l) ≠ none → pinOf pins (extFn l) = none → s.jobs = [] →
            exec (.pins raw) s = .next (with_ { i with extIn := false, extState := false, extDue := none })) ∧
          (∀ p, others (extFn l) → pinOf pins (extFn l) = some p → pinOf s.pins (extFn l) ≠ some p →
            let v := Config.pinSample s.samples p
            exec (.pins raw) s = .next { with_ { i with
              extIn := v, extDue := if v = i.extState then none else some (s.now + 50) } with samples := s.samples + 1 })))

/-- PROFILE and MONCLEAR (R31, R33, R37, R38). For any list of pairs the checks of R37 in their order: an identifier that names no field or
a value outside its field's enumeration is BAD_PARAM, a locked field on a line that is not IDLE BAD_STATE; a refused directive changes
nothing. An accepted list is written pair by pair, each numeric value clamped to its range (R38, R92, R115, R135, R175, R192), and answered
OK, the MONITOR reports of every source whose reported state changed, or whose class changed while it is set, behind the DONE. (No dispatch
follows: auto call-out is not in the list, or no job is there.) MONCLEAR makes the latched state of every source it names equal to the
current one, for any set of sources, with the MONITOR reports of the changes behind its DONE. That several MONITOR reports of one directive
go in the order of the sources' codes is the MODEL's, log entry 71, and so is that a PROFILE which names one monitor field twice queues none
for the value in between, log entry 88. -/
def Obligations.ProfileAndMonclearAct : Prop :=
  ∀ (line : Byte) (l : Line) (s : State), s.requests = [] →
    let changed := fun (u : State) => (monSources.filter fun src => decide (reportedState s l src ≠ reportedState u l src ∨
        reportedState u l src = true ∧
          ((s.line l).profile.monitors.get src).cls ≠ ((u.line l).profile.monitors.get src).cls)).map fun src =>
      Report.monitor l src ((u.line l).profile.monitors.get src).cls (reportedState u l src)
    (∀ pairs, lineOf line = none → exec (.profile line pairs) s = .next (done 0x47#8 .badParam [] s)) ∧
    (∀ set, lineOf line = none → exec (.monclear line set) s = .next (done 0x77#8 .badParam [] s)) ∧
    (lineOf line = some l → ∀ pairs : List (Byte × Word16),
      let named := fun (f : Nat) => (1 ≤ f ∧ f ≤ 0x15) ∨ (0x18 ≤ f ∧ f ≤ 0x22) ∨ (0x28 ≤ f ∧ f ≤ 0x2C) ∨ (0x30 ≤ f ∧ f ≤ 0x31) ∨
        (0x38 ≤ f ∧ f ≤ 0x3D) ∨ (0x40 ≤ f ∧ f ≤ 0x43)
      let fits := fun (f v : Nat) => (f = 0x01 → v ≤ 4) ∧ (4 ≤ f → f ≤ 6 → v / 256 ≤ 4) ∧
        (f ∈ [0x07, 0x08, 0x09, 0x12, 0x15, 0x20, 0x39] → v ≤ 1) ∧ (0x18 ≤ f → f ≤ 0x1F → v ≤ 7) ∧
        (f = 0x38 → 3 ≤ v ∧ v ≤ 5) ∧ (f = 0x3A → v ∈ [0, 5, 10, 20, 40])
      let locked := fun (f : Nat) => f ∈ [0x30, 0x31, 0x38, 0x39, 0x3A]
      ((∃ p ∈ pairs, ¬named p.1.toNat ∨ ¬fits p.1.toNat p.2.toNat) →
        exec (.profile line pairs) s = .next (done 0x47#8 .badParam [] s)) ∧
      ((∀ p ∈ pairs, named p.1.toNat ∧ fits p.1.toNat p.2.toNat) → (∃ p ∈ pairs, locked p.1.toNat) → s.st l ≠ .idle →
        exec (.profile line pairs) s = .next (done 0x47#8 .badState [] s)) ∧
      ((∀ p ∈ pairs, named p.1.toNat ∧ fits p.1.toNat p.2.toNat) → (∀ p ∈ pairs, locked p.1.toNat → s.st l = .idle) →
        (∀ p ∈ pairs, p.1 ≠ 0x08#8) ∨ s.jobs = [] →
        let u := s.setLine l { s.line l with
          profile := pairs.foldl (fun p q => p.write q.1.toNat q.2.toNat) (s.line l).profile }
        exec (.profile line pairs) s = .next (queueReports (changed u) (done 0x47#8 .ok [] u)))) ∧
    (lineOf line = some l → ∀ set : Byte, ∃ latched : PerSource Bool,
      (∀ src, latched.get src = if set.toNat.testBit src.code then (s.line l).iface.current.get src
        else (s.line l).iface.latched.get src) ∧
      let u := s.setLine l { s.line l with iface := { (s.line l).iface with latched := latched } }
      exec (.monclear line set) s = .next (queueReports (changed u) (done 0x77#8 .ok [] u))) ∧
    ∀ (p : Profile) (v : Nat),
      (p.write 0x02 v).rings = max 1 (min 15 v) ∧ (p.write 0x03 v).mailbox = min 7 v ∧ (p.write 0x0A v).toneOn = max 40 (min 200 v) ∧
      (p.write 0x0B v).toneOff = max 40 (min 200 v) ∧ (p.write 0x0C v).pulseBreak = max 40 (min 80 v) ∧
      (p.write 0x0D v).pulseMake = max 20 (min 60 v) ∧ (p.write 0x0E v).interdigit = max 300 (min 2000 v) ∧
      (p.write 0x0F v).comma = max 1 (min 10 v) ∧ (p.write 0x10 v).flash = max 100 (min 2000 v) ∧
      (p.write 0x11 v).dialToneWait = max 1 (min 30 v) ∧ (p.write 0x13 v).progressTimeout = max 10 (min 120 v) ∧
      (p.write 0x14 v).classifyWindow = max 5 (min 120 v) ∧ (p.write 0x21 v).agcTarget = max 256 (min 16000 v) ∧
      (p.write 0x22 v).levelFloor = max 10 (min 1000 v) ∧ (p.write 0x28 v).freqLimit = max 1 (min 30 v) ∧
      (p.write 0x29 v).impulseThreshold = max 256 (min 8192 v) ∧ (p.write 0x2A v).burstDivisor = max 4 (min 64 v) ∧
      (p.write 0x2B v).linkPenalty = min 1024 v ∧ (p.write 0x2C v).faxPenalty = min 1024 v ∧
      (p.write 0x30 v).window = max 1 (min 8 v) ∧ (p.write 0x31 v).payloadMax = max 32 (min 256 v) ∧
      (p.write 0x3B v).goodPerMille = min 1000 v ∧ (p.write 0x3C v).retrainPerMille = min 1000 v ∧
      (p.write 0x3D v).runLimit = min 255 v ∧ (p.write 0x40 v).silenceThreshold = min 2000 v ∧
      (p.write 0x41 v).silenceTime = max 1 (min 60 v) ∧ (p.write 0x42 v).beepFrequency = max 300 (min 3400 v) ∧
      (p.write 0x43 v).beepDuration = max 100 (min 2000 v)

/-- ALARM is asserted exactly while an enabled ERROR-class source of either line has its reported state set, the latched state
where latch-enable is set and the current state otherwise (R31, R34), and MSG exactly while an enabled mailbox has its new flag set
(R180); the pins assigned them, and the HOOK pins, show them (R29). -/
def Obligations.AlarmAndMsgFollowTheirSources : Prop :=
  ∀ s : State,
    (alarm s = true ↔ ∃ (l : Line) (src : MonSource), ((s.line l).profile.monitors.get src).enable = true ∧
      ((s.line l).profile.monitors.get src).cls = .error ∧
      (if ((s.line l).profile.monitors.get src).latchEnable then (s.line l).iface.latched.get src
        else (s.line l).iface.current.get src) = true) ∧
    (msgCondition s = true ↔ ∃ m ∈ s.mailboxes, m.enabled = true ∧ m.isNew = true) ∧
    ∀ p : PinCfg, (p.fn = .alarm → pinOutput s p = some (alarm s)) ∧ (p.fn = .msg → pinOutput s p = some (msgCondition s)) ∧
      (p.fn = .hookA → pinOutput s p = some s.lineA.iface.hook) ∧ (p.fn = .hookB → pinOutput s p = some s.lineB.iface.hook) ∧
      (p.fn = .out → pinOutput s p = some p.level)

/-- BLOCK_END on a line without tone entries, voice operation, stream or ring (R21 to R23, R31 to R33). The block is counted, the
pre-gain and post-gain levels are the floors of the mean magnitudes, and the next block takes the gain index that stands. The index
moves only in TRAIN, DATA and FAX: down above the target plus a quarter, up to 72 below the target minus a quarter. LEVEL_LOW is set by
the third block below the floor and cleared by the third at or above floor plus a quarter, while a far-end signal is expected; CLIP by a
block with 4 raw samples at 32600; GAIN_LIMIT by the tenth block in which the AGC wants to pass its limit, and cleared when the index
moves off it; STREAM_SLIP is cleared; a state that becomes set is latched; each change of a reported state queues MONITOR, and nothing
else changes. For every source and every delivery of its condition: one already as delivered changes nothing, another sets or
clears the current state, sets the latched state with it, and queues MONITOR exactly when the reported state changes. (The order of
the MONITOR reports of one block is the MODEL's, log entry 21.) -/
def Obligations.BlockEndMeasuresLevelsAndMovesGain : Prop :=
  (∀ (l : Line) (b : List Sample) (s : State), s.requests = [] → (∀ e ∈ s.tones, e = none) → (s.line l).voice.sub = none →
    (s.line l).iface.ring = .quiet → (s.line l).iface.ringOff = none → s.now ≤ (s.line l).iface.blockDue →
    readerOf s (.line l) = none → (∀ w ∈ s.store.writers, w.owner ≠ .line l) →
    ¬(s.st l = .progress ∧ (s.line l).call.cr.mode = some .voice) →
    let i := (s.line l).iface
    let floor := (s.line l).profile.levelFloor
    let target := (s.line l).profile.agcTarget
    let active : Bool := decide (s.st l = .train ∨ s.st l = .data ∨ s.st l = .fax)
    let pre := ((b.map BitVec.toInt).map Int.natAbs).sum / 80
    let post := ((b.map (gainSample i.blockGain)).map Int.natAbs).sum / 80
    let moved := if active then
        (if target + target / 4 < post then i.gain - 1 else if post < target - target / 4 then min 72 (i.gain + 1) else i.gain)
      else i.gain
    let low := if i.expecting then (if pre < floor then min 3 (i.lowRun + 1) else 0) else i.lowRun
    let high := if i.expecting then (if floor + floor / 4 ≤ pre then min 3 (i.highRun + 1) else 0) else i.highRun
    let limits := if active then
        (if target + target / 4 < post ∧ i.gain = 0 ∨ post < target - target / 4 ∧ ¬target + target / 4 < post ∧ i.gain = 72
          then min 10 (i.gainRun + 1) else 0)
      else i.gainRun
    let current : MonSource → Bool := fun src => match src with
      | .levelLow => if i.expecting = true ∧ low = 3 then true else if i.expecting = true ∧ high = 3 then false
        else i.current.levelLow
      | .clip => decide (4 ≤ (b.filter fun x => decide (32600 ≤ x.toInt.natAbs)).length)
      | .gainLimit => if active = true ∧ limits = 10 then true else if (i.gain = 0 ∨ i.gain = 72) ∧ moved ≠ i.gain then false
        else i.current.gainLimit
      | .streamSlip => false
      | other => i.current.get other
    ∃ t, exec (.blockEnd l b) s = .next t ∧ (t.line l).iface.blockNo = i.blockNo + 1 ∧
      (t.line l).iface.blockDue = i.blockDue + 10 ∧ (t.line l).iface.preLevel = pre ∧ (t.line l).iface.postLevel = post ∧
      (t.line l).iface.gain = moved ∧ (t.line l).iface.blockGain = moved ∧ (t.line l).iface.lowRun = low ∧
      (t.line l).iface.highRun = high ∧ (t.line l).iface.gainRun = limits ∧
      (∀ src, (t.line l).iface.current.get src = current src ∧ (t.line l).iface.latched.get src =
        (i.latched.get src || (current src && !i.current.get src))) ∧
      t.link = (queueReports (([.gainLimit, .levelLow, .clip, .streamSlip].filter fun src =>
          decide (reportedState t l src ≠ reportedState s l src)).map fun src =>
            Report.monitor l src ((s.line l).profile.monitors.get src).cls (reportedState t l src)) s).link ∧
      t = { s.setLine l { s.line l with iface := (t.line l).iface } with link := t.link, now := i.blockDue }) ∧
  (∀ (l : Line) (src : MonSource) (v : Bool) (s : State),
    let i := (s.line l).iface
    let cfg := (s.line l).profile.monitors.get src
    (i.current.get src = v → setCondition l src v s = s) ∧
    (i.current.get src ≠ v → ∃ u, (∀ x, (u.line l).iface.current.get x = if x = src then v else i.current.get x) ∧
      (∀ x, (u.line l).iface.latched.get x = if x = src ∧ v = true then true else i.latched.get x) ∧
      u = s.setLine l { s.line l with iface := { i with
        current := (u.line l).iface.current, latched := (u.line l).iface.latched } } ∧
      (cfg.enable = true ∧ (cfg.latchEnable = false ∨ v = true ∧ i.latched.get src = false) →
        setCondition l src v s = queueReport (.monitor l src cfg.cls v) u) ∧
      (cfg.enable = false ∨ cfg.latchEnable = true ∧ (v = false ∨ i.latched.get src = true) → setCondition l src v s = u)))

/-! ### Chapter 3: tone and cadence tables, edges, captures -/

/-- TONE WRITE of a SINGLE entry for REPORT, and TONE DELETE (R42, R43, R49, R57): the checks, the clamping of a field, the greatest live
count as the value byte; the end of a replaced or deleted entry's edge state on both lines, with a TONE report (OFF) for a REPORT entry
whose state is ON or BRIDGE (line A's before line B's: the order is the MODEL's, log entry 63); and the alignments of the cadence entries
that have a replaced entry as their source cleared to empty. Other edge states and alignments stand. (BAD_PARAM for a priority mark above 1,
which R42 does not list, is the MODEL's, log entry 28.) -/
def Obligations.ToneWriteAndDelete : Prop :=
  ∀ (index : Byte) (f : ToneParams) (s : State), s.requests = [] →
    let i := index.toNat
    let ended := fun (t : State) => ∀ l, (edgeOf t l i).st = .ready ∧ ∀ j, j ≠ i → edgeOf t l j = edgeOf s l j
    let offs := fun (l : Line) (e : ToneEntry) =>
      let x := edgeOf s l i
      if (x.st = .on ∨ x.st = .bridge) ∧ e.action = .report then
        [Report.tone l i e.meaning x.digit false ((x.last + 1 - x.first) * 10)] else []
    (2 < f.kind.toNat ∨ 4 < f.action.toNat ∨ 3 < f.controlOp.toNat ∨ 1 < f.priorityMark.toNat ∨ 5 < f.meaning.toNat ∨
      2048 ≤ f.liveStates.toNat ∨ 23 < i ∨ f.kind = 0#8 ∧ (f.f1.toNat < 300 ∨ 3400 < f.f1.toNat) →
      exec (.toneWrite index f) s = .next (done 0x45#8 .badParam [] s)) ∧
    (∀ (live : List LineSt) (e : ToneEntry), i ≤ 23 → f.kind = 0#8 → 300 ≤ f.f1.toNat → f.f1.toNat ≤ 3400 → f.action = 1#8 →
      f.controlOp = 0#8 → f.priorityMark = 0#8 → f.meaning = 0#8 → stateSet f.liveStates = some live →
      e = { kind := .single, f1 := f.f1.toNat, f2 := f.f2.toNat, minLevel := max (-50) (min 0 f.minLevel.toInt),
            twist := min 12 f.twist.toNat, onTime := max 10 (min 5000 f.onTime.toNat),
            offTime := max 10 (min 5000 f.offTime.toNat), action := .report, priorityMark := false, meaning := .none,
            live := live } →
      ((∃ st, 16 < liveCount (s.tones.set i (some e)) st) →
        exec (.toneWrite index f) s = .next (done 0x45#8 .tableFull [] s)) ∧
      ((∀ st, liveCount (s.tones.set i (some e)) st ≤ 16) → entryAt s.tones i = none →
        exec (.toneWrite index f) s = .next { done 0x45#8 .ok (oneByte (greatestLive (s.tones.set i (some e)))) s with
          tones := s.tones.set i (some e) }) ∧
      (∀ old, (∀ st, liveCount (s.tones.set i (some e)) st ≤ 16) → entryAt s.tones i = some old →
        (∀ l, i < (s.line l).det.edges.length) →
        ∃ t, exec (.toneWrite index f) s = .next t ∧ t.tones = s.tones.set i (some e) ∧ ended t ∧
          (∀ (l : Line) (k : Nat), k < (s.line l).det.aligns.length → alignOf t l k =
            if (entryAt s.cadences k).map (·.source) = some (.tone i) then emptyAlign s.now else alignOf s l k) ∧
          t.link = (queueReports (offs .A old ++ offs .B old)
            (done 0x45#8 .ok (oneByte (greatestLive (s.tones.set i (some e)))) s)).link ∧
          t = { s with link := t.link, tones := t.tones, lineA := { s.lineA with det := t.lineA.det },
                       lineB := { s.lineB with det := t.lineB.det } })) ∧
    (23 < i → exec (.toneDelete index) s = .next (done 0x45#8 .badParam [] s)) ∧
    (i ≤ 23 → entryAt s.tones i = none → exec (.toneDelete index) s = .next (done 0x45#8 .noEntry [] s)) ∧
    (∀ e, i ≤ 23 → entryAt s.tones i = some e → isCadenceSource s i = true →
      exec (.toneDelete index) s = .next (done 0x45#8 .inUse [] s)) ∧
    (∀ e, i ≤ 23 → entryAt s.tones i = some e → isCadenceSource s i = false → (∀ l, i < (s.line l).det.edges.length) →
      ∃ t, exec (.toneDelete index) s = .next t ∧ t.tones = s.tones.set i none ∧ ended t ∧
        (∀ l, (t.line l).det.aligns = (s.line l).det.aligns) ∧
        t.link = (queueReports (offs .A e ++ offs .B e)
          (done 0x45#8 .ok (oneByte (greatestLive (s.tones.set i none))) s)).link ∧
        t = { s with link := t.link, tones := t.tones, lineA := { s.lineA with det := t.lineA.det },
                     lineB := { s.lineB with det := t.lineB.det } })

/-- Cadences (R53 to R57). CADENCE WRITE and DELETE: the checks in their order, a DTMF source among them, the source a tone entry or the
ring, the clamping, and the entry's alignments cleared to empty on both lines; other alignments stand. The matcher: an on that began before
the clearing is not observed; an empty alignment starts a run at an on that matches on1; an interval that matches its element moves the
alignment on, and the last off counts a full cycle, the repeats-th of which sets the matched flag and delivers; a mismatch ends the run and
clears the flag, a run starting anew with the mismatching on, or with the on before a mismatching off, where they match the first elements,
and the alignment being empty otherwise; an on or off still running past the upper bound of its element leaves the alignment empty. RING_ON
on a line outside IDLE, RINGING and SEIZE with one cadence entry, on the ring: the off before it, where it matches the last element,
completes the cycle and queues CADENCE when the entry's report flag is on; where it does not match, the alignment is empty. -/
def Obligations.CadenceWriteAndDelete : Prop :=
  (∀ (index : Byte) (f : CadenceParams) (s : State), s.requests = [] →
    let k := index.toNat
    let cleared := fun (t : State) =>
      ∀ l, alignOf t l k = emptyAlign s.now ∧ ∀ j, j ≠ k → alignOf t l j = alignOf s l j
    (7 < k ∨ 5 < f.meaning.toNat ∨ 1 < f.reportFlag.toNat ∨ f.pairs = [] ∨ 4 < f.pairs.length ∨
      23 < f.source.toNat ∧ f.source ≠ 0xFF#8 → exec (.cadenceWrite index f) s = .next (done 0x59#8 .badParam [] s)) ∧
    (∀ m flag, k ≤ 7 → Meaning.ofCadence f.meaning.toNat = some m → onOff f.reportFlag.toNat = some flag →
      1 ≤ f.pairs.length → f.pairs.length ≤ 4 →
      (f.source.toNat ≤ 23 → entryAt s.tones f.source.toNat = none →
        exec (.cadenceWrite index f) s = .next (done 0x59#8 .noEntry [] s)) ∧
      (∀ e, f.source.toNat ≤ 23 → entryAt s.tones f.source.toNat = some e → e.kind = .dtmf →
        exec (.cadenceWrite index f) s = .next (done 0x59#8 .badParam [] s)) ∧
      (∀ src, f.source = 0xFF#8 ∧ src = .ring ∨
          f.source.toNat ≤ 23 ∧ src = .tone f.source.toNat ∧ (∃ e, entryAt s.tones f.source.toNat = some e ∧ e.kind ≠ .dtmf) →
        (∀ l, k < (s.line l).det.aligns.length) → ∃ t, exec (.cadenceWrite index f) s = .next t ∧
        t.cadences = s.cadences.set k (some
          { source := src
            pattern := f.pairs.flatMap fun p => [max 50 (min 8000 p.1.toNat), max 50 (min 8000 p.2.toNat)]
            tolerance := max 5 (min 30 f.tolerance.toNat), repeats := max 1 (min 4 f.repeats.toNat), meaning := m, report := flag }) ∧
        cleared t ∧ t.link = (done 0x59#8 .ok [] s).link ∧
        t = { s with link := t.link, cadences := t.cadences, lineA := { s.lineA with det := t.lineA.det },
                     lineB := { s.lineB with det := t.lineB.det } })) ∧
    (7 < k → exec (.cadenceDelete index) s = .next (done 0x59#8 .badParam [] s)) ∧
    (k ≤ 7 → entryAt s.cadences k = none → exec (.cadenceDelete index) s = .next (done 0x59#8 .noEntry [] s)) ∧
    (∀ e, k ≤ 7 → entryAt s.cadences k = some e → (∀ l, k < (s.line l).det.aligns.length) →
      ∃ t, exec (.cadenceDelete index) s = .next t ∧ t.cadences = s.cadences.set k none ∧ cleared t ∧
        t.link = (done 0x59#8 .ok [] s).link ∧
        t = { s with link := t.link, cadences := t.cadences, lineA := { s.lineA with det := t.lineA.det },
                     lineB := { s.lineB with det := t.lineB.det } })) ∧
  (∀ (a : Machine.Alignment) (e : CadEntry) (len time start : Nat), e.pattern ≠ [] → e.pattern.length % 2 = 0 →
    a.expect < e.pattern.length →
    let fits := fun (k : Nat) => ((len : Int) - (e.pattern.getD k 0 : Nat)).natAbs * 100 ≤ e.pattern.getD k 0 * e.tolerance
    let past := fun (k : Nat) => e.pattern.getD k 0 * (100 + e.tolerance) < len * 100
    let empty := fun (b : Machine.Alignment) => b.held = false ∧ b.matched = false ∧ b.cycles = 0 ∧ b.expect = 0
    let started := fun (b : Machine.Alignment) => b.held = true ∧ b.matched = false ∧ b.cycles = 0 ∧ b.expect = 1 ∧ b.runStart = start
    (time < a.validFrom → a.seeOn e len time start = a) ∧
    (a.validFrom ≤ time → a.held = false → fits 0 → started (a.seeOn e len time start)) ∧
    (a.validFrom ≤ time → a.held = false → ¬fits 0 → empty (a.seeOn e len time start)) ∧
    (a.validFrom ≤ time → a.held = true → fits a.expect →
      a.seeOn e len time start = { a with expect := a.expect + 1, prevOn := some (len, start) }) ∧
    (a.validFrom ≤ time → a.held = true → ¬fits a.expect → fits 0 → started (a.seeOn e len time start)) ∧
    (a.validFrom ≤ time → a.held = true → ¬fits a.expect → ¬fits 0 → empty (a.seeOn e len time start)) ∧
    (a.held = false → a.seeOff e len = (a, false)) ∧
    (a.held = true → fits a.expect → a.expect + 1 < e.pattern.length →
      a.seeOff e len = ({ a with expect := a.expect + 1 }, false)) ∧
    (a.held = true → fits a.expect → a.expect + 1 = e.pattern.length → a.cycles + 1 < e.repeats →
      a.seeOff e len = ({ a with expect := 0, cycles := a.cycles + 1 }, false)) ∧
    (a.held = true → fits a.expect → a.expect + 1 = e.pattern.length → e.repeats ≤ a.cycles + 1 →
      a.seeOff e len = ({ a with expect := 0, cycles := a.cycles + 1, matched := true }, true)) ∧
    (∀ on first, a.held = true → ¬fits a.expect → a.prevOn = some (on, first) →
      let fitsOn := ((on : Int) - (e.pattern.getD 0 0 : Nat)).natAbs * 100 ≤ e.pattern.getD 0 0 * e.tolerance
      (fitsOn → fits 1 → 2 < e.pattern.length → (a.seeOff e len).1.held = true ∧ (a.seeOff e len).1.expect = 2 ∧
        (a.seeOff e len).1.cycles = 0 ∧ (a.seeOff e len).1.runStart = first ∧ (a.seeOff e len).1.matched = false ∧
        (a.seeOff e len).2 = false) ∧
      (fitsOn → fits 1 → e.pattern.length = 2 → (a.seeOff e len).1.held = true ∧ (a.seeOff e len).1.expect = 0 ∧
        (a.seeOff e len).1.cycles = 1 ∧ (a.seeOff e len).1.runStart = first ∧
        (a.seeOff e len).2 = decide (e.repeats ≤ 1)) ∧
      (¬(fitsOn ∧ fits 1) → empty (a.seeOff e len).1 ∧ (a.seeOff e len).2 = false)) ∧
    (a.held = true → a.expect % 2 = 0 → past a.expect → empty (a.judgeOn e len)) ∧
    (¬(a.held = true ∧ a.expect % 2 = 0 ∧ past a.expect) → a.judgeOn e len = a) ∧
    (a.held = true → a.expect % 2 = 1 → past a.expect → empty (a.judgeOff e len)) ∧
    (¬(a.held = true ∧ a.expect % 2 = 1 ∧ past a.expect) → a.judgeOff e len = a)) ∧
  (∀ (l : Line) (k n : Nat) (e : CadEntry) (start due off : Nat) (s : State), s.requests = [] →
    s.cadences = (List.replicate 8 none).set k (some e) → k < 8 → k < (s.line l).det.aligns.length → e.source = .ring →
    e.meaning = .ringClass n → e.pattern.length = 2 → e.repeats = 1 → s.st l ≠ .idle → s.st l ≠ .ringing → s.st l ≠ .seize →
    (s.line l).iface.ring = .pending start due → (s.line l).iface.ringOff = some off →
    (alignOf s l k).held = true → (alignOf s l k).expect = 1 → max s.now (start + 200) - start ≤ e.pattern.getD 0 0 →
    let len := start - off
    let rung := fun (a : Machine.Alignment) => { s.setLine l { s.line l with
      iface := { (s.line l).iface with ring := .on start due }
      det := { (s.line l).det with aligns := (s.line l).det.aligns.set k a } } with now := max s.now (start + 200) }
    (((len : Int) - (e.pattern.getD 1 0 : Nat)).natAbs * 100 ≤ e.pattern.getD 1 0 * e.tolerance →
      let matched := rung { alignOf s l k with expect := 0, cycles := (alignOf s l k).cycles + 1, matched := true }
      exec (.ringOn l) s = .next (if e.report then queueReport (.cadence l k e.meaning) matched else matched)) ∧
    (¬((len : Int) - (e.pattern.getD 1 0 : Nat)).natAbs * 100 ≤ e.pattern.getD 1 0 * e.tolerance →
      ∃ a, a.held = false ∧ a.matched = false ∧ a.cycles = 0 ∧ a.expect = 0 ∧ exec (.ringOn l) s = .next (rung a)))

/-- MARKREAD (R59): BAD_PARAM for a line that is not named; with a slot occupied the oldest capture is reported with the overflow
flag, its slot freed and the flag cleared; with both free the live reading is reported and no slot and no flag change. The value
byte is the number of slots still occupied. -/
def Obligations.MarkreadReadsTheOldestCapture : Prop :=
  ∀ (line : Byte) (l : Line) (s : State), s.requests = [] →
    (line.toNat = 0 ∨ 2 < line.toNat → exec (.markread line) s = .next (done 0x6D#8 .badParam [] s)) ∧
    (line = lineByte l →
      let d := (s.line l).det
      let answer := fun (c : Capture) (n : Byte) (d' : Detector) =>
        queueReport (.mark l false d.overflow (some c.entry) c.digit c.position c.lineTime)
          ((done 0x6D#8 .ok [n] s).setLine l { s.line l with det := { d' with overflow := false } })
      (∀ c, d.slot0 = some c → d.slot1 = none → exec (.markread line) s = .next (answer c 0#8 { d with slot0 := none, slot1Older := false })) ∧
      (∀ c, d.slot0 = none → d.slot1 = some c → exec (.markread line) s = .next (answer c 0#8 { d with slot1 := none, slot1Older := false })) ∧
      (∀ a b, d.slot0 = some a → d.slot1 = some b → d.slot1Older = false →
        exec (.markread line) s = .next (answer a 1#8 { d with slot0 := none })) ∧
      (∀ a b, d.slot0 = some a → d.slot1 = some b → d.slot1Older = true →
        exec (.markread line) s = .next (answer b 1#8 { d with slot1 := none, slot1Older := false })) ∧
      (d.slot0 = none → d.slot1 = none → exec (.markread line) s =
        .next (queueReport (.mark l true d.overflow none none (streamPosition s l) (lineTime s l)) (done 0x6D#8 .ok [0#8] s))))

/-- Edges and declarations (R45, R48, R50, R51, R58, R60). A run of the on-need declares ON once, at its first block where the on-need is
one block; a single absent block in ON is bridged, a second one declares OFF with the run's duration, and a new run begins from READY alone
after the off-need. A block with another digit drops a run in RISING, or ends one in ON or BRIDGE with OFF for the old digit, and a run of
the new digit begins at it, declared ON at once where the on-need is one block; in RECOVER it counts as any present block. For an entry that
is no cadence source, ON queues nothing (IGNORE), TONE (REPORT), TONE and a priority status without a slot (PRIORITY), TONE and a capture in
slot 0, else slot 1, else lost with the overflow flag set, the priority status naming the slot where the entry is marked (CAPTURE), or TONE
with the control operation delivered to the voice engine (CONTROL), which does nothing with it while it neither plays nor is paused and
turns a playing one to paused, and back, at PAUSE; a meaning is then delivered at ON with its start as a line time, even by IGNORE (that the
report and the action go before the effects of the meaning is the MODEL's order, log entry 62); OFF queues TONE for REPORT alone. BLOCK_END
with one SINGLE entry, live and without a meaning: the entry is present when its level reaches its minimum level and lies at most 3 dB below
the total level; its edge moves by the table, what it declares takes effect at the block's end, and no other edge moves. (No stream, voice
operation, ring or cadence is there, and no monitor condition changes.) -/
def Obligations.EdgeStatesFollowTheTable : Prop :=
  (∀ (x : EdgeState) (e : ToneEntry) (n start : Nat) (d : Option Byte), 1 < e.onNeed →
    (x.st = .ready → ((x.present e n start d).1.st = .rising ∧ (x.present e n start d).1.first = n ∧
      (x.present e n start d).1.startTime = start ∧ (x.present e n start d).1.onCount = 1 ∧ (x.present e n start d).2 = [])) ∧
    (x.st = .ready → x.absence e = (x, [])) ∧
    (x.st = .rising → x.digit = d → x.onCount + 1 < e.onNeed →
      x.present e n start d = ({ x with onCount := x.onCount + 1 }, [])) ∧
    (x.st = .rising → x.digit = d → e.onNeed ≤ x.onCount + 1 → (x.present e n start d).1.st = .on ∧
      (x.present e n start d).1.last = n ∧ ∃ off, (x.present e n start d).2 = [.on d x.startTime off]) ∧
    (x.st = .rising → (x.absence e).1.st = .ready ∧ (x.absence e).2 = []) ∧
    ((x.st = .on ∨ x.st = .bridge) → x.digit = d → x.present e n start d = ({ x with st := .on, last := n }, [])) ∧
    (x.st = .on → x.absence e = ({ x with st := .bridge }, [])) ∧
    (x.st = .bridge → (x.absence e).2 = [.off x.digit x.startTime ((x.last + 1 - x.first) * 10)] ∧
      (2 < e.offNeed → (x.absence e).1.st = .recover ∧ (x.absence e).1.absent = 2) ∧
      (e.offNeed ≤ 2 → (x.absence e).1.st = .ready)) ∧
    (x.st = .recover → x.present e n start d = ({ x with absent := 0 }, []) ∧ (x.absence e).2 = [] ∧
      (e.offNeed ≤ x.absent + 1 → (x.absence e).1.st = .ready) ∧
      (x.absent + 1 < e.offNeed → x.absence e = ({ x with absent := x.absent + 1 }, [])))) ∧
  (∀ (x : EdgeState) (e : ToneEntry) (n start : Nat) (d : Option Byte),
    let begun := fun (r : EdgeState × List EdgeEvent) (before : List EdgeEvent) =>
      r.1.first = n ∧ r.1.startTime = start ∧ r.1.onCount = 1 ∧ r.1.digit = d ∧
      (1 < e.onNeed → r.1.st = .rising ∧ r.2 = before) ∧
      (e.onNeed ≤ 1 → r.1.st = .on ∧ r.1.last = n ∧ ∃ off, r.2 = before ++ [.on d start off])
    (x.st = .ready → begun (x.present e n start d) []) ∧
    (x.st = .rising → x.digit ≠ d → begun (x.present e n start d) []) ∧
    (x.st = .on ∨ x.st = .bridge → x.digit ≠ d →
      begun (x.present e n start d) [.off x.digit x.startTime ((x.last + 1 - x.first) * 10)])) ∧
  (∀ (l : Line) (i : Nat) (e : ToneEntry) (digit : Option Byte) (start duration : Nat) (off : Option Nat) (s : State),
    (∀ c, some c ∈ s.cadences → c.source ≠ .tone i) →
    let d := (s.line l).det
    let v := (s.line l).voice
    let time := if s.st l = .idle then 0 else s.now - (s.line l).call.leftAt
    let from_ := if s.st l = .idle then 0 else start - (s.line l).call.leftAt
    let reported := queueReport (.tone l i e.meaning digit true ((e.onTime + 9) / 10 * 10)) s
    let captured := fun (d' : Detector) (slot : SlotResult) => queueReport (.tone l i e.meaning digit true ((e.onTime + 9) / 10 * 10))
      (s.setLine l { s.line l with det := { d' with priority := if e.priorityMark then some ⟨i, time, slot⟩ else d.priority } })
    let capture : Capture := ⟨i, digit, streamPosition s l, time⟩
    let on := declare l i e s (.on digit start off)
    let meant := fun (t : State) => if e.meaning = .none then t else deliver l e.meaning digit from_ t
    (e.action = .ignore → on = meant s) ∧
    (e.action = .report → on = meant reported) ∧
    (e.action = .priority → on = meant (reported.setLine l { s.line l with det := { d with priority := some ⟨i, time, .none⟩ } })) ∧
    (e.action = .capture → d.slot0 = none →
      on = meant (captured { d with slot0 := some capture, slot1Older := d.slot1.isSome } .slot0)) ∧
    (e.action = .capture → d.slot0 ≠ none → d.slot1 = none →
      on = meant (captured { d with slot1 := some capture, slot1Older := false } .slot1)) ∧
    (e.action = .capture → d.slot0 ≠ none → d.slot1 ≠ none → on = meant (captured { d with overflow := true } .lost)) ∧
    (∀ op, e.action = .control op →
      on = meant (voiceControl l op reported) ∧
      (v.sub ≠ some .playing → v.sub ≠ some .paused → on = meant reported) ∧
      (op = .pause → s.st l = .voice → (s.line l).iface.expecting = false →
        (v.sub = some .playing → on = meant (queueReport (.voice l .pause .none v.position)
          (reported.setLine l { s.line l with voice := { v with sub := some .paused, output := [] } }))) ∧
        (v.sub = some .paused → on = meant (queueReport (.voice l .resume .none v.position)
          (reported.setLine l { s.line l with voice := { v with sub := some .playing } }))))) ∧
    (e.action = .report → declare l i e s (.off digit start duration) =
      queueReport (.tone l i e.meaning digit false duration) s) ∧
    (e.action ≠ .report → declare l i e s (.off digit start duration) = s)) ∧
  (∀ (l : Line) (b : List Sample) (i : Nat) (e : ToneEntry) (s : State), s.requests = [] →
    s.tones = (List.replicate 24 none).set i (some e) → i < 24 → e.kind = .single → s.st l ∈ e.live → e.meaning = .none →
    (∀ c ∈ s.cadences, c = none) → i < (s.line l).det.edges.length → (s.line l).voice.sub = none → (s.line l).iface.ring = .quiet →
    (s.line l).iface.ringOff = none → s.now ≤ (s.line l).iface.blockDue → readerOf s (.line l) = none →
    (∀ w ∈ s.store.writers, w.owner ≠ .line l) → s.st l ≠ .progress → s.st l ≠ .train → s.st l ≠ .data → s.st l ≠ .fax →
    (s.line l).iface.expecting = false → (s.line l).iface.current.streamSlip = false →
    (s.line l).iface.current.clip =
      decide (4 ≤ (b.filter fun x => decide (32600 ≤ x.toInt.natAbs)).length) →
    let f := (s.line l).iface
    let level := levelAt b e.f1
    let x := edgeOf s l i
    let r := if e.minLevel * 10 ≤ level ∧ totalLevel b - 30 ≤ level then x.present e (f.blockNo + 1) (f.blockDue - 10) none
      else x.absence e
    let acted := r.2.foldl (declare l i e) { s with now := f.blockDue }
    ∃ t, exec (.blockEnd l b) s = .next t ∧ edgeOf t l i = r.1 ∧ t.link = acted.link ∧
      (t.line l).det = { (acted.line l).det with edges := (s.line l).det.edges.set i r.1 } ∧
      t = { s.setLine l { s.line l with iface := (t.line l).iface, det := (t.line l).det } with
        link := t.link, now := f.blockDue })

/-! ### Chapter 4: calls -/

/-- Eleven commands that end a call, each with its release reason, on a line with no tone, session, voice operation, job or held message:
RELEASE (IMMEDIATE) by HOST; the dial-tone wait by NO_DIALTONE; the progress timer by NO_ANSWER; a loop that does not come in SEIZE by
NO_LOOP and in every other state by FAR_END; an established loop that is lost by FAR_END in every state (R65's table; R25 names NO_LOOP in
SEIZE for both events and leaves the reason to Chapter 4: the model follows the table, log entry 19); an extension under YIELD by EXTENSION;
the training timer by NO_CARRIER; the eleventh expiry of the retransmit timer by LINK_FAIL; CLEAR with nothing left to read by FAR_END; this
end's CLEAR sent by HOST. The line is in CLEARDOWN at once with its 2 s timer, on-hook, the modem and the link stopped, the queues kept
(R65, R66, R76, R79, R81, R109, R125, R132, R133, R134). The other reasons (BUSY, LINE_QUALITY, FAX_DONE, FAX_FAIL, VOICE_DONE, STORE_FULL,
RESET) have no part in this statement. -/
def Obligations.ListedReleasesEnterCleardown : Prop :=
  ∀ (l : Line) (c : Instr) (r : ReleaseReason) (s : State), s.requests = [] → (s.st l).releasable = true →
    (s.line l).iface.tone = none → (s.line l).fax.role = none → (s.line l).voice.sub = none →
    (s.line l).call.cr.job = none → (s.line l).call.refHeld = false →
    let x := s.line l
    (c = .release (lineByte l) 2#8 ∧ r = .host ∨
      c = .dialToneWaitExpiry l ∧ x.call.dialToneDue ≠ none ∧ r = .noDialtone ∨
      c = .progressTimerExpiry l ∧ x.call.progressDue ≠ none ∧ r = .noAnswer ∨
      c = .noLoop l ∧ s.st l = .seize ∧ (∃ due e, x.iface.loop = .wait due e) ∧ r = .noLoop ∨
      c = .noLoop l ∧ s.st l ≠ .seize ∧ (∃ due e, x.iface.loop = .wait due e) ∧ r = .farEnd ∨
      c = .loopLost l ∧ (∃ due, x.iface.loop = .doubt due) ∧ x.iface.loopSuspended = false ∧ r = .farEnd ∨
      c = .extensionPickup l ∧ x.iface.extDue ≠ none ∧ x.iface.extIn = true ∧ x.iface.extState = false ∧
        x.profile.extPolicy = .yieldLine ∧ r = .extension ∨
      c = .trainingTimerExpiry l ∧ x.modem.trainDue ≠ none ∧ r = .noCarrier ∨
      c = .retransmitTimerExpiry l ∧ (∃ due, x.dl.timer = .running due) ∧ 10 ≤ x.dl.retries ∧ r = .linkFail ∨
      c = .clearFrame l ∧ s.st l = .data ∧ x.dl.clear ≠ .received ∧ x.dl.rx = [] ∧ r = .farEnd ∨
      c = .frameSent l ∧ x.dl.sending = some .clear ∧ x.dl.clear = .graceful ∧ r = .host) →
    ∃ t, exec c s = .next t ∧ t.st l = .cleardown ∧ (t.line l).call.reason = some (.release r) ∧
      (t.line l).call.cr.release = some r ∧ (t.line l).call.cleardownDue = some (t.now + 2000) ∧
      (t.line l).iface.hook = false ∧ (t.line l).iface.loop = .onHook ∧ (t.line l).modem.phase = none ∧
      (t.line l).modem.request = none ∧ (t.line l).dl.sending = none ∧ (t.line l).dl.timer = .stopped ∧
      (t.line l).dl.tx = (s.line l).dl.tx ∧ (t.line l).dl.rx = (s.line l).dl.rx ∧
      (t.line l).profile = (s.line l).profile ∧ (t.line l).det = (s.line l).det ∧
      t = { s.setLine l (t.line l) with link := t.link, now := t.now, attempts := t.attempts }

/-- RELEASE: BAD_PARAM for an unnamed line or kind, BAD_STATE in IDLE, RINGING and CLEARDOWN, BUSY for GRACEFUL while a clear is
going on; GRACEFUL in DATA starts the data link's clear with its 5 s timer and leaves the line in DATA (R66, R132). A frame is on
the line, so that none begins. -/
def Obligations.ReleaseChecksAndGraceful : Prop :=
  ∀ (line kind : Byte) (l : Line) (s : State), s.requests = [] →
    (lineOf line = none ∨ kind.toNat = 0 ∨ 2 < kind.toNat → exec (.release line kind) s = .next (done 0x48#8 .badParam [] s)) ∧
    (line = lineByte l → kind = 1#8 ∨ kind = 2#8 → s.st l = .idle ∨ s.st l = .ringing ∨ s.st l = .cleardown →
      exec (.release line kind) s = .next (done 0x48#8 .badState [] s)) ∧
    (line = lineByte l → kind = 1#8 → s.st l = .data → (s.line l).dl.clear ≠ .none →
      exec (.release line kind) s = .next (done 0x48#8 .busy [] s)) ∧
    (line = lineByte l → kind = 1#8 → s.st l = .data → (s.line l).dl.clear = .none → (s.line l).dl.sending ≠ none →
      exec (.release line kind) s = .next ((done 0x48#8 .ok [] s).setLine l { s.line l with dl := { (s.line l).dl with
        clear := .graceful, clearDue := some (s.now + 5000), clearForced := false, clearSent := false } }))

/-- The ways into IDLE: the 2 s of CLEARDOWN (with the release reason again), 8 s without a ring (MISSED), and an extension that
takes a ringing call (EXTENSION). Call record, modem, data link and voice engine are cleared, the gain is 24 and the line
on-hook (R65, R67, R71, R134). The line takes no job, no tone sounds and no caller message is under way. (That the figures of the modem's
last window are cleared too is the MODEL's choice, log entry 77.) -/
def Obligations.LineReturnsToIdle : Prop :=
  ∀ (l : Line) (c : Instr) (reason : LineReason) (s : State), s.requests = [] → (s.line l).iface.tone = none →
    (s.line l).profile.autoCallout = false → (∀ bs, (s.line l).iface.window ≠ .gathering bs) →
    let x := s.line l
    (c = .cleardownTimerExpiry l ∧ s.st l = .cleardown ∧ x.call.cleardownDue ≠ none ∧
        (∃ r, x.call.cr.release = some r ∧ reason = .release r) ∨
      c = .ringTimerExpiry l ∧ s.st l = .ringing ∧ x.call.ringDue ≠ none ∧ reason = .change .missed ∨
      c = .extensionPickup l ∧ s.st l = .ringing ∧ x.iface.extDue ≠ none ∧ x.iface.extIn = true ∧ x.iface.extState = false ∧
        reason = .change .extension) →
    ∃ t, exec c s = .next t ∧ (t.line l).call = { initialCall with reason := some reason } ∧
      (t.line l).modem = initialModem ∧ (t.line l).dl = initialDataLink ∧ (t.line l).voice = initialVoice ∧
      (t.line l).fax = initialFax (s.line l).fax.endCause ∧ (t.line l).iface.gain = 24 ∧ (t.line l).iface.hook = false ∧
      (t.line l).iface.loop = .onHook ∧ (t.line l).iface.caller = none ∧ (t.line l).iface.current = .all false ∧
      (t.line l).profile = (s.line l).profile ∧
      t = { s.setLine l (t.line l) with link := t.link, now := t.now }

/-- DIAL (R74, R75, R76): the checks in their order, BAD_STATE for a fax call without a fax rung in the ladder among them, BUSY for an
extension that is ON under YIELD alone, and for a fax or voice call the message's too; a call that passes them takes an IDLE line to SEIZE
with its call record, the number's attempt record prepared, the hook closed and the loop awaited for 1 s, and a fax or voice call holds a
reference on its message. (A DATA call takes any message id and has no message: the MODEL's choice, log entry 75.) -/
def Obligations.DialChecksThenSeizes : Prop :=
  (∀ (line mode : Byte) (l : Line) (m : CallMode) (msg : Word16) (str : List Byte) (s : State), s.requests = [] →
    let p := (s.line l).profile
    (lineOf line = none ∨ mode.toNat = 0 ∨ 3 < mode.toNat → exec (.dial line mode msg str) s = .next (done 0x44#8 .badParam [] s)) ∧
    (line = lineByte l → CallMode.ofDial mode.toNat = some m →
      (dialStringOk p.dialMethod str = false ∨ m ≠ .data ∧ msg = 0#16 →
        exec (.dial line mode msg str) s = .next (done 0x44#8 .badParam [] s)) ∧
      (dialStringOk p.dialMethod str = true → (m = .data ∨ msg ≠ 0#16) →
        (s.st l ≠ .idle ∨ hasHook s l = false ∨ m = .fax ∧ faxRungs s.ladder = [] →
          exec (.dial line mode msg str) s = .next (done 0x44#8 .badState [] s)) ∧
        (s.st l = .idle → hasHook s l = true → (m = .fax → faxRungs s.ladder ≠ []) →
          (p.extPolicy = .yieldLine → (s.line l).iface.extState = true →
            exec (.dial line mode msg str) s = .next (done 0x44#8 .busy [] s)) ∧
          (p.extPolicy = .keep ∨ (s.line l).iface.extState = false →
            (m ≠ .data → s.store.st ≠ .ready → exec (.dial line mode msg str) s = .next (done 0x44#8 .notReady [] s)) ∧
            (m = .data →
              (outgoingBarred s p.screenBar (dialNumber str) = true →
                exec (.dial line mode msg str) s = .next (done 0x44#8 .screened [] s)) ∧
              (outgoingBarred s p.screenBar (dialNumber str) = false → consultAttempts s (dialNumber str) = .barred →
                exec (.dial line mode msg str) s = .next (done 0x44#8 .barred [] s)) ∧
              (∀ left, outgoingBarred s p.screenBar (dialNumber str) = false →
                consultAttempts s (dialNumber str) = .delayed left → left ≤ 65535 →
                exec (.dial line mode msg str) s = .next (done 0x44#8 .delayed (numBytes 2 left) s)) ∧
              (outgoingBarred s p.screenBar (dialNumber str) = false → consultAttempts s (dialNumber str) = .allowed →
                hasPin s (loopFn l) = true → (s.line l).iface.loop = .onHook → (s.line l).iface.expecting = false →
                (s.line l).voice.sub = none →
                ∃ t, exec (.dial line mode msg str) s = .next t ∧ t.st l = .seize ∧
                  (t.line l).call.reason = some (.change .dial) ∧ (t.line l).call.leftAt = s.now ∧
                  (t.line l).call.cr = { emptyCallRecord with
                    dir := some .outgoing, mode := some .data, dialled := str, number := dialNumber str } ∧
                  (t.line l).iface = { (s.line l).iface with
                    hook := true, loopSuspended := false
                    loop := .wait (s.now + 1000) (if (s.line l).iface.loopIn then some (s.now + 20) else none) } ∧
                  t.attempts = (prepareAttempt (dialNumber str) s).attempts ∧
                  t = { s.setLine l { s.line l with call := (t.line l).call, iface := (t.line l).iface } with
                    link := t.link, attempts := t.attempts }))))))) ∧
  (∀ (l : Line) (mode : Byte) (m : CallMode) (msg : Word16) (str : List Byte) (s : State), s.requests = [] →
    CallMode.ofDial mode.toNat = some m → m = .fax ∨ m = .voice → msg ≠ 0#16 →
    dialStringOk (s.line l).profile.dialMethod str = true → s.st l = .idle → hasHook s l = true →
    (m = .fax → faxRungs s.ladder ≠ []) → (s.line l).profile.extPolicy = .keep ∨ (s.line l).iface.extState = false →
    s.store.st = .ready →
    let p := (s.line l).profile
    let dial := exec (.dial (lineByte l) mode msg str) s
    let fits := fun (e : Entry) => e.state = .closed ∧ e.erasePending = false ∧ e.inUse < 255 ∧
      (if m = .fax then e.kind = .fax else e.kind = .voice ∨ e.kind = .file ∧ e.coding ≠ .none)
    (findEntry s msg.toNat = none → dial = .next (done 0x44#8 .noEntry [] s)) ∧
    (∀ e, findEntry s msg.toNat = some e → (¬fits e → dial = .next (done 0x44#8 .noEntry [] s)) ∧
      (fits e → outgoingBarred s p.screenBar (dialNumber str) = true → dial = .next (done 0x44#8 .screened [] s)) ∧
      (fits e → outgoingBarred s p.screenBar (dialNumber str) = false →
        (consultAttempts s (dialNumber str) = .barred → dial = .next (done 0x44#8 .barred [] s)) ∧
        (∀ left, consultAttempts s (dialNumber str) = .delayed left → left ≤ 65535 →
          dial = .next (done 0x44#8 .delayed (numBytes 2 left) s)) ∧
        (consultAttempts s (dialNumber str) = .allowed → hasPin s (loopFn l) = true → (s.line l).iface.loop = .onHook →
          (s.line l).iface.expecting = false → (s.line l).voice.sub = none →
          ∃ t, dial = .next t ∧ t.st l = .seize ∧ (t.line l).call.reason = some (.change .dial) ∧ (t.line l).call.leftAt = s.now ∧
            (t.line l).call.cr = { emptyCallRecord with
              dir := some .outgoing, mode := some m, dialled := str, number := dialNumber str, message := some msg.toNat } ∧
            (t.line l).call.refHeld = true ∧
            (t.line l).iface = { (s.line l).iface with
              hook := true, loopSuspended := false
              loop := .wait (s.now + 1000) (if (s.line l).iface.loopIn then some (s.now + 20) else none) } ∧
            t.attempts = (prepareAttempt (dialNumber str) s).attempts ∧
            t = { s.setLine l { s.line l with call := (t.line l).call, iface := (t.line l).iface } with
              link := t.link, attempts := t.attempts
              store := { s.store with
                dir := updateWhere (fun e => decide (e.id = msg.toNat)) (fun e => { e with inUse := e.inUse + 1 }) s.store.dir } }))))

/-- A dial string symbol by symbol (R76, R77, R79, R80, R92). In SEIZE, where no step is due, the loop established starts the blind delay or
the dial-tone wait, or with a dial tone remembered enters DIAL; BLIND_DIAL_DELAY and a DIALTONE meaning enter DIAL, which takes up the
first symbol. A pulse break ends in a make, hook closed and the loop debouncer resumed by the level of LOOP (R25); a make in the next
break, or in the interdigit time, with the times taken as the digit began. The interdigit time, a comma pause, a flash and a DTMF digit's
off-time end a symbol, and the next begins: a comma, a flash, a 'W' that waits, or goes on at once with a dial tone remembered, a digit by
the dial method as it stands; after the last symbol the line enters PROGRESS with its timer, the answer watch of a voice call and the
calling tone of a fax or data call. In DIAL a DIALTONE meaning ends the wait of a 'W' or is remembered. A symbol that is no digit, in a
string dialled by pulse, is sent as a DTMF tone: the MODEL's, log entry 30. -/
def Obligations.DialStepsFollowTheString : Prop :=
  (∀ (l : Line) (c : Instr) (due : Nat) (i : Iface) (s : State), s.requests = [] → s.st l = .dial →
    let x := s.line l
    let p := x.profile
    let now := max s.now due
    let go := fun (k : Call) (i : Iface) => { s.setLine l { x with call := k, iface := i } with now := now }
    let step := fun (st : DialStep) (t : Nat) => { x.call with step := st, stepDue := some (now + t) }
    let closed := { x.iface with
      hook := true, loopSuspended := false, loop := if x.iface.loopIn then .present else .doubt (now + 300) }
    let opened := fun (i : Iface) => { i with hook := false, loopSuspended := true }
    let at_ := fun (n : Nat) => { x.call with
      step := .none, stepDue := none, dialToneDue := none, cr := { x.call.cr with position := x.call.cr.position + n } }
    let symbol := fun (b : Byte) (k : Call) (i : Iface) =>
      if b = 0x2C#8 then go { k with step := .comma, stepDue := some (now + p.comma * 1000) } i
      else if b = 0x21#8 then go { k with step := .flash, stepDue := some (now + p.flash) } (opened i)
      else if b = 0x57#8 then go { k with step := .waitTone, dialToneDue := some (now + p.dialToneWait * 1000) } i
      else if p.dialMethod = .pulse ∧ isDigitChar b = true then
        go { k with
          step := .brk ((if b = 0x30#8 then 10 else b.toNat - 0x30) - 1), stepDue := some (now + p.pulseBreak)
          pulse := ⟨p.pulseBreak, p.pulseMake, p.interdigit⟩ } (opened i)
      else go { k with step := .toneDigit } { i with tone := some ⟨.dtmf b p.toneOn p.toneOff, true, now + p.toneOn⟩ }
    (∀ n, x.call.step = .brk n → x.call.stepDue = some due → hasPin s (loopFn l) = true → x.iface.loop = .present →
      exec (.pulseBreakEnd l) s = .next (go (step (.mk n) x.call.pulse.makeTime) closed)) ∧
    (x.call.step = .mk 0 → x.call.stepDue = some due →
      exec (.pulseMakeEnd l) s = .next (go (step .interdigit x.call.pulse.interdigit) x.iface)) ∧
    (∀ n, x.call.step = .mk (n + 1) → x.call.stepDue = some due →
      exec (.pulseMakeEnd l) s = .next (go (step (.brk n) x.call.pulse.breakTime) (opened x.iface))) ∧
    (c = .interdigitTimeEnd l ∧ x.call.step = .interdigit ∧ x.call.stepDue = some due ∧ i = x.iface ∨
      c = .commaPauseEnd l ∧ x.call.step = .comma ∧ x.call.stepDue = some due ∧ i = x.iface ∨
      c = .flashTimeEnd l ∧ x.call.step = .flash ∧ x.call.stepDue = some due ∧ hasPin s (loopFn l) = true ∧
        x.iface.loop = .present ∧ i = closed ∨
      c = .toneGeneratorCompletion l ∧ x.call.step = .toneDigit ∧
        (∃ d on off, x.iface.tone = some ⟨.dtmf d on off, false, due⟩) ∧ i = { x.iface with tone := none } →
      i.tone = none →
      (∀ b, x.call.cr.dialled[x.call.cr.position + 1]? = some b → (b = 0x57#8 → x.call.toneHeard = false) →
        exec c s = .next (symbol b (at_ 1) i)) ∧
      (∀ b, x.call.cr.dialled[x.call.cr.position + 1]? = some 0x57#8 → x.call.toneHeard = true →
        x.call.cr.dialled[x.call.cr.position + 2]? = some b → b ≠ 0x57#8 →
        exec c s = .next (symbol b { at_ 2 with toneHeard := false } i)) ∧
      (x.call.cr.dialled.length = x.call.cr.position + 1 → i.expecting = false → x.voice.sub = none →
        ∃ t, exec c s = .next t ∧ t.st l = .progress ∧ (t.line l).call.reason = some (.change .digits) ∧
          (t.line l).call.progressDue = some (now + p.progressTimeout * 1000) ∧
          (t.line l).call.watchDue = (if x.call.cr.mode = some .voice then some (now + 10000) else none) ∧
          (t.line l).call.cr = (at_ 1).cr ∧ (t.line l).call.stepDue = none ∧
          (t.line l).iface = { i with
            tone := (if x.call.cr.mode = some .fax then some ⟨.faxCalling, true, now + 500⟩
              else if x.call.cr.mode = some .data then some ⟨.dataCalling, true, now + 500⟩ else none) } ∧
          t = { s.setLine l { x with call := (t.line l).call, iface := (t.line l).iface } with link := t.link, now := now }))) ∧
  (∀ (l : Line) (due start : Nat) (digit : Option Byte) (s : State), s.requests = [] →
    (s.line l).iface.tone = none → (s.line l).iface.expecting = false → (s.line l).voice.sub = none →
    let x := s.line l
    let p := x.profile
    let dialling := fun (r : ChangeReason) (t : State) =>
      t.st l = .dial ∧ (t.line l).call.reason = some (.change r) ∧ (t.line l).call.cr.position = 0 ∧
      (t.line l).call.cr.dialled = x.call.cr.dialled ∧ (t.line l).call.toneHeard = false ∧
      (t.line l).call.dialToneDue = none ∧ (t.line l).call.blindDue = none ∧
      (x.call.cr.dialled[0]? = some 0x2C#8 →
        (t.line l).call.step = .comma ∧ (t.line l).call.stepDue = some (t.now + p.comma * 1000)) ∧
      (∀ d, x.call.cr.dialled[0]? = some d → isDigitChar d = true → p.dialMethod = .tone →
        (t.line l).call.step = .toneDigit ∧ (t.line l).iface.tone = some ⟨.dtmf d p.toneOn p.toneOff, true, t.now + p.toneOn⟩) ∧
      (∀ d, x.call.cr.dialled[0]? = some d → isDigitChar d = true → p.dialMethod = .pulse →
        (t.line l).call.step = .brk ((if d = 0x30#8 then 10 else d.toNat - 0x30) - 1) ∧
        (t.line l).call.stepDue = some (t.now + p.pulseBreak) ∧ (t.line l).iface.hook = false ∧
        (t.line l).iface.loopSuspended = true ∧ (t.line l).call.pulse = ⟨p.pulseBreak, p.pulseMake, p.interdigit⟩) ∧
      t = { s.setLine l { x with call := (t.line l).call, iface := (t.line l).iface } with link := t.link, now := t.now }
    let begins := ∀ b, x.call.cr.dialled[0]? = some b → b = 0x2C#8 ∨ isDigitChar b = true
    (x.call.blindDue = some due → s.st l = .seize → x.call.cr.dialled ≠ [] → begins →
      ∃ t, exec (.blindDialDelay l) s = .next t ∧ t.now = max s.now due ∧ dialling .blind t) ∧
    (∀ n, x.iface.loop = .wait n (some due) → s.st l = .seize →
      let up := { x with iface := { x.iface with loop := .present } }
      let now := max s.now due
      (p.blindDial = true → exec (.loopEstablished l) s = .next { s.setLine l { up with
        call := { x.call with loopUp := true, blindDue := some (now + 2000) } } with now := now }) ∧
      (p.blindDial = false → x.call.toneHeard = false → exec (.loopEstablished l) s = .next { s.setLine l { up with
        call := { x.call with loopUp := true, dialToneDue := some (now + p.dialToneWait * 1000) } } with now := now }) ∧
      (p.blindDial = false → x.call.toneHeard = true → x.call.cr.dialled ≠ [] → begins →
        ∃ t, exec (.loopEstablished l) s = .next t ∧ t.now = now ∧ (t.line l).iface.loop = .present ∧ dialling .dialtone t)) ∧
    (s.st l = .seize →
      (p.blindDial = true → deliver l .dialtone digit start s = s) ∧
      (p.blindDial = false → x.call.loopUp = false →
        deliver l .dialtone digit start s = s.setLine l { x with call := { x.call with toneHeard := true } }) ∧
      (p.blindDial = false → x.call.loopUp = true → x.call.cr.dialled ≠ [] → begins →
        (deliver l .dialtone digit start s).now = s.now ∧ dialling .dialtone (deliver l .dialtone digit start s))) ∧
    (s.st l = .dial →
      (x.call.step ≠ .waitTone →
        deliver l .dialtone digit start s = s.setLine l { x with call := { x.call with toneHeard := true } }) ∧
      (x.call.step = .waitTone → x.call.cr.dialled[x.call.cr.position + 1]? = some 0x2C#8 →
        deliver l .dialtone digit start s = s.setLine l { x with call := { x.call with
          step := .comma, stepDue := some (s.now + p.comma * 1000), dialToneDue := none
          cr := { x.call.cr with position := x.call.cr.position + 1 } } })))

/-- How a line is answered. ANSWER (R70, R69): the checks in their order, and an answer of an IDLE or RINGING line: hook closed, for data or
fax the answer tone started and TRAIN or FAX entered with reason ANSWER, for VOICE or AUTO CLASSIFY entered with the classify window and an
empty digit buffer (R72) and the greeting of the mailbox begun, its message's stream or 5 s of silence where it has none (R182); the mailbox
is the one named or the default one, through the enablement check in every mode (log entry 29). The answer plan (R68): from the second
ring-on the screen list decides, else the ring class, else the profile; its rings, unless ANSWER_RINGS sets them, are those the profile held
as the call began to ring (R37); the plan answers when its mode is not OFF, its rings are reached, the line has a hook pin and the store is
READY or the mode DATA; a further ring-on under a DATA plan answers the line (R67). Glare (R78): a ring-on in SEIZE makes the call an
incoming one, to CLASSIFY in mode AUTO with a READY store, greeting (here the 5 s of silence of a mailbox without one, R182) and classify
window begun, and to TRAIN in mode DATA with the answer tone otherwise; a job of the call returns to WAITING with its tries, and the attempt
records stand. -/
def Obligations.AnswerChecksThenAnswers : Prop :=
  (∀ (line mode mailbox : Byte) (l : Line) (mb : Option Nat) (s : State), s.requests = [] →
    (lineOf line = none ∨ mode.toNat = 0 ∨ 4 < mode.toNat ∨ 7 < mailbox.toNat ∧ mailbox ≠ 0xFF#8 →
      exec (.answer line mode mailbox) s = .next (done 0x41#8 .badParam [] s)) ∧
    (line = lineByte l → 1 ≤ mode.toNat → mode.toNat ≤ 4 → mailboxOf mailbox = some mb →
      (¬(s.st l = .idle ∨ s.st l = .ringing) ∨ hasHook s l = false →
        exec (.answer line mode mailbox) s = .next (done 0x41#8 .badState [] s)) ∧
      ((s.st l = .idle ∨ s.st l = .ringing) → hasHook s l = true → mode ≠ 1#8 → s.store.st ≠ .ready →
        exec (.answer line mode mailbox) s = .next (done 0x41#8 .notReady [] s)) ∧
      ((s.st l = .idle ∨ s.st l = .ringing) → hasHook s l = true → (mode = 1#8 ∨ mode = 2#8 ∧ s.store.st = .ready) →
        hasPin s (loopFn l) = true → (s.line l).iface.loop = .onHook → (s.line l).iface.tone = none →
        (∀ bs, (s.line l).iface.window ≠ .gathering bs) →
        ∃ t, exec (.answer line mode mailbox) s = .next t ∧ t.st l = (if mode = 1#8 then LineSt.train else .fax) ∧
          (t.line l).call.reason = some (.change .answer) ∧ (t.line l).call.cr.dir = some .incoming ∧
          (t.line l).call.cr.mode = some (if mode = 1#8 then .data else .fax) ∧ (t.line l).iface.hook = true ∧
          (let enabled := fun (m : Nat) => ((s.mailboxes[m]?).map (·.enabled)).getD false
           let default := (s.line l).profile.mailbox
           (t.line l).call.cr.mailbox = if enabled (mb.getD default) then some (mb.getD default)
             else if enabled default then some default else none) ∧
          (t.line l).iface.tone = some ⟨.answer, true, s.now + 3000⟩ ∧
          (mode = 1#8 → (t.line l).modem = (s.line l).modem) ∧
          (mode = 2#8 → (t.line l).modem.rung = some ((faxRungs s.ladder).getLast?.getD 0)) ∧
          t = { s.setLine l { s.line l with
            call := (t.line l).call, iface := (t.line l).iface, modem := (t.line l).modem } with link := t.link }) ∧
      ((s.st l = .idle ∨ s.st l = .ringing) → hasHook s l = true → mode = 3#8 ∨ mode = 4#8 → s.store.st = .ready →
        hasPin s (loopFn l) = true → (s.line l).iface.loop = .onHook → (s.line l).iface.expecting = false →
        (∀ bs, (s.line l).iface.window ≠ .gathering bs) → readerOf s (.line l) = none →
        let x := s.line l
        let enabled := fun (m : Nat) => ((s.mailboxes[m]?).map (·.enabled)).getD false
        let checked := if enabled (mb.getD x.profile.mailbox) then some (mb.getD x.profile.mailbox)
          else if enabled x.profile.mailbox then some x.profile.mailbox else none
        let greeting := { initialVoice with sub := some .greeting, kind := some .answered, mailbox := checked }
        let classifying := fun (t : State) =>
          t.st l = .classify ∧ (t.line l).call.reason = some (.change .answer) ∧ (t.line l).call.cr.dir = some .incoming ∧
          (t.line l).call.cr.mode = some (if mode = 3#8 then .voice else .auto) ∧ (t.line l).call.cr.mailbox = checked ∧
          (t.line l).call.classifyDue = some (s.now + x.profile.classifyWindow * 1000) ∧ (t.line l).call.digits = [] ∧
          (t.line l).iface.hook = true ∧ (t.line l).iface.window = .closed
        (greetingOf s checked = none → ∃ t, exec (.answer line mode mailbox) s = .next t ∧ classifying t ∧
          (t.line l).voice = { greeting with silentDue := some (s.now + 5000) } ∧
          t = { s.setLine l { x with call := (t.line l).call, iface := (t.line l).iface, voice := (t.line l).voice } with
            link := t.link }) ∧
        (∀ e, greetingOf s checked = some e → e.state = .closed → e.erasePending = false → e.inUse < 255 → s.store.grant ≠ none →
          ∃ t, exec (.answer line mode mailbox) s = .next t ∧ classifying t ∧
            (t.line l).voice = { greeting with message := some e.id, coding := e.coding } ∧
            readerOf t (.line l) = some { id := e.id, position := 0, length := e.length, buffers := [], nextSeq := seqOf 0
                                          ready := false, region := none, tag := s.store.nextTag } ∧
            findEntry t e.id = some { e with inUse := e.inUse + 1 } ∧ t.store.memory = s.store.memory ∧
            t = { s.setLine l { x with call := (t.line l).call, iface := (t.line l).iface, voice := (t.line l).voice } with
              link := t.link, store := t.store })))) ∧
  (∀ (l : Line) (s : State),
    let x := s.line l
    let p := x.profile
    let cr := x.call.cr
    let rings := x.call.ringsToAnswer.getD p.rings
    let map := fun (k : Nat) => if k = 1 then p.ringMap1 else if k = 2 then p.ringMap2 else p.ringMap3
    let base := fun (n : Nat) => match cr.ringClass with
      | some k => some (Plan.mk (map k).1 (some (map k).2) n)
      | none => some (Plan.mk p.answerMode (some p.mailbox) n)
    let found := consult s true (callerSubject x.iface.caller)
    (cr.rings < 2 ∨ found = none ∨ found = some .allow → answerPlan s l = base rings) ∧
    (2 ≤ cr.rings →
      (found = some .noAnswer → answerPlan s l = none) ∧
      (∀ n, found = some (.answerRings n) → answerPlan s l = base n) ∧
      (∀ m, found = some (.route m) → answerPlan s l = some ⟨.voice, some m, rings⟩) ∧
      (found = some .faxOnly → answerPlan s l = some ⟨.fax, none, rings⟩) ∧
      (found = some .dataOnly → answerPlan s l = some ⟨.data, none, rings⟩)) ∧
    (∀ plan : Plan, planAnswers s l plan = true ↔
      plan.mode ≠ .off ∧ plan.rings ≤ cr.rings ∧ hasHook s l = true ∧ (plan.mode = .data ∨ s.store.st = .ready)) ∧
    (∀ start due, s.requests = [] → s.st l = .ringing → x.iface.ring = .pending start due →
      (∀ e, some e ∈ s.cadences → e.source ≠ .ring) → (∀ e ∈ s.screen, e = none) → cr.ringClass = none →
      p.answerMode = .data → hasHook s l = true → hasPin s (loopFn l) = true → x.iface.loop = .onHook → x.iface.tone = none →
      (∀ bs, x.iface.window ≠ .gathering bs) →
      let now := max s.now (start + 200)
      (rings ≤ min 255 (cr.rings + 1) →
        ∃ t, exec (.ringOn l) s = .next t ∧ t.st l = .train ∧ (t.line l).call.reason = some (.change .answer) ∧
          (t.line l).call.cr.mode = some .data ∧ (t.line l).call.ringDue = none ∧ (t.line l).iface.hook = true ∧
          (t.line l).iface.window = .closed ∧
          (t.line l).iface.tone = some ⟨.answer, true, now + 3000⟩ ∧
          t = { s.setLine l { x with call := (t.line l).call, iface := (t.line l).iface } with link := t.link, now := now }) ∧
      (min 255 (cr.rings + 1) < rings → exec (.ringOn l) s = .next { s.setLine l { x with
        iface := { x.iface with ring := .on start due }
        call := { x.call with cr := { cr with rings := min 255 (cr.rings + 1) }, ringDue := some (now + 8000), firstRing := false } }
        with now := now }))) ∧
  (∀ (l : Line) (start due : Nat) (s : State), s.requests = [] → s.st l = .seize → (s.line l).iface.ring = .pending start due →
    (∀ e, some e ∈ s.cadences → e.source ≠ .ring) → (s.line l).call.refHeld = false → (s.line l).iface.tone = none →
    (∀ l, (s.line l).profile.autoCallout = false) →
    let x := s.line l
    let now := max s.now (start + 200)
    let enabled := fun (m : Nat) => ((s.mailboxes[m]?).map (·.enabled)).getD false
    let record := fun (m : CallMode) => { emptyCallRecord with
      dir := some .incoming, rings := 1, mode := some m
      mailbox := if enabled x.profile.mailbox then some x.profile.mailbox else none }
    let abandoned := fun (t : State) =>
      (t.line l).call.reason = some (.change .glare) ∧ (t.line l).call.dialToneDue = none ∧ (t.line l).call.blindDue = none ∧
      (t.line l).iface.loop = x.iface.loop ∧ (t.line l).iface.hook = x.iface.hook ∧ t.attempts = s.attempts ∧ t.now = now ∧
      (x.call.cr.job = none → t.jobs = s.jobs) ∧
      (∀ j, x.call.cr.job = some j.id → findJob s j.id = some j → t.jobs =
        updateWhere (fun k => decide (k.id = j.id)) (fun k => { k with
          state := .waiting, lastTry := (x.fax.good, x.modem.rung) }) s.jobs)
    (s.store.st ≠ .ready → x.iface.expecting = false →
      ∃ t, exec (.ringOn l) s = .next t ∧ t.st l = .train ∧ abandoned t ∧ (t.line l).call.cr = record .data ∧
        (t.line l).iface.tone = some ⟨.answer, true, now + 3000⟩ ∧
        t = { s.setLine l { x with call := (t.line l).call, iface := (t.line l).iface } with
          link := t.link, now := now, jobs := t.jobs }) ∧
    (s.store.st = .ready → x.iface.expecting = false → readerOf s (.line l) = none → greetingOf s (record .auto).mailbox = none →
      ∃ t, exec (.ringOn l) s = .next t ∧ t.st l = .classify ∧ abandoned t ∧ (t.line l).call.cr = record .auto ∧
        (t.line l).call.classifyDue = some (now + x.profile.classifyWindow * 1000) ∧ (t.line l).call.digits = [] ∧
        (t.line l).voice.sub = some .greeting ∧ (t.line l).voice.silentDue = some (now + 5000) ∧
        t = { s.setLine l { x with call := (t.line l).call, iface := (t.line l).iface, voice := (t.line l).voice } with
          link := t.link, now := now, jobs := t.jobs }))

/-- SCREEN WRITE and DELETE (R82): direction, action, mailbox and pattern are checked, a pattern of digits is stored with its
entry, and an entry that is not there is NO_ENTRY. ATTEMPTCLEAR frees every attempt record and answers how many there were (R86). -/
def Obligations.ScreenAndAttemptTablesAct : Prop :=
  (∀ (index : Byte) (f : ScreenParams) (s : State), s.requests = [] →
    (31 < index.toNat ∨ 2 < f.direction.toNat ∨ 6 < f.action.toNat ∨ f.action = 4#8 ∧ 7 < f.argument.toNat ∨
      f.action.toNat ≤ 1 ∧ f.direction = 0#8 ∨ 2 ≤ f.action.toNat ∧ f.direction ≠ 0#8 ∨
      254 ≤ f.patternLength.toNat ∧ f.direction = 1#8 →
      exec (.screenWrite index f) s = .next (done 0x53#8 .badParam [] s)) ∧
    (∀ d, index.toNat ≤ 31 → f.pattern.all isDigitChar = true → 1 ≤ f.pattern.length → f.pattern.length ≤ 20 →
      f.patternLength.toNat = f.pattern.length → ScreenDir.ofCode f.direction.toNat = some d → d ≠ .incoming → f.action = 1#8 →
      exec (.screenWrite index f) s = .next { done 0x53#8 .ok [] s with
        screen := s.screen.set index.toNat (some ⟨.digits (f.pattern.map .digit) false, d, .bar⟩) }) ∧
    (31 < index.toNat → exec (.screenDelete index) s = .next (done 0x53#8 .badParam [] s)) ∧
    (index.toNat ≤ 31 → entryAt s.screen index.toNat = none →
      exec (.screenDelete index) s = .next (done 0x53#8 .noEntry [] s)) ∧
    (∀ e, index.toNat ≤ 31 → entryAt s.screen index.toNat = some e → exec (.screenDelete index) s =
      .next { done 0x53#8 .ok [] s with screen := s.screen.set index.toNat none })) ∧
  (∀ s : State, s.requests = [] → s.attempts.length = 16 →
    exec .attemptclear s = .next { done 0x61#8 .ok [BitVec.ofNat 8 (s.attempts.filter Option.isSome).length] s with
      attempts := List.replicate 16 none })

/-- The call-out list. JOBADD and JOBCLEAR (R88, R91): their refusals in the order of the checks (a string that a line of the job may not
dial is BAD_PARAM, and a number is SCREENED where every line of the job bars it: the MODEL's reading, log entry 17); a job joins the end of
the list WAITING, its message referenced; JOBCLEAR reports a WAITING job DONE with CANCELLED, and a WAITING or DONE job leaves the list and
returns its reference (premise: its message is in the directory with that reference, which is no withdrawn message's last, and the port is
busy). Dispatch (R89) at SECONDS_TICK: the first WAITING job in list order that the line may use takes an IDLE line with auto call-out, a
hook pin, a READY store and no extension under YIELD to SEIZE, the attempt record prepared; a barred or screened number makes the job DONE,
with the pages and rung of its last try in the outcome (the MODEL's inference, log entry 33); a delayed one, or one for the other line, is
passed over. Settlement (R86, R90): RELEASE by the host makes an ACTIVE job DONE with CANCELLED, an extension under YIELD returns it to
WAITING with its tries, NO_ANSWER uses a try and returns it to WAITING while tries remain, else makes it DONE with FAILED, and counts a
failure in the number's attempt record with the delay of R86. -/
def Obligations.JobaddAndJobclear : Prop :=
  (∀ (kind pref prio tries id : Byte) (msg : Word16) (str : List Byte) (k : JobKind) (lp : LinePref) (s : State), s.requests = [] →
    JobKind.ofCode kind.toNat = some k → LinePref.ofCode pref.toNat = some lp →
    (∀ l, dialStringOk (s.line l).profile.dialMethod str = true) → (∀ l, (s.line l).profile.autoCallout = false) →
    (16 ≤ s.jobs.length → exec (.jobadd kind msg prio pref tries str) s = .next (done 0x4A#8 .tableFull [] s)) ∧
    (s.jobs.length < 16 → (k = .voice ∨ faxRungs s.ladder ≠ []) →
      (s.store.st ≠ .ready → exec (.jobadd kind msg prio pref tries str) s = .next (done 0x4A#8 .notReady [] s)) ∧
      (s.store.st = .ready → findEntry s msg.toNat = none →
        exec (.jobadd kind msg prio pref tries str) s = .next (done 0x4A#8 .noEntry [] s)) ∧
      (∀ n, s.store.st = .ready → messageFits s k.mode msg.toNat = true → (∀ l, outgoingBarred s (s.line l).profile.screenBar (dialNumber str) = false) →
        n = freeJobId s.jobs 16 (nextJobId s.lastJob) → n < 256 → findJob s n = none →
        ∃ t, exec (.jobadd kind msg prio pref tries str) s = .next t ∧ t.lastJob = n ∧
          t.jobs = s.jobs ++ [{
            id := n, kind := k, symbols := str, number := dialNumber str, message := msg.toNat
            priority := min 7 prio.toNat, preference := lp, maxTries := max 1 (min 15 tries.toNat), tries := 0
            state := .waiting, outcome := none, lastTry := (0, none) }] ∧
          t.link = (queueReport (.job n .waiting 0 none) (done 0x4A#8 .ok (oneByte n) s)).link ∧
          t.store = { s.store with dir := updateWhere (fun e => decide (e.id = msg.toNat)) (fun e => { e with inUse := e.inUse + 1 }) s.store.dir } ∧
          t = { s with link := t.link, jobs := t.jobs, lastJob := t.lastJob, store := t.store })) ∧
    (findJob s id.toNat = none → exec (.jobclear id) s = .next (done 0x58#8 .noEntry [] s)) ∧
    (∀ j, findJob s id.toNat = some j → j.state = .active → exec (.jobclear id) s = .next (done 0x58#8 .busy [] s)) ∧
    (∀ j e, findJob s id.toNat = some j → findEntry s j.message = some e → 1 ≤ e.inUse → (e.erasePending = false ∨ 2 ≤ e.inUse) →
      s.store.grant ≠ none →
      let cleared := fun (u : State) => { u with
        jobs := s.jobs.filter fun x => decide (x.id ≠ j.id)
        store := { s.store with
          dir := updateWhere (fun e => decide (e.id = j.message)) (fun e => { e with inUse := e.inUse - 1 }) s.store.dir } }
      (j.state = .waiting → exec (.jobclear id) s = .next (cleared
        (queueReport (.job j.id .done j.tries (some ⟨.cancelled, 0, none, s.link.dayClock⟩)) (done 0x58#8 .ok [] s)))) ∧
      (j.state = .done → exec (.jobclear id) s = .next (cleared (done 0x58#8 .ok [] s))))) ∧
  (∀ (kind pref prio tries : Byte) (msg : Word16) (str : List Byte) (s : State), s.requests = [] →
    let jobadd := exec (.jobadd kind msg prio pref tries str) s
    (JobKind.ofCode kind.toNat = none ∨ LinePref.ofCode pref.toNat = none → jobadd = .next (done 0x4A#8 .badParam [] s)) ∧
    (∀ k lp, JobKind.ofCode kind.toNat = some k → LinePref.ofCode pref.toNat = some lp →
      ((∃ l ∈ lp.lines, dialStringOk (s.line l).profile.dialMethod str = false) → jobadd = .next (done 0x4A#8 .badParam [] s)) ∧
      ((∀ l ∈ lp.lines, dialStringOk (s.line l).profile.dialMethod str = true) → s.jobs.length < 16 →
        (k = .fax → faxRungs s.ladder = [] → jobadd = .next (done 0x4A#8 .badState [] s)) ∧
        ((k = .fax → faxRungs s.ladder ≠ []) → s.store.st = .ready → messageFits s k.mode msg.toNat = true →
          (∀ l ∈ lp.lines, outgoingBarred s (s.line l).profile.screenBar (dialNumber str) = true) →
          jobadd = .next (done 0x4A#8 .screened [] s))))) ∧
  (∀ (l o : Line) (j : Job) (rest : List Job) (s : State), s.requests = [] → o ≠ l → (s.line o).profile.autoCallout = false →
    let x := s.line l
    let p := x.profile
    let u : State := { s with
      now := max s.now s.link.secondDue
      link := { s.link with seconds := min 4294967295 (s.link.seconds + 1), secondDue := s.link.secondDue + 1000 } }
    let finished := fun (r : JobResult) =>
      let v := { u with jobs := updateWhere (fun k => decide (k.id = j.id)) (fun k => { k with
        state := .done, outcome := some ⟨r, k.lastTry.1, k.lastTry.2, s.link.dayClock⟩ }) s.jobs }
      queueReport (.job j.id .done j.tries (some ⟨r, j.lastTry.1, j.lastTry.2, s.link.dayClock⟩)) v
    (s.st l ≠ .idle ∨ p.autoCallout = false ∨ hasHook s l = false ∨ s.store.st ≠ .ready ∨
      p.extPolicy = .yieldLine ∧ x.iface.extState = true → exec .secondsTick s = .next u) ∧
    ((listOrder s.store.settings.order s.jobs).filter (fun k => decide (k.state = .waiting)) = j :: rest →
      findJob s j.id = some j → s.st l = .idle → p.autoCallout = true → hasHook s l = true → s.store.st = .ready →
      ¬(p.extPolicy = .yieldLine ∧ x.iface.extState = true) →
      (rest = [] → l ∉ j.preference.lines → exec .secondsTick s = .next u) ∧
      (l ∈ j.preference.lines →
        (rest = [] → consultAttempts u j.number = .barred → exec .secondsTick s = .next (finished .barred)) ∧
        (∀ n, rest = [] → consultAttempts u j.number = .delayed n → exec .secondsTick s = .next u) ∧
        (rest = [] → consultAttempts u j.number = .allowed → outgoingBarred s p.screenBar j.number = true →
          exec .secondsTick s = .next (finished .screened)) ∧
        (consultAttempts u j.number = .allowed → outgoingBarred s p.screenBar j.number = false → hasPin s (loopFn l) = true →
          x.iface.loop = .onHook → x.iface.expecting = false → x.voice.sub = none →
          ∃ t, exec .secondsTick s = .next t ∧ t.st l = .seize ∧ (t.line l).call.reason = some (.change .job) ∧
            (t.line l).call.cr = { emptyCallRecord with
              dir := some .outgoing, mode := some j.kind.mode, dialled := j.symbols, number := j.number
              message := some j.message, job := some j.id } ∧
            (t.line l).iface.hook = true ∧
            (t.line l).iface.loop = .wait (u.now + 1000) (if x.iface.loopIn then some (u.now + 20) else none) ∧
            t.jobs = updateWhere (fun k => decide (k.id = j.id)) (fun k => { k with state := .active }) s.jobs ∧
            t.link = (queueReport (.line l .seize (.change .job) none)
              (queueReport (.job j.id .active j.tries j.outcome) u)).link ∧
            t.attempts = (prepareAttempt j.number u).attempts ∧
            t = { u.setLine l { x with call := (t.line l).call, iface := (t.line l).iface } with
              link := t.link, jobs := t.jobs, attempts := t.attempts })))) ∧
  (∀ (l : Line) (c : Instr) (j : Job) (s : State), s.requests = [] → (s.st l).releasable = true →
    (s.line l).iface.tone = none → (s.line l).fax.role = none → (s.line l).voice.sub = none → (s.line l).call.refHeld = false →
    (∀ l, (s.line l).profile.autoCallout = false) → (s.line l).call.cr.job = some j.id → findJob s j.id = some j →
    let x := s.line l
    let tried := (x.fax.good, x.modem.rung)
    let change := fun (f : Job → Job) => updateWhere (fun k => decide (k.id = j.id)) f s.jobs
    let ended := fun (r : JobResult) => some (JobOutcome.mk r x.fax.good x.modem.rung s.link.dayClock)
    let settled := fun (t : State) => t.st l = .cleardown ∧
      t = { s.setLine l (t.line l) with link := t.link, now := t.now, attempts := t.attempts, jobs := t.jobs }
    (c = .release (lineByte l) 2#8 → ∃ t, exec c s = .next t ∧ settled t ∧ t.attempts = s.attempts ∧
      t.jobs = change fun k => { k with state := .done, lastTry := tried, outcome := ended .cancelled }) ∧
    (c = .extensionPickup l → x.iface.extDue ≠ none → x.iface.extIn = true → x.iface.extState = false →
      x.profile.extPolicy = .yieldLine → ∃ t, exec c s = .next t ∧ settled t ∧ t.attempts = s.attempts ∧
        t.jobs = change fun k => { k with state := .waiting, lastTry := tried }) ∧
    (c = .progressTimerExpiry l → x.call.progressDue ≠ none → x.fax.good = 0 → ∃ t, exec c s = .next t ∧ settled t ∧
      (j.tries + 1 < j.maxTries →
        t.jobs = change fun k => { k with tries := k.tries + 1, state := .waiting, lastTry := tried }) ∧
      (j.maxTries ≤ j.tries + 1 → t.jobs = change fun k => { k with
        tries := k.tries + 1, state := .done, lastTry := tried, outcome := ended .failed }) ∧
      (∀ i a, x.call.cr.dir = some .outgoing → x.call.reached = false → attemptIndex s x.call.cr.number = some i →
        entryAt s.attempts i = some a → a.failures ≤ 10 → t.attempts = s.attempts.set i (some { a with
          failures := a.failures + 1
          next := s.link.seconds + (if a.failures = 0 then 0 else if a.failures ≤ 2 then 60 else 180) }))))

/-- Three timers of a call: the digit timer empties the digit buffer (R73); the answer watch is armed 10 s into PROGRESS where no
ringback has been heard (R80); the classify window takes the line to VOICE, the greeting over (R72, R182, R183): a READY store with
room creates the recording's message, with the coding and limit of the call's mailbox or ADC4 and 120 s for none, the beep sounds, and
LINE (VOICE) is queued; a store that is not READY, or has no room, ends the call: LINE (VOICE), VOICE END (NO_SPACE) and LINE (CLEARDOWN,
VOICE_DONE) are queued where no monitor source is set, the release being asked for (the position 0 of that VOICE END is the MODEL's, log
entry 104). -/
def Obligations.CallTimersAct : Prop :=
  ∀ (l : Line) (due : Nat) (s : State), s.requests = [] →
    let x := s.line l
    let now := max s.now due
    (x.call.digitDue = some due → exec (.digitTimerExpiry l) s =
      .next { s.setLine l { x with call := { x.call with digits := [], digitDue := none } } with now := now }) ∧
    (x.call.watchDue = some due → s.st l = .progress → x.call.ringback = false → exec (.answerWatchArm l) s =
      .next { s.setLine l { x with call := { x.call with
        watchArmed := true, watchDue := none, speechRun := 0, silentRun := 0 } } with now := now }) ∧
    (x.call.classifyDue = some due → s.st l = .classify → s.store.st = .ready → s.store.settings.reserve < s.store.free.length →
      s.store.dir.length < 96 → x.voice.sub = some .greeting → readerOf s (.line l) = none → x.iface.tone = none →
      x.iface.expecting = false →
      let id := skipIds s.store.dir 97 s.store.nextId
      let box := x.call.cr.mailbox.bind fun m => s.mailboxes[m]?
      ∃ t, exec (.classifyWindowExpiry l) s = .next t ∧ t.st l = .voice ∧
        (t.line l).call.reason = some (.change .windowEnd) ∧ (t.line l).call.classifyDue = none ∧
        (t.line l).voice.sub = some .beep ∧ (t.line l).voice.kind = some .answered ∧ (t.line l).voice.message = some id ∧
        (t.line l).voice.coding = (box.map (·.coding)).getD .adc4 ∧
        (t.line l).voice.limit = (box.map (·.maxLength)).getD 120 * secondBytes (t.line l).voice.coding ∧
        (t.line l).iface = { x.iface with
          tone := some ⟨.beep x.profile.beepFrequency x.profile.beepDuration, true, now + x.profile.beepDuration⟩ } ∧
        (∃ e, t.store.dir = s.store.dir ++ [e] ∧ e.id = id ∧ e.kind = .voice ∧ e.state = .opened ∧ e.length = 0 ∧
          e.mailbox = x.call.cr.mailbox ∧ e.coding = (t.line l).voice.coding ∧ e.creation = s.store.creation) ∧
        (∃ w, t.store.writers = s.store.writers ++ [w] ∧ w.id = id ∧ w.owner = .line l ∧ w.accepted = 0) ∧
        t.link = (queueReport (.line l .voice (.change .windowEnd) none) s).link ∧
        t = { s.setLine l (t.line l) with link := t.link, now := now, store := t.store }) ∧
    (x.call.classifyDue = some due → s.st l = .classify →
      (s.store.st ≠ .ready ∨ s.store.free.length ≤ s.store.settings.reserve ∨ 96 ≤ s.store.dir.length) → x.voice.sub = some .greeting →
      readerOf s (.line l) = none → x.call.cr.job = none → x.call.refHeld = false → x.fax.role = none → x.iface.tone = none →
      ∃ t, exec (.classifyWindowExpiry l) s = .next t ∧ t.st l = .cleardown ∧
        (t.line l).call.reason = some (.release .voiceDone) ∧ (t.line l).voice.sub = none ∧
        (x.iface.current = .all false → t.link = (queueReports [.line l .voice (.change .windowEnd) none,
          .voice l .ended .noSpace 0, .line l .cleardown (.release .voiceDone) none] s).link) ∧
        t = { s.setLine l (t.line l) with link := t.link, now := now })

/-! ### Chapter 5: ladder, windows, training, rate changes -/

/-- LADDER (R96): a mode that is not named, an order that does not rise, a rung whose U, D and X do not rise, and a count outside 1
to 8 are BAD_PARAM; of every other list of operands, a line in TRAIN, DATA or FAX makes it BAD_STATE; otherwise the ladder is the one
given, each rung with the mode, U, D and X of its operand, and the value bytes are the number of rungs and of fax rungs. -/
def Obligations.LadderChecksThenLoads : Prop :=
  ∀ (raw : List RungParams) (s : State), s.requests = [] →
    ((∃ r ∈ raw, 7 < r.mode.toNat ∨ r.d.toNat ≤ r.u.toNat ∨ r.x.toNat ≤ r.d.toNat) ∨ raw = [] ∨ 8 < raw.length ∨
      (∃ (i : Nat) (a b : RungParams), raw[i]? = some a ∧ raw[i + 1]? = some b ∧ b.mode.toNat ≤ a.mode.toNat) →
      exec (.ladder raw) s = .next (done 0x4C#8 .badParam [] s)) ∧
    (raw ≠ [] → raw.length ≤ 8 → (∀ r ∈ raw, r.mode.toNat ≤ 7 ∧ r.u.toNat < r.d.toNat ∧ r.d.toNat < r.x.toNat) →
      (∀ (i : Nat) (a b : RungParams), raw[i]? = some a → raw[i + 1]? = some b → a.mode.toNat < b.mode.toNat) →
      ∃ rungs : List Rung, rungs.length = raw.length ∧
      (∀ (i : Nat) (p : RungParams), raw[i]? = some p → ∃ r, rungs[i]? = some r ∧
        [Mode.l3, .l12, .l24, .l48, .l96, .l144, .l192, .l240][p.mode.toNat]? = some r.mode ∧ r.u = p.u.toNat ∧
        r.d = p.d.toNat ∧ r.x = p.x.toNat) ∧
      ((∃ l, s.st l = .train ∨ s.st l = .data ∨ s.st l = .fax) → exec (.ladder raw) s = .next (done 0x4C#8 .badState [] s)) ∧
      ((∀ l, s.st l ≠ .train ∧ s.st l ≠ .data ∧ s.st l ≠ .fax) → exec (.ladder raw) s =
        .next { done 0x4C#8 .ok [BitVec.ofNat 8 rungs.length, BitVec.ofNat 8 (faxRungs rungs).length] s with ladder := rungs }))

/-- WINDOW_END in DATA of the window in progress, with the carrier within its limit (R97 to R102): the errors are summed with the window's
own threshold as their ceiling, and the next window begins with the threshold and divisor of the profile (R99; a window brings its symbols
with its end, log entry 47). A window that is no burst blends its mean into Q and clears the burst run; with a hold-off it only counts it
down, and with hold-off 0 it asks for a retrain at X or beyond (QUALITY set), else requests the lower rung at D or beyond, else counts up
below U and requests the higher rung at 30, steps 2 and 3 not while a request is outstanding. A burst leaves Q, counts the burst and clears
the up-count; the third in a row asks for a retrain. A retrain asked for takes the line to TRAIN with PROBE begun, or at the limit of the
history releases it with LINE_QUALITY. IMPULSE is delivered as the window has it: set by a burst window, cleared by another, with the
MONITOR report of a change. A frame is on the line, and the time of a request and its 2 s count from this moment all the same: the MODEL's,
log entry 54. A WINDOW_END with no window begun changes nothing (R98; log entry 47). -/
def Obligations.WindowEndBlendsQuality : Prop :=
  ∀ (l : Line) (symbols : List SymbolReading) (offset : Int) (r : Rung) (w : Window) (s : State), s.requests = [] → s.st l = .data →
    currentRung s l = some r → (s.line l).modem.window = some w → (s.line l).modem.phase = none → (s.line l).fax.role = none →
    (s.line l).iface.current.freqLimit = false → offset.natAbs ≤ (s.line l).profile.freqLimit * 10 →
    (s.line l).dl.sending ≠ none → (s.line l).dl.clear ≠ .received →
    let x := s.line l
    let m := x.modem
    let p := x.profile
    let W := r.mode.windowLength
    let M := (w.sum + (symbols.map fun y => min (symbolError y) w.threshold).sum) / W
    let K := w.impulses + (symbols.filter fun y => decide (w.threshold < symbolError y)).length
    let q := (3 * m.q + M + 2) / 4
    let told := setCondition l .impulse (decide (W / w.divisor < K)) s
    let ended := fun (f : Modem → Modem) => { told.line l with modem := f { m with
      window := some ⟨p.impulseThreshold, p.burstDivisor, 0, 0, 0⟩, lastWindow := some ⟨M, K, decide (W / w.divisor < K)⟩
      offset := some offset } }
    let next := fun (f : Modem → Modem) => told.setLine l (ended f)
    let asked := fun (k : Nat) (target : Rung) => told.setLine l { ended (fun m' => { m' with
        q := q, burstRun := 0, upCount := 0, request := some ⟨k, target.mode, s.now - x.call.leftAt, s.now + 2000⟩ }) with
      dl := { x.dl with rateQueue := x.dl.rateQueue ++ [.rate false target.mode] } }
    let history := addHistory m.history (s.now - x.call.leftAt)
    let retrained := fun (t : State) => t.st l = .train ∧ (t.line l).call.reason = some (.change .retrain) ∧
      (t.line l).modem.history = history ∧ (t.line l).modem.retrainFrom = some .data ∧ (t.line l).modem.phase = some .probe ∧
      (t.line l).modem.request = none ∧ (t.line l).modem.trainDue = some (s.now + 10000) ∧
      (t.line l).iface.current.impulse = decide (W / w.divisor < K) ∧
      t = { s.setLine l (t.line l) with link := t.link }
    let unoccupied := x.iface.tone = none ∧ x.voice.sub = none ∧ x.call.cr.job = none ∧ x.call.refHeld = false
    let released := fun (t : State) => t.st l = .cleardown ∧ (t.line l).call.reason = some (.release .lineQuality) ∧
      t = { s.setLine l (t.line l) with link := t.link, attempts := t.attempts }
    (told.line l).iface.current.impulse = decide (W / w.divisor < K) ∧
    (K ≤ W / w.divisor →
      (0 < m.holdOff → exec (.windowEnd l symbols offset) s = .next (next fun m' => { m' with
        q := q, burstRun := 0, holdOff := m.holdOff - 1 })) ∧
      (m.holdOff = 0 → r.x ≤ q → historyFull history = false →
        ∃ t, exec (.windowEnd l symbols offset) s = .next t ∧ retrained t ∧ (t.line l).modem.q = q ∧
          (t.line l).iface.current.quality = true) ∧
      (m.holdOff = 0 → r.x ≤ q → historyFull history = true → unoccupied →
        ∃ t, exec (.windowEnd l symbols offset) s = .next t ∧ released t) ∧
      (m.holdOff = 0 → q < r.x → m.request ≠ none → exec (.windowEnd l symbols offset) s = .next (next fun m' => { m' with
        q := q, burstRun := 0 })) ∧
      (∀ k target, m.holdOff = 0 → q < r.x → m.request = none → r.d ≤ q →
        ((m.rungSet.getD []).filter fun i => decide (i < m.rung.getD 0)).getLast? = some k → s.ladder[k]? = some target →
        exec (.windowEnd l symbols offset) s = .next (asked k target)) ∧
      (m.holdOff = 0 → q < r.x → m.request = none →
        q < r.d ∨ (∀ i ∈ m.rungSet.getD [], m.rung.getD 0 ≤ i) →
        let up := if q < r.u then min 30 (m.upCount + 1) else 0
        (up < 30 ∨ (∀ i ∈ m.rungSet.getD [], i ≤ m.rung.getD 0) → exec (.windowEnd l symbols offset) s =
          .next (next fun m' => { m' with q := q, burstRun := 0, upCount := up })) ∧
        (∀ k target, up = 30 → ((m.rungSet.getD []).find? fun i => decide (m.rung.getD 0 < i)) = some k → s.ladder[k]? = some target →
          exec (.windowEnd l symbols offset) s = .next (asked k target)))) ∧
    (W / w.divisor < K →
      (m.burstRun < 2 → exec (.windowEnd l symbols offset) s = .next (next fun m' => { m' with
        burstRun := m.burstRun + 1, upCount := 0, holdOff := m.holdOff - 1 })) ∧
      (2 ≤ m.burstRun → historyFull history = false →
        ∃ t, exec (.windowEnd l symbols offset) s = .next t ∧ retrained t ∧ (t.line l).modem.q = m.q) ∧
      (2 ≤ m.burstRun → historyFull history = true → unoccupied →
        ∃ t, exec (.windowEnd l symbols offset) s = .next t ∧ released t)) ∧
    (∀ u : State, (u.line l).modem.window = none → u.requests = [] → exec (.windowEnd l symbols offset) u = .next u)

/-- Training (R107 to R109): PROBE_SENT before the tenth window waits for it; PROPOSE in PROBE is kept, and an end that
holds it as PROBE ends sends its own PROPOSE and then CONFIRM; in PROPOSE the highest mode of the common rungs not above either proposal
is chosen and CONFIRM goes out; every 500 ms the message of the phase goes out again, PROPOSE in PROPOSE, a far CONFIRM that came early
being kept, and CONFIRM in CONFIRM; the same mode in the far CONFIRM completes training: RATE (TRAIN) and then LINE (DATA) are queued (no
monitor source is set), the window and payload negotiated, and DATA entered with a fresh link. The window begun at the completion is the
MODEL's, log entry 47. -/
def Obligations.TrainingProposesConfirmsCompletes : Prop :=
  ∀ (l : Line) (s : State), s.requests = [] → s.st l = .train →
    let x := s.line l
    let m := x.modem
    let p := x.profile
    (∀ due, m.probeDue = some due → m.probeCount < 10 → exec (.probeSent l) s = .next { s.setLine l { x with
      modem := { m with probeDue := none, probeSent := true } } with now := max s.now due }) ∧
    (∀ (b modes : Byte) mode, m.phase = some .probe → Mode.ofCode b.toNat = some mode → exec (.propose l b modes) s =
      .next (s.setLine l { x with modem := { m with farPropose := some (some mode, modeSet modes), sent := [] } })) ∧
    (∀ (b modes : Byte) far own mode, m.phase = some .propose → m.retrainFrom = none → m.farConfirm = none →
      Mode.ofCode b.toNat = some far → m.proposal = some own →
      chooseMode s.ladder (commonRungs s.ladder (modeSet modes)) (some own) (some far) = some mode →
      exec (.propose l b modes) s = .next (s.setLine l { x with modem := { m with
        farPropose := some (some far, modeSet modes), rungSet := some (commonRungs s.ladder (modeSet modes))
        phase := some .confirm, chosen := some mode, sent := [.confirm mode p.window p.payloadMax]
        repeatDue := some (s.now + 500) } })) ∧
    (∀ due message, m.repeatDue = some due →
      (m.phase = some .propose ∧ message = .propose m.proposal (s.ladder.map (·.mode)) ∨
        (∃ mode, m.phase = some .confirm ∧ m.chosen = some mode ∧ message = .confirm mode p.window p.payloadMax)) →
      exec (.trainingMessageRepeat l) s = .next { s.setLine l { x with
        modem := { m with repeatDue := some (due + 500), sent := [message] } } with now := max s.now due }) ∧
    (∀ (b w : Byte) (pay : Word16) mode, m.phase = some .probe ∨ m.phase = some .propose → Mode.ofCode b.toNat = some mode →
      exec (.confirm l b w pay) s =
        .next (s.setLine l { x with modem := { m with farConfirm := some (mode, w.toNat, pay.toNat), sent := [] } })) ∧
    (∀ due far modes own mode, m.phase = some .probe → m.probeDue = some due → 10 ≤ m.probeCount → 0 < m.probeGood →
      m.retrainFrom = none → m.farConfirm = none → m.farPropose = some (some far, modes) →
      proposalOf s.ladder (m.probeSum / m.probeGood) = some own →
      chooseMode s.ladder (commonRungs s.ladder modes) (some own) (some far) = some mode →
      exec (.probeSent l) s = .next { s.setLine l { x with modem := { m with
        probeDue := none, probeSent := true, phase := some .confirm, mProbe := some (m.probeSum / m.probeGood), proposal := some own
        window := none, rungSet := some (commonRungs s.ladder modes), chosen := some mode
        sent := [.propose (some own) (s.ladder.map (·.mode)), .confirm mode p.window p.payloadMax]
        repeatDue := some (max s.now due + 500) } } with now := max s.now due }) ∧
    (∀ (b w : Byte) (pay : Word16) mode i r, m.phase = some .confirm → m.chosen = some mode → Mode.ofCode b.toNat = some mode →
      rungOfMode s mode = some i → s.ladder[i]? = some r → m.retrainFrom = none → x.call.cr.dir = some .incoming →
      x.dl.tx = [] → x.dl.sending = none → x.dl.clear = .none → x.dl.rateQueue = [] → x.dl.started = false →
      x.dl.clearForced = false →
      ∃ t, exec (.confirm l b w pay) s = .next t ∧ t.st l = .data ∧ (t.line l).call.reason = some (.change .trained) ∧
        (t.line l).modem.rung = some i ∧ (t.line l).modem.q = predicted (m.mProbe.getD 0) r.mode ∧
        (t.line l).modem.holdOff = 10 ∧ (t.line l).modem.phase = none ∧ (t.line l).modem.trainDue = none ∧
        (t.line l).modem.window = some ⟨p.impulseThreshold, p.burstDivisor, 0, 0, 0⟩ ∧
        (t.line l).dl.negotiated = some (min p.window (max 1 (min 8 w.toNat)), min p.payloadMax (max 32 (min 256 pay.toNat))) ∧
        (t.line l).dl.send = 0 ∧ (t.line l).dl.expected = 0 ∧ (t.line l).dl.list = [] ∧
        (x.iface.current = .all false →
          t.link = (queueReports [.rate l i r.mode .train, .line l .data (.change .trained) none] s).link) ∧
        t = { s.setLine l (t.line l) with link := t.link })

/-- Rate changes (R103 to R106): a refusal ends the request; RATE_OK for it switches the rung with hold-off 10 and RATE (DOWN or UP); a RATE
for a lower mode of the call's rungs is answered RATE_OK and followed; one for a higher mode too, where the Q predicted for it lies below
its D and no request of this line is outstanding, else it is refused; and one for the current mode or a mode outside them is refused, each
refusal naming the mode in use. The line is in DATA, no CLEAR received, and a frame on the line. The refusal of a mode outside the rungs,
for a downshift too, is the MODEL's, log entry 54, and so are the window begun at the switch, log entry 47, and a RATE of this line's own
that still waits when RATE_OK is queued behind it, log entry 79. -/
def Obligations.RateFramesChangeTheRung : Prop :=
  ∀ (l : Line) (b : Byte) (cur target : Rung) (i : Nat) (s : State), s.requests = [] → s.st l = .data →
    (s.line l).dl.clear ≠ .received → (s.line l).dl.sending ≠ none → currentRung s l = some cur → s.ladder[i]? = some target →
    let x := s.line l
    let switched := fun (dl : DataLink) (cause : RateCause) => queueReport (.rate l i target.mode cause) (s.setLine l { x with
      dl := dl, modem := { x.modem with
        window := some ⟨x.profile.impulseThreshold, x.profile.burstDivisor, 0, 0, 0⟩, rung := some i, holdOff := 10, upCount := 0, burstRun := 0, request := none } })
    let refused := s.setLine l { x with dl := { x.dl with rateQueue := x.dl.rateQueue ++ [.rate true cur.mode] } }
    exec (.rateRefused l b) s = .next (s.setLine l { x with modem := { x.modem with request := none } }) ∧
    (∀ q, x.modem.request = some q → q.rung = i → q.mode.code = b.toNat →
      exec (.rateOk l b) s = .next (switched x.dl (if x.modem.rung.getD 0 < i then .up else .down))) ∧
    (∀ want, Mode.ofCode b.toNat = some want → target.mode = want → want.below cur.mode = true →
      (x.modem.rungSet.getD []).find? (fun k => decide ((s.ladder[k]?).map (·.mode) = some want)) = some i →
      exec (.rateRequest l b) s =
        .next (switched { x.dl with rateQueue := x.dl.rateQueue ++ [.rateOk want] } .down)) ∧
    (∀ want, Mode.ofCode b.toNat = some want → target.mode = want → cur.mode.below want = true →
      (x.modem.rungSet.getD []).find? (fun k => decide ((s.ladder[k]?).map (·.mode) = some want)) = some i →
      let predicted := x.modem.q * want.density / cur.mode.density
      (x.modem.request = none → predicted < target.d → exec (.rateRequest l b) s =
        .next (switched { x.dl with rateQueue := x.dl.rateQueue ++ [.rateOk want] } .up)) ∧
      (x.modem.request ≠ none ∨ target.d ≤ predicted → exec (.rateRequest l b) s = .next refused)) ∧
    (∀ want, Mode.ofCode b.toNat = some want → (want = cur.mode ∨
      (x.modem.rungSet.getD []).find? (fun k => decide ((s.ladder[k]?).map (·.mode) = some want)) = none) →
      exec (.rateRequest l b) s = .next refused)

/-- A retrain from DATA (R105, R110, R130): the far end's probe, a request that gets no answer within 2 s, and a RATE_OK for another mode
each take the line to TRAIN with reason RETRAIN and PROBE begun, the request gone, and the link frozen: the frame on the line is abandoned,
the retransmit timer stands with the time it had left, the forming delay stops, the resend point is none and the RATE frames are dropped,
while queues, list, numbers, retry count, flags and clear state are kept; the retrain history takes the line time. The history does not fill
up. (A CLEAR abandoned on the line is to be sent again: the MODEL's, log entry 68; a REJ, an RR or RNR and a poll stay due: the MODEL's, log
entry 80.) The window begun with PROBE is the MODEL's, log entry 47, and so is a RATE_OK whose byte names no mode taken as one for another
mode, log entry 38. -/
def Obligations.RetrainTakesDataToTrain : Prop :=
  ∀ (l : Line) (c : Instr) (now : Nat) (s : State), s.requests = [] → s.st l = .data → (s.line l).dl.clear ≠ .received →
    (c = .farProbeStart l ∧ now = s.now ∨
      (∃ q, c = .rateAnswerTimerExpiry l ∧ (s.line l).modem.request = some q ∧ now = max s.now q.due) ∨
      (∃ q b, c = .rateOk l b ∧ (s.line l).modem.request = some q ∧ q.mode.code ≠ b.toNat ∧ now = s.now)) →
    historyFull (addHistory (s.line l).modem.history (now - (s.line l).call.leftAt)) = false →
    ∃ t, exec c s = .next t ∧ t.st l = .train ∧ (t.line l).call.reason = some (.change .retrain) ∧
      (t.line l).modem.window =
        some ⟨(s.line l).profile.impulseThreshold, (s.line l).profile.burstDivisor, 0, 0, 0⟩ ∧
      (t.line l).modem.phase = some .probe ∧ (t.line l).modem.trainDue = some (now + 10000) ∧
      (t.line l).modem.request = none ∧ (t.line l).modem.retrainFrom = some .data ∧
      (t.line l).modem.history = addHistory (s.line l).modem.history (now - (s.line l).call.leftAt) ∧
      (t.line l).dl = { (s.line l).dl with
        sending := none, formDue := none, resend := none, rateQueue := [], clearSent := false
        timer := match (s.line l).dl.timer with | .running due => .frozen (due - now) | other => other } ∧
      (t.line l).modem.rung = (s.line l).modem.rung ∧
      t = { s.setLine l (t.line l) with link := t.link, now := now }

/-! ### Chapter 6: the data link -/

/-- INFO in DATA, a frame being on the line (R118, R127, R129): the expected number with room in the receive queue is
accepted, in order, and an acknowledgement is due; too little room left makes the link busy; one of the eight before it makes an
acknowledgement due; one of the eight after it makes one REJ due. The acknowledgement number removes nothing, and the arbiter is engaged
or held. A payload of a wrong size and a bad frame cost the link penalty, at once and in whatever state the line is (R100; that they do
so outside DATA too is the MODEL's, log entry 78); after a received CLEAR they, and any INFO, have no effect (R133). A BAD_FRAME whose bytes
are a good frame has none (the MODEL's, log entry 37). -/
def Obligations.InfoIsAcceptedOrRejected : Prop :=
  (∀ (l : Line) (seq ack : Byte) (payload : List Byte) (s : State), s.requests = [] → s.st l = .data →
    (s.line l).dl.clear ≠ .received → (s.line l).dl.sending ≠ none → (s.line l).dl.list = [] →
    (s.link.sending ≠ .idle ∨ s.link.hhold = true) →
    let x := s.line l
    let d := x.dl
    let with_ := fun (d' : DataLink) => s.setLine l { x with dl := d' }
    (1 ≤ payload.length → payload.length ≤ 256 → seq.toNat = d.expected → d.expected < 64 →
      payload.length ≤ 4096 - d.rx.length →
      (d.payloadMax ≤ 4096 - (d.rx.length + payload.length) ∨ d.localBusy = true → exec (.info l seq ack payload) s =
        .next (with_ { d with rx := d.rx ++ payload, expected := (d.expected + 1) % 64, ackDue := true, rejSent := false })) ∧
      (4096 - (d.rx.length + payload.length) < d.payloadMax → d.localBusy = false → exec (.info l seq ack payload) s =
        .next (with_ { d with
          rx := d.rx ++ payload, expected := (d.expected + 1) % 64, ackDue := true, rejSent := false
          localBusy := true, rrDue := true }))) ∧
    (∀ n, 1 ≤ payload.length → payload.length ≤ 256 → 1 ≤ n → n ≤ 8 → seq.toNat < 64 → d.expected < 64 →
      ((seq.toNat + n) % 64 = d.expected → exec (.info l seq ack payload) s = .next (with_ { d with ackDue := true })) ∧
      ((d.expected + n) % 64 = seq.toNat → d.rejSent = false →
        exec (.info l seq ack payload) s = .next (with_ { d with rejDue := true, rejSent := true })) ∧
      ((d.expected + n) % 64 = seq.toNat → d.rejSent = true → exec (.info l seq ack payload) s = .next s))) ∧
  (∀ (l : Line) (seq ack : Byte) (payload bytes : List Byte) (s : State), s.requests = [] →
    let x := s.line l
    let penalty := s.setLine l { x with modem := { x.modem with q := min 65535 (x.modem.q + x.profile.linkPenalty) } }
    (x.dl.clear ≠ .received →
      (payload.length = 0 ∨ 256 < payload.length → exec (.info l seq ack payload) s = .next penalty) ∧
      (frameGood bytes = false → exec (.badFrame l bytes) s = .next penalty)) ∧
    (x.dl.clear = .received → exec (.info l seq ack payload) s = .next s ∧ exec (.badFrame l bytes) s = .next s) ∧
    (frameGood bytes = true → exec (.badFrame l bytes) s = .next s))

/-- RR, RNR and REJ in DATA, a frame being on the line (R123, R124, R126): an acknowledgement number removes the frames before it
from the retransmit list, and the retry count and timer start again; a poll makes an answer due; RNR holds new frames back; REJ sets
the resend point. The list holds the frames numbered from `first` on, and the far end is not busy. -/
def Obligations.AcknowledgementsMoveTheList : Prop :=
  ∀ (l : Line) (ack : Byte) (poll : Bool) (f : InfoFrame) (rest : List InfoFrame) (n : Nat) (s : State), s.requests = [] →
    s.st l = .data → (s.line l).dl.clear ≠ .received → (s.line l).dl.sending ≠ none → (s.line l).dl.list = f :: rest →
    (s.line l).dl.remoteBusy = false → (s.line l).dl.resend = none → f.sequence < 64 →
    (s.line l).dl.send = (f.sequence + rest.length + 1) % 64 → rest.length < 8 → n ≤ rest.length → 1 ≤ n →
    ack.toNat = (f.sequence + n) % 64 →
    let x := s.line l
    let d := x.dl
    let running := DlTimer.running (s.now + timerPeriod d.payloadMax (currentRate s l))
    exec (.rr l ack poll) s = .next (s.setLine l { x with dl := { d with
      list := (f :: rest).drop n, retries := 0, timer := running, rrDue := d.rrDue || poll } }) ∧
    (d.timer ≠ .stopped → exec (.rnr l ack poll) s = .next (s.setLine l { x with dl := { d with
      list := (f :: rest).drop n, retries := 0, timer := running, remoteBusy := true, rrDue := d.rrDue || poll } })) ∧
    exec (.rej l ack) s = .next (s.setLine l { x with dl := { d with
      list := (f :: rest).drop n, retries := 0, timer := running, resend := some ack.toNat } })

/-- The transmitter and the timers (R121, R122, R124 to R126, R132). At the end of a frame the first that is ready begins: a queued RATE
frame; a REJ that is due; an RR or RNR that is due for any cause, RNR while the link is busy, with the poll flag where a poll is due; unless
the far end is busy the frame at the resend point, which moves on, to none behind the newest; with no resend in progress a new INFO of a
full payload, or of what waits once 20 ms have passed without a byte; the RR or RNR of an acknowledgement; CLEAR, once queue and list are
empty or its time has passed; and else the line is left free. Each INFO, RR, RNR and REJ clears the acknowledgement due. The forming delay's
end forms an INFO frame of the bytes that wait; the retransmit timer counts a retry and restarts, and sets the resend point to the oldest
frame, or makes a poll due while the far end is busy; the clear timer makes CLEAR ready whatever is queued. -/
def Obligations.TransmitterChoosesTheNextFrame : Prop :=
  ∀ (l : Line) (due : Nat) (s : State), s.requests = [] → s.st l = .data → (s.line l).dl.clear ≠ .received →
    let x := s.line l
    let d := x.dl
    let with_ := fun (d' : DataLink) => s.setLine l { x with dl := d' }
    let now := max s.now due
    let period := DlTimer.running (now + timerPeriod d.payloadMax (currentRate s l))
    let ready := fun (poll : Bool) => if d.localBusy then Frame.rnr d.expected poll else .rr d.expected poll
    (∀ f, d.sending = some f → f ≠ .clear →
      let begins := fun (d' : DataLink) => exec (.frameSent l) s = .next (with_ d')
      (∀ g rest, d.rateQueue = g :: rest → begins { d with sending := some g, rateQueue := rest }) ∧
      (d.rateQueue = [] →
        (d.rejDue = true → begins { d with sending := some (.rej d.expected), rejDue := false, ackDue := false }) ∧
        (d.rejDue = false → d.rrDue = true ∨ d.pollDue = true →
          begins { d with sending := some (ready d.pollDue), rrDue := false, pollDue := false, ackDue := false }) ∧
        (d.rejDue = false → d.rrDue = false → d.pollDue = false →
          (∀ before g after, d.remoteBusy = false → d.list = before ++ g :: after → d.resend = some g.sequence →
            (∀ h ∈ before, h.sequence ≠ g.sequence) →
            begins { d with
              sending := some (.info g.sequence d.expected g.payload), ackDue := false
              resend := if (g.sequence + 1) % 64 = d.send then none else some ((g.sequence + 1) % 64) }) ∧
          (d.remoteBusy = false → d.resend = none → d.list.length < d.windowSize → d.clearForced = false →
            d.payloadMax ≤ d.tx.length ∨ d.tx ≠ [] ∧ (∀ wait, d.formDue = some wait → wait ≤ s.now) →
            s.link.target ≠ targetOf l →
            begins { d with
              tx := d.tx.drop d.payloadMax, list := d.list ++ [⟨d.send, d.tx.take d.payloadMax⟩], send := (d.send + 1) % 64
              sending := some (.info d.send d.expected (d.tx.take d.payloadMax)), ackDue := false
              timer := if d.list = [] then .running (s.now + timerPeriod d.payloadMax (currentRate s l)) else d.timer }) ∧
          (d.remoteBusy = true ∨ d.resend = none ∧ (d.windowSize ≤ d.list.length ∨ d.clearForced = true ∨
              d.tx.length < d.payloadMax ∧ (d.tx = [] ∨ ∃ wait, d.formDue = some wait ∧ s.now < wait)) →
            (d.ackDue = true → begins { d with sending := some (ready false), ackDue := false }) ∧
            (d.ackDue = false → d.clear = .graceful → d.clearSent = false → d.tx = [] ∧ d.list = [] ∨ d.clearForced = true →
              begins { d with sending := some .clear, clearSent := true }) ∧
            (d.ackDue = false →
              d.clear = .none ∨ d.clearSent = true ∨ d.clearForced = false ∧ (d.tx ≠ [] ∨ d.list ≠ []) →
              begins { d with sending := none }))))) ∧
    (d.formDue = some due → d.sending = none → d.rateQueue = [] → d.rejDue = false → d.rrDue = false → d.pollDue = false →
      d.resend = none → d.remoteBusy = false → d.clearForced = false → d.list = [] → 1 ≤ d.windowSize → d.tx ≠ [] →
      d.tx.length ≤ d.payloadMax → s.link.target ≠ targetOf l →
      exec (.formingDelayEnd l) s = .next { with_ { d with
        formDue := none, tx := [], list := [⟨d.send, d.tx⟩], send := (d.send + 1) % 64
        sending := some (.info d.send d.expected d.tx), ackDue := false, timer := period } with now := now }) ∧
    (d.timer = .running due → d.retries < 10 → d.sending ≠ none → d.remoteBusy = false →
      exec (.retransmitTimerExpiry l) s = .next { with_ { d with
        retries := d.retries + 1, resend := d.list.head?.map (·.sequence), timer := period } with now := now }) ∧
    (d.timer = .running due → d.retries < 10 → d.remoteBusy = true →
      (d.sending ≠ none → exec (.retransmitTimerExpiry l) s = .next { with_ { d with
        retries := d.retries + 1, pollDue := true, timer := period } with now := now }) ∧
      (d.sending = none → d.rateQueue = [] → d.rejDue = false → exec (.retransmitTimerExpiry l) s = .next { with_ { d with
        retries := d.retries + 1, sending := some (ready true), rrDue := false, pollDue := false, ackDue := false
        timer := period } with now := now })) ∧
    (d.clearDue = some due → d.sending ≠ none → exec (.clearTimerExpiry l) s =
      .next { with_ { d with clearDue := none, clearForced := true } with now := now })

/-! ### Chapter 7: the message store -/

/-- FORMAT, the label write that ends it, and STORESET (R136, R142, R155, R156): the refusals, a format's IN_USE for a message that is OPEN
or referenced and for a job among them; an accepted format empties directory, free pool and unheard list, counts itself, clears the new
flags and writes the label first; the last label write puts the store in READY with its report and writes the label's bytes alone; STORESET
sets the four settings, the watermark at most 96, and queues STORE WATERMARK behind its DONE where the unheard list already holds so many.
-/
def Obligations.FormatAndStoresetAct : Prop :=
  ∀ (raw : List RegionParams) (a b c d : Byte) (s : State), s.requests = [] →
    let st := s.store
    (st.st = .scanning ∨ st.st = .formatting → exec (.format raw) s = .next (done 0x67#8 .notReady [] s)) ∧
    (st.st = .ready ∨ st.st = .unformatted →
      (formatTable raw = none → exec (.format raw) s = .next (done 0x67#8 .badParam [] s)) ∧
      (∀ regions, formatTable raw = some regions → (s.jobs ≠ [] ∨ ∃ e ∈ st.dir, e.state = .opened ∨ 0 < e.inUse) →
        exec (.format raw) s = .next (done 0x67#8 .inUse [] s)) ∧
      (∀ regions, formatTable raw = some regions → s.jobs = [] → (∀ e ∈ st.dir, e.state ≠ .opened ∧ e.inUse = 0) →
        st.readA = none → st.readB = none → st.readHost = none → st.grant = none →
        exec (.format raw) s = .next { done 0x67#8 .ok (numBytes 2 (presentSegments regions).length) s with
          mailboxes := s.mailboxes.map fun m => { m with isNew := false }
          store := { st with
            st := .formatting, regions := regions, free := [], dir := [], unheard := [], nextId := 1, creation := 0
            formatCount := if st.formatCount < 65535 then st.formatCount + 1 else 0
            writers := [], waiting := [], grant := some (.maint (.label false))
            maint := (presentSegments regions).map (fun g => Maint.freeHeader g .format) ++ [.label true] } })) ∧
    (portQuiet s → st.grant = some (.maint (.label true)) → s.jobs = [] →
      exec .labelWriteComplete s = .next (queueReport (.store .ready st.dir.length) { s with store := { st with
        grant := none, st := .ready, scan := none
        memory := Memory.writeBytes st.memory 0 (labelBytes true st.regions st.formatCount) } }) ∧
      (Memory.wf st.memory = true → ∀ x, (labelBytes true st.regions st.formatCount).length ≤ x →
        Memory.read (Memory.writeBytes st.memory 0 (labelBytes true st.regions st.formatCount)) x = Memory.read st.memory x)) ∧
    (st.st ≠ .ready → exec (.storeset a b c d) s = .next (done 0x73#8 .notReady [] s)) ∧
    (st.st = .ready → (1 < b.toNat ∨ 1 < d.toNat) → exec (.storeset a b c d) s = .next (done 0x73#8 .badParam [] s)) ∧
    (∀ policy order, st.st = .ready → (b = 0#8 ∧ policy = .recycle ∨ b = 1#8 ∧ policy = .keep) →
      (d = 0#8 ∧ order = .fifo ∨ d = 1#8 ∧ order = .priority) →
      let written := { done 0x73#8 .ok [] s with store := { st with settings := ⟨a.toNat, policy, min 96 c.toNat, order⟩ } }
      (c = 0#8 ∨ st.unheard.length < min 96 c.toNat → exec (.storeset a b c d) s = .next written) ∧
      (c ≠ 0#8 → min 96 c.toNat ≤ st.unheard.length →
        exec (.storeset a b c d) s = .next (queueReport (.store .watermark st.unheard.length) written)))

/-- OPEN, CLOSE, READ and the host write stream's bytes (R147, R149 to R151): the refusals in their order (no BUSY for a host message that a
full store ended and that is still ERASING: the MODEL's choice, log entry 82); OPEN, of VOICE with a coding, of FAX without one and of FILE
with any, creates an OPEN message of length 0 under the next free id with its writing stream; a byte joins the buffer and the message's
length; CLOSE of an empty message removes it; CLOSE of another answers its length and closes the stream (with pages 0, of a FAX message too:
the value is the MODEL's, log entry 70), its bytes in the buffer becoming the last segment, and with all written the rewrite of the copy is
asked for, whose completion makes the message CLOSED with MESSAGE, a place in the unheard list by creation number (no watermark set) and the
mailbox's new flag (R155, R180); READ is BUSY while a read goes on, READ of id 0 stops that read, its stream closed and its reference
returned (which is no withdrawn message's last), and it is NO_ENTRY for a message that is OPEN, ERASING, erase-pending or referenced 255
times; else READ takes a reference and opens the stream at its offset, the value bytes the bytes to come. -/
def Obligations.HostStreamsOpenCloseRead : Prop :=
  (∀ (k c b : Byte) (m : Word16) (o : Word32) (w : WStream) (e : Entry) (s : State), s.requests = [] →
    let st := s.store
    (st.st ≠ .ready → exec (.openMessage k c) s = .next (done 0x4F#8 .notReady [] s) ∧
      exec .closeMessage s = .next (done 0x57#8 .notReady [] s) ∧
      exec (.readMessage m o) s = .next (done 0x52#8 .notReady [] s)) ∧
    (∀ kind coding, st.st = .ready →
      k = 0#8 ∧ kind = .voice ∧ c ≠ 0#8 ∨ k = 1#8 ∧ kind = .fax ∧ c = 0#8 ∨ k = 2#8 ∧ kind = .file →
      c = 0#8 ∧ coding = .none ∨ c = 1#8 ∧ coding = .adc4 ∨ c = 2#8 ∧ coding = .adc2 →
      (hostWriter s ≠ none → exec (.openMessage k c) s = .next (done 0x4F#8 .busy [] s)) ∧
      (hostWriter s = none → 96 ≤ st.dir.length → exec (.openMessage k c) s = .next (done 0x4F#8 .tableFull [] s)) ∧
      (hostWriter s = none → st.dir.length < 96 → st.free.length ≤ st.settings.reserve →
        exec (.openMessage k c) s = .next (done 0x4F#8 .storeFull [] s)) ∧
      (hostWriter s = none → st.dir.length < 96 → st.settings.reserve < st.free.length → s.link.target ≠ .store →
        ∃ t, exec (.openMessage k c) s = .next t ∧
          t.store.dir = st.dir ++ [{
            id := freshId s, kind := kind, state := .opened, writer := some .host, mailbox := none, coding := coding
            length := 0, pages := 0, created := s.link.dayClock, creation := st.creation, caller := none, fetched := true
            truncated := false, recovered := false, erasePending := false, inUse := 0, chain := [] }] ∧
          t.store.writers = st.writers ++ [newWriter (freshId s) .host] ∧ t.store.hostFail = false ∧
          t.link = (done 0x4F#8 .ok (numBytes 2 (freshId s)) s).link ∧ t.store.memory = st.memory ∧
          t = { s with link := t.link, store := t.store })) ∧
    (st.st = .ready → k = 0#8 ∧ c = 0#8 ∨ k = 1#8 ∧ c ≠ 0#8 ∨ 2 < k.toNat ∨ 2 < c.toNat →
      exec (.openMessage k c) s = .next (done 0x4F#8 .badParam [] s)) ∧
    (st.st = .ready → st.hostFail = true → exec .closeMessage s = .next (done 0x57#8 .storeFull [] s)) ∧
    (st.st = .ready → st.hostFail = false → activeWriter s .host = none →
      exec .closeMessage s = .next (done 0x57#8 .badState [] s)) ∧
    (st.st = .ready → st.hostFail = false → activeWriter s .host = some w → findEntry s w.id = some e → e.length = 0 →
      exec .closeMessage s = .next { done 0x57#8 .ok [0#8, 0#8, 0#8, 0#8] s with store := { st with
        dir := st.dir.filter (fun x => decide (x.id ≠ w.id)), writers := st.writers.filter (fun x => decide (x.id ≠ w.id))
        waiting := st.waiting.filter (fun x => decide (x ≠ w.id)), unheard := st.unheard.filter (fun x => decide (x ≠ w.id)) } }) ∧
    (∀ r : RStream, st.st = .ready → st.readHost = some r →
      (m ≠ 0#16 → exec (.readMessage m o) s = .next (done 0x52#8 .busy [] s)) ∧
      (m = 0#16 → st.grant ≠ none → s.link.sending ≠ .idle → findEntry s r.id = some e → e.erasePending = false ∨ 2 ≤ e.inUse →
        let answered := done 0x52#8 .ok [0#8, 0#8, 0#8, 0#8] s
        exec (.readMessage m o) s = .next { answered with
          link := { answered.link with sending := match s.link.sending with
            | .payload src n at_ valid => .payload src n at_ (valid && !decide (src = .hostRead))
            | other => other }
          store := { st with
            readHost := none
            dir := updateWhere (fun x => decide (x.id = r.id)) (fun x => { x with inUse := x.inUse - 1 }) st.dir } })) ∧
    (st.st = .ready → st.readHost = none →
      (m = 0#16 ∨ findEntry s m.toNat = none → exec (.readMessage m o) s = .next (done 0x52#8 .noEntry [] s)) ∧
      (findEntry s m.toNat = some e → e.state ≠ .closed ∨ e.erasePending = true ∨ e.id = m.toNat ∧ e.inUse = 255 ∧ o.toNat ≤ e.length →
        exec (.readMessage m o) s = .next (done 0x52#8 .noEntry [] s)) ∧
      (m ≠ 0#16 → findEntry s m.toNat = some e → e.state = .closed → e.erasePending = false →
        (e.length < o.toNat → exec (.readMessage m o) s = .next (done 0x52#8 .badParam [] s)) ∧
        (o.toNat = e.length → e.inUse < 255 → e.id = m.toNat →
          exec (.readMessage m o) s = .next (done 0x52#8 .ok [0#8, 0#8, 0#8, 0#8] s)) ∧
        (o.toNat < e.length → e.inUse < 255 → e.id = m.toNat → st.grant ≠ none →
          ∃ t, exec (.readMessage m o) s = .next t ∧
            t.store.readHost = some { id := e.id, position := o.toNat, length := e.length, buffers := []
                                      nextSeq := seqOf o.toNat, ready := false, region := none
                                      tag := st.nextTag } ∧
            findEntry t m.toNat = some { e with inUse := e.inUse + 1 } ∧
            t.link = (done 0x52#8 .ok (numBytes 4 (e.length - o.toNat)) s).link ∧ t.store.memory = st.memory ∧
            t = { s with link := t.link, store := t.store }))) ∧
    (s.link.parser = .payload → b ≠ 0xC5#8 → s.link.target = .store → st.writers = [w] → w.owner = .host → w.active = true →
      w.handed = none → w.filling.length + 1 < segCapacity w.seq → st.grant ≠ none → findEntry s w.id = some e →
      ∃ t, exec (.downstreamByte b) s = .next t ∧ t.store.writers = [{ w with filling := w.filling ++ [b] }] ∧
        findEntry t w.id = some { e with length := e.length + 1 } ∧
        t.link = { s.link with lhold := s.link.lhold || decide (1024 - (w.filling.length + 1) < 64) } ∧
        t.store.memory = st.memory ∧ t = { s with link := t.link, store := t.store })) ∧
  (∀ (id : Nat) (w : WStream) (e : Entry) (s : State), s.requests = [] → findEntry s id = some e → e.id = id → w.id = id →
    s.store.writers = [w] →
    let st := s.store
    let closing : Closing := ⟨.byRelease .host, false, 0, false, false⟩
    let closed := fun (w' : WStream) (maint : List Maint) => { done 0x57#8 .ok (numBytes 4 e.length) s with store := { st with
      writers := [w'], waiting := st.waiting.filter (fun x => decide (x ≠ id)), maint := maint
      dir := updateWhere (fun x => decide (x.id = id)) (fun x => { x with pages := 0, truncated := false }) st.dir } }
    (st.st = .ready → st.hostFail = false → w.owner = .host → w.active = true → w.cut = .none → 0 < e.length → s.link.target ≠ .store →
      st.grant ≠ none →
      (w.handed = none → w.filling ≠ [] → exec .closeMessage s = .next (closed { w with
        active := false, failed := false, closing := some closing, handed := some (w.filling.take (segCapacity w.seq))
        filling := w.filling.drop (segCapacity w.seq) } st.maint)) ∧
      (w.handed ≠ none → exec .closeMessage s = .next (closed { w with
        active := false, failed := false, closing := some closing } st.maint)) ∧
      (w.handed = none → w.filling = [] → e.chain ≠ [] → exec .closeMessage s = .next (closed { w with
        active := false, failed := false, closing := some { closing with copyAsked := true } } (st.maint ++ [.copyRewrite id])))) ∧
    (∀ c, st.grant = some (.maint (.copyRewrite id)) → w.closing = some c → c.copyAsked = true → st.settings.watermark = 0 →
      st.readA = none → st.readB = none → st.readHost = none → st.maint = [] →
      let e' := { e with state := .closed, writer := none, truncated := c.truncated, pages := c.pages }
      let heard := (e.kind = .voice ∨ e.kind = .fax) ∧ e.fetched = false ∧ id ∉ st.unheard
      let dir' := updateWhere (fun x => decide (x.id = id)) (fun x => { x with
        state := .closed, writer := none, truncated := c.truncated, pages := c.pages }) st.dir
      exec .copyRewriteComplete s = .next { queueReport (.message id e.kind e.mailbox e.length c.reason) s with
        store := { st with
          grant := none, writers := [], waiting := st.waiting.filter (fun x => decide (x ≠ id)), dir := dir'
          memory := rewriteCopy st.memory e
          unheard := if heard then placeByCreation dir' id st.unheard else st.unheard }
        mailboxes := if e.kind = .voice then
          (match e.mailbox with | some m => s.mailboxes.modify m fun b => { b with isNew := true } | none => s.mailboxes)
          else s.mailboxes } ∧ findEntry { s with store := { st with dir := dir' } } id = some e'))

/-- ERASE and NEWSACK (R153, R155): the refusals; a message in use is erased later, another at once, its FREE header writes asked for;
NEWSACK takes the message and every earlier one off the unheard list, sets the fetched flag of each, asks for a copy rewrite of each and
answers how many; the port is busy. Allocation (R143, R144): a line stream takes the lowest free segment of the first region that has one
and fewer other resident line streams than its sustain count, else that of the first with a free one, STORE PACE queued at the message's
first such fallback; a host stream that of the first region with a free one. A full store (R145): the writer waits while an erase is in
progress; under RECYCLE the oldest message that is CLOSED, fetched, not in use and not erase-pending is taken for erase and the writer
waits; else STORE FULL is queued, a host write erased (here without a segment) with the failure flag set, and a line writer's owner told to
end. A segment that joins the pool goes to the first waiting writer (in the order they joined: the MODEL's, log entry 81), or stays. (That a
message which enters ERASING has its erase-pending flag clear is the MODEL's, log entry 91; that a stream whose close goes on counts as
resident too, log entry 100.) -/
def Obligations.EraseAndNewsackAct : Prop :=
  (∀ (m : Word16) (e : Entry) (s : State), s.requests = [] → s.store.grant ≠ none →
    (∀ x, s.store.grant ≠ some (.maint x)) →
    let st := s.store
    (st.st ≠ .ready → exec (.erase m) s = .next (done 0x55#8 .notReady [] s) ∧
      exec (.newsack m) s = .next (done 0x4E#8 .notReady [] s)) ∧
    (st.st = .ready → findEntry s m.toNat = none → exec (.erase m) s = .next (done 0x55#8 .noEntry [] s)) ∧
    (st.st = .ready → findEntry s m.toNat = some e →
      (e.state = .erasing → exec (.erase m) s = .next (done 0x55#8 .busy [] s)) ∧
      (e.state = .opened → exec (.erase m) s = .next (done 0x55#8 .inUse [] s)) ∧
      (e.state = .closed → 0 < e.inUse → e.id = m.toNat → ∃ t, exec (.erase m) s = .next t ∧
        findEntry t m.toNat = some { e with erasePending := true } ∧ t.link = (done 0x55#8 .ok [0#8] s).link ∧
        t.store.memory = st.memory ∧ t = { s with link := t.link, store := t.store }) ∧
      (e.state = .closed → e.inUse = 0 → e.id = m.toNat → e.chain ≠ [] → ∃ t, exec (.erase m) s = .next t ∧
        findEntry t m.toNat = some { e with state := .erasing, writer := none, erasePending := false } ∧
        (∀ g ∈ e.chain, Maint.freeHeader g (.erase e.id) ∈ t.store.maint) ∧ m.toNat ∉ t.store.unheard ∧
        t.link = (done 0x55#8 .ok [1#8] s).link ∧ t.store.memory = st.memory ∧
        t = { s with link := t.link, store := t.store })) ∧
    (st.st = .ready → m.toNat ∉ st.unheard → exec (.newsack m) s = .next (done 0x4E#8 .noEntry [] s)) ∧
    (∀ earlier rest, st.st = .ready → st.unheard = earlier ++ m.toNat :: rest → st.unheard.Nodup →
      exec (.newsack m) s = .next { done 0x4E#8 .ok [BitVec.ofNat 8 (earlier.length + 1)] s with store := { st with
        unheard := rest
        dir := updateWhere (fun x => decide (x.id ∈ earlier ++ [m.toNat])) (fun x => { x with fetched := true }) st.dir
        maint := st.maint ++ (earlier ++ [m.toNat]).map Maint.copyRewrite } })) ∧
  (∀ (id r seg : Nat) (w : WStream) (s : State), findWriter s id = some w →
    let st := s.store
    let taken := fun (u : State) => { u with store := { u.store with
      free := st.free.filter fun n => decide (n ≠ seg)
      dir := updateWhere (fun e => decide (e.id = id)) (fun e => { e with chain := e.chain ++ [seg] }) st.dir
      writers := updateWhere (fun x => decide (x.id = id)) (fun x => { x with seg := some seg, region := some r }) u.store.writers } }
    let suits := fun (k : Nat) => freeInRegion s k ≠ 0 ∧ residents s k id < (st.regions.getD k absentRegion).sustain
    let waits := fun (u : State) => { u with store := { u.store with
      waiting := if id ∈ st.waiting then st.waiting else st.waiting ++ [id] } }
    let erasing := ∃ e ∈ st.dir, e.state = .erasing ∧ e.chain ≠ []
    (r < 4 → st.free.find? (fun n => decide (n / 1024 = r)) = some seg →
      ((∃ l, w.owner = .line l) → suits r → (∀ k < r, ¬suits k) → allocate id s = taken s) ∧
      ((∃ l, w.owner = .line l) → (∀ k < 4, ¬suits k) → (∀ k < r, freeInRegion s k = 0) →
        (w.paced = true → allocate id s = taken s) ∧
        (w.paced = false → allocate id s = taken (queueReport (.store .pace id) { s with store := { st with
          writers := updateWhere (fun x => decide (x.id = id)) (fun x => { x with paced := true }) st.writers } }))) ∧
      (w.owner = .host → (∀ k < r, freeInRegion s k = 0) → allocate id s = taken s)) ∧
    (erasing → judgeFull id s = waits s) ∧
    (∀ m, ¬erasing → st.settings.policy = .recycle → m ∈ st.dir → m.state = .closed → m.inUse = 0 → m.fetched = true →
      m.erasePending = false → findEntry s m.id = some m → m.chain ≠ [] → (∀ x, st.grant ≠ some (.maint x)) →
      (∀ e ∈ st.dir, e.state = .closed → e.inUse = 0 → e.fetched = true → e.erasePending = false → e ≠ m → m.creation < e.creation) →
      ∃ t, judgeFull id s = waits t ∧ findEntry t m.id = some { m with state := .erasing, writer := none, erasePending := false } ∧
        t.store.maint = (st.maint.filter fun x => !x.isCutOf m.id) ++ m.chain.map (fun g => .freeHeader g (.erase m.id)) ∧
        t.store.unheard = st.unheard.filter (fun x => decide (x ≠ m.id)) ∧
        t.link = (queueReport (.store .recycled m.id) s).link ∧ t = { s with link := t.link, store := t.store }) ∧
    (∀ e, ¬erasing → findEntry s id = some e → e.id = id →
      (st.settings.policy = .keep ∨ ∀ m ∈ st.dir, ¬(m.state = .closed ∧ m.inUse = 0 ∧ m.fetched = true ∧ m.erasePending = false)) →
      (w.owner = .host → e.chain = [] → s.link.target ≠ .store →
        judgeFull id s = { queueReport (.message id e.kind e.mailbox 0 (.byRelease .storeFull)) (queueReport (.store .full id) s) with
          store := { st with
            hostFail := true, waiting := st.waiting.filter (fun x => decide (x ≠ id))
            writers := st.writers.filter (fun x => decide (x.id ≠ id)), dir := st.dir.filter (fun x => decide (x.id ≠ id))
            unheard := st.unheard.filter (fun x => decide (x ≠ id)) } }) ∧
      (∀ l, w.owner = .line l → w.active = true → judgeFull id s = { queueReport (.store .full id) s with
        requests := s.requests ++ [.writerFull (.line l) id]
        store := { st with
          waiting := st.waiting.filter (fun x => decide (x ≠ id))
          writers := updateWhere (fun x => decide (x.id = id)) (fun x => { x with failed := true }) st.writers } })) ∧
    (∀ g, (st.waiting = [] → joinPool g s = { s with store := { st with free := insertSeg g st.free } }) ∧
      (∀ rest, st.waiting = id :: rest → id ∉ rest → st.free = [] → g / 1024 < 4 → w.owner = .host →
        joinPool g s = { s with store := { st with
          waiting := rest, free := []
          dir := updateWhere (fun e => decide (e.id = id)) (fun e => { e with chain := e.chain ++ [g] }) st.dir
          writers := updateWhere (fun x => decide (x.id = id)) (fun x => { x with seg := some g, region := some (g / 1024) })
            st.writers } })))

/-- The completions of the memory port (R137, R140, R143, R146, R147, R154, R168), nothing else standing at the port: a segment write puts
header, copy and payload into its segment and nowhere else; a segment read fills the reader's buffer; an erase's last FREE header write
frees the segment and removes the message; a page header rewrite and a copy rewrite write their bytes alone; a label that is none makes the
store UNFORMATTED. CUT_COMPLETE: the last FREE header write of a line writer's cut, which completes by this command (log entry 44), frees
the segment, writes its header alone, and tells the writer; the cut is over (the line has no session). The scan (R140, R141): a valid label
gives the region table and format count and the first header is asked for; a USED header joins the groups, with its copy asked for at
sequence 0, a FREE one's segment the pool, a bad one gets a FREE header; after the last read each id is judged (here one id of one segment):
a good copy with its closed mark is kept as written, one without it is recovered with the bytes used as its length and its copy rewritten,
no good copy or no byte drops the id with STORE SCAN_DROP; unheard list, new flags, creation counter and next id are rebuilt (from the kept
messages alone: the MODEL's choice, log entry 83; a copy's coding or mailbox byte that names none is read as none: log entry 102); the last
write puts the store in READY. An id whose sequences are not 0 to n − 1, or with a segment short before its last, is dropped. -/
def Obligations.PortCompletionsTakeEffect : Prop :=
  (∀ (seg id : Nat) (e : Entry) (w : WStream) (bs : List Byte) (s : State), s.requests = [] → findEntry s id = some e →
    e.id = id →
    let st := s.store
    let put := fun (mem : List Host.Cell) => { s with store := { st with grant := none, memory := mem } }
    (st.grant = some (.write id seg) → st.writers = [w] → w.id = id → w.owner = .host → w.handed = some bs → w.filling = [] →
      w.cut = .none → w.closing = none → w.failed = false → bs.length = segCapacity w.seq → st.readA = none → st.readB = none →
      st.readHost = none → st.maint = [] → s.link.target ≠ .store →
      exec .segmentWriteComplete s = .next { s with store := { st with
        grant := none, memory := writeSegment st.memory e seg w.seq bs
        writers := [{ w with
          handed := none, granted := false, base := w.base + bs.length, seq := w.seq + 1, seg := none, inStore := 0 }] } } ∧
      (Memory.wf st.memory = true → ∀ x, (x < seg * 1024 ∨ seg * 1024 + 1024 ≤ x) →
        Memory.read (writeSegment st.memory e seg w.seq bs) x = Memory.read st.memory x)) ∧
    (∀ r tag seq, st.grant = some (.read .host tag id seg seq) → st.readHost = some r → r.tag = tag → r.buffers = [] →
      st.writers = [] → st.readA = none → st.readB = none → st.maint = [] → max (segStart seq) r.position < min (segStart seq + segCapacity seq) r.length →
      (s.link.sending ≠ .idle ∨ s.link.hhold = true) →
      exec .segmentReadComplete s = .next { s with store := { st with
        grant := none
        readHost := some { r with
          buffers := [segmentBytes st.memory seg seq (max (segStart seq) r.position) (min (segStart seq + segCapacity seq) r.length)]
          nextSeq := seq + 1, ready := true } } }) ∧
    (portQuiet s →
      (st.grant = some (.maint (.freeHeader seg (.erase id))) → e.state = .erasing → e.chain = [seg] →
        exec .freeHeaderWriteComplete s = .next (queueReport (.message id e.kind e.mailbox 0 .erased) { s with store := { st with
          grant := none, memory := Memory.writeBytes st.memory (segAddress seg 0) freeHeader
          free := insertSeg seg st.free, dir := st.dir.filter fun x => decide (x.id ≠ id)
          unheard := st.unheard.filter fun x => decide (x ≠ id) } })) ∧
      (st.grant = some (.maint (.copyRewrite id)) → st.scan = none →
        exec .copyRewriteComplete s = .next (put (rewriteCopy st.memory e))) ∧
      (∀ seq at_, st.grant = some (.maint (.headerRewrite id seq at_ bs)) → st.scan = none → e.chain[seq]? = some seg →
        exec .headerRewriteComplete s = .next (put (Memory.writeBytes st.memory (segAddress seg (segPayloadStart seq + at_)) bs))) ∧
      (st.grant = some (.maint (.scanRead .label)) → readLabel (Memory.readBytes st.memory 0 24) = none →
        exec .scanReadComplete s = .next (queueReport (.store .unformatted 0) { s with store := { st with
          grant := none, st := .unformatted, scan := none, regions := List.replicate 4 absentRegion, formatCount := 0 } })))) ∧
  (∀ (l : Line) (seg id : Nat) (e : Entry) (w : WStream) (s : State), s.requests = [] → findEntry s id = some e → e.id = id →
    e.state = .opened → seg ∈ e.chain → s.store.writers = [w] → w.id = id → w.owner = .line l → w.active = true →
    w.cut = .running 1 none → w.handed = none → w.filling = [] → w.closing = none → s.store.waiting = [] →
    s.store.grant = some (.maint (.freeHeader seg (.cut id))) → s.store.readA = none → s.store.readB = none →
    s.store.readHost = none → s.store.maint = [] → (s.line l).fax.role = none →
    ∃ t, exec .cutComplete s = .next t ∧ t.store.grant = none ∧ t.store.writers = [{ w with cut := .none }] ∧
      t.store.free = insertSeg seg s.store.free ∧
      findEntry t id = some { e with chain := e.chain.filter fun g => decide (g ≠ seg) } ∧
      t.store.memory = Memory.writeBytes s.store.memory (segAddress seg 0) freeHeader ∧
      t = { s with store := t.store }) ∧
  (∀ (seg next id used : Nat) (rest : List Nat) (sc : Scan) (s : State), s.requests = [] → portQuiet s →
    s.store.scan = some sc → s.store.st = .scanning → (∀ l, (s.line l).profile.autoCallout = false) →
    let st := s.store
    let header := readHeader (Memory.readBytes st.memory (segAddress seg 0) 8)
    let copy := readCopy id (Memory.readBytes st.memory (segAddress seg 8) 56)
    (∀ regions n, st.grant = some (.maint (.scanRead .label)) → readLabel (Memory.readBytes st.memory 0 24) = some (regions, n) →
      presentSegments regions = next :: rest →
      exec .scanReadComplete s = .next { s with store := { st with
        regions := regions, formatCount := n, scan := some { sc with todo := rest }
        grant := some (.maint (.scanRead (.header next))) } }) ∧
    (st.grant = some (.maint (.scanRead (.header seg))) → sc.todo = next :: rest →
      (∀ seq, header = .used id seq used → seq ≠ 0 → exec .scanReadComplete s = .next { s with store := { st with
        scan := some { sc with groups := sc.groups ++ [⟨seg, id, seq, used⟩], todo := rest }
        grant := some (.maint (.scanRead (.header next))) } }) ∧
      (header = .used id 0 used → exec .scanReadComplete s = .next { s with store := { st with
        scan := some { sc with groups := sc.groups ++ [⟨seg, id, 0, used⟩] }
        grant := some (.maint (.scanRead (.copy seg))) } }) ∧
      (header = .free → exec .scanReadComplete s = .next { s with store := { st with
        scan := some { sc with todo := rest }, free := insertSeg seg st.free
        grant := some (.maint (.scanRead (.header next))) } }) ∧
      (header = .bad → exec .scanReadComplete s = .next { s with store := { st with
        scan := some { sc with todo := rest }, grant := some (.maint (.freeHeader seg .scan))
        maint := [.scanRead (.header next)] } })) ∧
    (st.grant = some (.maint (.scanRead (.copy seg))) → sc.todo = [] → sc.groups = [⟨seg, id, 0, used⟩] → sc.judged = false →
      let judged := { sc with copies := sc.copies ++ [seg], walk := [], judged := true }
      let heard := fun (e : Entry) => (e.kind = .voice ∨ e.kind = .fax) ∧ e.fetched = false
      let kept := fun (e : Entry) (st' : Store) => { st' with
        dir := [{ e with chain := [seg] }], unheard := if heard e then [id] else [], creation := nextCreation e.creation
        nextId := nextIdAfter id }
      let boxes := fun (e : Entry) => if e.kind = .voice ∧ heard e then
        (match e.mailbox with | some m => s.mailboxes.modify m fun b => { b with isNew := true } | none => s.mailboxes) else s.mailboxes
      (∀ e, copy = some (e, true) → exec .scanReadComplete s = .next (queueReport (.store .ready 1) { s with
        mailboxes := boxes e, store := kept e { st with grant := none, st := .ready, scan := none } })) ∧
      (∀ e, copy = some (e, false) → e.kind ≠ .fax → 0 < used → exec .scanReadComplete s = .next { s with
        mailboxes := boxes e
        store := kept { e with length := used, pages := 0, recovered := true }
          { st with grant := some (.maint (.copyRewrite id)), scan := some judged } }) ∧
      (copy = none ∨ (∃ e, copy = some (e, false) ∧ e.kind ≠ .fax ∧ used = 0) →
        exec .scanReadComplete s = .next (queueReport (.store .scanDrop id) { s with store := { st with
          dir := [], unheard := [], creation := 0, nextId := 1
          grant := some (.maint (.freeHeader seg .scan)), scan := some judged } }))) ∧
    (sc.judged = true →
      (st.grant = some (.maint (.freeHeader seg .scan)) → exec .freeHeaderWriteComplete s =
        .next (queueReport (.store .ready st.dir.length) { s with store := { st with
          grant := none, st := .ready, scan := none, free := insertSeg seg st.free
          memory := Memory.writeBytes st.memory (segAddress seg 0) freeHeader } })) ∧
      (∀ e, st.grant = some (.maint (.copyRewrite id)) → findEntry s id = some e → exec .copyRewriteComplete s =
        .next (queueReport (.store .ready st.dir.length) { s with store := { st with
          grant := none, st := .ready, scan := none, memory := rewriteCopy st.memory e } }))) ∧
    (∀ (mem : List Host.Cell) (groups : List ScanSeg),
      let mine := groups.filter fun g => decide (g.id = id)
      ((∃ k < mine.length, ∀ g ∈ mine, g.seq ≠ k) → scanJudgeId mem groups id = none) ∧
      ((∃ g ∈ mine, g.seq + 1 < mine.length ∧ g.used ≠ segCapacity g.seq ∧ ∀ h ∈ mine, h.seq = g.seq → h = g) →
        scanJudgeId mem groups id = none)))

/-! ### Chapter 8: fax sessions -/

/-- The sender (R160, R162, R163, R165, R170): CAPS in SETUP gives the session its modes and the first page header is wanted; with the
header in hand, the check begins with SET at the highest common mode; CHECK_OK opens the page, CHECK_FAIL goes a mode down or, with none
left, ends with BYE (NO_RUNG), neither before the check of the SET awaited has been sent (log entry 58); a record goes out with its number,
length, data and check and the fill that brings it to ceil(line time x bit rate / 8000) bytes (10.5), and the last is followed by PAGE_END;
VERDICT counts the page, reports it, and leads on to the next page, to BYE (DONE) after the last, or to BYE (FAILED) after a third bad try;
a page whose resolution is not the one last set, found only after CHECK_OK, has a fresh SET, or ends the session with BYE (UNSUPPORTED)
where CAPS lacks FINE; a repeated VERDICT is answered again by the SET or BYE that answered it. The stream is open; `waiting` says that none
of its bytes has been read yet. -/
def Obligations.FaxSenderFollowsTheAnswers : Prop :=
  (∀ (l : Line) (r : RStream) (s : State), s.requests = [] → (s.line l).fax.role = some .sender → s.st l = .fax →
    readerOf s (.line l) = some r → s.store.grant ≠ none →
    let x := s.line l
    let f := x.fax
    let with_ := fun (f' : Fax) => s.setLine l { x with fax := f' }
    let bye := fun (b : ByeReason) (f' : Fax) => { f' with
      phase := some .ended, byeSent := some b, capsDue := none, headerUse := none, endCause := some (.bye b)
      outQueue := f'.outQueue ++ [.bye b], outstanding := some ⟨.bye b, 1, none⟩ }
    let report := fun (v : Verdict) (total bad : Word16) (t : State) =>
      { t with link := (queueReport (.page l f.page v total.toNat bad.toNat (agreedRung s l)) s).link }
    let waiting := r.ready = false ∧ r.buffers = [] ∧ r.position + 16 ≤ r.length
    (∀ m res t : Byte, f.phase = some .setup → f.capsModes = none →
      (waiting → exec (.caps l m res t) s = .next (with_ { f with
        capsModes := some (modeSet m), capsFine := res.getLsbD 1, capsTime := t.toNat, capsDue := none
        modes := sessionModes s l (modeSet m), headerUse := some .setup, header := none, pageStart := some r.position
        taken := some .caps })) ∧
      (∀ lines mode i, 16 ≤ r.held.length → r.position + 16 ≤ r.length → readPageHeader (r.held.take 16) = some (false, lines) →
        (sessionModes s l (modeSet m)).getLast? = some mode → faxRungOf s l mode = some i →
        ∃ u, exec (.caps l m res t) s = .next u ∧ (u.line l).fax.phase = some .check ∧ (u.line l).fax.agreed = some mode ∧
          (u.line l).modem.rung = some i ∧
          (u.line l).fax.outQueue = f.outQueue ++ [.set mode false (max t.toNat x.profile.minLineTime)] ∧
          (u.line l).fax.header = some (false, lines) ∧ (u.line l).fax.pageStart = some r.position ∧
          (readerOf u (.line l)).map (·.position) = some (r.position + 16) ∧
          u = { s.setLine l (u.line l) with link := u.link, store := u.store })) ∧
    (∀ o, f.phase = some .check → f.outstanding = some o → o.msg.isSet = true → o.due = none → o.sends ≤ 1 →
      exec (.checkOk l) s = .next s ∧ exec (.checkFail l) s = .next s) ∧
    (∀ o, f.phase = some .check → f.outstanding = some o → o.msg.isSet = true → o.due ≠ none ∨ 2 ≤ o.sends →
      (∀ fine n, f.header = some (fine, n + 1) → waiting → exec (.checkOk l) s = .next (with_ { f with
        outstanding := none, phase := some .page, recordNo := 0, txRecord := none, taken := some .check })) ∧
      (nextLowerMode f = none → exec (.checkFail l) s = .next (with_ (bye .noRung { f with taken := some .check }))) ∧
      (∀ mode i, nextLowerMode f = some mode → faxRungOf s l mode = some i → ∃ u, exec (.checkFail l) s = .next u ∧
        (u.line l).fax.phase = some .check ∧ (u.line l).fax.agreed = some mode ∧ (u.line l).modem.rung = some i ∧
        (u.line l).fax.outQueue = f.outQueue ++ [.set mode f.fine f.lineTime] ∧
        u = { s.setLine l (u.line l) with link := u.link })) ∧
    (∀ d fine lines h lo rest, f.phase = some .page → f.txRecord = some d → f.header = some (fine, lines) →
      f.recordNo + 1 < lines → r.held = h :: lo :: rest → h.toNat * 256 + lo.toNat ≤ 512 → h.toNat * 256 + lo.toNat ≤ rest.length →
      r.position + r.held.length ≤ r.length →
      let n := h.toNat * 256 + lo.toNat
      let bytes := withCheck (numBytes 2 (f.recordNo + 1) ++ numBytes 2 n ++ rest.take n)
      let least := (f.lineTime * (f.agreed.map Mode.bitRate).getD 0 + 7999) / 8000
      ∃ u, exec (.lineRecordSent l) s = .next u ∧
        (u.line l).fax = { f with recordNo := f.recordNo + 1, txRecord := some ⟨bytes, least - bytes.length⟩ } ∧
        (readerOf u (.line l)).map (·.position) = some (r.position + n + 2) ∧
        u = { s.setLine l { x with fax := (u.line l).fax } with store := u.store }) ∧
    (∀ d fine lines, f.phase = some .page → f.txRecord = some d → f.header = some (fine, lines) → lines ≤ f.recordNo + 1 →
      exec (.lineRecordSent l) s = .next (with_ { f with
        txRecord := none, recordNo := f.recordNo + 1, phase := some .verdict
        outQueue := f.outQueue ++ [.pageEnd (decide (r.length ≤ r.position)) lines]
        outstanding := some ⟨.pageEnd (decide (r.length ≤ r.position)) lines, 1, none⟩ })) ∧
    (∀ o last lines (total bad : Word16), f.phase = some .verdict → f.outstanding = some o → o.msg = .pageEnd last lines →
      (last = true → exec (.verdict l 1#8 total bad) s =
        .next (report .good total bad (with_ (bye .done { f with good := f.good + 1, allGood := true, taken := some .verdict })))) ∧
      (last = false → waiting → exec (.verdict l 1#8 total bad) s = .next (report .good total bad (with_ { f with
        outstanding := none, good := f.good + 1, allGood := false, page := f.page + 1, tryCount := 1, phase := some .page
        headerUse := some .nextPage, header := none, pageStart := some r.position, taken := some .verdict }))) ∧
      (3 ≤ f.tryCount → exec (.verdict l 3#8 total bad) s = .next (report .bad total bad (with_ (bye .failed { f with taken := some .verdict }))))) ∧
    (∀ (o : Outstanding) (v : Byte) (total bad : Word16), f.outstanding = some o → f.taken = some .verdict → 1 ≤ v.toNat → v.toNat ≤ 3 →
      ((∃ m fine t, o.msg = .set m fine t) ∨ ∃ b, o.msg = .bye b) →
      (o.due ≠ none → exec (.verdict l v total bad) s = .next (with_ { f with outQueue := f.outQueue ++ [o.msg] })) ∧
      (o.due = none → exec (.verdict l v total bad) s = .next s))) ∧
  (∀ (l : Line) (r : RStream) (o : Outstanding) (fine : Bool) (lines : Nat) (s : State), s.requests = [] →
    (s.line l).fax.role = some .sender → s.st l = .fax → readerOf s (.line l) = some r → s.store.grant ≠ none →
    let x := s.line l
    let f := x.fax
    f.phase = some .check → f.header = none → f.outstanding = some o → o.msg.isSet = true → o.due ≠ none ∨ 2 ≤ o.sends →
    16 ≤ r.held.length → r.position + 16 ≤ r.length → readPageHeader (r.held.take 16) = some (fine, lines) → fine ≠ f.fine →
    let read := fun (m : FaxMsg) (f' : Fax) => { f' with
      taken := some .check, headerUse := none, header := some (fine, lines), pageStart := some r.position
      outQueue := f.outQueue ++ [m], outstanding := some ⟨m, 1, none⟩ }
    let set := FaxMsg.set (f.agreed.getD .l48) fine f.lineTime
    ∃ u, exec (.checkOk l) s = .next u ∧
      (fine = true ∧ f.capsFine = false → (u.line l).fax = read (.bye .unsupported) { f with
        phase := some .ended, byeSent := some .unsupported, capsDue := none, endCause := some (.bye .unsupported) }) ∧
      (fine = false ∨ f.capsFine = true → (u.line l).fax = read set { f with
        phase := some .check, fine := fine, lastSet := some set }) ∧
      (readerOf u (.line l)).map (·.position) = some (r.position + 16) ∧
      u = { s.setLine l { x with fax := (u.line l).fax } with store := u.store })

/-- The receiver (R162 to R164, R167 to R169): SET begins a check at its mode and resolution, or ends the session with
BYE (UNSUPPORTED) where its mode is no mode or none of this end's fax rungs, or FINE is not allowed here; a check
of 15 windows or more is answered CHECK_OK below D, with the message created, CHECK_FAIL otherwise, and BYE (STORE_FULL) where the
store gives no message: R164 says so for the reserve and a full directory, the model also for a store that is not READY (log entry 59);
a record is stored where its check is good, and concealed by the previous line, with the fax penalty, where it is not; PAGE_END closes
the page with its verdict by the limits of the profile (GOOD, RETRAIN_GOOD also for a Q at D or beyond, BAD) and the PAGE report, the
page joining the message's pages or, at BAD, being cut off them (all of it in the buffer), its number standing; in PAGE, while the
VERDICT is outstanding, a PAGE_END with the LAST flag and the line count of the one judged last is its repeat, answered by the same
verdict, and another is that of a next page, which starts with its header and is judged (here with no lines): how the two are told
apart is the MODEL's, log entry 49. A window begins with the check and with the page
(log entry 47). -/
def Obligations.FaxReceiverChecksStoresAndJudges : Prop :=
  (∀ (l : Line) (s : State), s.requests = [] → (s.line l).fax.role = some .receiver → s.st l = .fax → s.store.grant ≠ none →
    let x := s.line l
    let f := x.fax
    let with_ := fun (f' : Fax) (m' : Modem) => s.setLine l { x with fax := f', modem := m' }
    let out := fun (m : FaxMsg) (f' : Fax) => { f' with
      outQueue := f'.outQueue ++ [m], outstanding := some ⟨m, 1, none⟩ }
    let bye := fun (b : ByeReason) (f' : Fax) => out (.bye b) { f' with
      phase := some .ended, byeSent := some b, capsDue := none, headerUse := none, endCause := some (.bye b) }
    let counts := fun (f' : Fax) => { f' with checkCount := 0, checkGood := 0, checkSum := 0 }
    let fresh := fun (f' : Fax) => { f' with
      placed := 0, bad := 0, run := 0, longest := 0, expected := 0, prevGood := none, stored := 0, lineEnds := []
      pageStart := none, afterCut := none }
    let quiet := { x.modem with window := none }
    let fresh_ : Window := ⟨x.profile.impulseThreshold, x.profile.burstDivisor, 0, 0, 0⟩
    let accepted := { x.modem with q := checkMean s l, holdOff := 10, upCount := 0, burstRun := 0, window := none }
    let paged := { accepted with window := some fresh_ }
    (∀ b t : Byte, f.phase = some .check →
      (∀ mode i, Mode.ofCode b.toNat = some mode → faxRungOf s l mode = some i →
        ∃ u, exec (.setMessage l b 0#8 t) s = .next u ∧
          (u.line l).fax = counts { f with
            outstanding := none, phase := some .check, fine := false, lineTime := t.toNat, agreed := some mode
            taken := some .set } ∧
          (u.line l).modem = { x.modem with rung := some i, faxRungSet := true, window := some fresh_ } ∧
          u = { s.setLine l (u.line l) with link := u.link }) ∧
      (Mode.ofCode b.toNat = none → exec (.setMessage l b 0#8 t) s = .next (with_ (bye .unsupported { f with taken := some .set }) x.modem))) ∧
    (∀ r, f.phase = some .check → f.agreed ≠ none → s.ladder[agreedRung s l]? = some r → f.failNext = false →
      (f.checkCount < 15 → exec (.checkPatternEnd l) s = .next (with_ (counts f) quiet)) ∧
      (15 ≤ f.checkCount → r.d ≤ checkMean s l →
        exec (.checkPatternEnd l) s = .next (with_ (counts (out .checkFail f)) quiet)) ∧
      (15 ≤ f.checkCount → checkMean s l < r.d →
        (f.message ≠ none → exec (.checkPatternEnd l) s =
          .next (with_ (counts (out .checkOk (fresh { f with phase := some .page }))) paged)) ∧
        (f.message = none → s.store.st = .ready → createRefused s = false → exec (.checkPatternEnd l) s = .next
          { with_ (counts (out .checkOk (fresh { f with phase := some .page, message := some (freshId s) }))) paged with
            store := (createMessage (.line l) .fax none .none s).store }) ∧
        (f.message = none → s.store.st ≠ .ready ∨ createRefused s = true → exec (.checkPatternEnd l) s =
          .next (with_ (counts (bye .storeFull f)) accepted)))) ∧
    (∀ (rec : RecordInput) id o (w : WStream), f.phase = some .page → f.outstanding = none → f.pageStart = some o →
      f.message = some id → findWriter s id = some w → w.failed = false →
      (RecordInput.good rec = true → rec.length.toNat = rec.data.length → rec.data.length ≤ 512 →
        rec.number.toNat = f.expected → w.fits (roomFor s w) (rec.data.length + 2) = true →
        ∃ u ends, exec (.lineRecord l rec) s = .next u ∧
          (u.line l).fax = { f with
            prevGood := some rec.data, placed := f.placed + 1, expected := f.expected + 1, run := 0, stored := f.stored + 1
            lineEnds := f.lineEnds ++ [ends] } ∧
          u = { s.setLine l { x with fax := (u.line l).fax } with
            store := (appendBytes id (numBytes 2 rec.data.length ++ rec.data) s).store }) ∧
      (RecordInput.good rec = false → w.fits (roomFor s w) ((f.prevGood.getD []).length + 2) = true →
        ∃ u ends, exec (.lineRecord l rec) s = .next u ∧
          (u.line l).fax = { f with
            placed := f.placed + 1, expected := f.expected + 1, bad := f.bad + 1, run := f.run + 1
            longest := max f.longest (f.run + 1), stored := f.stored + 1, lineEnds := f.lineEnds ++ [ends] } ∧
          u = { s.setLine l { x with
              fax := (u.line l).fax, modem := { x.modem with q := min 65535 (x.modem.q + x.profile.faxPenalty) } } with
            store := (appendBytes id (numBytes 2 (f.prevGood.getD []).length ++ f.prevGood.getD []) s).store })) ∧
    (∀ last (n : Word16) id o r (w : WStream), f.phase = some .page → f.outstanding = none → f.pageStart = some o →
      f.message = some id → findWriter s id = some w → w.id = id → w.failed = false →
      n.toNat = f.placed → f.bad * 1000 ≤ f.placed * x.profile.goodPerMille → f.longest ≤ x.profile.runLimit →
      currentRung s l = some r → x.modem.q < r.d → ∃ u, exec (.pageEnd l last n) s = .next u ∧
        (u.line l).fax = out (.verdict .good f.placed f.bad) { f with
          phase := some .verdict, page := f.page + 1, pageCount := f.pageCount + 1, pageStart := none, taken := some .pageEnd
          lastVerdict := some (.verdict .good f.placed f.bad), lastPageEnd := some (last, n.toNat) } ∧
        (findWriter u id).map (·.pages) =
          some (w.pages ++ [⟨o, f.page, f.fine, f.bad, f.longest, f.lineTime, f.lineEnds, true⟩]) ∧
        u.link = (queueReport (.page l f.page .good f.placed f.bad (agreedRung s l)) s).link ∧
        u = { s.setLine l { x with fax := (u.line l).fax, modem := quiet } with link := u.link, store := u.store }) ∧
    (∀ last (n : Word16) o, f.phase = some .page → f.outstanding = some o → o.msg.isVerdict = true →
      (∀ m, f.lastVerdict = some m → f.lastPageEnd = some (last, n.toNat) →
        exec (.pageEnd l last n) s = .next (with_ { f with outQueue := f.outQueue ++ [m] } x.modem)) ∧
      (∀ id e r (w : WStream), f.lastPageEnd ≠ some (last, n.toNat) → n.toNat = 0 → f.placed = 0 → f.bad = 0 → f.longest = 0 →
        f.pageStart = none → f.message = some id → findWriter s id = some w → w.id = id → w.failed = false →
        findEntry s id = some e → e.id = id → w.mayFill (roomFor s w) = true → w.filling.length + 16 < w.fillCapacity →
        currentRung s l = some r →
        let v : Verdict := if r.d ≤ x.modem.q then .retrainGood else .good
        ∃ u, exec (.pageEnd l last n) s = .next u ∧
          (u.line l).fax = out (.verdict v 0 0) { f with
            phase := some .verdict, page := f.page + 1, pageCount := f.pageCount + 1, taken := some .pageEnd
            lastVerdict := some (.verdict v 0 0), lastPageEnd := some (last, 0) } ∧
          (findWriter u id).map (·.pages) =
            some (w.pages ++ [⟨w.accepted, f.page, f.fine, 0, 0, f.lineTime, f.lineEnds, true⟩]) ∧
          findEntry u id = some { e with length := e.length + 16 } ∧
          u.link = (queueReport (.page l f.page v 0 0 (agreedRung s l)) s).link ∧
          u = { s.setLine l { x with fax := (u.line l).fax, modem := quiet } with link := u.link, store := u.store }))) ∧
  (∀ (l : Line) (s : State), s.requests = [] → (s.line l).fax.role = some .receiver → s.st l = .fax → s.store.grant ≠ none →
    let x := s.line l
    let f := x.fax
    let out := fun (m : FaxMsg) (f' : Fax) => { f' with
      outQueue := f'.outQueue ++ [m], outstanding := some ⟨m, 1, none⟩ }
    let unsupported := s.setLine l { x with fax := out (.bye .unsupported) { f with
      taken := some .set, phase := some .ended, byeSent := some .unsupported, capsDue := none, headerUse := none
      endCause := some (.bye .unsupported) } }
    let quiet := { x.modem with window := none }
    (∀ (b t : Byte) mode, f.phase = some .check → Mode.ofCode b.toNat = some mode →
      (∀ res : Byte, res.toNat ≤ 1 → faxRungOf s l mode = none → exec (.setMessage l b res t) s = .next unsupported) ∧
      (x.profile.fine = false → exec (.setMessage l b 1#8 t) s = .next unsupported) ∧
      (∀ i, faxRungOf s l mode = some i → x.profile.fine = true →
        ∃ u, exec (.setMessage l b 1#8 t) s = .next u ∧
          (u.line l).fax = { f with
            outstanding := none, phase := some .check, fine := true, lineTime := t.toNat, agreed := some mode
            taken := some .set, checkCount := 0, checkGood := 0, checkSum := 0 } ∧
          (u.line l).modem = { x.modem with
            rung := some i, faxRungSet := true, window := some ⟨x.profile.impulseThreshold, x.profile.burstDivisor, 0, 0, 0⟩ } ∧
          u = { s.setLine l (u.line l) with link := u.link })) ∧
    (∀ last (n : Word16) id o r (w : WStream), f.phase = some .page → f.outstanding = none → f.pageStart = some o →
      f.message = some id → findWriter s id = some w → w.id = id → w.failed = false → n.toNat = f.placed → currentRung s l = some r →
      let good := f.bad * 1000 ≤ f.placed * x.profile.goodPerMille ∧ f.longest ≤ x.profile.runLimit
      let usable := f.bad * 1000 ≤ f.placed * x.profile.retrainPerMille ∧ f.longest ≤ 2 * x.profile.runLimit
      let reported := fun (v : Verdict) => (queueReport (.page l f.page v f.placed f.bad (agreedRung s l)) s).link
      (good ∧ r.d ≤ x.modem.q ∨ ¬good ∧ usable → ∃ u, exec (.pageEnd l last n) s = .next u ∧
        (u.line l).fax = out (.verdict .retrainGood f.placed f.bad) { f with
          phase := some .verdict, page := f.page + 1, pageCount := f.pageCount + 1, pageStart := none, taken := some .pageEnd
          lastVerdict := some (.verdict .retrainGood f.placed f.bad), lastPageEnd := some (last, n.toNat) } ∧
        (findWriter u id).map (·.pages) =
          some (w.pages ++ [⟨o, f.page, f.fine, f.bad, f.longest, f.lineTime, f.lineEnds, true⟩]) ∧
        u.link = reported .retrainGood ∧
        u = { s.setLine l { x with fax := (u.line l).fax, modem := quiet } with link := u.link, store := u.store }) ∧
      (∀ e, ¬good → ¬usable → findEntry s id = some e → e.id = id → w.owner = .line l → w.active = true →
        w.granted = false → w.handed = none → w.seg = none → w.inStore = 0 → w.cut = .none → w.closing = none →
        w.base = segStart w.seq → w.base ≤ o → o < segStart (w.seq + 1) → (∀ i, i < e.chain.length → segStart i < o) →
        ∃ u, exec (.pageEnd l last n) s = .next u ∧
          (u.line l).fax = out (.verdict .bad f.placed f.bad) { f with
            phase := some .verdict, taken := some .pageEnd, lastVerdict := some (.verdict .bad f.placed f.bad)
            lastPageEnd := some (last, n.toNat)
            placed := 0, bad := 0, run := 0, longest := 0, expected := 0, prevGood := none, stored := 0, lineEnds := []
            pageStart := none, afterCut := none } ∧
          findEntry u id = some { e with length := o } ∧
          (findWriter u id).map (·.filling) = some (w.filling.take (o - w.base)) ∧
          (findWriter u id).map (·.pages) = some w.pages ∧ u.link = reported .bad ∧
          u = { s.setLine l { x with fax := (u.line l).fax, modem := quiet } with link := u.link, store := u.store })))

/-- Control messages (R159 to R161): a message sent leaves the queue and starts the 3 s answer timer of the outstanding one (for SET the
command stands for the end of SET with the check pattern that follows it, where R160 starts the timer: log entry 59), the VERDICT of the
page judged last, once sent, takes the receiver to CHECK, or, when GOOD, opens the next page and its window (the window begun here is the
MODEL's, log entry 47), while a repeat of an earlier VERDICT that leaves before it, or while the cut of a BAD page goes on, leaves the queue
and does nothing more (no timer, page or check follows it: the MODEL's, log entry 58); an expiry sends the message again up to the fourth
time; BYE is answered with its reason behind the message on the line, those that wait behind that one being dropped (the MODEL's, log entry
105). The session ends in
CLEARDOWN by CAPS_WAIT_EXPIRY and the expiry after the fourth send with FAX_FAIL, by BYE that answers this end's own and by this end's
answer sent, with the release the reason has. For the last, no stream, tone, voice operation, job or held message is there. -/
def Obligations.FaxControlMessagesAreAnsweredOrRepeated : Prop :=
  ∀ (l : Line) (s : State), s.requests = [] → s.st l = .fax → (s.line l).fax.role ≠ none →
    let x := s.line l
    let f := x.fax
    let with_ := fun (f' : Fax) => s.setLine l { x with fax := f' }
    (∀ m rest o, f.outQueue = m :: rest → f.outstanding = some o → o.msg = m →
      ((∀ v n b, m ≠ .verdict v n b) → (∀ b, m ≠ .bye b) → exec (.controlMessageSent l) s = .next (with_ { f with
        outQueue := rest, outstanding := some { o with due := some (s.now + 3000) } })) ∧
      (∀ v n b, m = .verdict v n b → f.phase = some .verdict → f.afterCut = none → rest.any FaxMsg.isVerdict = false →
        let sent := { f with
          outQueue := rest, outstanding := some { o with due := some (s.now + 3000) }
          placed := 0, bad := 0, run := 0, longest := 0, expected := 0, prevGood := none, stored := 0, lineEnds := []
          pageStart := none }
        (v = .good → exec (.controlMessageSent l) s = .next (s.setLine l { x with
          modem := { x.modem with window := some ⟨x.profile.impulseThreshold, x.profile.burstDivisor, 0, 0, 0⟩ }
          fax := { sent with phase := some .page } })) ∧
        (v ≠ .good → exec (.controlMessageSent l) s = .next (with_ { sent with phase := some .check })))) ∧
    (∀ v n b rest, f.outQueue = .verdict v n b :: rest →
      rest.any FaxMsg.isVerdict = true ∨ f.afterCut ≠ none ∧ f.phase = some .verdict ∧ f.outstanding = none →
      exec (.controlMessageSent l) s = .next (with_ { f with outQueue := rest })) ∧
    (∀ o due, f.outstanding = some o → o.due = some due → o.sends < 4 → exec (.answerTimerExpiry l) s =
      .next { with_ { f with
        outstanding := some { o with sends := o.sends + 1, due := none }, outQueue := f.outQueue ++ [o.msg] } with
        now := max s.now due }) ∧
    (∀ (b : Byte) r, ByeReason.ofCode b.toNat = some r → f.byeSent = none → f.byeAnswer = none →
      r ≠ .done ∨ f.role = some .sender → exec (.bye l b) s = .next (with_ { f with
        phase := some .ended, byeAnswer := some r, endCause := some (.bye r), outstanding := none, capsDue := none
        headerUse := none, outQueue := f.outQueue.take 1 ++ [.bye r] })) ∧
    (∀ c (reason : ReleaseReason), readerOf s (.line l) = none → (∀ w ∈ s.store.writers, w.owner ≠ .line l) →
      x.iface.tone = none → x.voice.sub = none → x.call.cr.job = none → x.call.refHeld = false →
      (c = .capsWaitExpiry l ∧ f.capsDue ≠ none ∧ reason = .faxFail ∨
        (∃ o due, c = .answerTimerExpiry l ∧ f.outstanding = some o ∧ o.due = some due ∧ 4 ≤ o.sends ∧
          (∀ r, o.msg ≠ .bye r) ∧ reason = .faxFail) ∨
        (∃ (b : Byte) (r own : ByeReason), c = .bye l b ∧ ByeReason.ofCode b.toNat = some r ∧ f.byeAnswer = none ∧ f.byeSent = some own ∧
          reason = byeRelease own f.fullEnded) ∨
        (∃ r rest, c = .controlMessageSent l ∧ f.outQueue = .bye r :: rest ∧ f.byeAnswer = some r ∧
          reason = byeAnswerRelease r)) →
      ∃ t, exec c s = .next t ∧ t.st l = .cleardown ∧ (t.line l).call.reason = some (.release reason) ∧
        (t.line l).fax.phase = some .ended ∧ (t.line l).fax.outQueue = [] ∧ (t.line l).fax.outstanding = none ∧
        (t.line l).iface.hook = false ∧ (t.line l).call.cleardownDue = some (t.now + 2000) ∧
        t = { s.setLine l (t.line l) with link := t.link, now := t.now })

/-! ### Chapter 9: mailboxes, recording, playback -/

/-- MAILBOX and MAILCLEAR (R179, R180): the checks in their order; an accepted entry takes its fields, the maximum length clamped to 5 to
600 s, and keeps its new flag; a greeting that changes takes its reference and the old one returns its own, and one that stays changes none
(the port is busy, and the old greeting is no withdrawn message's last reference); MAILCLEAR clears the new flags of the set and answers
how many it found. -/
def Obligations.MailboxAndMailclearAct : Prop :=
  ∀ (index enabled coding set : Byte) (greeting limit : Word16) (digits : List Byte) (s : State), s.requests = [] →
    s.mailboxes.length = 8 →
    let call := exec (.mailbox index enabled greeting limit coding digits) s
    (7 < index.toNat ∨ 1 < enabled.toNat ∨ coding = 0#8 ∨ 2 < coding.toNat ∨ digits = [] ∨ 4 < digits.length ∨
      (∃ d ∈ digits, isDtmfChar d = false) → call = .next (done 0x4D#8 .badParam [] s)) ∧
    (∀ (old : Mailbox) on c, s.mailboxes[index.toNat]? = some old → onOff enabled.toNat = some on →
      (coding = 1#8 ∧ c = .adc4 ∨ coding = 2#8 ∧ c = .adc2) → 1 ≤ digits.length → digits.length ≤ 4 →
      digits.all isDtmfChar = true →
      (greeting ≠ 0#16 → s.store.st ≠ .ready → call = .next (done 0x4D#8 .notReady [] s)) ∧
      (greeting ≠ 0#16 → s.store.st = .ready →
        (findEntry s greeting.toNat = none ∨ ∃ e, findEntry s greeting.toNat = some e ∧ (playable e = false ∨
          e.erasePending = true ∨ 255 ≤ e.inUse)) →
        call = .next (done 0x4D#8 .noEntry [] s)) ∧
      (let named := if greeting = 0#16 then none else some greeting.toNat
       let written := { done 0x4D#8 .ok [] s with
         mailboxes := s.mailboxes.set index.toNat
           { enabled := on, digits := digits, greeting := named, maxLength := max 5 (min 600 limit.toNat), coding := c
             isNew := old.isNew } }
       let count := fun (id : Option Nat) (f : Nat → Nat) (dir : List Entry) =>
         updateWhere (fun e => decide (some e.id = id)) (fun e => { e with inUse := f e.inUse }) dir
       (greeting = 0#16 ∨ s.store.st = .ready ∧ ∃ e, findEntry s greeting.toNat = some e ∧ playable e = true ∧
         e.erasePending = false ∧ e.inUse < 255) →
       (old.greeting = named → call = .next written) ∧
       (old.greeting ≠ named → s.store.grant ≠ none →
         (∀ id, old.greeting = some id → ∃ e, findEntry s id = some e ∧ 1 ≤ e.inUse ∧ (e.erasePending = false ∨ 2 ≤ e.inUse)) →
         call = .next { written with store := { s.store with
           dir := count old.greeting (· - 1) (count named (· + 1) s.store.dir) } }))) ∧
    (∃ t, exec (.mailclear set) s = .next t ∧
      (∀ (i : Nat) (m : Mailbox), s.mailboxes[i]? = some m →
        t.mailboxes[i]? = some { m with isNew := m.isNew && !set.toNat.testBit i }) ∧
      t.link = (done 0x63#8 .ok [BitVec.ofNat 8 ((List.range 8).filter fun i =>
        set.toNat.testBit i && ((s.mailboxes[i]?).map (·.isNew)).getD false).length] s).link ∧
      t = { s with link := t.link, mailboxes := t.mailboxes })

/-- Playback. PLAY, STOP and PLAYBACK_COMPLETE (R187, R188): the checks of PLAY in their order; an accepted one opens the stream at the
offset with its reference, resets the predictor and the step index, and reports VOICE START behind its DONE; STOP and the last code end
playback with VOICE END, the stream closed, its reference returned and the engine waiting; STOP in BEEP is BUSY and without an
operation BAD_STATE (here the engine works for the host). A rest shorter than a block is taken at once by PLAYBACK_COMPLETE: log
entry 34. The control operations of the detector (R188) act in PLAYING and PAUSED alone: STOP ends playback with KEY; SKIP_BACK and
SKIP_FWD open a new stream 5 s of bytes away, the predictor and the step index reset, not before offset 0, and one that would reach
the length ends playback with END at the position it had; PAUSE holds and resumes; a delivery ended so asks for its release (R190). The
port is busy. -/
def Obligations.PlaybackStartsAndEnds : Prop :=
  (∀ (line : Byte) (l : Line) (m : Word16) (o : Word32) (e : Entry) (s : State), s.requests = [] → s.store.grant ≠ none →
    (s.line l).iface.expecting = false → (s.line l).voice.kind ≠ some .delivery →
    let x := s.line l
    let v := x.voice
    let ended := fun (reason : EndReason) (position : Nat) (t : State) => (queueReport (.voice l .ended reason position) t).link
    (lineOf line = none → exec (.play line m o) s = .next (done 0x56#8 .badParam [] s) ∧
      exec (.stop line) s = .next (done 0x49#8 .badParam [] s)) ∧
    (line = lineByte l →
      (s.st l ≠ .voice → exec (.play line m o) s = .next (done 0x56#8 .badState [] s)) ∧
      (s.st l = .voice → v.sub ≠ some .waiting → exec (.play line m o) s = .next (done 0x56#8 .busy [] s)) ∧
      (s.st l = .voice → v.sub = some .waiting →
        (s.store.st ≠ .ready → exec (.play line m o) s = .next (done 0x56#8 .notReady [] s)) ∧
        (s.store.st = .ready → findEntry s m.toNat = none → exec (.play line m o) s = .next (done 0x56#8 .noEntry [] s)) ∧
        (s.store.st = .ready → findEntry s m.toNat = some e → e.id = m.toNat →
          (playable e = false → exec (.play line m o) s = .next (done 0x56#8 .noEntry [] s)) ∧
          (playable e = true → e.inUse < 255 → e.erasePending = false →
            (e.length < o.toNat → exec (.play line m o) s = .next (done 0x56#8 .badParam [] s)) ∧
            (o.toNat < e.length → ∃ t, exec (.play line m o) s = .next t ∧
              (t.line l).voice = { initialVoice with
                sub := some .playing, kind := some .host, message := some e.id, coding := e.coding, position := o.toNat } ∧
              readerOf t (.line l) = some { id := e.id, position := o.toNat, length := e.length, buffers := []
                                            nextSeq := seqOf o.toNat, ready := false, region := none
                                            tag := s.store.nextTag } ∧
              findEntry t m.toNat = some { e with inUse := e.inUse + 1 } ∧
              t.link = (queueReport (.voice l .start .none o.toNat)
                (done 0x56#8 .ok (numBytes 4 (e.length - o.toNat)) s)).link ∧ t.store.memory = s.store.memory ∧
              t = { s.setLine l { x with voice := (t.line l).voice } with link := t.link, store := t.store })))) ∧
      (v.sub = some .beep → exec (.stop line) s = .next (done 0x49#8 .busy [] s)) ∧
      (v.sub = none ∨ v.sub = some .waiting → exec (.stop line) s = .next (done 0x49#8 .badState [] s))) ∧
    (∀ r, s.st l = .voice → readerOf s (.line l) = some r → findEntry s r.id = some e → e.id = r.id → e.erasePending = false →
      (line = lineByte l → v.sub = some .playing ∨ v.sub = some .paused → ∃ t, exec (.stop line) s = .next t ∧
        (t.line l).voice = { v with sub := some .waiting, output := [] } ∧ readerOf t (.line l) = none ∧
        findEntry t r.id = some { e with inUse := e.inUse - 1 } ∧
        t.link = ended (.byRelease .host) v.position (done 0x49#8 .ok [] s) ∧ t.store.memory = s.store.memory ∧
        t = { s.setLine l { x with voice := (t.line l).voice } with link := t.link, store := t.store }) ∧
      (v.sub = some .playing → r.position < r.length → r.length - r.position ≤ blockBytes v.coding →
        r.held.length = r.length - r.position → ∃ t, exec (.playbackComplete l) s = .next t ∧
        (t.line l).voice.sub = some .waiting ∧ (t.line l).voice.position = v.position + (r.length - r.position) ∧
        readerOf t (.line l) = none ∧ findEntry t r.id = some { e with inUse := e.inUse - 1 } ∧
        t.link = ended .ended (v.position + (r.length - r.position)) s ∧ t.store.memory = s.store.memory ∧
        t = { s.setLine l { x with voice := (t.line l).voice } with link := t.link, store := t.store }))) ∧
  (∀ (l : Line) (op : ControlOp) (r : RStream) (e : Entry) (s : State), s.store.grant ≠ none → s.st l = .voice →
    (s.line l).iface.expecting = false → readerOf s (.line l) = some r → findEntry s r.id = some e → e.id = r.id →
    e.erasePending = false →
    let x := s.line l
    let v := x.voice
    let t := voiceControl l op s
    let span := if v.coding = .adc2 then 10000 else 20000
    let same := t.store.memory = s.store.memory ∧
      t = { s.setLine l { x with voice := (t.line l).voice } with link := t.link, store := t.store, requests := t.requests }
    let skipped := fun (n : Nat) => (t.line l).voice = { v with p := 0, k := 0, position := n, output := [] } ∧
      readerOf t (.line l) = some { id := r.id, position := n, length := r.length, buffers := [], nextSeq := seqOf n, ready := false
                                    region := none, tag := s.store.nextTag } ∧
      t.store.dir = s.store.dir ∧ t.link = (queueReport (.voice l .skip .none n) s).link ∧ t.requests = s.requests ∧ same
    let ended := fun (reason : EndReason) => (t.line l).voice = { v with sub := some .waiting, output := [] } ∧
      readerOf t (.line l) = none ∧ findEntry t r.id = some { e with inUse := e.inUse - 1 } ∧
      t.link = (queueReport (.voice l .ended reason v.position) s).link ∧
      t.requests = s.requests ++ (if v.kind = some .delivery then [.release l .voiceDone] else []) ∧ same
    (v.sub ≠ some .playing → v.sub ≠ some .paused → t = s) ∧
    (v.sub = some .playing ∨ v.sub = some .paused →
      (op = .stop → ended .key) ∧
      (op = .skipBack → skipped (v.position - span)) ∧
      (op = .skipFwd → v.position + span < r.length → skipped (v.position + span)) ∧
      (op = .skipFwd → r.length ≤ v.position + span → ended .ended) ∧
      (op = .pause → v.sub = some .playing → t = queueReport (.voice l .pause .none v.position)
        (s.setLine l { x with voice := { v with sub := some .paused, output := [] } })) ∧
      (op = .pause → v.sub = some .paused → t = queueReport (.voice l .resume .none v.position)
        (s.setLine l { x with voice := { v with sub := some .playing } }))))

/-- Recording. RECORD and the greeting's end (R182, R183, R189): the checks of RECORD in their order; an accepted one creates a VOICE
message of its mailbox and coding with its writing stream and its limit in bytes, and enters BEEP, or RECORDING; the end of a silent
greeting takes the line from CLASSIFY to VOICE, the answering recording created and its beep requested (no tone sounds, and no block of the
line begins at this moment). The recording (R184 to R186) begins with the first block after RECORDING was entered, VOICE START queued and
the coder at rest; each later block is coded and its bytes join the stream, its offset and its silence noted; the limit, else the silence
run, ends it. STOP ends it at the bytes handed, a far end gone at the offset of the block its time falls in, 0 before the first block. An
end queues VOICE END with the final length, before any report of the store (also before MESSAGE (EMPTY): the MODEL's inference, log entry
36), and closes the message, cut to that length first where it is shorter, truncated for LIMIT, STORE_FULL and RESET, or below one second
with erase, at once: MESSAGE (EMPTY), and FREE headers asked for the segments of the chain, whatever the cut would still free or read back
(R147), its erase-pending flag clear (the MODEL's, log entry 91); the engine then waits, and asks for the release its kind and reason have.
The port is busy; of a message of a second or more, the stream's buffers hold what is cut away. -/
def Obligations.RecordingBeginsWithItsMessage : Prop :=
  (∀ (l : Line) (line mb coding beep : Byte) (limit : Word16) (box : Option Nat) (c : Coding) (on : Bool) (s : State),
    s.requests = [] → (s.line l).iface.tone = none → (s.line l).iface.expecting = false →
    let x := s.line l
    let p := x.profile
    let call := exec (.record line mb coding limit beep) s
    let used := recordCoding s box c
    let seconds := if limit = 0#16 then (mailboxSettings s box).2 else max 5 (min 600 limit.toNat)
    let beeping := fun (t : State) => (t.line l).voice.sub = some .beep ∧
      (t.line l).iface = { x.iface with tone := some ⟨.beep p.beepFrequency p.beepDuration, true, t.now + p.beepDuration⟩ }
    (lineOf line = none ∨ 7 < mb.toNat ∧ mb ≠ 0xFF#8 ∨ 2 < coding.toNat ∨ 1 < beep.toNat →
      call = .next (done 0x42#8 .badParam [] s)) ∧
    (line = lineByte l → mailboxOf mb = some box → Coding.ofCode coding.toNat = some c → onOff beep.toNat = some on →
      (s.st l ≠ .voice → call = .next (done 0x42#8 .badState [] s)) ∧
      (s.st l = .voice → x.voice.sub ≠ some .waiting → call = .next (done 0x42#8 .busy [] s)) ∧
      (s.st l = .voice → x.voice.sub = some .waiting →
        (s.store.st ≠ .ready → call = .next (done 0x42#8 .notReady [] s)) ∧
        (s.store.st = .ready →
          (∀ i, box = some i → mailboxEnabled s i = false → call = .next (done 0x42#8 .noEntry [] s)) ∧
          (∀ _ : ∀ i, box = some i → mailboxEnabled s i = true,
            (createRefused s = true → call = .next (done 0x42#8 .storeFull [] s)) ∧
            (createRefused s = false → x.iface.blockDue ≠ s.now + 10 → ∃ t, call = .next t ∧
              t.store = (createMessage (.line l) .voice box used s).store ∧
              (t.line l).voice = { initialVoice with
                sub := (t.line l).voice.sub, kind := some .host, message := some (freshId s), mailbox := box, coding := used
                limit := seconds * (if used = .adc2 then 2000 else 4000) } ∧
              (on = true → beeping t) ∧
              (on = false → (t.line l).voice.sub = some .recording ∧ (t.line l).iface.expecting = true) ∧
              t.link = (done 0x42#8 .ok (numBytes 2 (freshId s)) s).link ∧
              t = { s.setLine l { x with voice := (t.line l).voice, iface := (t.line l).iface } with
                link := t.link, store := t.store }))))) ∧
    (∀ due, x.voice.sub = some .greeting → x.voice.silentDue = some due → s.st l = .classify → readerOf s (.line l) = none →
      x.call.cr.mailbox = none → x.call.cr.dir = some .incoming → s.store.st = .ready → createRefused s = false →
      ∃ t, exec (.greetingEnd l) s = .next t ∧ t.now = max s.now due ∧ t.st l = .voice ∧
        (t.line l).call.reason = some (.change .greetingEnd) ∧ (t.line l).call.classifyDue = none ∧
        t.store = (createMessage (.line l) .voice none .adc4 s).store ∧ beeping t ∧
        (t.line l).voice = { initialVoice with
          sub := some .beep, kind := some .answered, message := some (freshId s), coding := .adc4, limit := 480000 } ∧
        t = { s.setLine l { x with voice := (t.line l).voice, iface := (t.line l).iface, call := (t.line l).call } with
          link := t.link, store := t.store, now := t.now })) ∧
  (∀ (l : Line) (start id : Nat) (gained : List Int) (w : WStream) (e : Entry) (s : State),
    let x := s.line l
    let v := x.voice
    v.sub = some .recording → v.message = some id → s.st l = .voice → x.iface.expecting = true →
    s.store.writers = [w] → w.id = id → w.cut = .none → w.closing = none → findEntry s id = some e → e.id = id → s.store.grant ≠ none →
    v.coding = .adc4 ∨ v.coding = .adc2 →
    let block := voiceBlock l start gained s
    let one := if v.coding = .adc2 then 2000 else 4000
    (v.begun = false → block = queueReport (.voice l .start .none 0)
      (s.setLine l { x with voice := { v with begun := true, p := 0, k := 0, silenceRun := 0, position := 0 } })) ∧
    (v.begun = true → gained.length = 80 →
      let xs := gained.map fun y => y / 4
      let r := (Coder.mk v.p v.k).encode v.coding xs
      let bytes := packCodes v.coding r.1
      let n := w.accepted + bytes.length
      let silent := (xs.map Int.natAbs).sum / 80 < x.profile.silenceThreshold
      let run := if silent then v.silenceRun + 1 else 0
      let from_ := if silent ∧ v.silenceRun = 0 then w.accepted else v.silenceStart
      let stored := { s.setLine l { x with voice := { v with
          p := r.2.p, k := r.2.k, offsets := (start, w.accepted) :: v.offsets, position := n, silenceRun := run
          silenceStart := from_ } } with
        store := { s.store with
          writers := [{ w with filling := w.filling ++ bytes }]
          dir := updateWhere (fun y => decide (y.id = id)) (fun y => { y with length := y.length + bytes.length }) s.store.dir } }
      bytes.length = (if v.coding = .adc2 then 20 else 40) ∧
      (w.filling.length + bytes.length < w.fillCapacity →
        (n < v.limit → run < x.profile.silenceTime * 100 → block = stored) ∧
        (v.limit ≤ n → block = endRecording l .limit n stored) ∧
        (n < v.limit → x.profile.silenceTime * 100 ≤ run → block = endRecording l .silence from_ stored))) ∧
    (s.requests = [] → exec (.stop (lineByte l)) s =
      .next (endRecording l (.byRelease .host) w.accepted (done 0x49#8 .ok [] s))) ∧
    (∀ b o time, (b, o) ∈ v.offsets → v.offsets.Pairwise (fun p q => q.1 + 10 ≤ p.1) → b ≤ time → time < b + 10 →
      voiceFarEnd l time s = endRecording l (.byRelease .farEnd) o s) ∧
    (∀ time, (∀ p ∈ v.offsets, time < p.1) → voiceFarEnd l time s = endRecording l (.byRelease .farEnd) 0 s) ∧
    (∀ (reason : EndReason) (length : Nat), w.granted = false → w.handed = none → x.iface.current.get .levelLow = false →
      let t := endRecording l reason length s
      let final := min length w.accepted
      let told := queueReport (.voice l .ended reason final) s
      let answered := v.kind = some .answered
      let truncated := decide (reason = .limit ∨ reason = .byRelease .storeFull ∨ reason = .byRelease .reset)
      let asks : List Request :=
        if answered ∧ (reason = .limit ∨ reason = .silence) then [.release l .voiceDone]
        else if reason = .byRelease .farEnd then [.release l .farEnd]
        else if answered ∧ reason = .byRelease .storeFull then [.release l .storeFull] else []
      let closing := fun (region : Option Nat) (bytes : List Byte) => findWriter t id = some { w with
        active := false, failed := false, closing := some ⟨reason, truncated, 0, false, false⟩, region := region
        handed := some (bytes.take (segCapacity w.seq)), filling := bytes.drop (segCapacity w.seq) } ∧ t.link = told.link
      (t.line l).voice = { v with sub := some .waiting, begun := false, position := final } ∧
      (t.line l).iface = { x.iface with expecting := false, lowRun := 0, highRun := 0 } ∧ t.store.memory = s.store.memory ∧
      t = { s.setLine l { x with voice := (t.line l).voice, iface := (t.line l).iface } with
        link := t.link, store := t.store, requests := t.requests } ∧
      (final < one → s.store.maint = [] → (∀ g, s.store.grant ≠ some (.maint (.freeHeader g (.cut id)))) →
        let erased := findWriter t id = none ∧ t.link = (queueReport (.message id e.kind e.mailbox 0 .empty) told).link ∧
          findEntry t id = some { e with
            length := if w.accepted ≤ length then e.length else final, state := .erasing, writer := none, erasePending := false } ∧
          t.store.maint = e.chain.map fun g => .freeHeader g (.erase id)
        let kept := ((List.range e.chain.length).filter fun i => decide (segStart i < final)).length
        (e.chain ≠ [] → w.accepted ≤ length → erased ∧ t.requests = s.requests ++ asks) ∧
        (e.chain ≠ [] → length < w.accepted → w.seg = none → w.inStore = 0 → w.base = segStart w.seq → w.base ≤ final →
          kept = e.chain.length → erased ∧ t.requests = s.requests ++ (if w.active then [.cutDone w.owner id] else []) ++ asks) ∧
        (e.chain ≠ [] → length < w.accepted → kept < e.chain.length ∨ final < w.base ∧ final ≠ segStart (seqOf final) →
          erased ∧ t.requests = s.requests ++ asks)) ∧
      (one ≤ final → w.filling ≠ [] → w.accepted ≤ length →
        findEntry t id = some { e with pages := 0, truncated := truncated } ∧ closing w.region w.filling ∧
        t.requests = s.requests ++ asks) ∧
      (one ≤ final → w.seg = none → w.inStore = 0 → w.base = segStart w.seq → w.base < final → length < w.accepted →
        (∀ i, i < e.chain.length → segStart i < final) →
        findEntry t id = some { e with length := final, pages := 0, truncated := truncated } ∧
        closing (e.chain.getLast?.map regionOfSeg) (w.filling.take (final - w.base)) ∧
        t.requests = s.requests ++ (if w.active then [.cutDone w.owner id] else []) ++ asks)))

/-- The decoder follows the coder (R177, R178): the codes of any samples, packed into bytes and unpacked, are the codes; the decoder
that takes them ends with the coder's predictor and step index, and its samples are four times the predictors the coder had after
each code, all of them within -8192 to 8191. -/
def Obligations.DecoderFollowsTheCoder : Prop :=
  ∀ (coding : Coding) (start : Coder) (xs : List Int), coding ≠ .none → xs.length % (if coding = .adc2 then 4 else 2) = 0 →
    let codes := (start.encode coding xs).1
    (packCodes coding codes).flatMap (unpackByte coding) = codes ∧
    (packCodes coding codes).length = xs.length / (if coding = .adc2 then 4 else 2) ∧
    (start.decode coding codes).2 = (start.encode coding xs).2 ∧
    (start.decode coding codes).1 = (List.range xs.length).map (fun i => 4 * (start.encode coding (xs.take (i + 1))).2.p) ∧
    (∀ i, i < xs.length → -8192 ≤ (start.encode coding (xs.take (i + 1))).2.p ∧ (start.encode coding (xs.take (i + 1))).2.p ≤ 8191)
end

