-- ==== Sys2Proof/Laws/Memory.lean ====
section
/-! SUPPORT. The external memory: a read after a write, and the canonical form that every write keeps. -/

namespace Sys2Proof.Machine

/-- A read after a write gives the byte written at its address, and what stood there before elsewhere. -/
theorem Memory.read_write (m : List Host.Cell) (hm : Memory.wf m = true) (a a' : Nat) (b : Byte) :
    Memory.read (Memory.write m a b) a' = if a' = a then b else Memory.read m a' := by
  induction m with
  | nil =>
    simp only [Memory.write]
    split
    · simp_all [Memory.read]
    · simp only [Memory.read]
      split
      · rw [if_pos (by omega)]
      · rw [if_neg (by omega)]
  | cons c rest ih =>
    obtain ⟨k, v⟩ := c
    have low : ∀ (r : List Host.Cell) (k : Nat) (v : Byte), Memory.wf ((k, v) :: r) = true →
        ∀ x, x ≤ k → Memory.read r x = 0#8 := by
      intro r
      induction r with
      | nil => intros; rfl
      | cons c r ihr =>
        obtain ⟨k2, v2⟩ := c
        intro k v hw x hx
        simp only [Memory.wf, Bool.and_eq_true, decide_eq_true_eq] at hw
        have := ihr k2 v2 hw.2 x (by omega)
        simp only [Memory.read]
        rw [if_neg (by omega)]
        exact this
    have hrest : Memory.wf rest = true := by
      cases rest with
      | nil => rfl
      | cons c r => obtain ⟨k2, v2⟩ := c; simp only [Memory.wf, Bool.and_eq_true] at hm; exact hm.2
    simp only [Memory.write]
    split
    · simp only [Memory.read, ih hrest]
      by_cases h : k = a' <;> by_cases h2 : a' = a <;> simp_all
    · split
      · have hl := low rest k v hm k (Nat.le_refl k)
        subst k
        by_cases h2 : a' = a
        · subst h2
          split <;> simp_all [Memory.read]
        · rw [if_neg h2]
          have h3 : a ≠ a' := fun e => h2 e.symm
          split <;> simp [Memory.read, h3]
      · have hl := low rest k v hm a (by omega)
        by_cases h2 : a' = a
        · subst h2
          split
          · rw [if_pos rfl]; simp only [Memory.read]; rw [if_neg (by omega)]; simp_all
          · simp [Memory.read]
        · rw [if_neg h2]
          split
          · rfl
          · simp only [Memory.read]; rw [if_neg (by omega)]

/-- The head of a memory in canonical form stands below the rest of it. -/
theorem Memory.wf_cons (k : Nat) (v : Byte) (rest : List Host.Cell) :
    Memory.wf ((k, v) :: rest) = true ↔ v ≠ 0#8 ∧ (∀ c ∈ rest.head?, k < c.1) ∧ Memory.wf rest = true := by
  cases rest with
  | nil => simp [Memory.wf]
  | cons c r => obtain ⟨k2, v2⟩ := c; simp [Memory.wf, and_assoc]

/-- The head of a written memory is its old head or the address written. -/
theorem Memory.head_write (m : List Host.Cell) (hm : Memory.wf m = true) (a : Nat) (b : Byte) (n : Nat) (hn : n < a)
    (h : ∀ c ∈ m.head?, n < c.1) : ∀ c ∈ (Memory.write m a b).head?, n < c.1 := by
  cases m with
  | nil => by_cases hb : b = 0#8 <;> simp_all [Memory.write]
  | cons c rest =>
    obtain ⟨k, v⟩ := c
    rw [Memory.wf_cons] at hm
    have hk : n < k := h (k, v) rfl
    have hr : ∀ c ∈ rest.head?, n < c.1 := fun c hc => Nat.lt_trans hk (hm.2.1 c hc)
    simp only [Memory.write]
    repeat' split
    all_goals simp_all

/-- A write keeps the canonical form. -/
theorem Memory.wf_write (m : List Host.Cell) (hm : Memory.wf m = true) (a : Nat) (b : Byte) :
    Memory.wf (Memory.write m a b) = true := by
  induction m with
  | nil => by_cases hb : b = 0#8 <;> simp_all [Memory.write, Memory.wf]
  | cons c rest ih =>
    obtain ⟨k, v⟩ := c
    have hm' := (Memory.wf_cons k v rest).mp hm
    simp only [Memory.write]
    split
    · exact (Memory.wf_cons _ _ _).mpr ⟨hm'.1, Memory.head_write rest hm'.2.2 a b k (by assumption) hm'.2.1, ih hm'.2.2⟩
    · split
      · split
        · exact hm'.2.2
        · exact (Memory.wf_cons _ _ _).mpr ⟨by assumption, by subst k; exact hm'.2.1, hm'.2.2⟩
      · split
        · exact hm
        · refine (Memory.wf_cons _ _ _).mpr ⟨by assumption, fun c hc => ?_, hm⟩
          simp only [List.head?_cons, Option.mem_some_iff] at hc
          subst hc
          show a < k
          omega

/-- Writing bytes keeps the canonical form. -/
theorem Memory.wf_writeBytes (bs : List Byte) (m : List Host.Cell) (hm : Memory.wf m = true) (a : Nat) :
    Memory.wf (Memory.writeBytes m a bs) = true := by
  induction bs generalizing m a with
  | nil => exact hm
  | cons b rest ih => exact ih _ (Memory.wf_write m hm a b) _

/-- A read outside the bytes written gives what stood there before. -/
theorem Memory.read_writeBytes_outside (bs : List Byte) (m : List Host.Cell) (hm : Memory.wf m = true) (a x : Nat)
    (hx : x < a ∨ a + bs.length ≤ x) : Memory.read (Memory.writeBytes m a bs) x = Memory.read m x := by
  induction bs generalizing m a with
  | nil => rfl
  | cons b rest ih =>
    simp only [List.length_cons] at hx
    show Memory.read (Memory.writeBytes (Memory.write m a b) (a + 1) rest) x = _
    rw [ih _ (Memory.wf_write m hm a b) _ (by omega), Memory.read_write m hm, if_neg (by omega)]

end Sys2Proof.Machine
end

