-- ==== Sys2Proof/Laws/PerInstr.lean ====
section
/-! SUPPORT. What every command's directive code is: a directive's code is one of the codes of 10.2, in the range the parser
takes as a code (R1); an event has no code and no parameter bytes. -/

namespace Sys2Proof.Laws

open Sys2Proof

/-- The code of a command: in 20H to 7EH and among the codes of 10.2 for a directive; none, without parameter bytes, for an
event. -/
def Directive.Statement (i : Instr) : Prop :=
  match directiveCode i with
  | some code => 0x20 ≤ code.toNat ∧ code.toNat ≤ 0x7E ∧ code.toNat ∈ directiveCodes
  | none => directiveParams i = []

theorem Directive.powerOn (straps : BitVec 3) : Directive.Statement (.powerOn straps) := rfl
theorem Directive.downstreamByte (b : Byte) : Directive.Statement (.downstreamByte b) := rfl
theorem Directive.stallTimerExpiry : Directive.Statement .stallTimerExpiry := rfl
theorem Directive.target (code : Byte) : Directive.Statement (.target code) := ⟨by decide, by decide, by decide⟩
theorem Directive.linkrate (code : Byte) : Directive.Statement (.linkrate code) := ⟨by decide, by decide, by decide⟩
theorem Directive.query (subject : Byte) (index : Word16) : Directive.Statement (.query subject index) := ⟨by decide, by decide, by decide⟩
theorem Directive.resetLine (line : Line) : Directive.Statement (.resetLine line) := ⟨by decide, by decide, by decide⟩
theorem Directive.resetTables : Directive.Statement .resetTables := ⟨by decide, by decide, by decide⟩
theorem Directive.resetPart : Directive.Statement .resetPart := ⟨by decide, by decide, by decide⟩
theorem Directive.clock (year month day hour minute : Byte) : Directive.Statement (.clock year month day hour minute) := ⟨by decide, by decide, by decide⟩
theorem Directive.minuteTick : Directive.Statement .minuteTick := rfl
theorem Directive.secondsTick : Directive.Statement .secondsTick := rfl
theorem Directive.reportSent : Directive.Statement .reportSent := rfl
theorem Directive.payloadByteSent : Directive.Statement .payloadByteSent := rfl
theorem Directive.hholdChange (asserted : Bool) : Directive.Statement (.hholdChange asserted) := rfl
theorem Directive.blockEnd (line : Line) (samples : List Sample) : Directive.Statement (.blockEnd line samples) := rfl
theorem Directive.ringPulse (line : Line) : Directive.Statement (.ringPulse line) := rfl
theorem Directive.ringOn (line : Line) : Directive.Statement (.ringOn line) := rfl
theorem Directive.ringEndTimerExpiry (line : Line) : Directive.Statement (.ringEndTimerExpiry line) := rfl
theorem Directive.ringTimerExpiry (line : Line) : Directive.Statement (.ringTimerExpiry line) := rfl
theorem Directive.callerMessage (line : Line) (rest : List Byte) : Directive.Statement (.callerMessage line rest) := rfl
theorem Directive.callerAbandon (line : Line) : Directive.Statement (.callerAbandon line) := rfl
theorem Directive.loopInputChange (line : Line) (asserted : Bool) : Directive.Statement (.loopInputChange line asserted) := rfl
theorem Directive.loopEstablished (line : Line) : Directive.Statement (.loopEstablished line) := rfl
theorem Directive.noLoop (line : Line) : Directive.Statement (.noLoop line) := rfl
theorem Directive.loopLost (line : Line) : Directive.Statement (.loopLost line) := rfl
theorem Directive.extInputChange (line : Line) (asserted : Bool) : Directive.Statement (.extInputChange line asserted) := rfl
theorem Directive.extensionPickup (line : Line) : Directive.Statement (.extensionPickup line) := rfl
theorem Directive.extensionHangup (line : Line) : Directive.Statement (.extensionHangup line) := rfl
theorem Directive.toneGeneratorCompletion (line : Line) : Directive.Statement (.toneGeneratorCompletion line) := rfl
theorem Directive.callingToneToggle (line : Line) : Directive.Statement (.callingToneToggle line) := rfl
theorem Directive.pins (assignment : List (Byte × Byte)) : Directive.Statement (.pins assignment) := ⟨by decide, by decide, by decide⟩
theorem Directive.profile (line : Byte) (pairs : List (Byte × Word16)) : Directive.Statement (.profile line pairs) := ⟨by decide, by decide, by decide⟩
theorem Directive.monclear (line sources : Byte) : Directive.Statement (.monclear line sources) := ⟨by decide, by decide, by decide⟩
theorem Directive.toneWrite (index : Byte) (fields : ToneParams) : Directive.Statement (.toneWrite index fields) := ⟨by decide, by decide, by decide⟩
theorem Directive.toneDelete (index : Byte) : Directive.Statement (.toneDelete index) := ⟨by decide, by decide, by decide⟩
theorem Directive.cadenceWrite (index : Byte) (fields : CadenceParams) : Directive.Statement (.cadenceWrite index fields) := ⟨by decide, by decide, by decide⟩
theorem Directive.cadenceDelete (index : Byte) : Directive.Statement (.cadenceDelete index) := ⟨by decide, by decide, by decide⟩
theorem Directive.markread (line : Byte) : Directive.Statement (.markread line) := ⟨by decide, by decide, by decide⟩
theorem Directive.screenWrite (index : Byte) (fields : ScreenParams) : Directive.Statement (.screenWrite index fields) := ⟨by decide, by decide, by decide⟩
theorem Directive.screenDelete (index : Byte) : Directive.Statement (.screenDelete index) := ⟨by decide, by decide, by decide⟩
theorem Directive.dial (line mode : Byte) (message : Word16) (symbols : List Byte) : Directive.Statement (.dial line mode message symbols) := ⟨by decide, by decide, by decide⟩
theorem Directive.answer (line mode mailbox : Byte) : Directive.Statement (.answer line mode mailbox) := ⟨by decide, by decide, by decide⟩
theorem Directive.release (line kind : Byte) : Directive.Statement (.release line kind) := ⟨by decide, by decide, by decide⟩
theorem Directive.cleardownTimerExpiry (line : Line) : Directive.Statement (.cleardownTimerExpiry line) := rfl
theorem Directive.classifyWindowExpiry (line : Line) : Directive.Statement (.classifyWindowExpiry line) := rfl
theorem Directive.digitTimerExpiry (line : Line) : Directive.Statement (.digitTimerExpiry line) := rfl
theorem Directive.dialToneWaitExpiry (line : Line) : Directive.Statement (.dialToneWaitExpiry line) := rfl
theorem Directive.blindDialDelay (line : Line) : Directive.Statement (.blindDialDelay line) := rfl
theorem Directive.pulseBreakEnd (line : Line) : Directive.Statement (.pulseBreakEnd line) := rfl
theorem Directive.pulseMakeEnd (line : Line) : Directive.Statement (.pulseMakeEnd line) := rfl
theorem Directive.interdigitTimeEnd (line : Line) : Directive.Statement (.interdigitTimeEnd line) := rfl
theorem Directive.commaPauseEnd (line : Line) : Directive.Statement (.commaPauseEnd line) := rfl
theorem Directive.flashTimeEnd (line : Line) : Directive.Statement (.flashTimeEnd line) := rfl
theorem Directive.progressTimerExpiry (line : Line) : Directive.Statement (.progressTimerExpiry line) := rfl
theorem Directive.answerWatchArm (line : Line) : Directive.Statement (.answerWatchArm line) := rfl
theorem Directive.jobadd (kind : Byte) (message : Word16) (priority preference maxTries : Byte) (symbols : List Byte) : Directive.Statement (.jobadd kind message priority preference maxTries symbols) := ⟨by decide, by decide, by decide⟩
theorem Directive.jobclear (id : Byte) : Directive.Statement (.jobclear id) := ⟨by decide, by decide, by decide⟩
theorem Directive.attemptclear : Directive.Statement .attemptclear := ⟨by decide, by decide, by decide⟩
theorem Directive.ladder (rungs : List RungParams) : Directive.Statement (.ladder rungs) := ⟨by decide, by decide, by decide⟩
theorem Directive.windowEnd (line : Line) (symbols : List SymbolReading) (offset : Int) : Directive.Statement (.windowEnd line symbols offset) := rfl
theorem Directive.probeSent (line : Line) : Directive.Statement (.probeSent line) := rfl
theorem Directive.propose (line : Line) (proposal modes : Byte) : Directive.Statement (.propose line proposal modes) := rfl
theorem Directive.confirm (line : Line) (mode window : Byte) (payload : Word16) : Directive.Statement (.confirm line mode window payload) := rfl
theorem Directive.trainingMessageRepeat (line : Line) : Directive.Statement (.trainingMessageRepeat line) := rfl
theorem Directive.trainingTimerExpiry (line : Line) : Directive.Statement (.trainingTimerExpiry line) := rfl
theorem Directive.farProbeStart (line : Line) : Directive.Statement (.farProbeStart line) := rfl
theorem Directive.rateRequest (line : Line) (mode : Byte) : Directive.Statement (.rateRequest line mode) := rfl
theorem Directive.rateRefused (line : Line) (mode : Byte) : Directive.Statement (.rateRefused line mode) := rfl
theorem Directive.rateOk (line : Line) (mode : Byte) : Directive.Statement (.rateOk line mode) := rfl
theorem Directive.rateAnswerTimerExpiry (line : Line) : Directive.Statement (.rateAnswerTimerExpiry line) := rfl
theorem Directive.frameSent (line : Line) : Directive.Statement (.frameSent line) := rfl
theorem Directive.formingDelayEnd (line : Line) : Directive.Statement (.formingDelayEnd line) := rfl
theorem Directive.info (line : Line) (sequence ack : Byte) (payload : List Byte) : Directive.Statement (.info line sequence ack payload) := rfl
theorem Directive.rr (line : Line) (ack : Byte) (poll : Bool) : Directive.Statement (.rr line ack poll) := rfl
theorem Directive.rnr (line : Line) (ack : Byte) (poll : Bool) : Directive.Statement (.rnr line ack poll) := rfl
theorem Directive.rej (line : Line) (expected : Byte) : Directive.Statement (.rej line expected) := rfl
theorem Directive.clearFrame (line : Line) : Directive.Statement (.clearFrame line) := rfl
theorem Directive.badFrame (line : Line) (bytes : List Byte) : Directive.Statement (.badFrame line bytes) := rfl
theorem Directive.retransmitTimerExpiry (line : Line) : Directive.Statement (.retransmitTimerExpiry line) := rfl
theorem Directive.clearTimerExpiry (line : Line) : Directive.Statement (.clearTimerExpiry line) := rfl
theorem Directive.caps (line : Line) (modes resolutions lineTime : Byte) : Directive.Statement (.caps line modes resolutions lineTime) := rfl
theorem Directive.setMessage (line : Line) (mode resolution lineTime : Byte) : Directive.Statement (.setMessage line mode resolution lineTime) := rfl
theorem Directive.checkPatternEnd (line : Line) : Directive.Statement (.checkPatternEnd line) := rfl
theorem Directive.checkOk (line : Line) : Directive.Statement (.checkOk line) := rfl
theorem Directive.checkFail (line : Line) : Directive.Statement (.checkFail line) := rfl
theorem Directive.lineRecord (line : Line) (record : RecordInput) : Directive.Statement (.lineRecord line record) := rfl
theorem Directive.lineRecordSent (line : Line) : Directive.Statement (.lineRecordSent line) := rfl
theorem Directive.pageEnd (line : Line) (last : Bool) (lineCount : Word16) : Directive.Statement (.pageEnd line last lineCount) := rfl
theorem Directive.verdict (line : Line) (verdict : Byte) (total bad : Word16) : Directive.Statement (.verdict line verdict total bad) := rfl
theorem Directive.bye (line : Line) (reason : Byte) : Directive.Statement (.bye line reason) := rfl
theorem Directive.controlMessageSent (line : Line) : Directive.Statement (.controlMessageSent line) := rfl
theorem Directive.answerTimerExpiry (line : Line) : Directive.Statement (.answerTimerExpiry line) := rfl
theorem Directive.capsWaitExpiry (line : Line) : Directive.Statement (.capsWaitExpiry line) := rfl
theorem Directive.format (regions : List RegionParams) : Directive.Statement (.format regions) := ⟨by decide, by decide, by decide⟩
theorem Directive.storeset (reserve policy watermark orderMode : Byte) : Directive.Statement (.storeset reserve policy watermark orderMode) := ⟨by decide, by decide, by decide⟩
theorem Directive.openMessage (kind coding : Byte) : Directive.Statement (.openMessage kind coding) := ⟨by decide, by decide, by decide⟩
theorem Directive.closeMessage : Directive.Statement .closeMessage := ⟨by decide, by decide, by decide⟩
theorem Directive.readMessage (message : Word16) (offset : Word32) : Directive.Statement (.readMessage message offset) := ⟨by decide, by decide, by decide⟩
theorem Directive.newsack (message : Word16) : Directive.Statement (.newsack message) := ⟨by decide, by decide, by decide⟩
theorem Directive.erase (message : Word16) : Directive.Statement (.erase message) := ⟨by decide, by decide, by decide⟩
theorem Directive.segmentWriteComplete : Directive.Statement .segmentWriteComplete := rfl
theorem Directive.segmentReadComplete : Directive.Statement .segmentReadComplete := rfl
theorem Directive.freeHeaderWriteComplete : Directive.Statement .freeHeaderWriteComplete := rfl
theorem Directive.cutComplete : Directive.Statement .cutComplete := rfl
theorem Directive.copyRewriteComplete : Directive.Statement .copyRewriteComplete := rfl
theorem Directive.headerRewriteComplete : Directive.Statement .headerRewriteComplete := rfl
theorem Directive.scanReadComplete : Directive.Statement .scanReadComplete := rfl
theorem Directive.labelWriteComplete : Directive.Statement .labelWriteComplete := rfl
theorem Directive.mailbox (index enabled : Byte) (greeting maxLength : Word16) (coding : Byte) (digits : List Byte) : Directive.Statement (.mailbox index enabled greeting maxLength coding digits) := ⟨by decide, by decide, by decide⟩
theorem Directive.mailclear (set : Byte) : Directive.Statement (.mailclear set) := ⟨by decide, by decide, by decide⟩
theorem Directive.play (line : Byte) (message : Word16) (offset : Word32) : Directive.Statement (.play line message offset) := ⟨by decide, by decide, by decide⟩
theorem Directive.record (line mailbox coding : Byte) (limit : Word16) (beep : Byte) : Directive.Statement (.record line mailbox coding limit beep) := ⟨by decide, by decide, by decide⟩
theorem Directive.stop (line : Byte) : Directive.Statement (.stop line) := ⟨by decide, by decide, by decide⟩
theorem Directive.greetingEnd (line : Line) : Directive.Statement (.greetingEnd line) := rfl
theorem Directive.playbackComplete (line : Line) : Directive.Statement (.playbackComplete line) := rfl
theorem Directive.dtmfOnTimeEnd (line : Line) : Directive.Statement (.dtmfOnTimeEnd line) := rfl
theorem Directive.callerBurstByte (line : Line) (b : Byte) : Directive.Statement (.callerBurstByte line b) := rfl

end Sys2Proof.Laws
end

