-- ==== Sys2Proof/Laws/SoundBase.lean ====
section
/-! SUPPORT. The limits of `Sound` under the basic updates of the state: each lemma says once that an update of one part of the
state keeps them. -/

namespace Sys2Proof.Machine
variable {q : List Instr}

theorem sound_ite {c : Prop} [Decidable c] {a b : State} (ha : Sound q a) (hb : Sound q b) : Sound q (if c then a else b) := by
  split <;> assumption

theorem sound_have {v : State} {b : State → State} (hv : Sound q v) (hb : ∀ s, Sound q s → Sound q (b s)) :
    Sound q (have s := v; b s) := hb v hv

theorem sound_foldl {α : Type} {f : State → α → State} (hf : ∀ s x, Sound q s → Sound q (f s x)) (xs : List α) {s : State}
    (h : Sound q s) : Sound q (xs.foldl f s) := by
  induction xs generalizing s with
  | nil => exact h
  | cons x rest ih => exact ih (hf s x h)

theorem modLink_sound {f : Link → Link} (hf : ∀ k : Link, k.reports.length ≤ 32 → (f k).reports.length ≤ 32) {s : State}
    (h : Sound q s) : Sound q (modLink f s) :=
  ⟨h.1, hf _ h.2, h.3, h.4, h.5, h.6, h.7, h.8, h.9, h.10, h.11, h.12, h.13⟩

theorem modStore_sound {f : Store → Store} (hf : ∀ t : Store, StoreSound t → StoreSound (f t)) {s : State}
    (h : Sound q s) : Sound q (modStore f s) :=
  ⟨h.1, h.2, hf _ h.3, h.4, h.5, h.6, h.7, h.8, h.9, h.10, h.11, h.12, h.13⟩

theorem modDl_sound (l : Line) {f : DataLink → DataLink} (hf : ∀ d : DataLink, LinkSound d → LinkSound (f d)) {s : State}
    (h : Sound q s) : Sound q (modDl l f s) := by
  cases l
  · exact ⟨h.1, h.2, h.3, h.4, h.5, h.6, h.7, h.8, h.9, h.10, h.11, hf _ h.12, h.13⟩
  · exact ⟨h.1, h.2, h.3, h.4, h.5, h.6, h.7, h.8, h.9, h.10, h.11, h.12, hf _ h.13⟩

/-- The data link of a line in a sound state keeps its limits. -/
theorem Sound.link {s : State} (h : Sound q s) (l : Line) : LinkSound (s.line l).dl := by
  cases l
  · exact h.12
  · exact h.13

/-- A change of a data link that keeps its limits as it stands. -/
theorem modDl_sound_at (l : Line) {f : DataLink → DataLink} {s : State} (h : Sound q s)
    (hf : LinkSound (s.line l).dl → LinkSound (f (s.line l).dl)) : Sound q (modDl l f s) := by
  cases l
  · exact ⟨h.1, h.2, h.3, h.4, h.5, h.6, h.7, h.8, h.9, h.10, h.11, hf h.12, h.13⟩
  · exact ⟨h.1, h.2, h.3, h.4, h.5, h.6, h.7, h.8, h.9, h.10, h.11, h.12, hf h.13⟩

/-- The ids of a directory changed in one entry that keeps its id. -/
theorem updateWhere_ids (p : Entry → Bool) (f : Entry → Entry) (hf : ∀ e, (f e).id = e.id) (dir : List Entry) :
    (updateWhere p f dir).map (·.id) = dir.map (·.id) := by
  induction dir with
  | nil => rfl
  | cons e rest ih => simp only [updateWhere, List.map_cons] at *; split <;> simp_all

/-- The unheard list of a sound store is no longer than its directory. -/
theorem StoreSound.unheard_length {t : Store} (h : StoreSound t) : t.unheard.length ≤ 96 := by
  have hs : t.unheard.length ≤ (t.dir.map (·.id)).length := (h.2.2.1.subperm h.2.2.2).length_le
  have := h.2.1
  simp at hs; omega

theorem modProfile_sound (l : Line) (f : Profile → Profile) {s : State} (h : Sound q s) : Sound q (modProfile l f s) := by
  cases l <;> exact ⟨h.1, h.2, h.3, h.4, h.5, h.6, h.7, h.8, h.9, h.10, h.11, h.12, h.13⟩
theorem modIface_sound (l : Line) (f : Iface → Iface) {s : State} (h : Sound q s) : Sound q (modIface l f s) := by
  cases l <;> exact ⟨h.1, h.2, h.3, h.4, h.5, h.6, h.7, h.8, h.9, h.10, h.11, h.12, h.13⟩
theorem modDet_sound (l : Line) (f : Detector → Detector) {s : State} (h : Sound q s) : Sound q (modDet l f s) := by
  cases l <;> exact ⟨h.1, h.2, h.3, h.4, h.5, h.6, h.7, h.8, h.9, h.10, h.11, h.12, h.13⟩
theorem modCall_sound (l : Line) (f : Call → Call) {s : State} (h : Sound q s) : Sound q (modCall l f s) := by
  cases l <;> exact ⟨h.1, h.2, h.3, h.4, h.5, h.6, h.7, h.8, h.9, h.10, h.11, h.12, h.13⟩
theorem modRecord_sound (l : Line) (f : CallRecord → CallRecord) {s : State} (h : Sound q s) : Sound q (modRecord l f s) :=
  modCall_sound l _ h
theorem modModem_sound (l : Line) (f : Modem → Modem) {s : State} (h : Sound q s) : Sound q (modModem l f s) := by
  cases l <;> exact ⟨h.1, h.2, h.3, h.4, h.5, h.6, h.7, h.8, h.9, h.10, h.11, h.12, h.13⟩
theorem modFax_sound (l : Line) (f : Fax → Fax) {s : State} (h : Sound q s) : Sound q (modFax l f s) := by
  cases l <;> exact ⟨h.1, h.2, h.3, h.4, h.5, h.6, h.7, h.8, h.9, h.10, h.11, h.12, h.13⟩
theorem modVoice_sound (l : Line) (f : Voice → Voice) {s : State} (h : Sound q s) : Sound q (modVoice l f s) := by
  cases l <;> exact ⟨h.1, h.2, h.3, h.4, h.5, h.6, h.7, h.8, h.9, h.10, h.11, h.12, h.13⟩
theorem elapse_sound (due : Nat) {s : State} (h : Sound q s) : Sound q (elapse due s) :=
  ⟨h.1, h.2, h.3, h.4, h.5, h.6, h.7, h.8, h.9, h.10, h.11, h.12, h.13⟩
theorem post_sound (r : Request) {s : State} (h : Sound q s) : Sound q (post r s) :=
  ⟨h.1, h.2, h.3, h.4, h.5, h.6, h.7, h.8, h.9, h.10, h.11, h.12, h.13⟩
theorem pins_sound (x : List PinCfg) (hx : x.length = 12) {s : State} (h : Sound q s) : Sound q { s with pins := x } :=
  ⟨h.1, h.2, h.3, hx, h.5, h.6, h.7, h.8, h.9, h.10, h.11, h.12, h.13⟩
theorem tones_sound (x : List (Option ToneEntry)) (hx : x.length = 24) {s : State} (h : Sound q s) : Sound q { s with tones := x } :=
  ⟨h.1, h.2, h.3, h.4, hx, h.6, h.7, h.8, h.9, h.10, h.11, h.12, h.13⟩
theorem cadences_sound (x : List (Option CadEntry)) (hx : x.length = 8) {s : State} (h : Sound q s) :
    Sound q { s with cadences := x } :=
  ⟨h.1, h.2, h.3, h.4, h.5, hx, h.7, h.8, h.9, h.10, h.11, h.12, h.13⟩
theorem screen_sound (x : List (Option ScreenEntry)) (hx : x.length = 32) {s : State} (h : Sound q s) :
    Sound q { s with screen := x } :=
  ⟨h.1, h.2, h.3, h.4, h.5, h.6, hx, h.8, h.9, h.10, h.11, h.12, h.13⟩
theorem attempts_sound (x : List (Option AttemptRecord)) (hx : x.length = 16) {s : State} (h : Sound q s) :
    Sound q { s with attempts := x } :=
  ⟨h.1, h.2, h.3, h.4, h.5, h.6, h.7, hx, h.9, h.10, h.11, h.12, h.13⟩
theorem jobs_sound (x : List Job) (hx : x.length ≤ 16) {s : State} (h : Sound q s) : Sound q { s with jobs := x } :=
  ⟨h.1, h.2, h.3, h.4, h.5, h.6, h.7, h.8, hx, h.10, h.11, h.12, h.13⟩
theorem ladder_sound (x : List Rung) (hx : 1 ≤ x.length ∧ x.length ≤ 8) {s : State} (h : Sound q s) : Sound q { s with ladder := x } :=
  ⟨h.1, h.2, h.3, h.4, h.5, h.6, h.7, h.8, h.9, hx, h.11, h.12, h.13⟩
theorem mailboxes_sound (x : List Mailbox) (hx : x.length = 8) {s : State} (h : Sound q s) : Sound q { s with mailboxes := x } :=
  ⟨h.1, h.2, h.3, h.4, h.5, h.6, h.7, h.8, h.9, h.10, hx, h.12, h.13⟩
theorem requests_sound (x : List Request) {s : State} (h : Sound q s) : Sound q { s with requests := x } :=
  ⟨h.1, h.2, h.3, h.4, h.5, h.6, h.7, h.8, h.9, h.10, h.11, h.12, h.13⟩
theorem samples_sound (x : Nat) {s : State} (h : Sound q s) : Sound q { s with samples := x } :=
  ⟨h.1, h.2, h.3, h.4, h.5, h.6, h.7, h.8, h.9, h.10, h.11, h.12, h.13⟩
theorem writeSegment_wf (m : List Host.Cell) (hm : Memory.wf m = true) (e : Entry) (seg n : Nat) (bs : List Byte) :
    Memory.wf (writeSegment m e seg n bs) = true := by
  unfold writeSegment
  refine Memory.wf_writeBytes _ _ ?_ _
  split
  · exact Memory.wf_writeBytes _ _ (Memory.wf_writeBytes _ _ hm _) _
  · exact Memory.wf_writeBytes _ _ hm _
theorem rewriteCopy_wf (m : List Host.Cell) (hm : Memory.wf m = true) (e : Entry) : Memory.wf (rewriteCopy m e) = true := by
  unfold rewriteCopy
  split
  · exact Memory.wf_writeBytes _ _ hm _
  · exact hm
theorem reportGone_reports (r : Report) (k : Link) : (reportGone r k).reports = k.reports := by
  unfold reportGone
  repeat' split
  all_goals rfl
theorem takeReport_sound (r : Report) (rest : List Report) {s : State} (hr : rest.length < 32) (h : Sound q s) :
    Sound q (takeReport r rest s) := by
  refine modLink_sound (fun k _ => ?_) h
  show (if k.loss then rest ++ [Report.loss] else rest).length ≤ 32
  split
  · simp; omega
  · omega
theorem arbiterChoose_sound {s : State} (h : Sound q s) : Sound q (arbiterChoose s) := by
  unfold arbiterChoose
  split
  · rename_i r rest hr
    exact takeReport_sound r rest (by have := h.reports; rw [hr] at this; simp at this; omega) h
  · repeat' first | exact h | exact modLink_sound (fun k hk => by exact hk) h | split
theorem arbiterKick_sound {s : State} (h : Sound q s) : Sound q (arbiterKick s) := by
  unfold arbiterKick; split
  · exact arbiterChoose_sound h
  · exact h
theorem queueReport_sound (r : Report) {s : State} (h : Sound q s) : Sound q (queueReport r s) := by
  unfold queueReport
  split
  · rename_i hf
    have hf : s.link.reports.length < 32 := by simpa [reportFits] using hf
    apply arbiterKick_sound
    exact ⟨h.1, by show (s.link.reports ++ [r]).length ≤ 32; simp; omega, h.3, h.4, h.5, h.6, h.7, h.8, h.9, h.10, h.11, h.12, h.13⟩
  · exact modLink_sound (fun k hk => by exact hk) h
end Sys2Proof.Machine
end

