-- ==== Sys2Proof/Laws/SoundStore.lean ====
section
/-! SUPPORT. The limits of `Sound` under the operations of the report queue, the monitors' flags and the message store: one lemma for each operation,
which a proof about a command cites in place of unfolding the operation. -/

namespace Sys2Proof.Machine
variable {q : List Instr}

theorem elapseTo_sound (x0 : Option Nat) {s : State} (h : Sound q s) : Sound q (elapseTo x0 s) := by
  unfold elapseTo
  repeat' first
    | assumption | with_reducible apply elapse_sound | exact fun _ hk => hk | intro _ | with_reducible apply sound_ite
    | with_reducible refine sound_have ?_ ?_ | split

theorem queueReports_sound (x0 : List Report) {s : State} (h : Sound q s) : Sound q (queueReports x0 s) := by
  unfold queueReports
  repeat' first
    | assumption | with_reducible apply queueReport_sound | with_reducible apply sound_foldl | exact fun _ hk => hk | intro _

theorem done_sound (x0 : Byte) (x1 : Result) (x2 : List Byte) {s : State} (h : Sound q s) : Sound q (done x0 x1 x2 s) := by
  unfold done
  repeat' first
    | assumption | with_reducible apply queueReport_sound

theorem staleSource_sound (x0 : Source) {s : State} (h : Sound q s) : Sound q (staleSource x0 s) := by
  unfold staleSource
  repeat' first
    | assumption | with_reducible apply modLink_sound | exact fun _ hk => hk

theorem lholdAfresh_sound {s : State} (h : Sound q s) : Sound q (lholdAfresh s) := by
  unfold lholdAfresh
  repeat' first
    | assumption | with_reducible apply modLink_sound | exact fun _ hk => hk

theorem lholdJoined_sound (x0 : Target) {s : State} (h : Sound q s) : Sound q (lholdJoined x0 s) := by
  unfold lholdJoined
  repeat' first
    | assumption | with_reducible apply modLink_sound | exact fun _ hk => hk | intro _ | with_reducible apply sound_ite
    | with_reducible refine sound_have ?_ ?_ | split

theorem lholdLeft_sound (x0 : Target) {s : State} (h : Sound q s) : Sound q (lholdLeft x0 s) := by
  unfold lholdLeft
  repeat' first
    | assumption | with_reducible apply modLink_sound | exact fun _ hk => hk | intro _ | with_reducible apply sound_ite
    | with_reducible refine sound_have ?_ ?_ | split

theorem monitorChange_sound (x0 : Bool) (x1 : Line) (x2 : MonSource) {s : State} (h : Sound q s) : Sound q (monitorChange x0
    x1 x2 s) := by
  unfold monitorChange
  repeat' first
    | assumption | with_reducible apply queueReport_sound | exact fun _ hk => hk | intro _ | with_reducible apply sound_ite

theorem setCondition_sound (x0 : Line) (x1 : MonSource) (x2 : Bool) {s : State} (h : Sound q s) : Sound q (setCondition x0 x1
    x2 s) := by
  unfold setCondition
  repeat' first
    | assumption | with_reducible apply monitorChange_sound | with_reducible apply modIface_sound | exact fun _ hk => hk
    | intro _ | with_reducible apply sound_ite

theorem judgeExpectation_sound (x0 : Line) {s : State} (h : Sound q s) : Sound q (judgeExpectation x0 s) := by
  unfold judgeExpectation
  repeat' first
    | assumption | with_reducible apply modIface_sound | with_reducible apply setCondition_sound | exact fun _ hk => hk
    | intro _ | with_reducible apply sound_ite

theorem modEntry_sound (x0 : Nat) {f : Entry → Entry} (hf : ∀ e, (f e).id = e.id) {s : State} (h : Sound q s) :
    Sound q (modEntry x0 f s) := by
  unfold modEntry
  refine modStore_sound ?_ h
  refine fun t ht => ⟨ht.1, ?_, ht.2.2.1, ?_⟩
  · simpa [updateWhere] using ht.2.1
  · simpa only [updateWhere_ids _ _ hf] using ht.2.2.2

theorem removeEntry_sound (x0 : Nat) {s : State} (h : Sound q s) : Sound q (removeEntry x0 s) := by
  unfold removeEntry
  refine modStore_sound ?_ h
  refine fun t ht => ⟨ht.1, (List.length_filter_le _ _).trans ht.2.1, ht.2.2.1.filter _, fun id hid => ?_⟩
  simp only [List.mem_filter, decide_eq_true_eq] at hid
  obtain ⟨e, he, rfl⟩ := List.mem_map.1 (ht.2.2.2 id hid.1)
  exact List.mem_map.2 ⟨e, List.mem_filter.2 ⟨he, by simpa using hid.2⟩, rfl⟩

/-- A message is created only where the directory has room (R138, R143). -/
theorem createMessage_sound (x0 : Owner) (x1 : MsgKind) (x2 : Option Nat) (x3 : Coding) {s : State}
    (room : s.store.dir.length < 96) (h : Sound q s) : Sound q (createMessage x0 x1 x2 x3 s) := by
  refine ⟨h.1, h.2, ⟨h.3.1, ?_, h.3.2.2.1, fun id hid => ?_⟩, h.4, h.5, h.6, h.7, h.8, h.9, h.10, h.11, h.12, h.13⟩
  · simpa [createMessage, modStore] using room
  · have := h.3.2.2.2 id hid
    simp only [createMessage, modStore, List.map_append, List.mem_append]
    exact .inl this

/-- An id placed in a list of ids joins it, and changes nothing else of it. -/
theorem placeByCreation_perm (dir : List Entry) (id : Nat) (l : List Nat) : (placeByCreation dir id l).Perm (id :: l) := by
  induction l with
  | nil => exact .refl _
  | cons x rest ih =>
    unfold placeByCreation
    split
    · exact .refl _
    · exact (ih.cons x).trans (.swap id x rest)

theorem joinUnheard_sound (x0 : Nat) {s : State} (h : Sound q s) : Sound q (joinUnheard x0 s) := by
  unfold joinUnheard
  split
  · rename_i e he
    split
    · rename_i hu
      have hp := placeByCreation_perm s.store.dir x0 s.store.unheard
      have hmem : x0 ∈ s.store.dir.map (·.id) := by
        have h1 := List.find?_some he
        have h2 := List.mem_of_find?_eq_some he
        simp only [decide_eq_true_eq] at h1
        exact h1 ▸ List.mem_map.2 ⟨e, h2, rfl⟩
      have hs : Sound q (modStore (fun t => { t with unheard := placeByCreation t.dir x0 t.unheard }) s) := by
        refine ⟨h.1, h.2, ⟨h.3.1, h.3.2.1, ?_, fun id hid => ?_⟩, h.4, h.5, h.6, h.7, h.8, h.9, h.10, h.11, h.12, h.13⟩
        · exact hp.nodup_iff.2 (List.nodup_cons.2 ⟨hu.2, h.3.2.2.1⟩)
        · rcases List.mem_cons.1 (hp.mem_iff.1 hid) with rfl | hid
          · exact hmem
          · exact h.3.2.2.2 id hid
      exact sound_ite (queueReport_sound _ hs) hs
    · exact h
  · exact h

theorem leaveUnheard_sound (x0 : Nat) {s : State} (h : Sound q s) : Sound q (leaveUnheard x0 s) := by
  unfold leaveUnheard
  refine modStore_sound ?_ h
  exact fun t ht => ⟨ht.1, ht.2.1, ht.2.2.1.filter _, fun id hid => ht.2.2.2 id (List.mem_of_mem_filter hid)⟩

theorem modWriter_sound (x0 : Nat) (x1 : WStream → WStream) {s : State} (h : Sound q s) : Sound q (modWriter x0 x1 s) := by
  unfold modWriter
  repeat' first
    | assumption | with_reducible apply modStore_sound | exact fun _ hk => hk

theorem leaveWaiting_sound (x0 : Nat) {s : State} (h : Sound q s) : Sound q (leaveWaiting x0 s) := by
  unfold leaveWaiting
  repeat' first
    | assumption | with_reducible apply modStore_sound | exact fun _ hk => hk

theorem removeWriter_sound (x0 : Nat) {s : State} (h : Sound q s) : Sound q (removeWriter x0 s) := by
  unfold removeWriter
  repeat' first
    | assumption | with_reducible apply leaveWaiting_sound | with_reducible apply modStore_sound | exact fun _ hk => hk

theorem setReader_sound (x0 : Owner) (x1 : Option RStream) {s : State} (h : Sound q s) : Sound q (setReader x0 x1 s) := by
  unfold setReader
  repeat' first
    | assumption | with_reducible apply modStore_sound | exact fun _ hk => hk | intro _ | with_reducible apply sound_ite
    | with_reducible refine sound_have ?_ ?_ | split

theorem dropWriter_sound (x0 : Nat) {s : State} (h : Sound q s) : Sound q (dropWriter x0 s) := by
  unfold dropWriter
  repeat' first
    | assumption | with_reducible apply leaveWaiting_sound | with_reducible apply modWriter_sound
    | with_reducible apply removeWriter_sound | exact fun _ hk => hk | intro _ | with_reducible apply sound_ite
    | with_reducible refine sound_have ?_ ?_ | split

theorem startErase_sound (x0 : Nat) {s : State} (h : Sound q s) : Sound q (startErase x0 s) := by
  unfold startErase
  repeat' first
    | assumption | with_reducible apply removeEntry_sound | with_reducible apply leaveUnheard_sound
    | with_reducible apply modStore_sound | with_reducible apply modEntry_sound | exact fun _ hk => hk | exact fun _ => rfl | intro _
    | with_reducible apply sound_ite | with_reducible refine sound_have ?_ ?_ | split

theorem takeRef_sound (x0 : Nat) {s : State} (h : Sound q s) : Sound q (takeRef x0 s) := by
  unfold takeRef
  repeat' first
    | assumption | with_reducible apply modEntry_sound | exact fun _ => rfl

theorem returnRef_sound (x0 : Nat) {s : State} (h : Sound q s) : Sound q (returnRef x0 s) := by
  unfold returnRef
  repeat' first
    | assumption | with_reducible apply modEntry_sound | with_reducible apply startErase_sound | exact fun _ hk => hk | exact fun _ => rfl | intro _
    | with_reducible apply sound_ite | with_reducible refine sound_have ?_ ?_ | split | dsimp only

theorem giveSegment_sound (x0 : Nat) (x1 : Nat) {s : State} (h : Sound q s) : Sound q (giveSegment x0 x1 s) := by
  unfold giveSegment
  repeat' first
    | assumption | with_reducible apply modEntry_sound | with_reducible apply modWriter_sound
    | with_reducible apply modStore_sound | exact fun _ hk => hk | exact fun _ => rfl

theorem reportPace_sound (x0 : Nat) (x1 : WStream) (x2 : Bool) {s : State} (h : Sound q s) : Sound q (reportPace x0 x1 x2 s)
    := by
  unfold reportPace
  repeat' first
    | assumption | with_reducible apply queueReport_sound | with_reducible apply modWriter_sound | exact fun _ hk => hk
    | intro _ | with_reducible apply sound_ite

theorem allocate_sound (x0 : Nat) {s : State} (h : Sound q s) : Sound q (allocate x0 s) := by
  unfold allocate
  repeat' first
    | assumption | with_reducible apply giveSegment_sound | with_reducible apply reportPace_sound | exact fun _ hk => hk
    | intro _ | with_reducible apply sound_ite | with_reducible refine sound_have ?_ ?_ | split

theorem closeErase_sound (x0 : Nat) {s : State} (h : Sound q s) : Sound q (closeErase x0 s) := by
  unfold closeErase
  repeat' first
    | assumption | with_reducible apply startErase_sound | with_reducible apply queueReport_sound
    | with_reducible apply dropWriter_sound | exact fun _ hk => hk | intro _ | with_reducible apply sound_ite
    | with_reducible refine sound_have ?_ ?_ | split

theorem progressClose_sound (x0 : Nat) {s : State} (h : Sound q s) : Sound q (progressClose x0 s) := by
  unfold progressClose
  repeat' first
    | assumption | with_reducible apply modWriter_sound | with_reducible apply closeErase_sound
    | with_reducible apply modStore_sound | exact fun _ hk => hk | intro _ | with_reducible apply sound_ite
    | with_reducible refine sound_have ?_ ?_ | split

theorem cutFinished_sound (x0 : Nat) {s : State} (h : Sound q s) : Sound q (cutFinished x0 s) := by
  unfold cutFinished
  repeat' first
    | assumption | with_reducible apply modWriter_sound | with_reducible apply progressClose_sound
    | with_reducible apply post_sound | exact fun _ hk => hk | intro _ | with_reducible apply sound_ite
    | with_reducible refine sound_have ?_ ?_ | split | dsimp only

theorem carryCut_sound (x0 : Nat) (x1 : Nat) {s : State} (h : Sound q s) : Sound q (carryCut x0 x1 s) := by
  unfold carryCut
  repeat' first
    | assumption | with_reducible apply leaveWaiting_sound | with_reducible apply modWriter_sound
    | with_reducible apply modStore_sound | with_reducible apply cutFinished_sound | exact fun _ hk => hk | intro _
    | with_reducible apply sound_ite | with_reducible refine sound_have ?_ ?_ | split

theorem cutTo_sound (x0 : Nat) (x1 : Nat) {s : State} (h : Sound q s) : Sound q (cutTo x0 x1 s) := by
  unfold cutTo
  repeat' first
    | assumption | with_reducible apply modEntry_sound | with_reducible apply modWriter_sound
    | with_reducible apply carryCut_sound | exact fun _ hk => hk | exact fun _ => rfl | intro _ | with_reducible apply sound_ite
    | with_reducible refine sound_have ?_ ?_ | split

theorem cutFreed_sound (x0 : Nat) {s : State} (h : Sound q s) : Sound q (cutFreed x0 s) := by
  unfold cutFreed
  repeat' first
    | assumption | with_reducible apply cutFinished_sound | with_reducible apply modWriter_sound | exact fun _ hk => hk
    | intro _ | with_reducible apply sound_ite | with_reducible refine sound_have ?_ ?_ | split

theorem rewritePart_sound (x0 : Nat) (x1 : Nat) (x2 : Nat) (x3 : List Byte) {s : State} (h : Sound q s) : Sound q (rewritePart
    x0 x1 x2 x3 s) := by
  unfold rewritePart
  repeat' first
    | assumption | with_reducible apply modStore_sound | with_reducible apply modWriter_sound | exact fun _ hk => hk | intro _
    | with_reducible apply sound_ite | with_reducible refine sound_have ?_ ?_ | split

theorem rewriteBytes_sound (x0 : Nat) (x1 : Nat) (x2 : List Byte) {s : State} (h : Sound q s) : Sound q (rewriteBytes x0 x1 x2
    s) := by
  unfold rewriteBytes
  repeat' first
    | assumption | with_reducible apply rewritePart_sound

theorem rewriteMark_sound (x0 : Nat) (x1 : PageMark) (x2 : Verdict) (x3 : Bool) {s : State} (h : Sound q s) :
    Sound q (rewriteMark x0 x1 x2 x3 s) := rewriteBytes_sound _ _ _ h

theorem keepInWriter_sound (x0 : Nat) (x1 : List PageMark) {s : State} (h : Sound q s) : Sound q (keepInWriter x0 x1 s) := by
  unfold keepInWriter
  repeat' first
    | assumption | with_reducible apply rewriteMark_sound | with_reducible apply modWriter_sound | exact fun _ hk => hk
    | intro _ | with_reducible apply sound_ite | with_reducible refine sound_have ?_ ?_ | split

theorem shortenClose_sound (x0 : Nat) {s : State} (h : Sound q s) : Sound q (shortenClose x0 s) := by
  unfold shortenClose
  repeat' first
    | assumption | with_reducible apply closeErase_sound | with_reducible apply progressClose_sound | with_reducible apply cutTo_sound
    | with_reducible apply modEntry_sound | with_reducible apply modWriter_sound | with_reducible apply leaveWaiting_sound
    | with_reducible apply keepInWriter_sound | exact fun _ hk => hk | exact fun _ => rfl | intro _
    | with_reducible apply sound_ite | with_reducible refine sound_have ?_ ?_ | split

theorem endFull_sound (x0 : Nat) {s : State} (h : Sound q s) : Sound q (endFull x0 s) := by
  unfold endFull
  repeat' first
    | assumption | with_reducible apply queueReport_sound | with_reducible apply leaveWaiting_sound
    | with_reducible apply lholdLeft_sound | with_reducible apply startErase_sound | with_reducible apply modStore_sound
    | with_reducible apply removeWriter_sound | with_reducible apply post_sound | with_reducible apply modWriter_sound
    | with_reducible apply shortenClose_sound | exact fun _ hk => hk | intro _
    | with_reducible apply sound_ite | with_reducible refine sound_have ?_ ?_ | split

theorem joinWaiting_sound (x0 : Nat) {s : State} (h : Sound q s) : Sound q (joinWaiting x0 s) := by
  unfold joinWaiting
  repeat' first
    | assumption | with_reducible apply modStore_sound | exact fun _ hk => hk | intro _ | with_reducible apply sound_ite
    | with_reducible refine sound_have ?_ ?_ | split

theorem judgeFull_sound (x0 : Nat) {s : State} (h : Sound q s) : Sound q (judgeFull x0 s) := by
  unfold judgeFull
  repeat' first
    | assumption | with_reducible apply joinWaiting_sound | with_reducible apply queueReport_sound
    | with_reducible apply startErase_sound | with_reducible apply endFull_sound | exact fun _ hk => hk | intro _
    | with_reducible apply sound_ite | with_reducible refine sound_have ?_ ?_ | split

theorem rejudge_sound (x1 : Nat) {s : State} (h : Sound q s) : Sound q (rejudge s x1) := by
  unfold rejudge
  repeat' first
    | assumption | with_reducible apply judgeFull_sound | with_reducible apply leaveWaiting_sound
    | with_reducible apply allocate_sound | exact fun _ hk => hk | intro _ | with_reducible apply sound_ite

theorem judgeWaiting_sound {s : State} (h : Sound q s) : Sound q (judgeWaiting s) := by
  unfold judgeWaiting
  repeat' first
    | assumption | with_reducible apply rejudge_sound | with_reducible apply sound_foldl | exact fun _ hk => hk | intro _

theorem joinPool_sound (x0 : Nat) {s : State} (h : Sound q s) : Sound q (joinPool x0 s) := by
  unfold joinPool
  repeat' first
    | assumption | with_reducible apply modStore_sound | with_reducible apply leaveWaiting_sound
    | with_reducible apply allocate_sound | exact fun _ hk => hk | intro _ | with_reducible apply sound_ite
    | with_reducible refine sound_have ?_ ?_ | split | dsimp only

theorem resideIn_sound (x0 : Nat) (x1 : Option Nat) {s : State} (h : Sound q s) : Sound q (resideIn x0 x1 s) :=
  modWriter_sound _ _ h

theorem grantStream_sound (x0 : StreamReq) {s : State} (h : Sound q s) : Sound q (grantStream x0 s) := by
  unfold grantStream
  repeat' first
    | assumption | with_reducible apply modStore_sound | with_reducible apply setReader_sound
    | with_reducible apply allocate_sound | with_reducible apply resideIn_sound | with_reducible apply modWriter_sound | exact fun _ hk => hk | intro _
    | with_reducible apply sound_ite | with_reducible refine sound_have ?_ ?_ | split | dsimp only

theorem noteLine_sound (x0 : Line) {s : State} (h : Sound q s) : Sound q (noteLine x0 s) := by
  unfold noteLine
  repeat' first
    | assumption | with_reducible apply modStore_sound | exact fun _ hk => hk

theorem noteHost_sound (x0 : StreamReq) {s : State} (h : Sound q s) : Sound q (noteHost x0 s) := by
  unfold noteHost
  repeat' first
    | assumption | with_reducible apply modStore_sound | exact fun _ hk => hk

theorem storeKickFuel_sound (n : Nat) {s : State} (h : Sound q s) : Sound q (storeKickFuel n s) := by
  induction n generalizing s with
  | zero => exact h
  | succ n ih =>
    unfold storeKickFuel
    repeat' first
      | assumption | with_reducible apply ih | with_reducible apply judgeFull_sound | with_reducible apply noteLine_sound
      | with_reducible apply noteHost_sound | with_reducible apply grantStream_sound | with_reducible apply modStore_sound
      | exact fun _ hk => hk | split

theorem storeKick_sound {s : State} (h : Sound q s) : Sound q (storeKick s) := by
  unfold storeKick
  repeat' first
    | assumption | with_reducible apply storeKickFuel_sound

theorem freePort_sound {s : State} (h : Sound q s) : Sound q (freePort s) := by
  unfold freePort
  repeat' first
    | assumption | with_reducible apply modStore_sound | exact fun _ hk => hk

theorem appendBytes_sound (x0 : Nat) (x1 : List Byte) {s : State} (h : Sound q s) : Sound q (appendBytes x0 x1 s) := by
  unfold appendBytes
  repeat' first
    | assumption | with_reducible apply storeKick_sound | with_reducible apply modEntry_sound
    | with_reducible apply modWriter_sound | exact fun _ hk => hk | exact fun _ => rfl | intro _ | with_reducible apply sound_ite
    | with_reducible refine sound_have ?_ ?_ | split

@[simp] theorem noteSlip_store (l : Line) (s : State) : (noteSlip l s).store = s.store := by cases l <;> rfl
@[simp] theorem noteSlip_link (l : Line) (s : State) : (noteSlip l s).link = s.link := by cases l <;> rfl
@[simp] theorem noteSlip_requests (l : Line) (s : State) : (noteSlip l s).requests = s.requests := by cases l <;> rfl
@[simp] theorem noteSlip_line_iface (l : Line) (s : State) :
    ((noteSlip l s).line l).iface = { (s.line l).iface with slipped := true } := by cases l <;> rfl

theorem noteSlip_sound (l : Line) {s : State} (h : Sound q s) : Sound q (noteSlip l s) := modIface_sound l _ h

theorem appendSpeech_sound (l : Line) (id : Nat) (bs : List Byte) {s : State} (h : Sound q s) : Sound q (appendSpeech l id bs s) :=
  appendBytes_sound id bs (sound_ite (noteSlip_sound l h) h)

theorem appendRecord_sound (l : Line) (id : Nat) (bs : List Byte) {s : State} (h : Sound q s) : Sound q (appendRecord l id bs s) :=
  sound_ite (appendBytes_sound id bs h) (noteSlip_sound l h)

theorem closeMessageAs_sound (x0 : Nat) (x1 : EndReason) (x2 : Bool) (x3 : Nat) {s : State} (h : Sound q s) : Sound q
    (closeMessageAs x0 x1 x2 x3 s) := by
  unfold closeMessageAs
  repeat' first
    | assumption | with_reducible apply storeKick_sound | with_reducible apply progressClose_sound
    | with_reducible apply modEntry_sound | exact fun _ => rfl | with_reducible apply leaveWaiting_sound | with_reducible apply modWriter_sound

theorem closeWithErase_sound (x0 : Nat) {s : State} (h : Sound q s) : Sound q (closeWithErase x0 s) :=
  storeKick_sound (closeErase_sound _ h)

theorem closeEraseAfterCut_sound (x0 : Nat) {s : State} (h : Sound q s) : Sound q (closeEraseAfterCut x0 s) := by
  unfold closeEraseAfterCut
  repeat' first
    | assumption | with_reducible apply storeKick_sound | with_reducible apply closeWithErase_sound
    | with_reducible apply leaveWaiting_sound | with_reducible apply modWriter_sound | with_reducible apply sound_ite

theorem cutFirst_sound (x0 : Nat) (x1 : Nat) {s : State} (h : Sound q s) : Sound q (cutFirst x0 x1 s) := by
  unfold cutFirst
  repeat' first
    | assumption | with_reducible apply cutTo_sound | with_reducible apply sound_ite

theorem closeAt_sound (x0 : Nat) (x1 : Nat) (x2 : EndReason) (x3 : Bool) (x4 : Nat) {s : State} (h : Sound q s) : Sound q
    (closeAt x0 x1 x2 x3 x4 s) := by
  unfold closeAt
  repeat' first
    | assumption | with_reducible apply cutFirst_sound | with_reducible apply closeMessageAs_sound

theorem openReader_sound (x0 : Owner) (x1 : Nat) (x2 : Nat) (x3 : Nat) {s : State} (h : Sound q s) : Sound q (openReader x0 x1
    x2 x3 s) := by
  unfold openReader
  repeat' first
    | assumption | with_reducible apply storeKick_sound | with_reducible apply setReader_sound
    | with_reducible apply modStore_sound | exact fun _ hk => hk

theorem moveReader_sound (x0 : Owner) (x1 : Nat) {s : State} (h : Sound q s) : Sound q (moveReader x0 x1 s) := by
  unfold moveReader
  repeat' first
    | assumption | with_reducible apply openReader_sound | exact fun _ hk => hk | intro _ | with_reducible apply sound_ite
    | with_reducible refine sound_have ?_ ?_ | split

theorem closeReader_sound (x0 : Owner) {s : State} (h : Sound q s) : Sound q (closeReader x0 s) := by
  unfold closeReader
  repeat' first
    | assumption | with_reducible apply storeKick_sound | with_reducible apply returnRef_sound
    | with_reducible apply setReader_sound | exact fun _ hk => hk | intro _ | with_reducible apply sound_ite
    | with_reducible refine sound_have ?_ ?_ | split

theorem takeBytes_sound (x0 : Owner) (x1 : Nat) {s : State} (h : Sound q s) : Sound q (takeBytes x0 x1 s) := by
  unfold takeBytes
  repeat' first
    | assumption | with_reducible apply storeKick_sound | with_reducible apply setReader_sound | exact fun _ hk => hk | intro _
    | with_reducible apply sound_ite | with_reducible refine sound_have ?_ ?_ | split

theorem noteUnderrun_sound (l : Line) {s : State} (h : Sound q s) : Sound q (noteUnderrun l s) := by
  unfold noteUnderrun
  split
  · exact sound_ite (noteSlip_sound l h) h
  · exact h

theorem clearSlip_sound (l : Line) {s : State} (h : Sound q s) : Sound q (clearSlip l s) := modIface_sound l _ h

theorem enterReady_sound {s : State} (h : Sound q s) : Sound q (enterReady s) := by
  unfold enterReady
  repeat' first
    | assumption | with_reducible apply post_sound | with_reducible apply queueReport_sound
    | with_reducible apply modStore_sound | exact fun _ hk => hk

theorem scanEnd_sound {s : State} (h : Sound q s) : Sound q (scanEnd s) := by
  unfold scanEnd
  repeat' first
    | assumption | with_reducible apply enterReady_sound | exact fun _ hk => hk | intro _ | with_reducible apply sound_ite

theorem afterWriteActions_sound (x0 : Nat) {s : State} (h : Sound q s) : Sound q (afterWriteActions x0 s) := by
  unfold afterWriteActions
  repeat' first
    | assumption | with_reducible apply removeWriter_sound | with_reducible apply carryCut_sound
    | with_reducible apply progressClose_sound | exact fun _ hk => hk | intro _ | with_reducible apply sound_ite
    | with_reducible refine sound_have ?_ ?_ | split

theorem opSegmentWriteComplete_sound {s : State} (h : Sound q s) : Sound q (opSegmentWriteComplete s) := by
  unfold opSegmentWriteComplete
  repeat' first
    | assumption | exact fun _ hk => ⟨writeSegment_wf _ hk.1 _ _ _ _, hk.2⟩ | with_reducible apply freePort_sound
    | with_reducible apply modStore_sound | with_reducible apply afterWriteActions_sound | with_reducible apply modWriter_sound
    | with_reducible apply storeKick_sound | with_reducible apply lholdLeft_sound | exact fun _ hk => hk | intro _
    | with_reducible apply sound_ite | with_reducible refine sound_have ?_ ?_ | split | dsimp only

theorem readBackDone_sound (x0 : Nat) (x1 : Nat) {s : State} (h : Sound q s) : Sound q (readBackDone x0 x1 s) := by
  unfold readBackDone
  repeat' first
    | assumption | with_reducible apply modWriter_sound | with_reducible apply cutFinished_sound | exact fun _ hk => hk
    | intro _ | with_reducible apply sound_ite | with_reducible refine sound_have ?_ ?_ | split

theorem announceRead_sound (x0 : Owner) {s : State} (h : Sound q s) : Sound q (announceRead x0 s) := by
  unfold announceRead
  repeat' first
    | assumption | with_reducible apply post_sound | with_reducible apply arbiterKick_sound | exact fun _ hk => hk | intro _
    | with_reducible apply sound_ite | with_reducible refine sound_have ?_ ?_ | split

theorem opSegmentReadComplete_sound {s : State} (h : Sound q s) : Sound q (opSegmentReadComplete s) := by
  unfold opSegmentReadComplete
  repeat' first
    | assumption | with_reducible apply freePort_sound | with_reducible apply storeKick_sound
    | with_reducible apply announceRead_sound | with_reducible apply setReader_sound | with_reducible apply readBackDone_sound
    | exact fun _ hk => hk | intro _ | with_reducible apply sound_ite | with_reducible refine sound_have ?_ ?_ | split
    | dsimp only

theorem eraseEnd_sound (x0 : Nat) {s : State} (h : Sound q s) : Sound q (eraseEnd x0 s) := by
  unfold eraseEnd
  repeat' first
    | assumption | with_reducible apply judgeWaiting_sound | with_reducible apply queueReport_sound
    | with_reducible apply removeEntry_sound | exact fun _ hk => hk | intro _ | with_reducible apply sound_ite
    | with_reducible refine sound_have ?_ ?_ | split

theorem freedFromChain_sound (x0 : Nat) (x1 : Nat) {s : State} (h : Sound q s) : Sound q (freedFromChain x0 x1 s) := by
  unfold freedFromChain
  repeat' first
    | assumption | with_reducible apply joinPool_sound | with_reducible apply modEntry_sound | exact fun _ hk => hk | exact fun _ => rfl | intro _
    | with_reducible apply sound_ite | with_reducible refine sound_have ?_ ?_ | split

theorem freeDone_sound (x0 : Nat) (x1 : FreeFor) {s : State} (h : Sound q s) : Sound q (freeDone x0 x1 s) := by
  unfold freeDone
  repeat' first
    | assumption | with_reducible apply eraseEnd_sound | with_reducible apply freedFromChain_sound
    | with_reducible apply cutFreed_sound | with_reducible apply scanEnd_sound | with_reducible apply joinPool_sound
    | exact fun _ hk => hk | intro _ | with_reducible apply sound_ite | with_reducible refine sound_have ?_ ?_ | split

theorem completeFree_sound (x0 : Nat) (x1 : FreeFor) {s : State} (h : Sound q s) : Sound q (completeFree x0 x1 s) := by
  unfold completeFree
  repeat' first
    | assumption | exact fun _ hk => ⟨Memory.wf_writeBytes _ _ hk.1 _, hk.2⟩ | with_reducible apply storeKick_sound
    | with_reducible apply freeDone_sound | with_reducible apply modStore_sound

theorem opFreeHeaderWriteComplete_sound {s : State} (h : Sound q s) : Sound q (opFreeHeaderWriteComplete s) := by
  unfold opFreeHeaderWriteComplete
  repeat' first
    | assumption | with_reducible apply completeFree_sound | exact fun _ hk => hk | intro _ | with_reducible apply sound_ite
    | with_reducible refine sound_have ?_ ?_ | split

theorem opCutComplete_sound {s : State} (h : Sound q s) : Sound q (opCutComplete s) := by
  unfold opCutComplete
  repeat' first
    | assumption | with_reducible apply completeFree_sound | exact fun _ hk => hk | intro _ | with_reducible apply sound_ite
    | with_reducible refine sound_have ?_ ?_ | split

theorem setNewFlag_sound (x0 : Option Nat) {s : State} (h : Sound q s) : Sound q (setNewFlag x0 s) := by
  unfold setNewFlag
  split
  · exact mailboxes_sound _ (by simpa using h.mailboxes) h
  · exact h

theorem closeDone_sound (x0 : Nat) (x1 : Closing) {s : State} (h : Sound q s) : Sound q (closeDone x0 x1 s) := by
  unfold closeDone
  repeat' first
    | assumption | with_reducible apply removeWriter_sound | with_reducible apply modEntry_sound
    | with_reducible apply queueReport_sound | with_reducible apply joinUnheard_sound | with_reducible apply setNewFlag_sound
    | exact fun _ hk => hk | exact fun _ => rfl | intro _ | with_reducible apply sound_ite | with_reducible refine sound_have ?_ ?_ | split

theorem opCopyRewriteComplete_sound {s : State} (h : Sound q s) : Sound q (opCopyRewriteComplete s) := by
  unfold opCopyRewriteComplete
  repeat' first
    | assumption | exact fun _ hk => ⟨rewriteCopy_wf _ hk.1 _, hk.2⟩ | with_reducible apply freePort_sound
    | with_reducible apply modStore_sound | with_reducible apply storeKick_sound | with_reducible apply closeDone_sound
    | with_reducible apply scanEnd_sound | exact fun _ hk => hk | intro _ | with_reducible apply sound_ite
    | with_reducible refine sound_have ?_ ?_ | split | dsimp only

theorem opHeaderRewriteComplete_sound {s : State} (h : Sound q s) : Sound q (opHeaderRewriteComplete s) := by
  unfold opHeaderRewriteComplete
  repeat' first
    | assumption | exact fun _ hk => ⟨Memory.wf_writeBytes _ _ hk.1 _, hk.2⟩ | with_reducible apply modWriter_sound | with_reducible apply freePort_sound
    | with_reducible apply storeKick_sound | with_reducible apply scanEnd_sound | with_reducible apply modStore_sound
    | exact fun _ hk => hk | intro _ | with_reducible apply sound_ite | with_reducible refine sound_have ?_ ?_ | split
    | dsimp only

theorem modScan_sound (x0 : Scan → Scan) {s : State} (h : Sound q s) : Sound q (modScan x0 s) := by
  unfold modScan
  repeat' first
    | assumption | with_reducible apply modStore_sound | exact fun _ hk => hk

theorem askMaint_sound (x0 : Maint) {s : State} (h : Sound q s) : Sound q (askMaint x0 s) := by
  unfold askMaint
  repeat' first
    | assumption | with_reducible apply modStore_sound | exact fun _ hk => hk

theorem scanDrop_sound (x0 : List ScanSeg) (x2 : Nat) {s : State} (h : Sound q s) : Sound q (scanDrop x0 s x2) := by
  unfold scanDrop
  repeat' first
    | assumption | with_reducible apply queueReport_sound | with_reducible apply modStore_sound | exact fun _ hk => hk

/-- Kept messages enter a directory that has room for all of them. -/
theorem scanKeep_foldl_sound (kept : List ScanVerdict) {s : State} (h : Sound q s)
    (room : s.store.dir.length + kept.length ≤ 96) : Sound q (kept.foldl scanKeep s) := by
  induction kept generalizing s with
  | nil => exact h
  | cons v rest ih =>
    simp only [List.length_cons] at room
    refine ih ⟨h.1, h.2, ⟨h.3.1, ?_, h.3.2.2.1, fun id hid => ?_⟩, h.4, h.5, h.6, h.7, h.8, h.9, h.10, h.11, h.12, h.13⟩ ?_
    · simp [scanKeep, modStore]; omega
    · simp only [scanKeep, modStore, List.map_append, List.mem_append]
      exact .inl (h.3.2.2.2 id hid)
    · simp [scanKeep, modStore]; omega

theorem scanRebuild_sound {s : State} (h : Sound q s) : Sound q (scanRebuild s) := by
  unfold scanRebuild
  apply sound_foldl
  · exact fun s e hs => setNewFlag_sound e.mailbox hs
  · apply modStore_sound _ h
    refine fun t ht => ⟨ht.1, ht.2.1, List.nodup_dedup _, fun id hid => ?_⟩
    obtain ⟨e, he, rfl⟩ := List.mem_map.1 (List.mem_dedup.1 hid)
    exact List.mem_map.2 ⟨e, List.mem_of_mem_filter he, rfl⟩

theorem scanJudge_sound {s : State} (h : Sound q s) : Sound q (scanJudge s) := by
  unfold scanJudge
  split
  · refine scanEnd_sound (modScan_sound _ (scanRebuild_sound (scanKeep_foldl_sound _ (modStore_sound ?_ ?_) ?_)))
    · exact fun t ht => ⟨ht.1, by simp, List.nodup_nil, by simp⟩
    · exact sound_foldl (fun s x => scanDrop_sound _ _) _ (sound_foldl (fun s x => scanDrop_sound _ _) _ h)
    · simp only [modStore, List.length_nil, List.length_drop]; omega
  · exact h

theorem scanWalkNext_sound {s : State} (h : Sound q s) : Sound q (scanWalkNext s) := by
  unfold scanWalkNext
  repeat' first
    | assumption | with_reducible apply askMaint_sound | with_reducible apply modScan_sound
    | with_reducible apply scanJudge_sound | exact fun _ hk => hk | intro _ | with_reducible apply sound_ite
    | with_reducible refine sound_have ?_ ?_ | split

theorem scanNext_sound {s : State} (h : Sound q s) : Sound q (scanNext s) := by
  unfold scanNext
  repeat' first
    | assumption | with_reducible apply askMaint_sound | with_reducible apply modScan_sound
    | with_reducible apply scanWalkNext_sound | exact fun _ hk => hk | intro _ | with_reducible apply sound_ite
    | with_reducible refine sound_have ?_ ?_ | split

theorem scanLabel_sound {s : State} (h : Sound q s) : Sound q (scanLabel s) := by
  unfold scanLabel
  repeat' first
    | assumption | with_reducible apply scanNext_sound | with_reducible apply modScan_sound
    | with_reducible apply modStore_sound | with_reducible apply queueReport_sound | exact fun _ hk => hk | intro _
    | with_reducible apply sound_ite | with_reducible refine sound_have ?_ ?_ | split

theorem scanHeader_sound (x0 : Nat) {s : State} (h : Sound q s) : Sound q (scanHeader x0 s) := by
  unfold scanHeader
  repeat' first
    | assumption | with_reducible apply modScan_sound | with_reducible apply askMaint_sound
    | with_reducible apply scanNext_sound | with_reducible apply joinPool_sound | exact fun _ hk => hk | intro _
    | with_reducible apply sound_ite | with_reducible refine sound_have ?_ ?_ | split

theorem scanReadDone_sound (x0 : ScanRead) {s : State} (h : Sound q s) : Sound q (scanReadDone x0 s) := by
  unfold scanReadDone
  repeat' first
    | assumption | with_reducible apply scanLabel_sound | with_reducible apply scanHeader_sound
    | with_reducible apply scanNext_sound | with_reducible apply modScan_sound | with_reducible apply scanWalkNext_sound
    | exact fun _ hk => hk | intro _ | with_reducible apply sound_ite | with_reducible refine sound_have ?_ ?_ | split

theorem opScanReadComplete_sound {s : State} (h : Sound q s) : Sound q (opScanReadComplete s) := by
  unfold opScanReadComplete
  repeat' first
    | assumption | with_reducible apply storeKick_sound | with_reducible apply scanReadDone_sound
    | with_reducible apply freePort_sound | exact fun _ hk => hk | intro _ | with_reducible apply sound_ite
    | with_reducible refine sound_have ?_ ?_ | split

theorem startFormat_sound (regions : List Region) {s : State} (h : Sound q s) : Sound q (startFormat regions s) := by
  unfold startFormat
  refine storeKick_sound (mailboxes_sound _ ?_ (modStore_sound ?_ h))
  · show (List.map _ s.mailboxes).length = 8
    simpa using h.mailboxes
  · exact fun _ hk => ⟨hk.1, by simp, List.nodup_nil, by simp⟩

theorem opFormat_sound (x0 : List RegionParams) {s : State} (h : Sound q s) : Sound q (opFormat x0 s) := by
  unfold opFormat
  repeat' first
    | assumption | with_reducible apply done_sound | with_reducible apply startFormat_sound | exact fun _ hk => hk | intro _
    | with_reducible apply sound_ite | with_reducible refine sound_have ?_ ?_ | split

theorem opLabelWriteComplete_sound {s : State} (h : Sound q s) : Sound q (opLabelWriteComplete s) := by
  unfold opLabelWriteComplete
  repeat' first
    | assumption | exact fun _ hk => ⟨Memory.wf_writeBytes _ _ hk.1 _, hk.2⟩ | with_reducible apply modStore_sound
    | with_reducible apply storeKick_sound | with_reducible apply enterReady_sound | exact fun _ hk => hk | intro _
    | with_reducible apply sound_ite | with_reducible refine sound_have ?_ ?_ | split

theorem opStoreset_sound (x0 : Byte) (x1 : Byte) (x2 : Byte) (x3 : Byte) {s : State} (h : Sound q s) : Sound q (opStoreset x0
    x1 x2 x3 s) := by
  unfold opStoreset
  repeat' first
    | assumption | with_reducible apply done_sound | with_reducible apply modStore_sound
    | with_reducible apply queueReport_sound | exact fun _ hk => hk | intro _ | with_reducible apply sound_ite
    | with_reducible refine sound_have ?_ ?_ | split

theorem opOpen_sound (x0 : Byte) (x1 : Byte) {s : State} (h : Sound q s) : Sound q (opOpen x0 x1 s) := by
  unfold opOpen
  repeat' first
    | assumption | with_reducible apply done_sound | with_reducible apply modStore_sound
    | with_reducible apply createMessage_sound | with_reducible apply lholdLeft_sound | exact fun _ hk => hk
    | exact Nat.lt_of_not_le ‹_› | split

theorem opClose_sound {s : State} (h : Sound q s) : Sound q (opClose s) := by
  unfold opClose
  repeat' first
    | assumption | with_reducible apply done_sound | with_reducible apply removeEntry_sound
    | with_reducible apply removeWriter_sound | with_reducible apply lholdLeft_sound | with_reducible apply closeMessageAs_sound
    | exact fun _ hk => hk | intro _ | with_reducible apply sound_ite | with_reducible refine sound_have ?_ ?_ | split

theorem stopHostRead_sound {s : State} (h : Sound q s) : Sound q (stopHostRead s) := by
  unfold stopHostRead
  repeat' first
    | assumption | with_reducible apply closeReader_sound | with_reducible apply staleSource_sound

theorem opRead_sound (x0 : Word16) (x1 : Word32) {s : State} (h : Sound q s) : Sound q (opRead x0 x1 s) := by
  unfold opRead
  repeat' first
    | assumption | with_reducible apply done_sound | with_reducible apply stopHostRead_sound
    | with_reducible apply openReader_sound | with_reducible apply takeRef_sound | exact fun _ hk => hk | intro _
    | with_reducible apply sound_ite | with_reducible refine sound_have ?_ ?_ | split

theorem acceptHostByte_sound (x0 : Byte) {s : State} (h : Sound q s) : Sound q (acceptHostByte x0 s) := by
  unfold acceptHostByte
  repeat' first
    | assumption | with_reducible apply modWriter_sound | with_reducible apply storeKick_sound
    | with_reducible apply lholdJoined_sound | with_reducible apply modEntry_sound | exact fun _ hk => hk | exact fun _ => rfl | intro _
    | with_reducible apply sound_ite | with_reducible refine sound_have ?_ ?_ | split

theorem hostReadSent_sound {s : State} (h : Sound q s) : Sound q (hostReadSent s) := by
  unfold hostReadSent
  repeat' first
    | assumption | with_reducible apply closeReader_sound | with_reducible apply storeKick_sound
    | with_reducible apply setReader_sound | exact fun _ hk => hk | intro _ | with_reducible apply sound_ite
    | with_reducible refine sound_have ?_ ?_ | split

theorem acknowledge_sound (x1 : Nat) {s : State} (h : Sound q s) : Sound q (acknowledge s x1) := by
  unfold acknowledge
  repeat' first
    | assumption | with_reducible apply askMaint_sound | with_reducible apply modEntry_sound | exact fun _ => rfl
    | with_reducible apply leaveUnheard_sound

theorem opNewsack_sound (x0 : Word16) {s : State} (h : Sound q s) : Sound q (opNewsack x0 s) := by
  unfold opNewsack
  repeat' first
    | assumption | with_reducible apply done_sound | with_reducible apply storeKick_sound
    | with_reducible apply acknowledge_sound | with_reducible apply sound_foldl | exact fun _ hk => hk | intro _
    | with_reducible apply sound_ite | with_reducible refine sound_have ?_ ?_ | split

theorem opErase_sound (x0 : Word16) {s : State} (h : Sound q s) : Sound q (opErase x0 s) := by
  unfold opErase
  repeat' first
    | assumption | with_reducible apply done_sound | with_reducible apply modEntry_sound | with_reducible apply storeKick_sound
    | with_reducible apply startErase_sound | exact fun _ hk => hk | exact fun _ => rfl | intro _ | with_reducible apply sound_ite
    | with_reducible refine sound_have ?_ ?_ | split

end Sys2Proof.Machine
end

