-- ==== Sys2Proof/Laws/SoundLine.lean ====
section
/-! SUPPORT. The limits of `Sound` under the operations of the line interface, the data link and the modem: one lemma for each operation,
which a proof about a command cites in place of unfolding the operation. -/

namespace Sys2Proof.Machine
variable {q : List Instr}

theorem closeHook_sound (x0 : Line) {s : State} (h : Sound q s) : Sound q (closeHook x0 s) := by
  unfold closeHook
  repeat' first
    | assumption | with_reducible apply modIface_sound | with_reducible apply post_sound | exact fun _ hk => hk | intro _
    | with_reducible apply sound_ite

theorem releaseHook_sound (x0 : Line) {s : State} (h : Sound q s) : Sound q (releaseHook x0 s) := by
  unfold releaseHook
  repeat' first
    | assumption | with_reducible apply setCondition_sound | with_reducible apply modIface_sound

theorem openForDial_sound (x0 : Line) {s : State} (h : Sound q s) : Sound q (openForDial x0 s) := by
  unfold openForDial
  repeat' first
    | assumption | with_reducible apply modIface_sound

theorem closeAfterDial_sound (x0 : Line) {s : State} (h : Sound q s) : Sound q (closeAfterDial x0 s) := by
  unfold closeAfterDial
  repeat' first
    | assumption | with_reducible apply modIface_sound

theorem opLoopInputChange_sound (x0 : Line) (x1 : Bool) {s : State} (h : Sound q s) : Sound q (opLoopInputChange x0 x1 s) := by
  unfold opLoopInputChange
  repeat' first
    | assumption | with_reducible apply modIface_sound | exact fun _ hk => hk | intro _ | with_reducible apply sound_ite

theorem loseLoop_sound (x0 : Line) (x1 : Nat) {s : State} (h : Sound q s) : Sound q (loseLoop x0 x1 s) := by
  unfold loseLoop
  repeat' first
    | assumption | with_reducible apply setCondition_sound | with_reducible apply modIface_sound
    | with_reducible apply elapse_sound

theorem opExtInputChange_sound (x0 : Line) (x1 : Bool) {s : State} (h : Sound q s) : Sound q (opExtInputChange x0 x1 s) := by
  unfold opExtInputChange
  repeat' first
    | assumption | with_reducible apply modIface_sound | exact fun _ hk => hk | intro _ | with_reducible apply sound_ite

theorem requestTone_sound (x0 : Line) (x1 : ToneSignal) {s : State} (h : Sound q s) : Sound q (requestTone x0 x1 s) := by
  unfold requestTone
  repeat' first
    | assumption | with_reducible apply post_sound | with_reducible apply modIface_sound | exact fun _ hk => hk | intro _
    | with_reducible apply sound_ite | with_reducible refine sound_have ?_ ?_ | split

theorem stopTone_sound (x0 : Line) {s : State} (h : Sound q s) : Sound q (stopTone x0 s) := by
  unfold stopTone
  repeat' first
    | assumption | with_reducible apply modIface_sound

theorem silenceTone_sound (x0 : Line) {s : State} (h : Sound q s) : Sound q (silenceTone x0 s) := by
  unfold silenceTone
  repeat' first
    | assumption | with_reducible apply post_sound | with_reducible apply stopTone_sound | exact fun _ hk => hk | intro _
    | with_reducible apply sound_ite | with_reducible refine sound_have ?_ ?_ | split

theorem opDtmfOnTimeEnd_sound (x0 : Line) {s : State} (h : Sound q s) : Sound q (opDtmfOnTimeEnd x0 s) := by
  unfold opDtmfOnTimeEnd
  repeat' first
    | assumption | with_reducible apply modIface_sound | with_reducible apply elapse_sound | exact fun _ hk => hk | intro _
    | with_reducible apply sound_ite | with_reducible refine sound_have ?_ ?_ | split

theorem opCallingToneToggle_sound (x0 : Line) {s : State} (h : Sound q s) : Sound q (opCallingToneToggle x0 s) := by
  unfold opCallingToneToggle
  repeat' first
    | assumption | with_reducible apply modIface_sound | with_reducible apply elapse_sound | exact fun _ hk => hk | intro _
    | with_reducible apply sound_ite | with_reducible refine sound_have ?_ ?_ | split

theorem formRecord_sound (x0 : Line) (x1 : List Byte) {s : State} (h : Sound q s) : Sound q (formRecord x0 x1 s) := by
  unfold formRecord
  repeat' first
    | assumption | with_reducible apply modIface_sound | with_reducible apply queueReport_sound | exact fun _ hk => hk | intro _
    | with_reducible apply sound_ite | with_reducible refine sound_have ?_ ?_ | split

theorem burstByte_sound (x0 : Line) (x2 : Byte) {s : State} (h : Sound q s) : Sound q (burstByte x0 s x2) := by
  unfold burstByte
  repeat' first
    | assumption | with_reducible apply modIface_sound | with_reducible apply formRecord_sound | exact fun _ hk => hk | intro _
    | with_reducible apply sound_ite | with_reducible refine sound_have ?_ ?_ | split

theorem opCallerBurstByte_sound (x0 : Line) (x1 : Byte) {s : State} (h : Sound q s) : Sound q (opCallerBurstByte x0 x1 s) := by
  unfold opCallerBurstByte
  repeat' first
    | assumption | with_reducible apply burstByte_sound

theorem opCallerMessage_sound (x0 : Line) (x1 : List Byte) {s : State} (h : Sound q s) : Sound q (opCallerMessage x0 x1 s) := by
  unfold opCallerMessage
  repeat' first
    | assumption | with_reducible apply burstByte_sound | with_reducible apply sound_foldl | exact fun _ hk => hk | intro _

theorem opCallerAbandon_sound (x0 : Line) {s : State} (h : Sound q s) : Sound q (opCallerAbandon x0 s) := by
  unfold opCallerAbandon
  repeat' first
    | assumption | with_reducible apply formRecord_sound | exact fun _ hk => hk | intro _ | with_reducible apply sound_ite
    | with_reducible refine sound_have ?_ ?_ | split

theorem closeWindow_sound (x0 : Line) {s : State} (h : Sound q s) : Sound q (closeWindow x0 s) := by
  unfold closeWindow
  repeat' first
    | assumption | with_reducible apply modIface_sound | with_reducible apply formRecord_sound | exact fun _ hk => hk | intro _
    | with_reducible apply sound_ite | with_reducible refine sound_have ?_ ?_ | split

theorem openWindow_sound (x0 : Line) {s : State} (h : Sound q s) : Sound q (openWindow x0 s) := by
  unfold openWindow
  repeat' first
    | assumption | with_reducible apply modIface_sound

theorem gainBlock_sound (x0 : Line) (x1 : Nat) {s : State} (h : Sound q s) : Sound q (gainBlock x0 x1 s) := by
  unfold gainBlock
  repeat' first
    | assumption | with_reducible apply modIface_sound | exact fun _ hk => hk | intro _ | with_reducible apply sound_ite

theorem latchGain_sound (x0 : Line) {s : State} (h : Sound q s) : Sound q (latchGain x0 s) := by
  unfold latchGain
  repeat' first
    | assumption | with_reducible apply modIface_sound

theorem levelLowBlock_sound (x0 : Line) {s : State} (h : Sound q s) : Sound q (levelLowBlock x0 s) := by
  unfold levelLowBlock
  repeat' first
    | assumption | with_reducible apply modIface_sound | with_reducible apply setCondition_sound | exact fun _ hk => hk
    | intro _ | with_reducible apply sound_ite

theorem clipBlock_sound (x0 : Line) (x1 : Nat) {s : State} (h : Sound q s) : Sound q (clipBlock x0 x1 s) := by
  unfold clipBlock
  repeat' first
    | assumption | with_reducible apply setCondition_sound

theorem gainLimitBlock_sound (x0 : Line) (x1 : Nat) {s : State} (h : Sound q s) : Sound q (gainLimitBlock x0 x1 s) := by
  unfold gainLimitBlock
  repeat' first
    | assumption | with_reducible apply setCondition_sound | exact fun _ hk => hk | intro _ | with_reducible apply sound_ite

theorem resetGain_sound (x0 : Line) {s : State} (h : Sound q s) : Sound q (resetGain x0 s) := by
  unfold resetGain
  repeat' first
    | assumption | with_reducible apply modIface_sound

theorem profileMonitor_sound (x0 : Line) (x1 : State) (x3 : MonSource) {s : State} (h : Sound q s) : Sound q (profileMonitor
    x0 x1 s x3) := by
  unfold profileMonitor
  repeat' first
    | assumption | with_reducible apply queueReport_sound | exact fun _ hk => hk | intro _ | with_reducible apply sound_ite

theorem monitorReports_sound (x0 : Line) (x1 : State) {s : State} (h : Sound q s) : Sound q (monitorReports x0 x1 s) := by
  unfold monitorReports
  repeat' first
    | assumption | with_reducible apply profileMonitor_sound | with_reducible apply sound_foldl | exact fun _ hk => hk | intro _

theorem opProfile_sound (x0 : Byte) (x1 : List (Byte × Word16)) {s : State} (h : Sound q s) : Sound q (opProfile x0 x1 s) := by
  unfold opProfile
  repeat' first
    | assumption | with_reducible apply done_sound | with_reducible apply modProfile_sound
    | with_reducible apply monitorReports_sound | with_reducible apply post_sound | with_reducible apply sound_foldl
    | exact fun _ hk => hk | intro _ | with_reducible apply sound_ite | with_reducible refine sound_have ?_ ?_ | split

theorem opMonclear_sound (x0 : Byte) (x1 : Byte) {s : State} (h : Sound q s) : Sound q (opMonclear x0 x1 s) := by
  unfold opMonclear
  repeat' first
    | assumption | with_reducible apply done_sound | with_reducible apply modIface_sound
    | with_reducible apply monitorReports_sound | with_reducible apply sound_foldl | exact fun _ hk => hk | intro _
    | with_reducible apply sound_ite | with_reducible refine sound_have ?_ ?_ | split

theorem clearCurrents_sound (x0 : Line) {s : State} (h : Sound q s) : Sound q (clearCurrents x0 s) := by
  unfold clearCurrents
  repeat' first
    | assumption | with_reducible apply setCondition_sound | with_reducible apply sound_foldl | exact fun _ hk => hk | intro _

theorem ifaceIdle_sound (x0 : Line) {s : State} (h : Sound q s) : Sound q (ifaceIdle x0 s) := by
  unfold ifaceIdle
  repeat' first
    | assumption | with_reducible apply releaseHook_sound | with_reducible apply resetGain_sound
    | with_reducible apply silenceTone_sound | with_reducible apply clearCurrents_sound | with_reducible apply modIface_sound

theorem resetMonitorReports_sound (x0 : Line) (x1 : State) {s : State} (h : Sound q s) : Sound q (resetMonitorReports x0 x1 s)
    := by
  unfold resetMonitorReports
  repeat' first
    | assumption | with_reducible apply queueReport_sound | with_reducible apply sound_foldl | exact fun _ hk => hk | intro _
    | with_reducible apply sound_ite

theorem clearMonitors_sound (x0 : Line) {s : State} (h : Sound q s) : Sound q (clearMonitors x0 s) := by
  unfold clearMonitors
  repeat' first
    | assumption | with_reducible apply modIface_sound

theorem ifaceReset_sound (x0 : Line) {s : State} (h : Sound q s) : Sound q (ifaceReset x0 s) := by
  unfold ifaceReset
  repeat' first
    | assumption | with_reducible apply modIface_sound

theorem changeStateWith_sound (x0 : Line) (x1 : LineSt) (x2 : LineReason) (x3 : Option (Nat × Option CallerRecord)) {s :
    State} (h : Sound q s) : Sound q (changeStateWith x0 x1 x2 x3 s) := by
  unfold changeStateWith
  repeat' first
    | assumption | with_reducible apply modCall_sound | with_reducible apply queueReport_sound
    | with_reducible apply judgeExpectation_sound | with_reducible apply setCondition_sound | exact fun _ hk => hk | intro _
    | with_reducible apply sound_ite

theorem changeState_sound (x0 : Line) (x1 : LineSt) (x2 : LineReason) {s : State} (h : Sound q s) : Sound q (changeState x0 x1
    x2 s) := by
  unfold changeState
  repeat' first
    | assumption | with_reducible apply changeStateWith_sound

theorem askRelease_sound (x0 : Line) (x1 : ReleaseReason) {s : State} (h : Sound q s) : Sound q (askRelease x0 x1 s) := by
  unfold askRelease
  repeat' first
    | assumption | with_reducible apply post_sound

theorem addPenalty_sound (x0 : Line) (x1 : Nat) {s : State} (h : Sound q s) : Sound q (addPenalty x0 x1 s) := by
  unfold addPenalty
  repeat' first
    | assumption | with_reducible apply modModem_sound

theorem linkPenalty_sound (x0 : Line) {s : State} (h : Sound q s) : Sound q (linkPenalty x0 s) := by
  unfold linkPenalty
  repeat' first
    | assumption | with_reducible apply addPenalty_sound

theorem startTimer_sound (x0 : Line) {s : State} (h : Sound q s) : Sound q (startTimer x0 s) := by
  unfold startTimer
  repeat' first
    | assumption | with_reducible apply modDl_sound | exact fun _ hk => hk

theorem restartTimer_sound (x0 : Line) {s : State} (h : Sound q s) : Sound q (restartTimer x0 s) := by
  unfold restartTimer
  repeat' first
    | assumption | with_reducible apply startTimer_sound | with_reducible apply modDl_sound | exact fun _ hk => hk | intro _
    | with_reducible apply sound_ite

theorem settleTimer_sound (x0 : Line) {s : State} (h : Sound q s) : Sound q (settleTimer x0 s) := by
  unfold settleTimer
  repeat' first
    | assumption | with_reducible apply startTimer_sound | with_reducible apply modDl_sound | exact fun _ hk => hk | intro _
    | with_reducible apply sound_ite

theorem beginAck_sound (x0 : Line) {s : State} (h : Sound q s) : Sound q (beginAck x0 s) := by
  unfold beginAck
  repeat' first
    | assumption | with_reducible apply modDl_sound | exact fun _ hk => hk

theorem beginResend_sound (x0 : Line) (x1 : InfoFrame) {s : State} (h : Sound q s) : Sound q (beginResend x0 x1 s) := by
  unfold beginResend
  repeat' first
    | assumption | with_reducible apply modDl_sound | exact fun _ hk => hk

/-- A new frame begins only while the list has room (R122). -/
theorem beginNew_sound (x0 : Line) {s : State} (room : (s.line x0).dl.list.length < 8) (h : Sound q s) :
    Sound q (beginNew x0 s) := by
  unfold beginNew
  refine lholdLeft_sound _ ?_
  have hs : Sound q (modDl x0 (fun d => { d with
      tx := d.tx.drop ((s.line x0).dl.tx.take (s.line x0).dl.payloadMax).length
      list := d.list ++ [⟨d.send, (s.line x0).dl.tx.take (s.line x0).dl.payloadMax⟩], send := seqNext d.send
      sending := some (.info d.send d.expected ((s.line x0).dl.tx.take (s.line x0).dl.payloadMax)), ackDue := false }) s) := by
    refine modDl_sound_at x0 h fun hd => ⟨?_, hd.2.1, ?_, hd.2.2.2⟩
    · have := hd.1; simp only [List.length_drop]; omega
    · simpa using room
  exact sound_ite (startTimer_sound _ hs) hs

theorem chooseFrame_sound (x0 : Line) {s : State} (h : Sound q s) : Sound q (chooseFrame x0 s) := by
  unfold chooseFrame
  dsimp only
  repeat' first
    | assumption | with_reducible apply modDl_sound | with_reducible apply beginAck_sound
    | with_reducible apply beginResend_sound | with_reducible apply beginNew_sound | exact fun _ hk => hk | split
  rename_i hm
  simp only [mayForm, Bool.and_eq_true, decide_eq_true_eq] at hm
  exact lt_of_lt_of_le hm.1.1.1.1.1 (h.link x0).2.2.2

theorem negotiate_sound (x0 : Line) (x1 : Nat) (x2 : Nat) {s : State} (h : Sound q s) : Sound q (negotiate x0 x1 x2 s) := by
  unfold negotiate
  refine modDl_sound x0 ?_ h
  refine fun d hd => ⟨hd.1, hd.2.1, hd.2.2.1, ?_⟩
  simp only [DataLink.windowSize, Option.map_some, Option.getD_some, clamp]
  omega

theorem startLink_sound (x0 : Line) {s : State} (h : Sound q s) : Sound q (startLink x0 s) := by
  unfold startLink
  repeat' first
    | assumption | with_reducible apply chooseFrame_sound | with_reducible apply modDl_sound
    | exact fun _ hk => ⟨hk.1, hk.2.1, Nat.zero_le _, hk.2.2.2⟩

theorem freezeLink_sound (x0 : Line) {s : State} (h : Sound q s) : Sound q (freezeLink x0 s) := by
  unfold freezeLink
  repeat' first
    | assumption | with_reducible apply modDl_sound | exact fun _ hk => hk

theorem resumeLink_sound (x0 : Line) {s : State} (h : Sound q s) : Sound q (resumeLink x0 s) := by
  unfold resumeLink
  repeat' first
    | assumption | with_reducible apply modDl_sound | with_reducible apply chooseFrame_sound
    | with_reducible apply restartTimer_sound | exact fun _ hk => hk | with_reducible apply sound_ite

theorem stopLink_sound (x0 : Line) {s : State} (h : Sound q s) : Sound q (stopLink x0 s) := by
  unfold stopLink
  repeat' first
    | assumption | with_reducible apply modDl_sound | exact fun _ hk => hk

theorem emptyLink_sound (x0 : Line) {s : State} (h : Sound q s) : Sound q (emptyLink x0 s) := by
  unfold emptyLink
  repeat' first
    | assumption | exact fun _ _ => ⟨Nat.zero_le _, Nat.zero_le _, Nat.zero_le _, Nat.le_refl _⟩ | with_reducible apply staleSource_sound | with_reducible apply modDl_sound
    | with_reducible apply lholdAfresh_sound | exact fun _ hk => hk | intro _ | with_reducible apply sound_ite

theorem acknowledgeFrames_sound (x0 : Line) (x1 : Nat) {s : State} (h : Sound q s) : Sound q (acknowledgeFrames x0 x1 s) := by
  unfold acknowledgeFrames
  refine sound_ite (restartTimer_sound _ ?_) h
  refine modDl_sound_at x0 h fun hd => ⟨hd.1, hd.2.1, ?_, hd.2.2.2⟩
  have := hd.2.2.1
  simp only [List.length_drop]; omega

theorem badFrameTaken_sound (x0 : Line) {s : State} (h : Sound q s) : Sound q (badFrameTaken x0 s) := by
  unfold badFrameTaken
  repeat' first
    | assumption | with_reducible apply linkPenalty_sound | exact fun _ hk => hk | intro _ | with_reducible apply sound_ite

/-- A payload is accepted only while the receive queue has room (R127). -/
theorem acceptPayload_sound (x0 : Line) (x1 : List Byte) {s : State} (room : x1.length ≤ 4096 - (s.line x0).dl.rx.length)
    (h : Sound q s) : Sound q (acceptPayload x0 x1 s) := by
  unfold acceptPayload
  have hs : Sound q (modDl x0 (fun d => { d with
      rx := d.rx ++ x1, expected := seqNext d.expected, ackDue := true, rejSent := false }) s) := by
    refine modDl_sound_at x0 h fun hd => ⟨hd.1, ?_, hd.2.2⟩
    have := hd.2.1
    simp only [List.length_append]; omega
  apply arbiterKick_sound
  repeat' first
    | assumption | with_reducible apply modDl_sound | exact fun _ hk => hk | with_reducible apply sound_ite

theorem receiveInfo_sound (x0 : Line) (x1 : Nat) (x2 : List Byte) {s : State} (h : Sound q s) :
    Sound q (receiveInfo x0 x1 x2 s) := by
  unfold receiveInfo
  dsimp only
  repeat' first
    | assumption | with_reducible apply acceptPayload_sound | with_reducible apply modDl_sound | exact fun _ hk => hk | split

theorem opInfo_sound (x0 : Line) (x1 : Byte) (x2 : Byte) (x3 : List Byte) {s : State} (h : Sound q s) : Sound q (opInfo x0 x1
    x2 x3 s) := by
  unfold opInfo
  repeat' first
    | assumption | with_reducible apply badFrameTaken_sound | with_reducible apply chooseFrame_sound
    | with_reducible apply receiveInfo_sound | with_reducible apply acknowledgeFrames_sound | exact fun _ hk => hk | intro _
    | with_reducible apply sound_ite

theorem pollReceived_sound (x0 : Line) (x1 : Bool) {s : State} (h : Sound q s) : Sound q (pollReceived x0 x1 s) := by
  unfold pollReceived
  repeat' first
    | assumption | with_reducible apply modDl_sound | exact fun _ hk => hk

theorem remoteReady_sound (x0 : Line) {s : State} (h : Sound q s) : Sound q (remoteReady x0 s) := by
  unfold remoteReady
  repeat' first
    | assumption | with_reducible apply restartTimer_sound | with_reducible apply modDl_sound | exact fun _ hk => hk | intro _
    | with_reducible apply sound_ite

theorem opRr_sound (x0 : Line) (x1 : Byte) (x2 : Bool) {s : State} (h : Sound q s) : Sound q (opRr x0 x1 x2 s) := by
  unfold opRr
  repeat' first
    | assumption | with_reducible apply chooseFrame_sound | with_reducible apply pollReceived_sound
    | with_reducible apply remoteReady_sound | with_reducible apply acknowledgeFrames_sound | exact fun _ hk => hk | intro _
    | with_reducible apply sound_ite

theorem opRnr_sound (x0 : Line) (x1 : Byte) (x2 : Bool) {s : State} (h : Sound q s) : Sound q (opRnr x0 x1 x2 s) := by
  unfold opRnr
  repeat' first
    | assumption | with_reducible apply modDl_sound | with_reducible apply acknowledgeFrames_sound
    | with_reducible apply chooseFrame_sound | with_reducible apply pollReceived_sound | with_reducible apply settleTimer_sound
    | exact fun _ hk => hk | intro _ | with_reducible apply sound_ite

theorem opRej_sound (x0 : Line) (x1 : Byte) {s : State} (h : Sound q s) : Sound q (opRej x0 x1 s) := by
  unfold opRej
  repeat' first
    | assumption | with_reducible apply acknowledgeFrames_sound | with_reducible apply modDl_sound
    | with_reducible apply chooseFrame_sound | with_reducible apply restartTimer_sound | exact fun _ hk => hk | intro _
    | with_reducible apply sound_ite

theorem opClear_sound (x0 : Line) {s : State} (h : Sound q s) : Sound q (opClear x0 s) := by
  unfold opClear
  repeat' first
    | assumption | with_reducible apply modDl_sound | with_reducible apply askRelease_sound | exact fun _ hk => hk | intro _
    | with_reducible apply sound_ite

theorem opBadFrame_sound (x0 : Line) (x1 : List Byte) {s : State} (h : Sound q s) : Sound q (opBadFrame x0 x1 s) := by
  unfold opBadFrame
  repeat' first
    | assumption | with_reducible apply badFrameTaken_sound | exact fun _ hk => hk | intro _ | with_reducible apply sound_ite

theorem opFrameSent_sound (x0 : Line) {s : State} (h : Sound q s) : Sound q (opFrameSent x0 s) := by
  unfold opFrameSent
  repeat' first
    | assumption | with_reducible apply modDl_sound | with_reducible apply askRelease_sound
    | with_reducible apply chooseFrame_sound | exact fun _ hk => hk | intro _ | with_reducible apply sound_ite
    | with_reducible refine sound_have ?_ ?_ | split

theorem opFormingDelayEnd_sound (x0 : Line) {s : State} (h : Sound q s) : Sound q (opFormingDelayEnd x0 s) := by
  unfold opFormingDelayEnd
  repeat' first
    | assumption | with_reducible apply chooseFrame_sound | with_reducible apply modDl_sound | with_reducible apply elapse_sound
    | exact fun _ hk => hk | intro _ | with_reducible apply sound_ite | with_reducible refine sound_have ?_ ?_ | split

theorem retry_sound (x0 : Line) {s : State} (h : Sound q s) : Sound q (retry x0 s) := by
  unfold retry
  repeat' first
    | assumption | with_reducible apply modDl_sound | with_reducible apply chooseFrame_sound
    | with_reducible apply startTimer_sound | exact fun _ hk => hk

theorem opRetransmitTimerExpiry_sound (x0 : Line) {s : State} (h : Sound q s) : Sound q (opRetransmitTimerExpiry x0 s) := by
  unfold opRetransmitTimerExpiry
  repeat' first
    | assumption | with_reducible apply elapse_sound | with_reducible apply askRelease_sound | with_reducible apply modDl_sound
    | with_reducible apply retry_sound | exact fun _ hk => hk | intro _ | with_reducible apply sound_ite
    | with_reducible refine sound_have ?_ ?_ | split

theorem gracefulClear_sound (x0 : Line) {s : State} (h : Sound q s) : Sound q (gracefulClear x0 s) := by
  unfold gracefulClear
  repeat' first
    | assumption | with_reducible apply chooseFrame_sound | with_reducible apply modDl_sound | exact fun _ hk => hk

theorem opClearTimerExpiry_sound (x0 : Line) {s : State} (h : Sound q s) : Sound q (opClearTimerExpiry x0 s) := by
  unfold opClearTimerExpiry
  repeat' first
    | assumption | with_reducible apply modDl_sound | with_reducible apply elapse_sound | with_reducible apply chooseFrame_sound
    | with_reducible apply askRelease_sound | exact fun _ hk => hk | intro _ | with_reducible apply sound_ite
    | with_reducible refine sound_have ?_ ?_ | split

theorem acceptLineByte_sound (l : Line) (b : Byte) {s : State} (hl : lineAccepts s l = true) (h : Sound q s) :
    Sound q (acceptLineByte l b s) := by
  unfold acceptLineByte
  have hl : (s.line l).dl.tx.length < 2048 := by
    have := hl; simp only [lineAccepts, decide_eq_true_eq] at this; exact this.2.2
  refine chooseFrame_sound _ (lholdJoined_sound _ (modDl_sound_at l h fun hd => ⟨?_, hd.2⟩))
  simp only [List.length_append, List.length_singleton]; omega

theorem lineByteSent_sound (x0 : Line) {s : State} (h : Sound q s) : Sound q (lineByteSent x0 s) := by
  unfold lineByteSent
  have hs : Sound q (modDl x0 (fun d => { d with rx := d.rx.drop 1 }) s) := by
    refine modDl_sound_at x0 h fun hd => ⟨hd.1, ?_, hd.2.2⟩
    have := hd.2.1
    simp only [List.length_drop]; omega
  repeat' first
    | assumption | with_reducible apply modDl_sound | with_reducible apply askRelease_sound
    | with_reducible apply chooseFrame_sound | exact fun _ hk => hk | intro _ | with_reducible apply sound_ite

theorem opLadder_sound (x0 : List RungParams) {s : State} (h : Sound q s) : Sound q (opLadder x0 s) := by
  unfold opLadder
  split
  · exact done_sound _ _ _ h
  · rename_i rungs hr
    split
    · exact done_sound _ _ _ h
    · refine done_sound _ _ _ (ladder_sound rungs ?_ h)
      unfold ladderOf at hr
      repeat' split at hr
      all_goals simp_all

theorem reportRate_sound (x0 : Line) (x1 : Nat) (x2 : RateCause) {s : State} (h : Sound q s) : Sound q (reportRate x0 x1 x2 s)
    := by
  unfold reportRate
  repeat' first
    | assumption | with_reducible apply queueReport_sound | exact fun _ hk => hk | intro _ | with_reducible apply sound_ite
    | with_reducible refine sound_have ?_ ?_ | split

theorem beginWindow_sound (x0 : Line) {s : State} (h : Sound q s) : Sound q (beginWindow x0 s) := modModem_sound _ _ h

theorem completeWindow_sound (x0 : Line) (x1 : WindowResult) (x2 : ℤ) {s : State} (h : Sound q s) : Sound q
    (completeWindow x0 x1 x2 s) := modModem_sound _ _ h

theorem impulseWindow_sound (x0 : Line) (x1 : WindowResult) {s : State} (h : Sound q s) : Sound q (impulseWindow x0 x1 s) := by
  unfold impulseWindow
  repeat' first
    | assumption | with_reducible apply setCondition_sound

theorem offsetWindow_sound (x0 : Line) (x1 : ℤ) {s : State} (h : Sound q s) : Sound q (offsetWindow x0 x1 s) := by
  unfold offsetWindow
  repeat' first
    | assumption | with_reducible apply setCondition_sound | exact fun _ hk => hk | intro _ | with_reducible apply sound_ite

theorem handFrame_sound (x0 : Line) (x1 : Frame) {s : State} (h : Sound q s) : Sound q (handFrame x0 x1 s) := by
  unfold handFrame
  repeat' first
    | assumption | with_reducible apply chooseFrame_sound | with_reducible apply modDl_sound | exact fun _ hk => hk

theorem requestRate_sound (x0 : Line) (x1 : Nat) {s : State} (h : Sound q s) : Sound q (requestRate x0 x1 s) := by
  unfold requestRate
  repeat' first
    | assumption | with_reducible apply modModem_sound | with_reducible apply handFrame_sound | exact fun _ hk => hk | intro _
    | with_reducible apply sound_ite | with_reducible refine sound_have ?_ ?_ | split

theorem switchRung_sound (x0 : Line) (x1 : Nat) (x2 : RateCause) {s : State} (h : Sound q s) : Sound q (switchRung x0 x1 x2 s)
    := by
  unfold switchRung
  repeat' first
    | assumption | with_reducible apply reportRate_sound | with_reducible apply modModem_sound

theorem requestRetrain_sound (x0 : Line) {s : State} (h : Sound q s) : Sound q (requestRetrain x0 s) := by
  unfold requestRetrain
  repeat' first
    | assumption | with_reducible apply modModem_sound | with_reducible apply askRelease_sound | with_reducible apply post_sound
    | exact fun _ hk => hk | intro _ | with_reducible apply sound_ite

theorem shiftDecision_sound (x0 : Line) (x1 : Rung) {s : State} (h : Sound q s) : Sound q (shiftDecision x0 x1 s) := by
  unfold shiftDecision
  repeat' first
    | assumption | with_reducible apply requestRate_sound | with_reducible apply modModem_sound | exact fun _ hk => hk | intro _
    | with_reducible apply sound_ite | with_reducible refine sound_have ?_ ?_ | split | dsimp only

theorem windowDecision_sound (x0 : Line) {s : State} (h : Sound q s) : Sound q (windowDecision x0 s) := by
  unfold windowDecision
  repeat' first
    | assumption | with_reducible apply modModem_sound | with_reducible apply requestRetrain_sound
    | with_reducible apply setCondition_sound | with_reducible apply shiftDecision_sound | exact fun _ hk => hk | intro _
    | with_reducible apply sound_ite | with_reducible refine sound_have ?_ ?_ | split

theorem qualityWindow_sound (x0 : Line) (x1 : WindowResult) {s : State} (h : Sound q s) : Sound q (qualityWindow x0 x1 s) := by
  unfold qualityWindow
  repeat' first
    | assumption | with_reducible apply impulseWindow_sound | with_reducible apply modModem_sound
    | with_reducible apply requestRetrain_sound | with_reducible apply windowDecision_sound | exact fun _ hk => hk | intro _
    | with_reducible apply sound_ite

theorem startTraining_sound (x0 : Line) {s : State} (h : Sound q s) : Sound q (startTraining x0 s) := by
  unfold startTraining
  repeat' first
    | assumption | with_reducible apply modModem_sound

theorem failTraining_sound (x0 : Line) {s : State} (h : Sound q s) : Sound q (failTraining x0 s) := by
  unfold failTraining
  repeat' first
    | assumption | with_reducible apply askRelease_sound | with_reducible apply modModem_sound

theorem completeTraining_sound (x0 : Line) (x1 : Nat) (x2 : Nat) (x3 : Nat) {s : State} (h : Sound q s) : Sound q
    (completeTraining x0 x1 x2 x3 s) := by
  unfold completeTraining
  repeat' first
    | assumption | with_reducible apply modModem_sound | with_reducible apply setCondition_sound
    | with_reducible apply reportRate_sound | with_reducible apply post_sound | with_reducible apply negotiate_sound
    | exact fun _ hk => hk | intro _ | with_reducible apply sound_ite

theorem settleConfirm_sound (x0 : Line) {s : State} (h : Sound q s) : Sound q (settleConfirm x0 s) := by
  unfold settleConfirm
  repeat' first
    | assumption | with_reducible apply completeTraining_sound | with_reducible apply failTraining_sound | exact fun _ hk => hk
    | intro _ | with_reducible apply sound_ite | with_reducible refine sound_have ?_ ?_ | split | dsimp only

theorem settlePropose_sound (x0 : Line) {s : State} (h : Sound q s) : Sound q (settlePropose x0 s) := by
  unfold settlePropose
  repeat' first
    | assumption | with_reducible apply modModem_sound | with_reducible apply settleConfirm_sound
    | with_reducible apply failTraining_sound | exact fun _ hk => hk | intro _ | with_reducible apply sound_ite
    | with_reducible refine sound_have ?_ ?_ | split | dsimp only

theorem settleProbe_sound (x0 : Line) {s : State} (h : Sound q s) : Sound q (settleProbe x0 s) := by
  unfold settleProbe
  repeat' first
    | assumption | with_reducible apply settlePropose_sound | with_reducible apply modModem_sound | exact fun _ hk => hk
    | intro _ | with_reducible apply sound_ite

theorem probeWindow_sound (x0 : Line) (x1 : WindowResult) {s : State} (h : Sound q s) : Sound q (probeWindow x0 x1 s) := by
  unfold probeWindow
  repeat' first
    | assumption | with_reducible apply impulseWindow_sound | with_reducible apply settleProbe_sound
    | with_reducible apply modModem_sound | exact fun _ hk => hk | intro _ | with_reducible apply sound_ite

theorem opProbeSent_sound (x0 : Line) {s : State} (h : Sound q s) : Sound q (opProbeSent x0 s) := by
  unfold opProbeSent
  repeat' first
    | assumption | with_reducible apply settleProbe_sound | with_reducible apply modModem_sound
    | with_reducible apply elapse_sound | exact fun _ hk => hk | intro _ | with_reducible apply sound_ite
    | with_reducible refine sound_have ?_ ?_ | split

theorem opPropose_sound (x0 : Line) (x1 : Byte) (x2 : Byte) {s : State} (h : Sound q s) : Sound q (opPropose x0 x1 x2 s) := by
  unfold opPropose
  repeat' first
    | assumption | with_reducible apply settlePropose_sound | with_reducible apply modModem_sound | exact fun _ hk => hk
    | intro _ | with_reducible apply sound_ite

theorem opConfirm_sound (x0 : Line) (x1 : Byte) (x2 : Byte) (x3 : Word16) {s : State} (h : Sound q s) : Sound q (opConfirm x0
    x1 x2 x3 s) := by
  unfold opConfirm
  repeat' first
    | assumption | with_reducible apply settleConfirm_sound | with_reducible apply modModem_sound | exact fun _ hk => hk
    | intro _ | with_reducible apply sound_ite | with_reducible refine sound_have ?_ ?_ | split

theorem opTrainingMessageRepeat_sound (x0 : Line) {s : State} (h : Sound q s) : Sound q (opTrainingMessageRepeat x0 s) := by
  unfold opTrainingMessageRepeat
  repeat' first
    | assumption | with_reducible apply modModem_sound | with_reducible apply elapse_sound | exact fun _ hk => hk | intro _
    | with_reducible apply sound_ite | with_reducible refine sound_have ?_ ?_ | split

theorem opTrainingTimerExpiry_sound (x0 : Line) {s : State} (h : Sound q s) : Sound q (opTrainingTimerExpiry x0 s) := by
  unfold opTrainingTimerExpiry
  repeat' first
    | assumption | with_reducible apply failTraining_sound | with_reducible apply modModem_sound | with_reducible apply elapse_sound
    | exact fun _ hk => hk | intro _ | with_reducible apply sound_ite | with_reducible refine sound_have ?_ ?_ | split

theorem opFarProbeStart_sound (x0 : Line) {s : State} (h : Sound q s) : Sound q (opFarProbeStart x0 s) := by
  unfold opFarProbeStart
  repeat' first
    | assumption | with_reducible apply requestRetrain_sound | exact fun _ hk => hk | intro _ | with_reducible apply sound_ite

theorem opRateRequest_sound (x0 : Line) (x1 : Byte) {s : State} (h : Sound q s) : Sound q (opRateRequest x0 x1 s) := by
  unfold opRateRequest
  repeat' first
    | assumption | with_reducible apply switchRung_sound | with_reducible apply handFrame_sound | exact fun _ hk => hk | intro _
    | with_reducible apply sound_ite | with_reducible refine sound_have ?_ ?_ | split

theorem opRateRefused_sound (x0 : Line) (x1 : Byte) {s : State} (h : Sound q s) : Sound q (opRateRefused x0 x1 s) := by
  unfold opRateRefused
  repeat' first
    | assumption | with_reducible apply modModem_sound | exact fun _ hk => hk | intro _ | with_reducible apply sound_ite

theorem opRateOk_sound (x0 : Line) (x1 : Byte) {s : State} (h : Sound q s) : Sound q (opRateOk x0 x1 s) := by
  unfold opRateOk
  repeat' first
    | assumption | with_reducible apply switchRung_sound | with_reducible apply requestRetrain_sound
    | with_reducible apply modModem_sound | exact fun _ hk => hk | intro _ | with_reducible apply sound_ite
    | with_reducible refine sound_have ?_ ?_ | split

theorem opRateAnswerTimerExpiry_sound (x0 : Line) {s : State} (h : Sound q s) : Sound q (opRateAnswerTimerExpiry x0 s) := by
  unfold opRateAnswerTimerExpiry
  repeat' first
    | assumption | with_reducible apply requestRetrain_sound | with_reducible apply modModem_sound
    | with_reducible apply elapse_sound | exact fun _ hk => hk | intro _ | with_reducible apply sound_ite
    | with_reducible refine sound_have ?_ ?_ | split

theorem modemEnterFax_sound (x0 : Line) {s : State} (h : Sound q s) : Sound q (modemEnterFax x0 s) := by
  unfold modemEnterFax
  repeat' first
    | assumption | with_reducible apply modModem_sound

theorem setFaxRung_sound (x0 : Line) (x1 : Nat) {s : State} (h : Sound q s) : Sound q (setFaxRung x0 x1 s) := by
  unfold setFaxRung
  repeat' first
    | assumption | with_reducible apply modModem_sound | with_reducible apply reportRate_sound | exact fun _ hk => hk | intro _
    | with_reducible apply sound_ite

theorem acceptCheck_sound (x0 : Line) (x1 : Nat) {s : State} (h : Sound q s) : Sound q (acceptCheck x0 x1 s) := by
  unfold acceptCheck
  repeat' first
    | assumption | with_reducible apply modModem_sound | with_reducible apply setCondition_sound
    | with_reducible apply post_sound | with_reducible apply reportRate_sound | exact fun _ hk => hk | intro _
    | with_reducible apply sound_ite | with_reducible refine sound_have ?_ ?_ | split

theorem startFaxRetrain_sound (x0 : Line) {s : State} (h : Sound q s) : Sound q (startFaxRetrain x0 s) := by
  unfold startFaxRetrain
  repeat' first
    | assumption | with_reducible apply modModem_sound

theorem dropWindow_sound (x0 : Line) {s : State} (h : Sound q s) : Sound q (dropWindow x0 s) := by
  unfold dropWindow
  repeat' first
    | assumption | with_reducible apply modModem_sound

theorem stopModem_sound (x0 : Line) {s : State} (h : Sound q s) : Sound q (stopModem x0 s) := by
  unfold stopModem
  repeat' first
    | assumption | with_reducible apply modModem_sound

theorem clearModem_sound (x0 : Line) {s : State} (h : Sound q s) : Sound q (clearModem x0 s) := by
  unfold clearModem
  repeat' first
    | assumption | with_reducible apply modModem_sound

end Sys2Proof.Machine
end

