-- ==== Sys2Proof/Laws/SoundEngines.lean ====
section
/-! SUPPORT. The limits of `Sound` under the operations of the fax engine and the voice engine: one lemma for each operation,
which a proof about a command cites in place of unfolding the operation. -/

namespace Sys2Proof.Machine
variable {q : List Instr}

theorem sendControl_sound (x0 : Line) (x1 : FaxMsg) {s : State} (h : Sound q s) : Sound q (sendControl x0 x1 s) := by
  unfold sendControl
  repeat' first
    | assumption | with_reducible apply modFax_sound

theorem sendAgain_sound (x0 : Line) (x1 : FaxMsg) {s : State} (h : Sound q s) : Sound q (sendAgain x0 x1 s) := by
  unfold sendAgain
  repeat' first
    | assumption | with_reducible apply modFax_sound

theorem discharge_sound (x0 : Line) {s : State} (h : Sound q s) : Sound q (discharge x0 s) := by
  unfold discharge
  repeat' first
    | assumption | with_reducible apply modFax_sound

theorem sendBye_sound (x0 : Line) (x1 : ByeReason) {s : State} (h : Sound q s) : Sound q (sendBye x0 x1 s) := by
  unfold sendBye
  repeat' first
    | assumption | with_reducible apply sendControl_sound | with_reducible apply modFax_sound

theorem failSession_sound (x0 : Line) (x1 : ReleaseReason) (x2 : EndCause) {s : State} (h : Sound q s) : Sound q (failSession
    x0 x1 x2 s) := by
  unfold failSession
  repeat' first
    | assumption | with_reducible apply askRelease_sound | with_reducible apply modFax_sound

theorem beginSession_sound (x0 : Line) (x1 : FaxRole) {s : State} (h : Sound q s) : Sound q (beginSession x0 x1 s) := by
  unfold beginSession
  repeat' first
    | assumption | with_reducible apply failSession_sound | with_reducible apply modFax_sound | exact fun _ hk => hk | intro _
    | with_reducible apply sound_ite

theorem startSender_sound (x0 : Line) {s : State} (h : Sound q s) : Sound q (startSender x0 s) := by
  unfold startSender
  repeat' first
    | assumption | with_reducible apply beginSession_sound | with_reducible apply openReader_sound
    | with_reducible apply takeRef_sound | with_reducible apply modFax_sound | with_reducible apply askRelease_sound
    | exact fun _ hk => hk | intro _ | with_reducible apply sound_ite

theorem startReceiver_sound (x0 : Line) {s : State} (h : Sound q s) : Sound q (startReceiver x0 s) := by
  unfold startReceiver
  repeat' first
    | assumption | with_reducible apply beginSession_sound | with_reducible apply sendControl_sound | exact fun _ hk => hk
    | intro _ | with_reducible apply sound_ite

theorem agreeMode_sound (x0 : Line) (x1 : Mode) {s : State} (h : Sound q s) : Sound q (agreeMode x0 x1 s) := by
  unfold agreeMode
  repeat' first
    | assumption | with_reducible apply modFax_sound | with_reducible apply setFaxRung_sound | exact fun _ hk => hk | intro _
    | with_reducible apply sound_ite | with_reducible refine sound_have ?_ ?_ | split | dsimp only

theorem stepDown_sound (x0 : Line) {s : State} (h : Sound q s) : Sound q (stepDown x0 s) := by
  unfold stepDown
  repeat' first
    | assumption | with_reducible apply agreeMode_sound | exact fun _ hk => hk | intro _ | with_reducible apply sound_ite
    | with_reducible refine sound_have ?_ ?_ | split

theorem sendSet_sound (x0 : Line) {s : State} (h : Sound q s) : Sound q (sendSet x0 s) := by
  unfold sendSet
  repeat' first
    | assumption | with_reducible apply sendControl_sound | with_reducible apply modFax_sound

theorem reportPage_sound (x0 : Line) (x1 : Nat) (x2 : Verdict) (x3 : Nat) (x4 : Nat) {s : State} (h : Sound q s) : Sound q
    (reportPage x0 x1 x2 x3 x4 s) := by
  unfold reportPage
  repeat' first
    | assumption | with_reducible apply queueReport_sound

theorem sendPageEnd_sound (x0 : Line) (x1 : Nat) {s : State} (h : Sound q s) : Sound q (sendPageEnd x0 x1 s) := by
  unfold sendPageEnd
  repeat' first
    | assumption | with_reducible apply sendControl_sound | with_reducible apply modFax_sound

theorem sendRecord_sound (x0 : Line) {s : State} (h : Sound q s) : Sound q (sendRecord x0 s) := by
  unfold sendRecord
  repeat' first
    | assumption | with_reducible apply sendPageEnd_sound | with_reducible apply sendBye_sound
    | with_reducible apply takeBytes_sound | with_reducible apply modFax_sound | with_reducible apply noteUnderrun_sound
    | exact fun _ hk => hk | intro _ | with_reducible apply sound_ite | with_reducible refine sound_have ?_ ?_ | split
    | dsimp only

theorem beginPage_sound (x0 : Line) {s : State} (h : Sound q s) : Sound q (beginPage x0 s) := by
  unfold beginPage
  repeat' first
    | assumption | with_reducible apply sendRecord_sound | with_reducible apply modFax_sound

theorem withResolution_sound (l : Line) (fine : Bool) {go : State → State} (hg : ∀ s, Sound q s → Sound q (go s)) {s : State}
    (h : Sound q s) : Sound q (withResolution l fine go s) := by
  unfold withResolution
  split
  · exact sendBye_sound _ _ h
  · exact hg _ (modFax_sound _ _ h)

theorem answerCaps_sound (x0 : Line) (x1 : Bool) {s : State} (h : Sound q s) : Sound q (answerCaps x0 x1 s) := by
  unfold answerCaps
  repeat' first
    | assumption | with_reducible apply sendBye_sound | with_reducible apply withResolution_sound
    | with_reducible apply sendSet_sound | with_reducible apply agreeMode_sound | with_reducible apply modFax_sound
    | exact fun _ hk => hk | intro _ | with_reducible apply sound_ite | with_reducible refine sound_have ?_ ?_ | split

theorem useHeader_sound (x0 : Line) (x1 : HeaderUse) (x2 : Bool) {s : State} (h : Sound q s) : Sound q (useHeader x0 x1 x2 s)
    := by
  unfold useHeader
  repeat' first
    | assumption | with_reducible apply answerCaps_sound | with_reducible apply beginPage_sound
    | with_reducible apply withResolution_sound | with_reducible apply sendSet_sound | exact fun _ hk => hk | intro _
    | with_reducible apply sound_ite | with_reducible refine sound_have ?_ ?_ | split

theorem fetchHeader_sound (x0 : Line) {s : State} (h : Sound q s) : Sound q (fetchHeader x0 s) := by
  unfold fetchHeader
  repeat' first
    | assumption | with_reducible apply sendBye_sound | with_reducible apply useHeader_sound
    | with_reducible apply takeBytes_sound | with_reducible apply modFax_sound | with_reducible apply noteUnderrun_sound
    | exact fun _ hk => hk | intro _ | with_reducible apply sound_ite | with_reducible refine sound_have ?_ ?_ | split

theorem noteTaken_sound (x0 : Line) (x1 : FaxKind) {s : State} (h : Sound q s) : Sound q (noteTaken x0 x1 s) := modFax_sound _ _ h

theorem answerAgain_sound (x0 : Line) (x1 : FaxKind) {s : State} (h : Sound q s) : Sound q (answerAgain x0 x1 s) := by
  unfold answerAgain
  dsimp only
  repeat' first
    | assumption | with_reducible apply sendAgain_sound | split

theorem wantHeader_sound (x0 : Line) (x1 : HeaderUse) {s : State} (h : Sound q s) : Sound q (wantHeader x0 x1 s) := by
  unfold wantHeader
  repeat' first
    | assumption | with_reducible apply fetchHeader_sound | with_reducible apply modFax_sound

theorem faxReadArrived_sound (x0 : Line) {s : State} (h : Sound q s) : Sound q (faxReadArrived x0 s) := by
  unfold faxReadArrived
  repeat' first
    | assumption | with_reducible apply fetchHeader_sound | with_reducible apply sendRecord_sound | exact fun _ hk => hk
    | intro _ | with_reducible apply sound_ite

theorem opLineRecordSent_sound (x0 : Line) {s : State} (h : Sound q s) : Sound q (opLineRecordSent x0 s) := by
  unfold opLineRecordSent
  repeat' first
    | assumption | with_reducible apply modFax_sound | with_reducible apply sendRecord_sound | exact fun _ hk => hk | intro _
    | with_reducible apply sound_ite

theorem opCaps_sound (x0 : Line) (x1 : Byte) (x2 : Byte) (x3 : Byte) {s : State} (h : Sound q s) : Sound q (opCaps x0 x1 x2 x3
    s) := by
  unfold opCaps
  repeat' first
    | assumption | with_reducible apply answerAgain_sound | with_reducible apply wantHeader_sound | with_reducible apply modFax_sound
    | with_reducible apply sendAgain_sound | exact fun _ hk => hk | intro _ | with_reducible apply sound_ite
    | with_reducible refine sound_have ?_ ?_ | split

theorem opCheckOk_sound (x0 : Line) {s : State} (h : Sound q s) : Sound q (opCheckOk x0 s) := by
  unfold opCheckOk
  repeat' first
    | assumption | with_reducible apply noteTaken_sound | with_reducible apply discharge_sound | with_reducible apply beginPage_sound
    | with_reducible apply wantHeader_sound | with_reducible apply modFax_sound | exact fun _ hk => hk | intro _
    | with_reducible apply sound_ite

theorem resendPage_sound (x0 : Line) {s : State} (h : Sound q s) : Sound q (resendPage x0 s) := by
  unfold resendPage
  repeat' first
    | assumption | with_reducible apply sendBye_sound | with_reducible apply stepDown_sound | with_reducible apply modFax_sound
    | with_reducible apply sendSet_sound | with_reducible apply moveReader_sound | exact fun _ hk => hk | intro _
    | with_reducible apply sound_ite

theorem opCheckFail_sound (x0 : Line) {s : State} (h : Sound q s) : Sound q (opCheckFail x0 s) := by
  unfold opCheckFail
  repeat' first
    | assumption | with_reducible apply noteTaken_sound | with_reducible apply answerAgain_sound | with_reducible apply discharge_sound | with_reducible apply sendSet_sound
    | with_reducible apply stepDown_sound | with_reducible apply sendBye_sound | with_reducible apply resendPage_sound
    | with_reducible apply reportPage_sound | exact fun _ hk => hk | intro _ | with_reducible apply sound_ite

theorem nextPage_sound (x0 : Line) (x1 : Verdict) {s : State} (h : Sound q s) : Sound q (nextPage x0 x1 s) := by
  unfold nextPage
  repeat' first
    | assumption | with_reducible apply modFax_sound | with_reducible apply wantHeader_sound
    | with_reducible apply stepDown_sound | exact fun _ hk => hk | intro _ | with_reducible apply sound_ite

theorem takeVerdict_sound (x0 : Line) (x1 : Bool) (x2 : Verdict) {s : State} (h : Sound q s) : Sound q (takeVerdict x0 x1 x2
    s) := by
  unfold takeVerdict
  repeat' first
    | assumption | with_reducible apply resendPage_sound | with_reducible apply modFax_sound
    | with_reducible apply sendBye_sound | with_reducible apply nextPage_sound | exact fun _ hk => hk | intro _
    | with_reducible apply sound_ite | with_reducible refine sound_have ?_ ?_ | split

theorem opVerdict_sound (x0 : Line) (x1 : Byte) (x2 : Word16) (x3 : Word16) {s : State} (h : Sound q s) : Sound q (opVerdict
    x0 x1 x2 x3 s) := by
  unfold opVerdict
  repeat' first
    | assumption | with_reducible apply noteTaken_sound | with_reducible apply answerAgain_sound | with_reducible apply takeVerdict_sound | with_reducible apply reportPage_sound
    | with_reducible apply discharge_sound | exact fun _ hk => hk | intro _ | with_reducible apply sound_ite
    | with_reducible refine sound_have ?_ ?_ | split

theorem opCapsWaitExpiry_sound (x0 : Line) {s : State} (h : Sound q s) : Sound q (opCapsWaitExpiry x0 s) := by
  unfold opCapsWaitExpiry
  repeat' first
    | assumption | with_reducible apply failSession_sound | with_reducible apply elapse_sound | exact fun _ hk => hk | intro _
    | with_reducible apply sound_ite | with_reducible refine sound_have ?_ ?_ | split

theorem freshPage_sound (x0 : Line) {s : State} (h : Sound q s) : Sound q (freshPage x0 s) := by
  unfold freshPage
  repeat' first
    | assumption | with_reducible apply modFax_sound

theorem freshCheck_sound (x0 : Line) {s : State} (h : Sound q s) : Sound q (freshCheck x0 s) := by
  unfold freshCheck
  repeat' first
    | assumption | with_reducible apply modFax_sound

theorem opSet_sound (x0 : Line) (x1 : Byte) (x2 : Byte) (x3 : Byte) {s : State} (h : Sound q s) : Sound q (opSet x0 x1 x2 x3
    s) := by
  unfold opSet
  repeat' first
    | assumption | with_reducible apply noteTaken_sound | with_reducible apply answerAgain_sound | with_reducible apply beginWindow_sound | with_reducible apply discharge_sound | with_reducible apply sendBye_sound
    | with_reducible apply freshCheck_sound | with_reducible apply agreeMode_sound | with_reducible apply modFax_sound
    | exact fun _ hk => hk | intro _ | with_reducible apply sound_ite | with_reducible refine sound_have ?_ ?_ | split

theorem checkWindow_sound (x0 : Line) (x1 : WindowResult) {s : State} (h : Sound q s) : Sound q (checkWindow x0 x1 s) := by
  unfold checkWindow
  repeat' first
    | assumption | with_reducible apply impulseWindow_sound | with_reducible apply modFax_sound

/-- A create request that is not refused finds room in the directory (R143). -/
theorem room_of_created {s : State} (hr : createRefused s = false) : s.store.dir.length < 96 := by
  simp only [createRefused, Bool.or_eq_false_iff, decide_eq_false_iff_not, Nat.not_le] at hr
  exact hr.2

theorem prepareMessage_sound (l : Line) {s t : State} (h : Sound q s) (ht : prepareMessage l s = some t) : Sound q t := by
  unfold prepareMessage at ht
  split at ht
  · cases ht; exact h
  · split at ht
    · cases ht
    · rename_i hr
      have room := room_of_created (Bool.eq_false_iff.2 fun h => hr (.inr h))
      cases ht; exact modFax_sound _ _ (createMessage_sound _ _ _ _ room h)

theorem checkAccepted_sound (l : Line) {s : State} (h : Sound q s) : Sound q (checkAccepted l s) := by
  unfold checkAccepted
  split
  · rename_i t ht
    exact sendControl_sound _ _ (beginWindow_sound _ (freshPage_sound _ (modFax_sound _ _
      (prepareMessage_sound l (acceptCheck_sound _ _ h) ht))))
  · exact sendBye_sound _ _ (acceptCheck_sound _ _ h)

theorem sendCheckFail_sound (x0 : Line) {s : State} (h : Sound q s) : Sound q (sendCheckFail x0 s) := by
  unfold sendCheckFail
  repeat' first
    | assumption | with_reducible apply sendControl_sound | with_reducible apply modFax_sound

theorem judgeCheck_sound (x0 : Line) {s : State} (h : Sound q s) : Sound q (judgeCheck x0 s) := by
  unfold judgeCheck
  repeat' first
    | assumption | with_reducible apply checkAccepted_sound | with_reducible apply sendCheckFail_sound | exact fun _ hk => hk
    | intro _ | with_reducible apply sound_ite | with_reducible refine sound_have ?_ ?_ | split

theorem opCheckPatternEnd_sound (x0 : Line) {s : State} (h : Sound q s) : Sound q (opCheckPatternEnd x0 s) := by
  unfold opCheckPatternEnd
  repeat' first
    | assumption | with_reducible apply judgeCheck_sound | with_reducible apply freshCheck_sound
    | with_reducible apply dropWindow_sound | exact fun _ hk => hk | intro _ | with_reducible apply sound_ite

theorem startPage_sound (x0 : Line) (x1 : Nat) {s : State} (h : Sound q s) : Sound q (startPage x0 x1 s) := by
  unfold startPage
  repeat' first
    | assumption | with_reducible apply appendRecord_sound | with_reducible apply modFax_sound | exact fun _ hk => hk | intro _
    | with_reducible apply sound_ite

theorem placeLine_sound (x0 : Line) (x1 : List Byte) (x2 : Bool) {s : State} (h : Sound q s) : Sound q (placeLine x0 x1 x2 s)
    := by
  unfold placeLine
  repeat' first
    | assumption | with_reducible apply startPage_sound | with_reducible apply appendRecord_sound
    | with_reducible apply noteSlip_sound | with_reducible apply modFax_sound | exact fun _ hk => hk | intro _
    | with_reducible apply sound_ite

theorem concealLine_sound (x0 : Line) {s : State} (h : Sound q s) : Sound q (concealLine x0 s) := by
  unfold concealLine
  repeat' first
    | assumption | with_reducible apply placeLine_sound

theorem concealLines_sound (l : Line) (n : Nat) {s : State} (h : Sound q s) : Sound q (concealLines l n s) := by
  induction n generalizing s with
  | zero => exact h
  | succ n ih => exact ih (concealLine_sound l h)

theorem placeBad_sound (x0 : Line) {s : State} (h : Sound q s) : Sound q (placeBad x0 s) := by
  unfold placeBad
  repeat' first
    | assumption | with_reducible apply addPenalty_sound | with_reducible apply concealLine_sound

theorem placeGood_sound (x0 : Line) (x1 : Nat) (x2 : List Byte) {s : State} (h : Sound q s) : Sound q (placeGood x0 x1 x2 s)
    := by
  unfold placeGood
  repeat' first
    | assumption | with_reducible apply placeLine_sound | with_reducible apply modFax_sound
    | with_reducible apply concealLines_sound | with_reducible apply placeBad_sound | exact fun _ hk => hk | intro _
    | with_reducible apply sound_ite

theorem pageSignal_sound (x0 : Line) {s : State} (h : Sound q s) : Sound q (pageSignal x0 s) := by
  unfold pageSignal
  repeat' first
    | assumption | with_reducible apply discharge_sound | exact fun _ hk => hk | intro _ | with_reducible apply sound_ite

theorem opLineRecord_sound (x0 : Line) (x1 : RecordInput) {s : State} (h : Sound q s) : Sound q (opLineRecord x0 x1 s) := by
  unfold opLineRecord
  repeat' first
    | assumption | with_reducible apply pageSignal_sound | with_reducible apply placeGood_sound
    | with_reducible apply placeBad_sound | exact fun _ hk => hk | intro _ | with_reducible apply sound_ite

theorem notePage_sound (x0 : Line) (x1 : Verdict) {s : State} (h : Sound q s) : Sound q (notePage x0 x1 s) := by
  unfold notePage
  repeat' first
    | assumption | with_reducible apply storeKick_sound | with_reducible apply rewriteMark_sound
    | with_reducible apply modWriter_sound | exact fun _ hk => hk | intro _ | with_reducible apply sound_ite
    | with_reducible refine sound_have ?_ ?_ | split | dsimp only

theorem sendVerdict_sound (x0 : Line) (x1 : Nat) (x2 : Verdict) (x3 : Nat) (x4 : Nat) {s : State} (h : Sound q s) : Sound q
    (sendVerdict x0 x1 x2 x3 x4 s) := by
  unfold sendVerdict
  repeat' first
    | assumption | with_reducible apply sendControl_sound | with_reducible apply reportPage_sound
    | with_reducible apply modFax_sound

theorem cutPage_sound (x0 : Line) (x1 : AfterCut) {s : State} (h : Sound q s) : Sound q (cutPage x0 x1 s) := by
  unfold cutPage
  repeat' first
    | assumption | with_reducible apply storeKick_sound | with_reducible apply cutTo_sound | with_reducible apply modFax_sound
    | with_reducible apply post_sound | exact fun _ hk => hk | intro _ | with_reducible apply sound_ite
    | with_reducible refine sound_have ?_ ?_ | split | dsimp only

theorem judgePage_sound (x0 : Line) {s : State} (h : Sound q s) : Sound q (judgePage x0 s) := by
  unfold judgePage
  repeat' first
    | assumption | with_reducible apply cutPage_sound | with_reducible apply modFax_sound
    | with_reducible apply notePage_sound | with_reducible apply sendVerdict_sound | exact fun _ hk => hk | intro _
    | with_reducible apply sound_ite | with_reducible refine sound_have ?_ ?_ | split

theorem repeatVerdict_sound (x0 : Line) {s : State} (h : Sound q s) : Sound q (repeatVerdict x0 s) := by
  unfold repeatVerdict
  repeat' first
    | assumption | with_reducible apply sendAgain_sound | exact fun _ hk => hk | intro _ | with_reducible apply sound_ite
    | with_reducible refine sound_have ?_ ?_ | split

theorem opPageEnd_sound (x0 : Line) (x1 : Bool) (x2 : Word16) {s : State} (h : Sound q s) : Sound q (opPageEnd x0 x1 x2 s) := by
  unfold opPageEnd
  repeat' first
    | assumption | with_reducible apply noteTaken_sound | with_reducible apply modFax_sound | with_reducible apply repeatVerdict_sound | with_reducible apply startPage_sound
    | with_reducible apply pageSignal_sound | with_reducible apply judgePage_sound | with_reducible apply dropWindow_sound
    | with_reducible apply concealLines_sound | exact fun _ hk => hk | intro _ | with_reducible apply sound_ite

theorem faxCutDone_sound (x0 : Line) {s : State} (h : Sound q s) : Sound q (faxCutDone x0 s) := by
  unfold faxCutDone
  repeat' first
    | assumption | with_reducible apply sendVerdict_sound | with_reducible apply freshPage_sound
    | with_reducible apply sendCheckFail_sound | exact fun _ hk => hk | intro _ | with_reducible apply sound_ite
    | with_reducible refine sound_have ?_ ?_ | split

theorem regradeReport_length (l : Line) (n : Nat) (r : List Report) : (regradeReport l n r).length = r.length := by
  fun_induction regradeReport l n r <;> simp_all

theorem regradePage_sound (x0 : Line) {s : State} (h : Sound q s) : Sound q (regradePage x0 s) := by
  unfold regradePage
  split
  · split
    · refine storeKick_sound (rewriteMark_sound _ _ _ _ (modLink_sound (fun k hk => ?_) h))
      simpa only [List.length_reverse, regradeReport_length] using hk
    · exact h
  · exact h

theorem faxRetrain_sound (x0 : Line) {s : State} (h : Sound q s) : Sound q (faxRetrain x0 s) := by
  unfold faxRetrain
  repeat' first
    | assumption | with_reducible apply regradePage_sound | with_reducible apply dropWindow_sound | with_reducible apply cutPage_sound | with_reducible apply reportPage_sound
    | with_reducible apply discharge_sound | with_reducible apply modFax_sound | exact fun _ hk => hk | intro _
    | with_reducible apply sound_ite | with_reducible refine sound_have ?_ ?_ | split

theorem closePages_sound (x0 : Line) (x1 : Nat) (x2 : Nat) (x3 : EndReason) {s : State} (h : Sound q s) : Sound q
    (closePages x0 x1 x2 x3 s) := by
  unfold closePages
  repeat' first
    | assumption | with_reducible apply closeEraseAfterCut_sound | with_reducible apply closeWithErase_sound
    | with_reducible apply closeAt_sound | with_reducible apply modFax_sound | with_reducible apply keepInWriter_sound | exact fun _ hk => hk | intro _
    | with_reducible apply sound_ite

theorem endReceiver_sound (x0 : Line) (x1 : EndReason) (x2 : Bool) {s : State} (h : Sound q s) : Sound q (endReceiver x0 x1 x2
    s) := by
  unfold endReceiver
  repeat' first
    | assumption | with_reducible apply closePages_sound | exact fun _ hk => hk | intro _
    | with_reducible apply sound_ite | with_reducible refine sound_have ?_ ?_ | split

theorem endFax_sound (x0 : Line) (x1 : ReleaseReason) {s : State} (h : Sound q s) : Sound q (endFax x0 x1 s) := by
  unfold endFax
  repeat' first
    | assumption | with_reducible apply closeReader_sound | with_reducible apply endReceiver_sound
    | with_reducible apply modFax_sound | exact fun _ hk => hk | intro _ | with_reducible apply sound_ite
    | with_reducible refine sound_have ?_ ?_ | split

theorem faxWriterFull_sound (x0 : Line) (x1 : Nat) {s : State} (h : Sound q s) : Sound q (faxWriterFull x0 x1 s) := by
  unfold faxWriterFull
  repeat' first
    | assumption | with_reducible apply endReceiver_sound | with_reducible apply modFax_sound
    | with_reducible apply sendBye_sound | exact fun _ hk => hk | intro _ | with_reducible apply sound_ite

theorem opBye_sound (x0 : Line) (x1 : Byte) {s : State} (h : Sound q s) : Sound q (opBye x0 x1 s) := by
  unfold opBye
  repeat' first
    | assumption | with_reducible apply askRelease_sound | with_reducible apply discharge_sound
    | with_reducible apply endReceiver_sound | with_reducible apply modFax_sound | exact fun _ hk => hk | intro _
    | with_reducible apply sound_ite | with_reducible refine sound_have ?_ ?_ | split

theorem afterVerdictSent_sound (x0 : Line) (x1 : Verdict) {s : State} (h : Sound q s) : Sound q (afterVerdictSent x0 x1 s) := by
  unfold afterVerdictSent
  repeat' first
    | assumption | with_reducible apply beginWindow_sound | with_reducible apply freshPage_sound | with_reducible apply modFax_sound | exact fun _ hk => hk | intro _
    | with_reducible apply sound_ite

theorem messageSent_sound (x0 : Line) (x1 : FaxMsg) {s : State} (h : Sound q s) : Sound q (messageSent x0 x1 s) := by
  unfold messageSent
  repeat' first
    | assumption | with_reducible apply modFax_sound | with_reducible apply afterVerdictSent_sound
    | with_reducible apply askRelease_sound | exact fun _ hk => hk | intro _ | with_reducible apply sound_ite
    | with_reducible refine sound_have ?_ ?_ | split

theorem opControlMessageSent_sound (x0 : Line) {s : State} (h : Sound q s) : Sound q (opControlMessageSent x0 s) := by
  unfold opControlMessageSent
  repeat' first
    | assumption | with_reducible apply messageSent_sound | with_reducible apply modFax_sound | exact fun _ hk => hk | intro _
    | with_reducible apply sound_ite | with_reducible refine sound_have ?_ ?_ | split

theorem giveUp_sound (x0 : Line) (x1 : FaxMsg) {s : State} (h : Sound q s) : Sound q (giveUp x0 x1 s) := by
  unfold giveUp
  repeat' first
    | assumption | with_reducible apply askRelease_sound | with_reducible apply discharge_sound
    | with_reducible apply failSession_sound | exact fun _ hk => hk | intro _ | with_reducible apply sound_ite
    | with_reducible refine sound_have ?_ ?_ | split

theorem opAnswerTimerExpiry_sound (x0 : Line) {s : State} (h : Sound q s) : Sound q (opAnswerTimerExpiry x0 s) := by
  unfold opAnswerTimerExpiry
  repeat' first
    | assumption | with_reducible apply elapse_sound | with_reducible apply giveUp_sound | with_reducible apply sendAgain_sound
    | with_reducible apply modFax_sound | exact fun _ hk => hk | intro _ | with_reducible apply sound_ite
    | with_reducible refine sound_have ?_ ?_ | split

theorem opWindowEnd_sound (x0 : Line) (x1 : List SymbolReading) (x2 : ℤ) {s : State} (h : Sound q s) : Sound q (opWindowEnd x0
    x1 x2 s) := by
  unfold opWindowEnd
  repeat' first
    | assumption | with_reducible apply completeWindow_sound | with_reducible apply probeWindow_sound
    | with_reducible apply offsetWindow_sound | with_reducible apply checkWindow_sound
    | with_reducible apply qualityWindow_sound | exact fun _ hk => hk | intro _ | with_reducible apply sound_ite
    | with_reducible refine sound_have ?_ ?_ | split

theorem reportVoice_sound (x0 : Line) (x1 : VoiceEvent) (x2 : EndReason) (x3 : Nat) {s : State} (h : Sound q s) : Sound q
    (reportVoice x0 x1 x2 x3 s) := by
  unfold reportVoice
  repeat' first
    | assumption | with_reducible apply queueReport_sound

theorem setSub_sound (x0 : Line) (x1 : Option VoiceSub) {s : State} (h : Sound q s) : Sound q (setSub x0 x1 s) := by
  unfold setSub
  repeat' first
    | assumption | with_reducible apply judgeExpectation_sound | with_reducible apply modVoice_sound

theorem openVoiceStream_sound (x0 : Line) (x1 : Entry) (x2 : Nat) {s : State} (h : Sound q s) : Sound q (openVoiceStream x0 x1
    x2 s) := by
  unfold openVoiceStream
  repeat' first
    | assumption | with_reducible apply openReader_sound | with_reducible apply takeRef_sound
    | with_reducible apply modVoice_sound

theorem startGreeting_sound (x0 : Line) (x1 : Option Nat) {s : State} (h : Sound q s) : Sound q (startGreeting x0 x1 s) := by
  unfold startGreeting
  repeat' first
    | assumption | with_reducible apply closeReader_sound | with_reducible apply setSub_sound
    | with_reducible apply modVoice_sound | with_reducible apply openVoiceStream_sound | exact fun _ hk => hk | intro _
    | with_reducible apply sound_ite | with_reducible refine sound_have ?_ ?_ | split | dsimp only

theorem closeGreeting_sound (x0 : Line) {s : State} (h : Sound q s) : Sound q (closeGreeting x0 s) := by
  unfold closeGreeting
  repeat' first
    | assumption | with_reducible apply closeReader_sound | with_reducible apply modVoice_sound

theorem endGreeting_sound (x0 : Line) {s : State} (h : Sound q s) : Sound q (endGreeting x0 s) := by
  unfold endGreeting
  repeat' first
    | assumption | with_reducible apply post_sound | with_reducible apply closeGreeting_sound

theorem beginRecording_sound (x0 : Line) {s : State} (h : Sound q s) : Sound q (beginRecording x0 s) := by
  unfold beginRecording
  repeat' first
    | assumption | with_reducible apply reportVoice_sound | with_reducible apply modVoice_sound

theorem enterRecording_sound (x0 : Line) {s : State} (h : Sound q s) : Sound q (enterRecording x0 s) := by
  unfold enterRecording
  repeat' first
    | assumption | with_reducible apply setSub_sound | with_reducible apply modVoice_sound
    | with_reducible apply beginRecording_sound | exact fun _ hk => hk | intro _ | with_reducible apply sound_ite

theorem enterBeep_sound (x0 : Line) {s : State} (h : Sound q s) : Sound q (enterBeep x0 s) := by
  unfold enterBeep
  repeat' first
    | assumption | with_reducible apply requestTone_sound | with_reducible apply setSub_sound

theorem createRecording_sound (x0 : Line) (x1 : VoiceKind) (x2 : Option Nat) (x3 : Coding) (x4 : Nat) {s : State}
    (hr : createRefused s = false) (h : Sound q s) : Sound q (createRecording x0 x1 x2 x3 x4 s) := by
  unfold createRecording
  exact modVoice_sound _ _ (createMessage_sound _ _ _ _ (room_of_created hr) h)

theorem voiceFromClassify_sound (x0 : Line) {s : State} (h : Sound q s) : Sound q (voiceFromClassify x0 s) := by
  unfold voiceFromClassify
  dsimp only
  split
  · exact askRelease_sound _ _ (reportVoice_sound _ _ _ _ (setSub_sound _ _ (closeGreeting_sound _ h)))
  · rename_i hr
    have hr : createRefused (closeGreeting x0 s) = false := by
      simp only [recordingRefused, Bool.or_eq_true, not_or] at hr
      exact Bool.eq_false_iff.2 hr.2
    exact enterBeep_sound _ (createRecording_sound _ _ _ _ _ hr (closeGreeting_sound _ h))

theorem closeRecording_sound (x0 : Line) (x1 : EndReason) (x2 : Nat) {s : State} (h : Sound q s) : Sound q (closeRecording x0
    x1 x2 s) := by
  unfold closeRecording
  repeat' first
    | assumption | with_reducible apply reportVoice_sound | with_reducible apply modVoice_sound
    | with_reducible apply closeWithErase_sound | with_reducible apply cutFirst_sound | with_reducible apply closeAt_sound
    | exact fun _ hk => hk | intro _ | with_reducible apply sound_ite | with_reducible refine sound_have ?_ ?_ | split | dsimp only

theorem afterRecording_sound (x0 : Line) (x1 : EndReason) {s : State} (h : Sound q s) : Sound q (afterRecording x0 x1 s) := by
  unfold afterRecording
  repeat' first
    | assumption | with_reducible apply setSub_sound | with_reducible apply askRelease_sound | exact fun _ hk => hk | intro _
    | with_reducible apply sound_ite | with_reducible refine sound_have ?_ ?_ | split | dsimp only

theorem endRecording_sound (x0 : Line) (x1 : EndReason) (x2 : Nat) {s : State} (h : Sound q s) : Sound q (endRecording x0 x1
    x2 s) := by
  unfold endRecording
  repeat' first
    | assumption | with_reducible apply afterRecording_sound | with_reducible apply closeRecording_sound

theorem recordBlock_sound (x0 : Line) (x1 : Nat) (x2 : List ℤ) {s : State} (h : Sound q s) : Sound q (recordBlock x0 x1 x2 s)
    := by
  unfold recordBlock
  repeat' first
    | assumption | with_reducible apply appendSpeech_sound | with_reducible apply modVoice_sound
    | with_reducible apply endRecording_sound | exact fun _ hk => hk | intro _ | with_reducible apply sound_ite
    | with_reducible refine sound_have ?_ ?_ | split | dsimp only

theorem playBytes_sound (x0 : Line) (x1 : Nat) {s : State} (h : Sound q s) : Sound q (playBytes x0 x1 s) := by
  unfold playBytes
  repeat' first
    | assumption | with_reducible apply takeBytes_sound | with_reducible apply modVoice_sound | exact fun _ hk => hk | intro _
    | with_reducible apply sound_ite | with_reducible refine sound_have ?_ ?_ | split

theorem playBlock_sound (x0 : Line) {s : State} (h : Sound q s) : Sound q (playBlock x0 s) := by
  unfold playBlock
  repeat' first
    | assumption | with_reducible apply playBytes_sound | with_reducible apply noteUnderrun_sound
    | with_reducible apply modVoice_sound | exact fun _ hk => hk | intro _ | with_reducible apply sound_ite
    | with_reducible refine sound_have ?_ ?_ | split

theorem endPlayback_sound (x0 : Line) (x1 : EndReason) {s : State} (h : Sound q s) : Sound q (endPlayback x0 x1 s) := by
  unfold endPlayback
  repeat' first
    | assumption | with_reducible apply setSub_sound | with_reducible apply modVoice_sound
    | with_reducible apply closeReader_sound | with_reducible apply reportVoice_sound | with_reducible apply askRelease_sound
    | exact fun _ hk => hk | intro _ | with_reducible apply sound_ite

theorem startPlaying_sound (x0 : Line) (x1 : VoiceKind) (x2 : Entry) (x3 : Nat) {s : State} (h : Sound q s) : Sound q
    (startPlaying x0 x1 x2 x3 s) := by
  unfold startPlaying
  repeat' first
    | assumption | with_reducible apply modVoice_sound | with_reducible apply openVoiceStream_sound
    | with_reducible apply setSub_sound | with_reducible apply reportVoice_sound | with_reducible apply endPlayback_sound
    | exact fun _ hk => hk | intro _ | with_reducible apply sound_ite

theorem startDelivery_sound (x0 : Line) {s : State} (h : Sound q s) : Sound q (startDelivery x0 s) := by
  unfold startDelivery
  repeat' first
    | assumption | with_reducible apply startPlaying_sound | with_reducible apply askRelease_sound
    | with_reducible apply reportVoice_sound | exact fun _ hk => hk | intro _ | with_reducible apply sound_ite
    | with_reducible refine sound_have ?_ ?_ | split | dsimp only

theorem playRest_sound (x0 : Line) {s : State} (h : Sound q s) : Sound q (playRest x0 s) := by
  unfold playRest
  repeat' first
    | assumption | with_reducible apply playBytes_sound | exact fun _ hk => hk | intro _ | with_reducible apply sound_ite
    | with_reducible refine sound_have ?_ ?_ | split

theorem opGreetingEnd_sound (x0 : Line) {s : State} (h : Sound q s) : Sound q (opGreetingEnd x0 s) := by
  unfold opGreetingEnd
  repeat' first
    | assumption | with_reducible apply endGreeting_sound | with_reducible apply elapse_sound
    | with_reducible apply playRest_sound | exact fun _ hk => hk | intro _ | with_reducible apply sound_ite
    | with_reducible refine sound_have ?_ ?_ | split

theorem opPlaybackComplete_sound (x0 : Line) {s : State} (h : Sound q s) : Sound q (opPlaybackComplete x0 s) := by
  unfold opPlaybackComplete
  repeat' first
    | assumption | with_reducible apply endPlayback_sound | with_reducible apply playRest_sound | exact fun _ hk => hk | intro _
    | with_reducible apply sound_ite

theorem skipTo_sound (x0 : Line) (x1 : Nat) {s : State} (h : Sound q s) : Sound q (skipTo x0 x1 s) := by
  unfold skipTo
  repeat' first
    | assumption | with_reducible apply reportVoice_sound | with_reducible apply moveReader_sound
    | with_reducible apply modVoice_sound

theorem voiceControl_sound (x0 : Line) (x1 : ControlOp) {s : State} (h : Sound q s) : Sound q (voiceControl x0 x1 s) := by
  unfold voiceControl
  repeat' first
    | assumption | with_reducible apply endPlayback_sound | with_reducible apply skipTo_sound
    | with_reducible apply reportVoice_sound | with_reducible apply setSub_sound | with_reducible apply modVoice_sound
    | exact fun _ hk => hk | intro _ | with_reducible apply sound_ite | with_reducible refine sound_have ?_ ?_ | split

theorem dropBeep_sound (x0 : Line) {s : State} (h : Sound q s) : Sound q (dropBeep x0 s) := by
  unfold dropBeep
  repeat' first
    | assumption | with_reducible apply setSub_sound | with_reducible apply closeWithErase_sound | exact fun _ hk => hk
    | intro _ | with_reducible apply sound_ite | with_reducible refine sound_have ?_ ?_ | split

theorem voiceFarEnd_sound (x0 : Line) (x1 : Nat) {s : State} (h : Sound q s) : Sound q (voiceFarEnd x0 x1 s) := by
  unfold voiceFarEnd
  repeat' first
    | assumption | with_reducible apply endRecording_sound | with_reducible apply askRelease_sound
    | with_reducible apply endPlayback_sound | with_reducible apply closeGreeting_sound | with_reducible apply dropBeep_sound
    | exact fun _ hk => hk | intro _ | with_reducible apply sound_ite | with_reducible refine sound_have ?_ ?_ | split
    | dsimp only

theorem endVoice_sound (x0 : Line) (x1 : ReleaseReason) {s : State} (h : Sound q s) : Sound q (endVoice x0 x1 s) := by
  unfold endVoice
  repeat' first
    | assumption | with_reducible apply closeGreeting_sound | with_reducible apply dropBeep_sound
    | with_reducible apply closeRecording_sound | with_reducible apply endPlayback_sound
    | with_reducible apply judgeExpectation_sound | with_reducible apply modVoice_sound | exact fun _ hk => hk | intro _
    | with_reducible apply sound_ite | with_reducible refine sound_have ?_ ?_ | split

theorem stopGreeting_sound (x0 : Line) {s : State} (h : Sound q s) : Sound q (stopGreeting x0 s) := by
  unfold stopGreeting
  repeat' first
    | assumption | with_reducible apply modVoice_sound | with_reducible apply closeGreeting_sound | exact fun _ hk => hk
    | intro _ | with_reducible apply sound_ite

theorem voiceWriterFull_sound (x0 : Line) (x1 : Nat) {s : State} (h : Sound q s) : Sound q (voiceWriterFull x0 x1 s) := by
  unfold voiceWriterFull
  repeat' first
    | assumption | with_reducible apply endRecording_sound | exact fun _ hk => hk | intro _ | with_reducible apply sound_ite

theorem beepDone_sound (x0 : Line) {s : State} (h : Sound q s) : Sound q (beepDone x0 s) := by
  unfold beepDone
  repeat' first
    | assumption | with_reducible apply enterRecording_sound | exact fun _ hk => hk | intro _ | with_reducible apply sound_ite

theorem voiceBlock_sound (x0 : Line) (x1 : Nat) (x2 : List ℤ) {s : State} (h : Sound q s) : Sound q (voiceBlock x0 x1 x2 s) :=
    by
  unfold voiceBlock
  repeat' first
    | assumption | with_reducible apply recordBlock_sound | with_reducible apply beginRecording_sound
    | with_reducible apply playBlock_sound | exact fun _ hk => hk | intro _ | with_reducible apply sound_ite
    | with_reducible refine sound_have ?_ ?_ | split | dsimp only

theorem opPlay_sound (x0 : Byte) (x1 : Word16) (x2 : Word32) {s : State} (h : Sound q s) : Sound q (opPlay x0 x1 x2 s) := by
  unfold opPlay
  repeat' first
    | assumption | with_reducible apply done_sound | with_reducible apply startPlaying_sound | exact fun _ hk => hk | intro _
    | with_reducible apply sound_ite | with_reducible refine sound_have ?_ ?_ | split

theorem opRecord_sound (x0 : Byte) (x1 : Byte) (x2 : Byte) (x3 : Word16) (x4 : Byte) {s : State} (h : Sound q s) : Sound q
    (opRecord x0 x1 x2 x3 x4 s) := by
  unfold opRecord
  dsimp only
  repeat' first
    | assumption | with_reducible apply done_sound | with_reducible apply createRecording_sound
    | with_reducible apply enterBeep_sound | with_reducible apply enterRecording_sound | exact Bool.eq_false_iff.2 ‹_› | split

theorem opStop_sound (x0 : Byte) {s : State} (h : Sound q s) : Sound q (opStop x0 s) := by
  unfold opStop
  repeat' first
    | assumption | with_reducible apply done_sound | with_reducible apply endPlayback_sound
    | with_reducible apply endRecording_sound | with_reducible apply endGreeting_sound | exact fun _ hk => hk | intro _
    | with_reducible apply sound_ite | with_reducible refine sound_have ?_ ?_ | split

theorem writeMailbox_sound (i : Nat) (old new : Mailbox) {s : State} (h : Sound q s) : Sound q (writeMailbox i old new s) := by
  unfold writeMailbox
  have h' : Sound q { s with mailboxes := s.mailboxes.set i new } := mailboxes_sound _ (by simpa using h.mailboxes) h
  generalize { s with mailboxes := s.mailboxes.set i new } = t at h'
  repeat' first
    | assumption | with_reducible apply storeKick_sound | with_reducible apply returnRef_sound
    | with_reducible apply takeRef_sound | split

theorem opMailbox_sound (x0 : Byte) (x1 : Byte) (x2 : Word16) (x3 : Word16) (x4 : Byte) (x5 : List Byte) {s : State} (h :
    Sound q s) : Sound q (opMailbox x0 x1 x2 x3 x4 x5 s) := by
  unfold opMailbox
  repeat' first
    | assumption | with_reducible apply done_sound | with_reducible apply writeMailbox_sound | exact fun _ hk => hk | intro _
    | with_reducible apply sound_ite | with_reducible refine sound_have ?_ ?_ | split

theorem opMailclear_sound (x0 : Byte) {s : State} (h : Sound q s) : Sound q (opMailclear x0 s) := by
  unfold opMailclear
  repeat' first
    | assumption | exact mailboxes_sound _ (by simpa using h.mailboxes) h | with_reducible apply done_sound

end Sys2Proof.Machine
end

