-- ==== Sys2Proof/Laws/SoundCall.lean ====
section
/-! SUPPORT. The limits of `Sound` under the operations of the call controller and the requests between blocks: one lemma for each operation,
which a proof about a command cites in place of unfolding the operation. -/

namespace Sys2Proof.Machine
variable {q : List Instr}

theorem opScreenWrite_sound (x0 : Byte) (x1 : ScreenParams) {s : State} (h : Sound q s) : Sound q (opScreenWrite x0 x1 s) := by
  unfold opScreenWrite
  repeat' first
    | assumption | exact screen_sound _ (by simpa using h.screen) h | with_reducible apply done_sound | exact fun _ hk => hk
    | intro _ | with_reducible apply sound_ite | with_reducible refine sound_have ?_ ?_ | split

theorem opScreenDelete_sound (x0 : Byte) {s : State} (h : Sound q s) : Sound q (opScreenDelete x0 s) := by
  unfold opScreenDelete
  repeat' first
    | assumption | exact screen_sound _ (by simpa using h.screen) h | with_reducible apply done_sound | exact fun _ hk => hk
    | intro _ | with_reducible apply sound_ite | with_reducible refine sound_have ?_ ?_ | split

theorem prepareAttempt_sound (x0 : List Byte) {s : State} (h : Sound q s) : Sound q (prepareAttempt x0 s) := by
  unfold prepareAttempt
  repeat' first
    | assumption | exact attempts_sound _ (by simpa using h.attempts) h | exact fun _ hk => hk | intro _
    | with_reducible apply sound_ite | with_reducible refine sound_have ?_ ?_ | split

theorem settleFailure_sound (number : List Byte) {s : State} (h : Sound q s) : Sound q (settleFailure number s) := by
  unfold settleFailure
  have h' : Sound q (if (attemptIndex s number).isSome then s else prepareAttempt number s) :=
    sound_ite h (prepareAttempt_sound number h)
  generalize (if (attemptIndex s number).isSome then s else prepareAttempt number s) = t at h'
  dsimp only
  split
  · exact attempts_sound _ (by simpa using h'.attempts) h'
  · exact h'

theorem freeAttempt_sound (x0 : List Byte) {s : State} (h : Sound q s) : Sound q (freeAttempt x0 s) := by
  unfold freeAttempt
  repeat' first
    | assumption | exact attempts_sound _ (by simpa using h.attempts) h | exact fun _ hk => hk | intro _
    | with_reducible apply sound_ite | with_reducible refine sound_have ?_ ?_ | split

theorem opAttemptclear_sound {s : State} (h : Sound q s) : Sound q (opAttemptclear s) := by
  unfold opAttemptclear
  repeat' first
    | assumption | exact attempts_sound _ (by simpa using h.attempts) h | with_reducible apply done_sound

theorem modJob_sound (x0 : Nat) (x1 : Job → Job) {s : State} (h : Sound q s) : Sound q (modJob x0 x1 s) := by
  unfold modJob
  repeat' first
    | assumption | exact jobs_sound _ (by simpa [updateWhere] using h.jobs) h

theorem reportJob_sound (x0 : Nat) {s : State} (h : Sound q s) : Sound q (reportJob x0 s) := by
  unfold reportJob
  repeat' first
    | assumption | with_reducible apply queueReport_sound | exact fun _ hk => hk | intro _ | with_reducible apply sound_ite
    | with_reducible refine sound_have ?_ ?_ | split

theorem askDispatch_sound {s : State} (h : Sound q s) : Sound q (askDispatch s) := by
  unfold askDispatch
  repeat' first
    | assumption | with_reducible apply post_sound

theorem finishJob_sound (x0 : Nat) (x1 : JobResult) {s : State} (h : Sound q s) : Sound q (finishJob x0 x1 s) := by
  unfold finishJob
  repeat' first
    | assumption | with_reducible apply reportJob_sound | with_reducible apply modJob_sound

theorem requeueJob_sound (x0 : Nat) {s : State} (h : Sound q s) : Sound q (requeueJob x0 s) := by
  unfold requeueJob
  repeat' first
    | assumption | with_reducible apply askDispatch_sound | with_reducible apply reportJob_sound
    | with_reducible apply modJob_sound

theorem opJobadd_sound (kind : Byte) (message : Word16) (priority preference maxTries : Byte) (symbols : List Byte) {s : State}
    (h : Sound q s) : Sound q (opJobadd kind message priority preference maxTries symbols s) := by
  unfold opJobadd
  dsimp only
  split
  · iterate 6 (split; exact done_sound _ _ _ h)
    refine askDispatch_sound (reportJob_sound _ (done_sound _ _ _ (takeRef_sound _ ?_)))
    exact ⟨h.1, h.2, h.3, h.4, h.5, h.6, h.7, h.8, by
      simp only [List.length_append, List.length_singleton]; omega, h.10, h.11, h.12, h.13⟩
  · exact done_sound _ _ _ h

theorem opJobclear_sound (id : Byte) {s : State} (h : Sound q s) : Sound q (opJobclear id s) := by
  unfold opJobclear
  split
  · exact done_sound _ _ _ h
  · rename_i j hj
    split
    · exact done_sound _ _ _ h
    · have h' : Sound q (if j.state = .waiting then
          finishJob j.id .cancelled (modJob j.id (fun j => { j with lastTry := (0, none) }) (done 0x58#8 .ok [] s))
          else done 0x58#8 .ok [] s) :=
        sound_ite (finishJob_sound _ _ (modJob_sound _ _ (done_sound _ _ _ h))) (done_sound _ _ _ h)
      exact storeKick_sound (returnRef_sound _ (jobs_sound _ (Nat.le_trans (List.length_filter_le _ _) h'.jobs) h'))

theorem clearTimers_sound (x0 : Line) {s : State} (h : Sound q s) : Sound q (clearTimers x0 s) := by
  unfold clearTimers
  repeat' first
    | assumption | with_reducible apply modCall_sound

theorem reachCall_sound (x0 : Line) {s : State} (h : Sound q s) : Sound q (reachCall x0 s) := by
  unfold reachCall
  repeat' first
    | assumption | with_reducible apply modCall_sound | with_reducible apply freeAttempt_sound | exact fun _ hk => hk | intro _
    | with_reducible apply sound_ite

theorem failJob_sound (x0 : Job) (x1 : Nat) {s : State} (h : Sound q s) : Sound q (failJob x0 x1 s) := by
  unfold failJob
  repeat' first
    | assumption | with_reducible apply modJob_sound | with_reducible apply requeueJob_sound
    | with_reducible apply finishJob_sound | exact fun _ hk => hk | intro _ | with_reducible apply sound_ite

theorem settleJob_sound (x0 : Line) (x1 : ReleaseReason) {s : State} (h : Sound q s) : Sound q (settleJob x0 x1 s) := by
  unfold settleJob
  repeat' first
    | assumption | with_reducible apply modJob_sound | with_reducible apply finishJob_sound
    | with_reducible apply requeueJob_sound | with_reducible apply failJob_sound | exact fun _ hk => hk | intro _
    | with_reducible apply sound_ite | with_reducible refine sound_have ?_ ?_ | split

theorem settleAttempt_sound (x0 : Line) (x1 : ReleaseReason) {s : State} (h : Sound q s) : Sound q (settleAttempt x0 x1 s) := by
  unfold settleAttempt
  repeat' first
    | assumption | with_reducible apply settleFailure_sound | exact fun _ hk => hk | intro _ | with_reducible apply sound_ite

theorem returnCallRef_sound (x0 : Line) {s : State} (h : Sound q s) : Sound q (returnCallRef x0 s) := by
  unfold returnCallRef
  repeat' first
    | assumption | with_reducible apply modCall_sound | with_reducible apply storeKick_sound
    | with_reducible apply returnRef_sound | exact fun _ hk => hk | intro _ | with_reducible apply sound_ite
    | with_reducible refine sound_have ?_ ?_ | split | dsimp only

theorem endWork_sound (x0 : Line) (x1 : ReleaseReason) {s : State} (h : Sound q s) : Sound q (endWork x0 x1 s) := by
  unfold endWork
  repeat' first
    | assumption | with_reducible apply endVoice_sound | with_reducible apply endFax_sound | with_reducible apply stopLink_sound
    | with_reducible apply stopModem_sound | with_reducible apply silenceTone_sound

theorem enterCleardown_sound (x0 : Line) (x1 : ReleaseReason) {s : State} (h : Sound q s) : Sound q (enterCleardown x0 x1 s)
    := by
  unfold enterCleardown
  repeat' first
    | assumption | with_reducible apply releaseHook_sound | with_reducible apply changeState_sound
    | with_reducible apply clearTimers_sound | with_reducible apply modRecord_sound | with_reducible apply returnCallRef_sound
    | with_reducible apply endWork_sound | with_reducible apply settleAttempt_sound | with_reducible apply settleJob_sound
    | with_reducible apply modCall_sound | exact fun _ hk => hk | intro _ | with_reducible apply sound_ite

theorem releaseLine_sound (x0 : Line) (x1 : ReleaseReason) {s : State} (h : Sound q s) : Sound q (releaseLine x0 x1 s) := by
  unfold releaseLine
  repeat' first
    | assumption | with_reducible apply enterCleardown_sound | exact fun _ hk => hk | intro _ | with_reducible apply sound_ite

theorem enterIdle_sound (x0 : Line) (x1 : LineReason) (x2 : Option (Nat × Option CallerRecord)) {s : State} (h : Sound q s) :
    Sound q (enterIdle x0 x1 x2 s) := by
  unfold enterIdle
  repeat' first
    | assumption | with_reducible apply changeStateWith_sound | with_reducible apply modCall_sound
    | with_reducible apply ifaceIdle_sound | with_reducible apply modDet_sound | with_reducible apply emptyLink_sound
    | with_reducible apply clearModem_sound | with_reducible apply modFax_sound | with_reducible apply modVoice_sound
    | with_reducible apply post_sound

theorem opCleardownTimerExpiry_sound (x0 : Line) {s : State} (h : Sound q s) : Sound q (opCleardownTimerExpiry x0 s) := by
  unfold opCleardownTimerExpiry
  repeat' first
    | assumption | with_reducible apply enterIdle_sound | with_reducible apply elapse_sound | exact fun _ hk => hk | intro _
    | with_reducible apply sound_ite | with_reducible refine sound_have ?_ ?_ | split | dsimp only

theorem opRelease_sound (x0 : Byte) (x1 : Byte) {s : State} (h : Sound q s) : Sound q (opRelease x0 x1 s) := by
  unfold opRelease
  repeat' first
    | assumption | with_reducible apply done_sound | with_reducible apply gracefulClear_sound
    | with_reducible apply enterCleardown_sound | exact fun _ hk => hk | intro _ | with_reducible apply sound_ite
    | with_reducible refine sound_have ?_ ?_ | split

theorem restartClassify_sound (x0 : Line) {s : State} (h : Sound q s) : Sound q (restartClassify x0 s) := by
  unfold restartClassify
  repeat' first
    | assumption | with_reducible apply startGreeting_sound | with_reducible apply modCall_sound

theorem beginClassify_sound (x0 : Line) {s : State} (h : Sound q s) : Sound q (beginClassify x0 s) :=
  restartClassify_sound _ (modCall_sound _ _ h)

theorem answerLine_sound (x0 : Line) (x1 : CallMode) (x2 : Option Nat) {s : State} (h : Sound q s) : Sound q (answerLine x0 x1
    x2 s) := by
  unfold answerLine
  repeat' first
    | assumption | with_reducible apply closeHook_sound | with_reducible apply clearTimers_sound
    | with_reducible apply closeWindow_sound | with_reducible apply modRecord_sound | with_reducible apply requestTone_sound
    | with_reducible apply changeState_sound | with_reducible apply modemEnterFax_sound
    | with_reducible apply beginClassify_sound | exact fun _ hk => hk | intro _ | with_reducible apply sound_ite
    | with_reducible refine sound_have ?_ ?_ | split

theorem evaluatePlan_sound (x0 : Line) {s : State} (h : Sound q s) : Sound q (evaluatePlan x0 s) := by
  unfold evaluatePlan
  repeat' first
    | assumption | with_reducible apply answerLine_sound | exact fun _ hk => hk | intro _ | with_reducible apply sound_ite
    | with_reducible refine sound_have ?_ ?_ | split

theorem opAnswer_sound (x0 : Byte) (x1 : Byte) (x2 : Byte) {s : State} (h : Sound q s) : Sound q (opAnswer x0 x1 x2 s) := by
  unfold opAnswer
  repeat' first
    | assumption | with_reducible apply done_sound | with_reducible apply answerLine_sound | exact fun _ hk => hk | intro _
    | with_reducible apply sound_ite | with_reducible refine sound_have ?_ ?_ | split

theorem startRinging_sound (x0 : Line) {s : State} (h : Sound q s) : Sound q (startRinging x0 s) := by
  unfold startRinging
  repeat' first
    | assumption | with_reducible apply changeState_sound | with_reducible apply evaluatePlan_sound
    | with_reducible apply modCall_sound | exact fun _ hk => hk | intro _ | with_reducible apply sound_ite

theorem countRing_sound (x0 : Line) {s : State} (h : Sound q s) : Sound q (countRing x0 s) := by
  unfold countRing
  repeat' first
    | assumption | with_reducible apply evaluatePlan_sound | with_reducible apply modCall_sound

theorem glareJob_sound (x0 : Line) {s : State} (h : Sound q s) : Sound q (glareJob x0 s) := by
  unfold glareJob
  repeat' first
    | assumption | with_reducible apply requeueJob_sound | with_reducible apply modJob_sound | exact fun _ hk => hk | intro _
    | with_reducible apply sound_ite | with_reducible refine sound_have ?_ ?_ | split

theorem glare_sound (x0 : Line) {s : State} (h : Sound q s) : Sound q (glare x0 s) := by
  unfold glare
  repeat' first
    | assumption | with_reducible apply glareJob_sound | with_reducible apply clearTimers_sound
    | with_reducible apply returnCallRef_sound | with_reducible apply modRecord_sound | with_reducible apply beginClassify_sound
    | with_reducible apply changeState_sound | with_reducible apply requestTone_sound | exact fun _ hk => hk | intro _
    | with_reducible apply sound_ite

theorem callRingOn_sound (x0 : Line) {s : State} (h : Sound q s) : Sound q (callRingOn x0 s) := by
  unfold callRingOn
  repeat' first
    | assumption | with_reducible apply startRinging_sound | with_reducible apply countRing_sound
    | with_reducible apply glare_sound | exact fun _ hk => hk | intro _ | with_reducible apply sound_ite
    | with_reducible refine sound_have ?_ ?_ | split

theorem callRingOff_sound (x0 : Line) {s : State} (h : Sound q s) : Sound q (callRingOff x0 s) := by
  unfold callRingOff
  repeat' first
    | assumption | with_reducible apply modCall_sound | with_reducible apply openWindow_sound | exact fun _ hk => hk | intro _
    | with_reducible apply sound_ite

theorem opRingTimerExpiry_sound (x0 : Line) {s : State} (h : Sound q s) : Sound q (opRingTimerExpiry x0 s) := by
  unfold opRingTimerExpiry
  repeat' first
    | assumption | with_reducible apply closeWindow_sound | with_reducible apply elapse_sound
    | with_reducible apply enterIdle_sound | exact fun _ hk => hk | intro _ | with_reducible apply sound_ite
    | with_reducible refine sound_have ?_ ?_ | split

theorem callPickup_sound (x0 : Line) {s : State} (h : Sound q s) : Sound q (callPickup x0 s) := by
  unfold callPickup
  repeat' first
    | assumption | with_reducible apply enterIdle_sound | with_reducible apply closeWindow_sound
    | with_reducible apply enterCleardown_sound | with_reducible apply queueReport_sound | exact fun _ hk => hk | intro _
    | with_reducible apply sound_ite | with_reducible refine sound_have ?_ ?_ | split

theorem classifyToVoice_sound (x0 : Line) (x1 : ChangeReason) {s : State} (h : Sound q s) : Sound q (classifyToVoice x0 x1 s)
    := by
  unfold classifyToVoice
  repeat' first
    | assumption | with_reducible apply voiceFromClassify_sound | with_reducible apply changeState_sound
    | with_reducible apply clearTimers_sound

theorem greetingEnded_sound (x0 : Line) {s : State} (h : Sound q s) : Sound q (greetingEnded x0 s) := by
  unfold greetingEnded
  repeat' first
    | assumption | with_reducible apply classifyToVoice_sound | exact fun _ hk => hk | intro _ | with_reducible apply sound_ite

theorem opClassifyWindowExpiry_sound (x0 : Line) {s : State} (h : Sound q s) : Sound q (opClassifyWindowExpiry x0 s) := by
  unfold opClassifyWindowExpiry
  repeat' first
    | assumption | with_reducible apply classifyToVoice_sound | with_reducible apply elapse_sound | exact fun _ hk => hk
    | intro _ | with_reducible apply sound_ite | with_reducible refine sound_have ?_ ?_ | split

theorem takeDigit_sound (x0 : Line) (x1 : Byte) {s : State} (h : Sound q s) : Sound q (takeDigit x0 x1 s) := by
  unfold takeDigit
  repeat' first
    | assumption | with_reducible apply restartClassify_sound | with_reducible apply beginClassify_sound | with_reducible apply modRecord_sound
    | with_reducible apply modCall_sound | exact fun _ hk => hk | intro _ | with_reducible apply sound_ite
    | with_reducible refine sound_have ?_ ?_ | split | dsimp only

theorem opDigitTimerExpiry_sound (x0 : Line) {s : State} (h : Sound q s) : Sound q (opDigitTimerExpiry x0 s) := by
  unfold opDigitTimerExpiry
  repeat' first
    | assumption | with_reducible apply modCall_sound | with_reducible apply elapse_sound | exact fun _ hk => hk | intro _
    | with_reducible apply sound_ite | with_reducible refine sound_have ?_ ?_ | split

theorem classifyToFax_sound (x0 : Line) {s : State} (h : Sound q s) : Sound q (classifyToFax x0 s) := by
  unfold classifyToFax
  repeat' first
    | assumption | with_reducible apply changeState_sound | with_reducible apply clearTimers_sound
    | with_reducible apply stopGreeting_sound | with_reducible apply startReceiver_sound
    | with_reducible apply modemEnterFax_sound

theorem classifyToTrain_sound (x0 : Line) {s : State} (h : Sound q s) : Sound q (classifyToTrain x0 s) := by
  unfold classifyToTrain
  repeat' first
    | assumption | with_reducible apply startTraining_sound | with_reducible apply changeState_sound
    | with_reducible apply clearTimers_sound | with_reducible apply stopGreeting_sound

theorem enterSeize_sound (x0 : Line) (x1 : ChangeReason) {s : State} (h : Sound q s) : Sound q (enterSeize x0 x1 s) := by
  unfold enterSeize
  repeat' first
    | assumption | with_reducible apply changeState_sound | with_reducible apply closeHook_sound
    | with_reducible apply modCall_sound

theorem opDial_sound (x0 : Byte) (x1 : Byte) (x2 : Word16) (x3 : List Byte) {s : State} (h : Sound q s) : Sound q (opDial x0
    x1 x2 x3 s) := by
  unfold opDial
  repeat' first
    | assumption | with_reducible apply done_sound | with_reducible apply modRecord_sound
    | with_reducible apply prepareAttempt_sound | with_reducible apply modCall_sound | with_reducible apply takeRef_sound
    | with_reducible apply enterSeize_sound | exact fun _ hk => hk | intro _ | with_reducible apply sound_ite
    | with_reducible refine sound_have ?_ ?_ | split

theorem enterProgress_sound (x0 : Line) {s : State} (h : Sound q s) : Sound q (enterProgress x0 s) := by
  unfold enterProgress
  repeat' first
    | assumption | with_reducible apply changeState_sound | with_reducible apply clearTimers_sound
    | with_reducible apply modCall_sound | with_reducible apply requestTone_sound | exact fun _ hk => hk | intro _
    | with_reducible apply sound_ite

theorem beginStep_sound (x0 : Line) (x1 : DialStep) (x2 : Nat) {s : State} (h : Sound q s) : Sound q (beginStep x0 x1 x2 s) :=
    by
  unfold beginStep
  repeat' first
    | assumption | with_reducible apply modCall_sound

theorem dialDigit_sound (x0 : Line) (x1 : Byte) {s : State} (h : Sound q s) : Sound q (dialDigit x0 x1 s) := by
  unfold dialDigit
  repeat' first
    | assumption | with_reducible apply beginStep_sound | with_reducible apply openForDial_sound
    | with_reducible apply requestTone_sound | with_reducible apply modCall_sound | exact fun _ hk => hk | intro _
    | with_reducible apply sound_ite

theorem waitForTone_sound (x0 : Line) {s : State} (h : Sound q s) : Sound q (waitForTone x0 s) := by
  unfold waitForTone
  repeat' first
    | assumption | with_reducible apply modCall_sound

theorem dialSymbols_sound (l : Line) (bs : List Byte) {s : State} (h : Sound q s) : Sound q (dialSymbols l bs s) := by
  induction bs generalizing s with
  | nil => exact enterProgress_sound l h
  | cons b rest ih =>
    unfold dialSymbols
    repeat' first
      | assumption | with_reducible apply ih | with_reducible apply beginStep_sound | with_reducible apply openForDial_sound
      | with_reducible apply modCall_sound | with_reducible apply waitForTone_sound | with_reducible apply dialDigit_sound
      | split

theorem dialOn_sound (x0 : Line) {s : State} (h : Sound q s) : Sound q (dialOn x0 s) := by
  unfold dialOn
  repeat' first
    | assumption | with_reducible apply dialSymbols_sound

theorem symbolDone_sound (x0 : Line) {s : State} (h : Sound q s) : Sound q (symbolDone x0 s) := by
  unfold symbolDone
  repeat' first
    | assumption | with_reducible apply dialOn_sound | with_reducible apply modCall_sound

theorem enterDial_sound (x0 : Line) (x1 : ChangeReason) {s : State} (h : Sound q s) : Sound q (enterDial x0 x1 s) := by
  unfold enterDial
  repeat' first
    | assumption | with_reducible apply changeState_sound | with_reducible apply clearTimers_sound
    | with_reducible apply dialOn_sound | with_reducible apply modCall_sound

theorem loopArrived_sound (x0 : Line) {s : State} (h : Sound q s) : Sound q (loopArrived x0 s) := by
  unfold loopArrived
  repeat' first
    | assumption | with_reducible apply modCall_sound | with_reducible apply enterDial_sound | exact fun _ hk => hk | intro _
    | with_reducible apply sound_ite

theorem dialtoneInSeize_sound (x0 : Line) {s : State} (h : Sound q s) : Sound q (dialtoneInSeize x0 s) := by
  unfold dialtoneInSeize
  repeat' first
    | assumption | with_reducible apply modCall_sound | with_reducible apply enterDial_sound | exact fun _ hk => hk | intro _
    | with_reducible apply sound_ite

theorem dialtoneInDial_sound (x0 : Line) {s : State} (h : Sound q s) : Sound q (dialtoneInDial x0 s) := by
  unfold dialtoneInDial
  repeat' first
    | assumption | with_reducible apply symbolDone_sound | with_reducible apply modCall_sound | exact fun _ hk => hk | intro _
    | with_reducible apply sound_ite

theorem opDialToneWaitExpiry_sound (x0 : Line) {s : State} (h : Sound q s) : Sound q (opDialToneWaitExpiry x0 s) := by
  unfold opDialToneWaitExpiry
  repeat' first
    | assumption | with_reducible apply releaseLine_sound | with_reducible apply modCall_sound
    | with_reducible apply elapse_sound | exact fun _ hk => hk | intro _ | with_reducible apply sound_ite
    | with_reducible refine sound_have ?_ ?_ | split

theorem opBlindDialDelay_sound (x0 : Line) {s : State} (h : Sound q s) : Sound q (opBlindDialDelay x0 s) := by
  unfold opBlindDialDelay
  repeat' first
    | assumption | with_reducible apply enterDial_sound | with_reducible apply elapse_sound | exact fun _ hk => hk | intro _
    | with_reducible apply sound_ite | with_reducible refine sound_have ?_ ?_ | split

theorem opPulseBreakEnd_sound (x0 : Line) {s : State} (h : Sound q s) : Sound q (opPulseBreakEnd x0 s) := by
  unfold opPulseBreakEnd
  repeat' first
    | assumption | with_reducible apply closeAfterDial_sound | with_reducible apply elapseTo_sound
    | with_reducible apply beginStep_sound | exact fun _ hk => hk | intro _ | with_reducible apply sound_ite
    | with_reducible refine sound_have ?_ ?_ | split

theorem opPulseMakeEnd_sound (x0 : Line) {s : State} (h : Sound q s) : Sound q (opPulseMakeEnd x0 s) := by
  unfold opPulseMakeEnd
  repeat' first
    | assumption | with_reducible apply elapseTo_sound | with_reducible apply beginStep_sound
    | with_reducible apply openForDial_sound | exact fun _ hk => hk | intro _ | with_reducible apply sound_ite
    | with_reducible refine sound_have ?_ ?_ | split

theorem opInterdigitTimeEnd_sound (x0 : Line) {s : State} (h : Sound q s) : Sound q (opInterdigitTimeEnd x0 s) := by
  unfold opInterdigitTimeEnd
  repeat' first
    | assumption | with_reducible apply symbolDone_sound | with_reducible apply elapseTo_sound | exact fun _ hk => hk | intro _
    | with_reducible apply sound_ite | with_reducible refine sound_have ?_ ?_ | split

theorem opCommaPauseEnd_sound (x0 : Line) {s : State} (h : Sound q s) : Sound q (opCommaPauseEnd x0 s) := by
  unfold opCommaPauseEnd
  repeat' first
    | assumption | with_reducible apply symbolDone_sound | with_reducible apply elapseTo_sound | exact fun _ hk => hk | intro _
    | with_reducible apply sound_ite | with_reducible refine sound_have ?_ ?_ | split

theorem opFlashTimeEnd_sound (x0 : Line) {s : State} (h : Sound q s) : Sound q (opFlashTimeEnd x0 s) := by
  unfold opFlashTimeEnd
  repeat' first
    | assumption | with_reducible apply symbolDone_sound | with_reducible apply closeAfterDial_sound
    | with_reducible apply elapseTo_sound | exact fun _ hk => hk | intro _ | with_reducible apply sound_ite
    | with_reducible refine sound_have ?_ ?_ | split

theorem opProgressTimerExpiry_sound (x0 : Line) {s : State} (h : Sound q s) : Sound q (opProgressTimerExpiry x0 s) := by
  unfold opProgressTimerExpiry
  repeat' first
    | assumption | with_reducible apply releaseLine_sound | with_reducible apply modCall_sound
    | with_reducible apply elapse_sound | exact fun _ hk => hk | intro _ | with_reducible apply sound_ite
    | with_reducible refine sound_have ?_ ?_ | split

theorem leaveProgress_sound (x0 : Line) {s : State} (h : Sound q s) : Sound q (leaveProgress x0 s) := by
  unfold leaveProgress
  repeat' first
    | assumption | with_reducible apply clearTimers_sound | with_reducible apply stopTone_sound

theorem progressAnswer_sound (x0 : Line) {s : State} (h : Sound q s) : Sound q (progressAnswer x0 s) := by
  unfold progressAnswer
  repeat' first
    | assumption | with_reducible apply startTraining_sound | with_reducible apply changeState_sound
    | with_reducible apply leaveProgress_sound | with_reducible apply modemEnterFax_sound
    | with_reducible apply startSender_sound | with_reducible apply reachCall_sound | exact fun _ hk => hk | intro _
    | with_reducible apply sound_ite | with_reducible refine sound_have ?_ ?_ | split

theorem progressRingback_sound (x0 : Line) {s : State} (h : Sound q s) : Sound q (progressRingback x0 s) := by
  unfold progressRingback
  repeat' first
    | assumption | with_reducible apply modCall_sound

theorem progressToVoice_sound (x0 : Line) (x1 : ChangeReason) {s : State} (h : Sound q s) : Sound q (progressToVoice x0 x1 s)
    := by
  unfold progressToVoice
  repeat' first
    | assumption | with_reducible apply startDelivery_sound | with_reducible apply reachCall_sound
    | with_reducible apply changeState_sound | with_reducible apply leaveProgress_sound

theorem armWatch_sound (x0 : Line) {s : State} (h : Sound q s) : Sound q (armWatch x0 s) := by
  unfold armWatch
  repeat' first
    | assumption | with_reducible apply modCall_sound

theorem opAnswerWatchArm_sound (x0 : Line) {s : State} (h : Sound q s) : Sound q (opAnswerWatchArm x0 s) := by
  unfold opAnswerWatchArm
  repeat' first
    | assumption | with_reducible apply armWatch_sound | with_reducible apply elapse_sound | exact fun _ hk => hk | intro _
    | with_reducible apply sound_ite | with_reducible refine sound_have ?_ ?_ | split

theorem countWatch_sound (x0 : Line) {s : State} (h : Sound q s) : Sound q (countWatch x0 s) := by
  unfold countWatch
  repeat' first
    | assumption | with_reducible apply modCall_sound | with_reducible apply progressToVoice_sound | exact fun _ hk => hk
    | intro _ | with_reducible apply sound_ite

theorem watchBlock_sound (x0 : Line) {s : State} (h : Sound q s) : Sound q (watchBlock x0 s) := by
  unfold watchBlock
  repeat' first
    | assumption | with_reducible apply countWatch_sound | with_reducible apply armWatch_sound | exact fun _ hk => hk | intro _
    | with_reducible apply sound_ite

theorem callMeaning_sound (x0 : Line) (x1 : Meaning) (x2 : Option Byte) {s : State} (h : Sound q s) : Sound q (callMeaning x0
    x1 x2 s) := by
  unfold callMeaning
  repeat' first
    | assumption | with_reducible apply evaluatePlan_sound | with_reducible apply modRecord_sound
    | with_reducible apply dialtoneInSeize_sound | with_reducible apply dialtoneInDial_sound
    | with_reducible apply enterCleardown_sound | with_reducible apply progressAnswer_sound
    | with_reducible apply progressRingback_sound | with_reducible apply classifyToFax_sound
    | with_reducible apply classifyToTrain_sound | with_reducible apply takeDigit_sound | exact fun _ hk => hk | intro _
    | with_reducible apply sound_ite | with_reducible refine sound_have ?_ ?_ | split

theorem trainedRequest_sound (x0 : Line) {s : State} (h : Sound q s) : Sound q (trainedRequest x0 s) := by
  unfold trainedRequest
  repeat' first
    | assumption | with_reducible apply modModem_sound | with_reducible apply changeState_sound
    | with_reducible apply reachCall_sound | with_reducible apply modCall_sound | with_reducible apply resumeLink_sound
    | with_reducible apply startLink_sound | exact fun _ hk => hk | intro _ | with_reducible apply sound_ite

theorem retrainRequest_sound (x0 : Line) {s : State} (h : Sound q s) : Sound q (retrainRequest x0 s) := by
  unfold retrainRequest
  repeat' first
    | assumption | with_reducible apply startTraining_sound | with_reducible apply freezeLink_sound
    | with_reducible apply changeState_sound | with_reducible apply faxRetrain_sound
    | with_reducible apply startFaxRetrain_sound | exact fun _ hk => hk | intro _ | with_reducible apply sound_ite
    | with_reducible refine sound_have ?_ ?_ | split

theorem answerToneOver_sound (x0 : Line) {s : State} (h : Sound q s) : Sound q (answerToneOver x0 s) := by
  unfold answerToneOver
  repeat' first
    | assumption | with_reducible apply startTraining_sound | with_reducible apply startReceiver_sound | exact fun _ hk => hk
    | intro _ | with_reducible apply sound_ite

theorem toneOver_sound (x0 : Line) (x1 : ToneSignal) {s : State} (h : Sound q s) : Sound q (toneOver x0 x1 s) := by
  unfold toneOver
  repeat' first
    | assumption | with_reducible apply symbolDone_sound | with_reducible apply answerToneOver_sound
    | with_reducible apply beepDone_sound | exact fun _ hk => hk | intro _ | with_reducible apply sound_ite
    | with_reducible refine sound_have ?_ ?_ | split

theorem opToneGeneratorCompletion_sound (x0 : Line) {s : State} (h : Sound q s) : Sound q (opToneGeneratorCompletion x0 s) := by
  unfold opToneGeneratorCompletion
  repeat' first
    | assumption | with_reducible apply toneOver_sound | with_reducible apply stopTone_sound | with_reducible apply elapse_sound
    | exact fun _ hk => hk | intro _ | with_reducible apply sound_ite | with_reducible refine sound_have ?_ ?_ | split

theorem opLoopEstablished_sound (x0 : Line) {s : State} (h : Sound q s) : Sound q (opLoopEstablished x0 s) := by
  unfold opLoopEstablished
  repeat' first
    | assumption | with_reducible apply loopArrived_sound | with_reducible apply modIface_sound
    | with_reducible apply elapse_sound | exact fun _ hk => hk | intro _ | with_reducible apply sound_ite
    | with_reducible refine sound_have ?_ ?_ | split

theorem opNoLoop_sound (x0 : Line) {s : State} (h : Sound q s) : Sound q (opNoLoop x0 s) := by
  unfold opNoLoop
  repeat' first
    | assumption | with_reducible apply releaseLine_sound | with_reducible apply loseLoop_sound | exact fun _ hk => hk | intro _
    | with_reducible apply sound_ite | with_reducible refine sound_have ?_ ?_ | split

theorem opLoopLost_sound (x0 : Line) {s : State} (h : Sound q s) : Sound q (opLoopLost x0 s) := by
  unfold opLoopLost
  repeat' first
    | assumption | with_reducible apply releaseLine_sound | with_reducible apply loseLoop_sound | exact fun _ hk => hk | intro _
    | with_reducible apply sound_ite | with_reducible refine sound_have ?_ ?_ | split

theorem takeJob_sound (x0 : Line) (x1 : Job) {s : State} (h : Sound q s) : Sound q (takeJob x0 x1 s) := by
  unfold takeJob
  repeat' first
    | assumption | with_reducible apply reportJob_sound | with_reducible apply modJob_sound
    | with_reducible apply modRecord_sound | with_reducible apply enterSeize_sound | with_reducible apply prepareAttempt_sound

theorem examineJobs_sound (l : Line) (js : List Job) {s : State} (h : Sound q s) : Sound q (examineJobs l js s) := by
  induction js generalizing s with
  | nil => exact h
  | cons j rest ih =>
    unfold examineJobs
    repeat' first
      | assumption | with_reducible apply ih | with_reducible apply finishJob_sound | with_reducible apply takeJob_sound | split

theorem dispatchLine_sound (x0 : Line) {s : State} (h : Sound q s) : Sound q (dispatchLine x0 s) := by
  unfold dispatchLine
  repeat' first
    | assumption | with_reducible apply examineJobs_sound | exact fun _ hk => hk | intro _ | with_reducible apply sound_ite

theorem takeRequest_sound (x0 : Request) {s : State} (h : Sound q s) : Sound q (takeRequest x0 s) := by
  unfold takeRequest
  repeat' first
    | assumption | with_reducible apply releaseLine_sound | with_reducible apply loopArrived_sound
    | with_reducible apply trainedRequest_sound | with_reducible apply retrainRequest_sound
    | with_reducible apply greetingEnded_sound | with_reducible apply toneOver_sound
    | with_reducible apply voiceWriterFull_sound | with_reducible apply faxWriterFull_sound
    | with_reducible apply faxCutDone_sound | with_reducible apply faxReadArrived_sound
    | with_reducible apply dispatchLine_sound | exact fun _ hk => hk | intro _ | with_reducible apply sound_ite
    | with_reducible refine sound_have ?_ ?_ | split

theorem takeRequests_sound (n : Nat) {s : State} (h : Sound q s) : Sound q (takeRequests n s) := by
  induction n generalizing s with
  | zero => exact requests_sound [] h
  | succ n ih =>
    unfold takeRequests
    split
    · exact h
    · exact ih (takeRequest_sound _ (requests_sound _ h))

theorem finish_sound {s : State} (h : Sound q s) : Sound q (finish s) := by
  unfold finish
  repeat' first
    | assumption | with_reducible apply takeRequests_sound

end Sys2Proof.Machine
end

