-- ==== Sys2Proof/Laws/SoundLink.lean ====
section
/-! SUPPORT. The limits of `Sound` under the operations of the detector, the snapshots and the terminal link: one lemma for each operation,
which a proof about a command cites in place of unfolding the operation. -/

namespace Sys2Proof.Machine
variable {q : List Instr}

theorem setAlign_sound (x0 : Line) (x1 : Nat) (x2 : Alignment) {s : State} (h : Sound q s) : Sound q (setAlign x0 x1 x2 s) := by
  unfold setAlign
  repeat' first
    | assumption | with_reducible apply modDet_sound

theorem clearAlign_sound (x0 : Line) (x1 : Nat) {s : State} (h : Sound q s) : Sound q (clearAlign x0 x1 s) := by
  unfold clearAlign
  repeat' first
    | assumption | with_reducible apply setAlign_sound

theorem clearSource_sound (x0 : Line) (x1 : CadSource) {s : State} (h : Sound q s) : Sound q (clearSource x0 x1 s) := by
  unfold clearSource
  repeat' first
    | assumption | with_reducible apply clearAlign_sound | with_reducible apply sound_foldl | exact fun _ hk => hk | intro _
    | with_reducible apply sound_ite | with_reducible refine sound_have ?_ ?_ | split

theorem deliver_sound (x0 : Line) (x1 : Meaning) (x2 : Option Byte) (x3 : Nat) {s : State} (h : Sound q s) : Sound q (deliver
    x0 x1 x2 x3 s) := by
  unfold deliver
  repeat' first
    | assumption | with_reducible apply callMeaning_sound | with_reducible apply voiceFarEnd_sound | exact fun _ hk => hk
    | intro _ | with_reducible apply sound_ite

theorem deliverCadence_sound (x0 : Line) (x1 : Nat) (x2 : CadEntry) (x3 : Nat) {s : State} (h : Sound q s) : Sound q
    (deliverCadence x0 x1 x2 x3 s) := by
  unfold deliverCadence
  repeat' first
    | assumption | with_reducible apply deliver_sound | with_reducible apply queueReport_sound | exact fun _ hk => hk | intro _
    | with_reducible apply sound_ite

theorem eachCadence_sound (src : CadSource) {f : Nat → CadEntry → State → State}
    (hf : ∀ k e s, Sound q s → Sound q (f k e s)) {s : State} (h : Sound q s) : Sound q (eachCadence src f s) := by
  unfold eachCadence
  refine sound_foldl (fun t x ht => ?_) _ h
  split
  · exact sound_ite (hf _ _ _ ht) ht
  · exact ht

theorem cadenceOn_sound (x0 : Line) (x1 : CadSource) (x2 : Nat) (x3 : Nat) {s : State} (h : Sound q s) : Sound q (cadenceOn x0
    x1 x2 x3 s) := by
  unfold cadenceOn
  repeat' first
    | assumption | with_reducible apply eachCadence_sound | with_reducible apply setAlign_sound | exact fun _ hk => hk | intro _

theorem cadenceOff_sound (x0 : Line) (x1 : CadSource) (x2 : Nat) {s : State} (h : Sound q s) : Sound q (cadenceOff x0 x1 x2 s)
    := by
  unfold cadenceOff
  repeat' first
    | assumption | with_reducible apply eachCadence_sound | with_reducible apply setAlign_sound
    | with_reducible apply deliverCadence_sound | exact fun _ hk => hk | intro _ | with_reducible apply sound_ite

theorem runningOn_sound (x0 : Line) (x1 : CadSource) (x2 : Nat) {s : State} (h : Sound q s) : Sound q (runningOn x0 x1 x2 s)
    := by
  unfold runningOn
  repeat' first
    | assumption | with_reducible apply eachCadence_sound | with_reducible apply setAlign_sound | exact fun _ hk => hk | intro _

theorem runningOff_sound (x0 : Line) (x1 : CadSource) (x2 : Nat) {s : State} (h : Sound q s) : Sound q (runningOff x0 x1 x2 s)
    := by
  unfold runningOff
  repeat' first
    | assumption | with_reducible apply eachCadence_sound | with_reducible apply setAlign_sound | exact fun _ hk => hk | intro _

theorem makeCapture_sound (x0 : Line) (x1 : Nat) (x2 : Bool) (x3 : Option Byte) {s : State} (h : Sound q s) : Sound q
    (makeCapture x0 x1 x2 x3 s) := by
  unfold makeCapture
  repeat' first
    | assumption | with_reducible apply modDet_sound

theorem notePriority_sound (x0 : Line) (x1 : Nat) {s : State} (h : Sound q s) : Sound q (notePriority x0 x1 s) := by
  unfold notePriority
  repeat' first
    | assumption | with_reducible apply modDet_sound

theorem opMarkread_sound (x0 : Byte) {s : State} (h : Sound q s) : Sound q (opMarkread x0 s) := by
  unfold opMarkread
  repeat' first
    | assumption | with_reducible apply done_sound | with_reducible apply modDet_sound | with_reducible apply queueReport_sound
    | exact fun _ hk => hk | intro _ | with_reducible apply sound_ite | with_reducible refine sound_have ?_ ?_ | split
    | dsimp only

theorem reportTone_sound (x0 : Line) (x1 : Nat) (x2 : ToneEntry) (x3 : Option Byte) (x4 : Bool) (x5 : Nat) {s : State} (h :
    Sound q s) : Sound q (reportTone x0 x1 x2 x3 x4 x5 s) := by
  unfold reportTone
  repeat' first
    | assumption | with_reducible apply queueReport_sound

theorem actOn_sound (x0 : Line) (x1 : Nat) (x2 : ToneEntry) (x3 : Option Byte) {s : State} (h : Sound q s) : Sound q (actOn x0
    x1 x2 x3 s) := by
  unfold actOn
  repeat' first
    | assumption | with_reducible apply reportTone_sound | with_reducible apply notePriority_sound
    | with_reducible apply makeCapture_sound | with_reducible apply voiceControl_sound | exact fun _ hk => hk | intro _
    | with_reducible apply sound_ite | with_reducible refine sound_have ?_ ?_ | split

theorem declaredOn_sound (x0 : Line) (x1 : Nat) (x2 : ToneEntry) (x3 : Option Byte) (x4 : Nat) (x5 : Option Nat) {s : State}
    (h : Sound q s) : Sound q (declaredOn x0 x1 x2 x3 x4 x5 s) := by
  unfold declaredOn
  repeat' first
    | assumption | with_reducible apply actOn_sound | with_reducible apply cadenceOff_sound | with_reducible apply deliver_sound
    | exact fun _ hk => hk | intro _ | with_reducible apply sound_ite | with_reducible refine sound_have ?_ ?_ | split

theorem declaredOff_sound (x0 : Line) (x1 : Nat) (x2 : ToneEntry) (x3 : Option Byte) (x4 : Nat) (x5 : Nat) {s : State} (h :
    Sound q s) : Sound q (declaredOff x0 x1 x2 x3 x4 x5 s) := by
  unfold declaredOff
  repeat' first
    | assumption | with_reducible apply reportTone_sound | with_reducible apply cadenceOn_sound | exact fun _ hk => hk | intro _
    | with_reducible apply sound_ite

theorem declare_sound (x0 : Line) (x1 : Nat) (x2 : ToneEntry) (x4 : EdgeEvent) {s : State} (h : Sound q s) : Sound q (declare
    x0 x1 x2 s x4) := by
  unfold declare
  repeat' first
    | assumption | with_reducible apply declaredOn_sound | with_reducible apply declaredOff_sound | exact fun _ hk => hk
    | intro _ | with_reducible apply sound_ite | with_reducible refine sound_have ?_ ?_ | split

theorem setEdge_sound (x0 : Line) (x1 : Nat) (x2 : EdgeState) {s : State} (h : Sound q s) : Sound q (setEdge x0 x1 x2 s) := by
  unfold setEdge
  repeat' first
    | assumption | with_reducible apply modDet_sound

theorem endEdge_sound (x0 : Line) (x1 : Nat) (x2 : ToneEntry) {s : State} (h : Sound q s) : Sound q (endEdge x0 x1 x2 s) := by
  unfold endEdge
  repeat' first
    | assumption | with_reducible apply reportTone_sound | with_reducible apply clearSource_sound
    | with_reducible apply setEdge_sound | exact fun _ hk => hk | intro _ | with_reducible apply sound_ite

theorem judgeTone_sound (x0 : Line) (x1 : Nat) (x2 : Nat) {s : State} (h : Sound q s) : Sound q (judgeTone x0 x1 x2 s) := by
  unfold judgeTone
  repeat' first
    | assumption | with_reducible apply runningOn_sound | with_reducible apply runningOff_sound | exact fun _ hk => hk | intro _
    | with_reducible apply sound_ite | with_reducible refine sound_have ?_ ?_ | split | dsimp only

theorem entryBlock_sound (x0 : Line) (x1 : Nat) (x2 : Nat) (x3 : Nat) (x4 : ToneEntry) (x5 : Option (Option (Option Byte))) {s
    : State} (h : Sound q s) : Sound q (entryBlock x0 x1 x2 x3 x4 x5 s) := by
  unfold entryBlock
  repeat' first
    | assumption | with_reducible apply endEdge_sound | with_reducible apply judgeTone_sound
    | with_reducible apply declare_sound | with_reducible apply setEdge_sound | with_reducible apply sound_foldl
    | exact fun _ hk => hk | intro _ | with_reducible apply sound_ite | with_reducible refine sound_have ?_ ?_ | split

theorem detectBlock_sound (x0 : Line) (x1 : Nat) (x2 : Nat) (x3 : List Sample) {s : State} (h : Sound q s) : Sound q
    (detectBlock x0 x1 x2 x3 s) := by
  unfold detectBlock
  repeat' first
    | assumption | with_reducible apply entryBlock_sound | with_reducible apply sound_foldl | exact fun _ hk => hk | intro _
    | with_reducible apply sound_ite | with_reducible refine sound_have ?_ ?_ | split

theorem judgeRing_sound (x0 : Line) {s : State} (h : Sound q s) : Sound q (judgeRing x0 s) := by
  unfold judgeRing
  repeat' first
    | assumption | with_reducible apply runningOn_sound | with_reducible apply runningOff_sound | exact fun _ hk => hk | intro _
    | with_reducible apply sound_ite | with_reducible refine sound_have ?_ ?_ | split | dsimp only

theorem ringOffNow_sound (x0 : Line) (x1 : Nat) {s : State} (h : Sound q s) : Sound q (ringOffNow x0 x1 s) := by
  unfold ringOffNow
  repeat' first
    | assumption | with_reducible apply modIface_sound | with_reducible apply callRingOff_sound
    | with_reducible apply cadenceOn_sound

theorem opRingPulse_sound (x0 : Line) {s : State} (h : Sound q s) : Sound q (opRingPulse x0 s) := by
  unfold opRingPulse
  repeat' first
    | assumption | with_reducible apply closeWindow_sound | with_reducible apply judgeRing_sound
    | with_reducible apply modIface_sound | exact fun _ hk => hk | intro _ | with_reducible apply sound_ite

theorem opRingOn_sound (x0 : Line) {s : State} (h : Sound q s) : Sound q (opRingOn x0 s) := by
  unfold opRingOn
  repeat' first
    | assumption | with_reducible apply modIface_sound | with_reducible apply elapse_sound
    | with_reducible apply cadenceOff_sound | with_reducible apply callRingOn_sound | with_reducible apply judgeRing_sound
    | exact fun _ hk => hk | intro _ | with_reducible apply sound_ite | with_reducible refine sound_have ?_ ?_ | split

theorem opRingEndTimerExpiry_sound (x0 : Line) {s : State} (h : Sound q s) : Sound q (opRingEndTimerExpiry x0 s) := by
  unfold opRingEndTimerExpiry
  repeat' first
    | assumption | with_reducible apply judgeRing_sound | with_reducible apply modIface_sound
    | with_reducible apply elapse_sound | with_reducible apply ringOffNow_sound | exact fun _ hk => hk | intro _
    | with_reducible apply sound_ite | with_reducible refine sound_have ?_ ?_ | split

theorem slipBlock_sound (x0 : Line) {s : State} (h : Sound q s) : Sound q (slipBlock x0 s) := by
  unfold slipBlock
  repeat' first
    | assumption | with_reducible apply clearSlip_sound | with_reducible apply setCondition_sound

theorem opBlockEnd_sound (x0 : Line) (x1 : List Sample) {s : State} (h : Sound q s) : Sound q (opBlockEnd x0 x1 s) := by
  unfold opBlockEnd
  repeat' first
    | assumption | with_reducible apply modIface_sound | with_reducible apply elapse_sound
    | with_reducible apply judgeRing_sound | with_reducible apply detectBlock_sound | with_reducible apply voiceBlock_sound
    | with_reducible apply watchBlock_sound | with_reducible apply gainLimitBlock_sound | with_reducible apply gainBlock_sound
    | with_reducible apply latchGain_sound | with_reducible apply slipBlock_sound | with_reducible apply clipBlock_sound
    | with_reducible apply levelLowBlock_sound

theorem endEdges_sound (x0 : Nat) (x1 : Option ToneEntry) {s : State} (h : Sound q s) : Sound q (endEdges x0 x1 s) := by
  unfold endEdges
  repeat' first
    | assumption | with_reducible apply endEdge_sound | exact fun _ hk => hk | intro _ | with_reducible apply sound_ite
    | with_reducible refine sound_have ?_ ?_ | split

theorem opToneWrite_sound (index : Byte) (fields : ToneParams) {s : State} (h : Sound q s) : Sound q (opToneWrite index fields
    s) := by
  unfold opToneWrite
  dsimp only
  split
  · exact done_sound _ _ _ h
  · iterate 3 (split; exact done_sound _ _ _ h)
    exact tones_sound _ (by simpa using h.tones) (endEdges_sound _ _ (done_sound _ _ _ h))

theorem opToneDelete_sound (index : Byte) {s : State} (h : Sound q s) : Sound q (opToneDelete index s) := by
  unfold opToneDelete
  dsimp only
  split
  · exact done_sound _ _ _ h
  · split
    · exact done_sound _ _ _ h
    · split
      · exact done_sound _ _ _ h
      · exact tones_sound _ (by simpa using h.tones) (endEdges_sound _ _ (done_sound _ _ _ h))

theorem clearAligns_sound (x0 : Nat) {s : State} (h : Sound q s) : Sound q (clearAligns x0 s) := by
  unfold clearAligns
  repeat' first
    | assumption | with_reducible apply clearAlign_sound

theorem opCadenceWrite_sound (x0 : Byte) (x1 : CadenceParams) {s : State} (h : Sound q s) : Sound q (opCadenceWrite x0 x1 s)
    := by
  unfold opCadenceWrite
  repeat' first
    | assumption | exact cadences_sound _ (by simpa using h.cadences) (done_sound _ _ _ h) | with_reducible apply done_sound
    | with_reducible apply clearAligns_sound | exact fun _ hk => hk | intro _ | with_reducible apply sound_ite
    | with_reducible refine sound_have ?_ ?_ | split

theorem opCadenceDelete_sound (x0 : Byte) {s : State} (h : Sound q s) : Sound q (opCadenceDelete x0 s) := by
  unfold opCadenceDelete
  repeat' first
    | assumption | exact cadences_sound _ (by simpa using h.cadences) (done_sound _ _ _ h) | with_reducible apply done_sound
    | with_reducible apply clearAligns_sound | exact fun _ hk => hk | intro _ | with_reducible apply sound_ite
    | with_reducible refine sound_have ?_ ?_ | split

theorem opExtensionPickup_sound (x0 : Line) {s : State} (h : Sound q s) : Sound q (opExtensionPickup x0 s) := by
  unfold opExtensionPickup
  repeat' first
    | assumption | with_reducible apply callPickup_sound | with_reducible apply modIface_sound
    | with_reducible apply elapse_sound | exact fun _ hk => hk | intro _ | with_reducible apply sound_ite
    | with_reducible refine sound_have ?_ ?_ | split | dsimp only

theorem opExtensionHangup_sound (x0 : Line) {s : State} (h : Sound q s) : Sound q (opExtensionHangup x0 s) := by
  unfold opExtensionHangup
  repeat' first
    | assumption | with_reducible apply post_sound | with_reducible apply modIface_sound | with_reducible apply elapse_sound
    | exact fun _ hk => hk | intro _ | with_reducible apply sound_ite | with_reducible refine sound_have ?_ ?_ | split
    | dsimp only

theorem withdrawRing_sound (x0 : Line) {s : State} (h : Sound q s) : Sound q (withdrawRing x0 s) := by
  unfold withdrawRing
  repeat' first
    | assumption | with_reducible apply ringOffNow_sound | with_reducible apply modIface_sound | exact fun _ hk => hk | intro _
    | with_reducible apply sound_ite | with_reducible refine sound_have ?_ ?_ | split

theorem withdrawLoop_sound (x0 : Line) {s : State} (h : Sound q s) : Sound q (withdrawLoop x0 s) := by
  unfold withdrawLoop
  repeat' first
    | assumption | with_reducible apply modIface_sound | with_reducible apply post_sound | exact fun _ hk => hk | intro _
    | with_reducible apply sound_ite | with_reducible refine sound_have ?_ ?_ | split

theorem withdrawExt_sound (x0 : Line) {s : State} (h : Sound q s) : Sound q (withdrawExt x0 s) := by
  unfold withdrawExt
  repeat' first
    | assumption | with_reducible apply modIface_sound | with_reducible apply post_sound | exact fun _ hk => hk | intro _
    | with_reducible apply sound_ite

theorem placeLoop_sound (x0 : Line) (x1 : Nat) {s : State} (h : Sound q s) : Sound q (placeLoop x0 x1 s) := by
  unfold placeLoop
  repeat' first
    | assumption | exact samples_sound _ h | with_reducible apply modIface_sound

theorem placeExt_sound (x0 : Line) (x1 : Nat) {s : State} (h : Sound q s) : Sound q (placeExt x0 x1 s) := by
  unfold placeExt
  repeat' first
    | assumption | exact samples_sound _ h | with_reducible apply modIface_sound

theorem moveInput_sound (old new : List PinCfg) (f : PinFn) {w : State → State} {p : Nat → State → State}
    (hw : ∀ s, Sound q s → Sound q (w s)) (hp : ∀ n s, Sound q s → Sound q (p n s)) {s : State} (h : Sound q s) :
    Sound q (moveInput old new f w p s) := by
  unfold moveInput
  split
  · exact hw _ h
  · exact sound_ite h (hp _ _ h)
  · exact h

theorem moveInputs_sound (x0 : Line) (x1 : List PinCfg) (x2 : List PinCfg) {s : State} (h : Sound q s) : Sound q (moveInputs
    x0 x1 x2 s) := by
  unfold moveInputs
  repeat' first
    | assumption | with_reducible apply moveInput_sound | with_reducible apply withdrawRing_sound
    | with_reducible apply withdrawLoop_sound | with_reducible apply placeLoop_sound | with_reducible apply withdrawExt_sound
    | with_reducible apply placeExt_sound | exact fun _ hk => hk | intro _

theorem opPins_sound (raw : List (Byte × Byte)) {s : State} (h : Sound q s) : Sound q (opPins raw s) := by
  unfold opPins
  dsimp only
  split
  · exact done_sound _ _ _ h
  · split
    · exact done_sound _ _ _ h
    · split
      · exact done_sound _ _ _ h
      · exact moveInputs_sound _ _ _ (moveInputs_sound _ _ _ (pins_sound _ (by simp_all) (done_sound _ _ _ h)))

theorem opQuery_sound (subject : Byte) (index : Word16) {s : State} (h : Sound q s) : Sound q (opQuery subject index s) := by
  unfold opQuery
  dsimp only
  split
  · exact done_sound _ _ _ (arbiterKick_sound h)
  · exact queueReports_sound _ (done_sound _ _ _ (samples_sound _ (arbiterKick_sound h)))

theorem opTarget_sound (x0 : Byte) {s : State} (h : Sound q s) : Sound q (opTarget x0 s) := by
  unfold opTarget
  repeat' first
    | assumption | with_reducible apply done_sound | with_reducible apply lholdAfresh_sound | with_reducible apply modLink_sound
    | exact fun _ hk => hk | intro _ | with_reducible apply sound_ite | with_reducible refine sound_have ?_ ?_ | split

theorem opLinkrate_sound (x0 : Byte) {s : State} (h : Sound q s) : Sound q (opLinkrate x0 s) := by
  unfold opLinkrate
  repeat' first
    | assumption | with_reducible apply done_sound | with_reducible apply modLink_sound | exact fun _ hk => hk | intro _
    | with_reducible apply sound_ite

theorem opClock_sound (x0 : Byte) (x1 : Byte) (x2 : Byte) (x3 : Byte) (x4 : Byte) {s : State} (h : Sound q s) : Sound q
    (opClock x0 x1 x2 x3 x4 s) := by
  unfold opClock
  repeat' first
    | assumption | with_reducible apply done_sound | with_reducible apply modLink_sound | exact fun _ hk => hk | intro _
    | with_reducible apply sound_ite

theorem opMinuteTick_sound {s : State} (h : Sound q s) : Sound q (opMinuteTick s) := by
  unfold opMinuteTick
  repeat' first
    | assumption | with_reducible apply modLink_sound | with_reducible apply elapse_sound | exact fun _ hk => hk | intro _
    | with_reducible apply sound_ite | with_reducible refine sound_have ?_ ?_ | split

theorem opSecondsTick_sound {s : State} (h : Sound q s) : Sound q (opSecondsTick s) := by
  unfold opSecondsTick
  repeat' first
    | assumption | with_reducible apply elapse_sound | with_reducible apply askDispatch_sound
    | with_reducible apply modLink_sound | exact fun _ hk => hk

theorem opReportSent_sound {s : State} (h : Sound q s) : Sound q (opReportSent s) := by
  unfold opReportSent
  repeat' first
    | assumption | exact fun _ hk => by rw [reportGone_reports]; exact hk | with_reducible apply arbiterKick_sound
    | with_reducible apply modLink_sound | exact fun _ hk => hk | intro _ | with_reducible apply sound_ite
    | with_reducible refine sound_have ?_ ?_ | split | dsimp only

theorem sourceByteSent_sound (x0 : Source) {s : State} (h : Sound q s) : Sound q (sourceByteSent x0 s) := by
  unfold sourceByteSent
  repeat' first
    | assumption | with_reducible apply lineByteSent_sound | with_reducible apply hostReadSent_sound | exact fun _ hk => hk
    | intro _ | with_reducible apply sound_ite | with_reducible refine sound_have ?_ ?_ | split

theorem opPayloadByteSent_sound {s : State} (h : Sound q s) : Sound q (opPayloadByteSent s) := by
  unfold opPayloadByteSent
  repeat' first
    | assumption | with_reducible apply arbiterKick_sound | with_reducible apply sourceByteSent_sound
    | with_reducible apply modLink_sound | exact fun _ hk => hk | intro _ | with_reducible apply sound_ite
    | with_reducible refine sound_have ?_ ?_ | split | dsimp only

theorem opHholdChange_sound (x0 : Bool) {s : State} (h : Sound q s) : Sound q (opHholdChange x0 s) := by
  unfold opHholdChange
  repeat' first
    | assumption | with_reducible apply arbiterKick_sound | with_reducible apply modLink_sound | exact fun _ hk => hk | intro _
    | with_reducible apply sound_ite

theorem restart_sound (d : Bool) (straps : BitVec 3) {s : State} (h : Sound q s) : Sound q (restart d straps s) :=
  ⟨h.1, by show 1 ≤ 32; omega, ⟨h.3.1, Nat.zero_le _, List.nodup_nil, by intro id hid; cases hid⟩, rfl, rfl, rfl, rfl, rfl,
    Nat.zero_le _, ⟨by show 1 ≤ defaultLadder.length; decide, by show defaultLadder.length ≤ 8; decide⟩, rfl,
    ⟨Nat.zero_le _, Nat.zero_le _, Nat.zero_le _, Nat.le_refl _⟩, ⟨Nat.zero_le _, Nat.zero_le _, Nat.zero_le _, Nat.le_refl _⟩⟩

theorem opPowerOn_sound (x0 : BitVec 3) {s : State} (h : Sound q s) : Sound q (opPowerOn x0 s) := by
  unfold opPowerOn
  repeat' first
    | assumption | with_reducible apply restart_sound

theorem opResetPart_sound {s : State} (h : Sound q s) : Sound q (opResetPart s) := by
  unfold opResetPart
  repeat' first
    | assumption | with_reducible apply restart_sound

theorem detectorReset_sound (x0 : Line) {s : State} (h : Sound q s) : Sound q (detectorReset x0 s) := by
  unfold detectorReset
  repeat' first
    | assumption | with_reducible apply modDet_sound

theorem dropClosing_sound (x0 : Line) {s : State} (h : Sound q s) : Sound q (dropClosing x0 s) :=
  sound_foldl (fun _ _ ht => sound_ite (storeKick_sound (shortenClose_sound _ ht)) ht) _ h

theorem opResetLine_sound (x0 : Line) {s : State} (h : Sound q s) : Sound q (opResetLine x0 s) := by
  unfold opResetLine
  repeat' first
    | assumption | with_reducible apply dropClosing_sound | with_reducible apply ifaceReset_sound | with_reducible apply clearMonitors_sound
    | with_reducible apply done_sound | with_reducible apply detectorReset_sound
    | with_reducible apply resetMonitorReports_sound | with_reducible apply enterCleardown_sound
    | with_reducible apply modFax_sound | with_reducible apply emptyLink_sound | with_reducible apply clearModem_sound
    | exact fun _ hk => hk | intro _ | with_reducible apply sound_ite

theorem tablesMonitors_sound (x0 : Line) (x1 : State) {s : State} (h : Sound q s) : Sound q (tablesMonitors x0 x1 s) := by
  unfold tablesMonitors
  repeat' first
    | assumption | with_reducible apply monitorChange_sound | with_reducible apply sound_foldl | exact fun _ hk => hk | intro _

theorem detectorTables_sound (x0 : Line) {s : State} (h : Sound q s) : Sound q (detectorTables x0 s) := by
  unfold detectorTables
  repeat' first
    | assumption | with_reducible apply modDet_sound

theorem mailboxTables_sound {s : State} (h : Sound q s) : Sound q (mailboxTables s) := by
  unfold mailboxTables
  exact sound_foldl (fun t x ht => storeKick_sound (returnRef_sound x ht)) _ (mailboxes_sound _ (by simpa using h.mailboxes) h)

theorem opResetTables_sound {s : State} (h : Sound q s) : Sound q (opResetTables s) := by
  unfold opResetTables
  split
  · exact done_sound _ _ _ h
  · have h' : Sound q (tablesMonitors .B s (tablesMonitors .A s
        (modProfile .B (fun _ => defaultProfile) (modProfile .A (fun _ => defaultProfile) (done 0x5A#8 .ok [] s))))) :=
      tablesMonitors_sound _ _ (tablesMonitors_sound _ _ (modProfile_sound _ _ (modProfile_sound _ _ (done_sound _ _ _ h))))
    refine mailboxTables_sound (clearModem_sound _ (clearModem_sound _ (detectorTables_sound _ (detectorTables_sound _ ?_))))
    exact ⟨h'.1, h'.2, h'.3, h'.4, rfl, rfl, rfl, h'.8, h'.9, ⟨by show 1 ≤ defaultLadder.length; decide, by show defaultLadder.length ≤ 8; decide⟩, h'.11, h'.12, h'.13⟩

theorem directiveOp_sound (i : Instr) {s : State} (h : Sound q s) : Sound q (directiveOp i s) := by
  cases i
  all_goals first
    | exact h
    | exact opTarget_sound _ h
    | exact opLinkrate_sound _ h
    | exact opQuery_sound _ _ h
    | exact opResetLine_sound _ h
    | exact opResetTables_sound h
    | exact opResetPart_sound h
    | exact opClock_sound _ _ _ _ _ h
    | exact opPins_sound _ h
    | exact opProfile_sound _ _ h
    | exact opMonclear_sound _ _ h
    | exact opToneWrite_sound _ _ h
    | exact opToneDelete_sound _ h
    | exact opCadenceWrite_sound _ _ h
    | exact opCadenceDelete_sound _ h
    | exact opMarkread_sound _ h
    | exact opScreenWrite_sound _ _ h
    | exact opScreenDelete_sound _ h
    | exact opDial_sound _ _ _ _ h
    | exact opAnswer_sound _ _ _ h
    | exact opRelease_sound _ _ h
    | exact opJobadd_sound _ _ _ _ _ _ h
    | exact opJobclear_sound _ h
    | exact opAttemptclear_sound h
    | exact opLadder_sound _ h
    | exact opFormat_sound _ h
    | exact opStoreset_sound _ _ _ _ h
    | exact opOpen_sound _ _ h
    | exact opClose_sound h
    | exact opRead_sound _ _ h
    | exact opNewsack_sound _ h
    | exact opErase_sound _ h
    | exact opMailbox_sound _ _ _ _ _ _ h
    | exact opMailclear_sound _ h
    | exact opPlay_sound _ _ _ h
    | exact opRecord_sound _ _ _ _ _ h
    | exact opStop_sound _ h

theorem takeDirective_sound (x0 : Byte) (x1 : List Byte) {s : State} (h : Sound q s) : Sound q (takeDirective x0 x1 s) := by
  unfold takeDirective
  repeat' first
    | assumption | with_reducible apply done_sound | with_reducible apply directiveOp_sound | exact fun _ hk => hk | intro _
    | with_reducible apply sound_ite | with_reducible refine sound_have ?_ ?_ | split

theorem discardByte_sound (x0 : Target) {s : State} (h : Sound q s) : Sound q (discardByte x0 s) := by
  unfold discardByte
  repeat' first
    | assumption | with_reducible apply queueReport_sound | with_reducible apply modLink_sound | exact fun _ hk => hk | intro _
    | with_reducible apply sound_ite

theorem deliverPayload_sound (b : Byte) {s : State} (h : Sound q s) : Sound q (deliverPayload b s) := by
  unfold deliverPayload
  repeat' first
    | exact acceptLineByte_sound _ _ (by assumption) h | exact discardByte_sound _ h | exact acceptHostByte_sound _ h | split

theorem setParser_sound (x0 : Parser) {s : State} (h : Sound q s) : Sound q (setParser x0 s) := by
  unfold setParser
  repeat' first
    | assumption | with_reducible apply modLink_sound | exact fun _ hk => hk

theorem parserFault_sound (x0 : FaultKind) (x1 : Byte) {s : State} (h : Sound q s) : Sound q (parserFault x0 x1 s) := by
  unfold parserFault
  repeat' first
    | assumption | with_reducible apply queueReport_sound

theorem endParams_sound (x0 : Byte) (x1 : Byte) (x2 : List Byte) {s : State} (h : Sound q s) : Sound q (endParams x0 x1 x2 s)
    := by
  unfold endParams
  repeat' first
    | assumption | with_reducible apply parserFault_sound | with_reducible apply takeDirective_sound | exact fun _ hk => hk
    | intro _ | with_reducible apply sound_ite

theorem opDownstreamByte_sound (x0 : Byte) {s : State} (h : Sound q s) : Sound q (opDownstreamByte x0 s) := by
  unfold opDownstreamByte
  repeat' first
    | assumption | with_reducible apply setParser_sound | with_reducible apply deliverPayload_sound
    | with_reducible apply parserFault_sound | with_reducible apply takeDirective_sound | with_reducible apply endParams_sound
    | exact fun _ hk => hk | intro _ | with_reducible apply sound_ite | with_reducible refine sound_have ?_ ?_ | split

theorem opStallTimerExpiry_sound {s : State} (h : Sound q s) : Sound q (opStallTimerExpiry s) := by
  unfold opStallTimerExpiry
  repeat' first
    | assumption | with_reducible apply parserFault_sound | with_reducible apply setParser_sound
    | with_reducible apply elapse_sound | exact fun _ hk => hk | intro _ | with_reducible apply sound_ite
    | with_reducible refine sound_have ?_ ?_ | split

end Sys2Proof.Machine
end

