-- ==== Sys2Proof/Laws/State.lean ====
section
/-! SUPPORT. What each basic update of the state leaves and sets: one lemma for each field and update, so that no later proof
unfolds a record update. -/

namespace Sys2Proof.Machine

variable (s : State) (l m : Line)

/-! ### Lines -/

theorem line_A : s.line .A = s.lineA := rfl
theorem line_B : s.line .B = s.lineB := rfl
@[simp] theorem line_setLine (x : LineState) : (s.setLine l x).line l = x := by cases l <;> rfl
@[simp] theorem line_setLine_other (x : LineState) (h : m ≠ l) : (s.setLine l x).line m = s.line m := by
  cases l <;> cases m <;> first | rfl | exact absurd rfl h
@[simp] theorem setLine_line : s.setLine l (s.line l) = s := by cases l <;> rfl
@[simp] theorem setLine_setLine (x y : LineState) : (s.setLine l x).setLine l y = s.setLine l y := by cases l <;> rfl

@[simp] theorem setLine_link (x : LineState) : (s.setLine l x).link = s.link := by cases l <;> rfl
@[simp] theorem setLine_pins (x : LineState) : (s.setLine l x).pins = s.pins := by cases l <;> rfl
@[simp] theorem setLine_tones (x : LineState) : (s.setLine l x).tones = s.tones := by cases l <;> rfl
@[simp] theorem setLine_cadences (x : LineState) : (s.setLine l x).cadences = s.cadences := by cases l <;> rfl
@[simp] theorem setLine_screen (x : LineState) : (s.setLine l x).screen = s.screen := by cases l <;> rfl
@[simp] theorem setLine_attempts (x : LineState) : (s.setLine l x).attempts = s.attempts := by cases l <;> rfl
@[simp] theorem setLine_jobs (x : LineState) : (s.setLine l x).jobs = s.jobs := by cases l <;> rfl
@[simp] theorem setLine_lastJob (x : LineState) : (s.setLine l x).lastJob = s.lastJob := by cases l <;> rfl
@[simp] theorem setLine_ladder (x : LineState) : (s.setLine l x).ladder = s.ladder := by cases l <;> rfl
@[simp] theorem setLine_mailboxes (x : LineState) : (s.setLine l x).mailboxes = s.mailboxes := by cases l <;> rfl
@[simp] theorem setLine_store (x : LineState) : (s.setLine l x).store = s.store := by cases l <;> rfl
@[simp] theorem setLine_now (x : LineState) : (s.setLine l x).now = s.now := by cases l <;> rfl
@[simp] theorem setLine_samples (x : LineState) : (s.setLine l x).samples = s.samples := by cases l <;> rfl
@[simp] theorem setLine_requests (x : LineState) : (s.setLine l x).requests = s.requests := by cases l <;> rfl
@[simp] theorem setLine_pending (x : LineState) : (s.setLine l x).pending = s.pending := by cases l <;> rfl

/-! ### modLink -/

@[simp] theorem modLink_link (f : Link → Link) : (modLink f s).link = f s.link := rfl
@[simp] theorem modLink_pins (f : Link → Link) : (modLink f s).pins = s.pins := rfl
@[simp] theorem modLink_tones (f : Link → Link) : (modLink f s).tones = s.tones := rfl
@[simp] theorem modLink_cadences (f : Link → Link) : (modLink f s).cadences = s.cadences := rfl
@[simp] theorem modLink_screen (f : Link → Link) : (modLink f s).screen = s.screen := rfl
@[simp] theorem modLink_attempts (f : Link → Link) : (modLink f s).attempts = s.attempts := rfl
@[simp] theorem modLink_jobs (f : Link → Link) : (modLink f s).jobs = s.jobs := rfl
@[simp] theorem modLink_lastJob (f : Link → Link) : (modLink f s).lastJob = s.lastJob := rfl
@[simp] theorem modLink_ladder (f : Link → Link) : (modLink f s).ladder = s.ladder := rfl
@[simp] theorem modLink_mailboxes (f : Link → Link) : (modLink f s).mailboxes = s.mailboxes := rfl
@[simp] theorem modLink_store (f : Link → Link) : (modLink f s).store = s.store := rfl
@[simp] theorem modLink_now (f : Link → Link) : (modLink f s).now = s.now := rfl
@[simp] theorem modLink_samples (f : Link → Link) : (modLink f s).samples = s.samples := rfl
@[simp] theorem modLink_requests (f : Link → Link) : (modLink f s).requests = s.requests := rfl
@[simp] theorem modLink_pending (f : Link → Link) : (modLink f s).pending = s.pending := rfl
@[simp] theorem modLink_line (f : Link → Link) : (modLink f s).line l = s.line l := by cases l <;> rfl
@[simp] theorem modLink_st (f : Link → Link) : (modLink f s).st l = s.st l := by cases l <;> rfl

/-! ### modStore -/

@[simp] theorem modStore_link (f : Store → Store) : (modStore f s).link = s.link := rfl
@[simp] theorem modStore_pins (f : Store → Store) : (modStore f s).pins = s.pins := rfl
@[simp] theorem modStore_tones (f : Store → Store) : (modStore f s).tones = s.tones := rfl
@[simp] theorem modStore_cadences (f : Store → Store) : (modStore f s).cadences = s.cadences := rfl
@[simp] theorem modStore_screen (f : Store → Store) : (modStore f s).screen = s.screen := rfl
@[simp] theorem modStore_attempts (f : Store → Store) : (modStore f s).attempts = s.attempts := rfl
@[simp] theorem modStore_jobs (f : Store → Store) : (modStore f s).jobs = s.jobs := rfl
@[simp] theorem modStore_lastJob (f : Store → Store) : (modStore f s).lastJob = s.lastJob := rfl
@[simp] theorem modStore_ladder (f : Store → Store) : (modStore f s).ladder = s.ladder := rfl
@[simp] theorem modStore_mailboxes (f : Store → Store) : (modStore f s).mailboxes = s.mailboxes := rfl
@[simp] theorem modStore_store (f : Store → Store) : (modStore f s).store = f s.store := rfl
@[simp] theorem modStore_now (f : Store → Store) : (modStore f s).now = s.now := rfl
@[simp] theorem modStore_samples (f : Store → Store) : (modStore f s).samples = s.samples := rfl
@[simp] theorem modStore_requests (f : Store → Store) : (modStore f s).requests = s.requests := rfl
@[simp] theorem modStore_pending (f : Store → Store) : (modStore f s).pending = s.pending := rfl
@[simp] theorem modStore_line (f : Store → Store) : (modStore f s).line l = s.line l := by cases l <;> rfl
@[simp] theorem modStore_st (f : Store → Store) : (modStore f s).st l = s.st l := by cases l <;> rfl

/-! ### modProfile -/

@[simp] theorem modProfile_link (f : Profile → Profile) : (modProfile l f s).link = s.link := by cases l <;> rfl
@[simp] theorem modProfile_pins (f : Profile → Profile) : (modProfile l f s).pins = s.pins := by cases l <;> rfl
@[simp] theorem modProfile_tones (f : Profile → Profile) : (modProfile l f s).tones = s.tones := by cases l <;> rfl
@[simp] theorem modProfile_cadences (f : Profile → Profile) : (modProfile l f s).cadences = s.cadences := by cases l <;> rfl
@[simp] theorem modProfile_screen (f : Profile → Profile) : (modProfile l f s).screen = s.screen := by cases l <;> rfl
@[simp] theorem modProfile_attempts (f : Profile → Profile) : (modProfile l f s).attempts = s.attempts := by cases l <;> rfl
@[simp] theorem modProfile_jobs (f : Profile → Profile) : (modProfile l f s).jobs = s.jobs := by cases l <;> rfl
@[simp] theorem modProfile_lastJob (f : Profile → Profile) : (modProfile l f s).lastJob = s.lastJob := by cases l <;> rfl
@[simp] theorem modProfile_ladder (f : Profile → Profile) : (modProfile l f s).ladder = s.ladder := by cases l <;> rfl
@[simp] theorem modProfile_mailboxes (f : Profile → Profile) : (modProfile l f s).mailboxes = s.mailboxes := by cases l <;> rfl
@[simp] theorem modProfile_store (f : Profile → Profile) : (modProfile l f s).store = s.store := by cases l <;> rfl
@[simp] theorem modProfile_now (f : Profile → Profile) : (modProfile l f s).now = s.now := by cases l <;> rfl
@[simp] theorem modProfile_samples (f : Profile → Profile) : (modProfile l f s).samples = s.samples := by cases l <;> rfl
@[simp] theorem modProfile_requests (f : Profile → Profile) : (modProfile l f s).requests = s.requests := by cases l <;> rfl
@[simp] theorem modProfile_pending (f : Profile → Profile) : (modProfile l f s).pending = s.pending := by cases l <;> rfl
@[simp] theorem modProfile_line (f : Profile → Profile) :
    (modProfile l f s).line l = { s.line l with profile := f (s.line l).profile } := by cases l <;> rfl
@[simp] theorem modProfile_line_other (f : Profile → Profile) (h : m ≠ l) : (modProfile l f s).line m = s.line m := by
  simp [modProfile, h]
@[simp] theorem modProfile_st (f : Profile → Profile) : (modProfile l f s).st m = s.st m := by cases l <;> cases m <;> rfl

/-! ### modIface -/

@[simp] theorem modIface_link (f : Iface → Iface) : (modIface l f s).link = s.link := by cases l <;> rfl
@[simp] theorem modIface_pins (f : Iface → Iface) : (modIface l f s).pins = s.pins := by cases l <;> rfl
@[simp] theorem modIface_tones (f : Iface → Iface) : (modIface l f s).tones = s.tones := by cases l <;> rfl
@[simp] theorem modIface_cadences (f : Iface → Iface) : (modIface l f s).cadences = s.cadences := by cases l <;> rfl
@[simp] theorem modIface_screen (f : Iface → Iface) : (modIface l f s).screen = s.screen := by cases l <;> rfl
@[simp] theorem modIface_attempts (f : Iface → Iface) : (modIface l f s).attempts = s.attempts := by cases l <;> rfl
@[simp] theorem modIface_jobs (f : Iface → Iface) : (modIface l f s).jobs = s.jobs := by cases l <;> rfl
@[simp] theorem modIface_lastJob (f : Iface → Iface) : (modIface l f s).lastJob = s.lastJob := by cases l <;> rfl
@[simp] theorem modIface_ladder (f : Iface → Iface) : (modIface l f s).ladder = s.ladder := by cases l <;> rfl
@[simp] theorem modIface_mailboxes (f : Iface → Iface) : (modIface l f s).mailboxes = s.mailboxes := by cases l <;> rfl
@[simp] theorem modIface_store (f : Iface → Iface) : (modIface l f s).store = s.store := by cases l <;> rfl
@[simp] theorem modIface_now (f : Iface → Iface) : (modIface l f s).now = s.now := by cases l <;> rfl
@[simp] theorem modIface_samples (f : Iface → Iface) : (modIface l f s).samples = s.samples := by cases l <;> rfl
@[simp] theorem modIface_requests (f : Iface → Iface) : (modIface l f s).requests = s.requests := by cases l <;> rfl
@[simp] theorem modIface_pending (f : Iface → Iface) : (modIface l f s).pending = s.pending := by cases l <;> rfl
@[simp] theorem modIface_line (f : Iface → Iface) :
    (modIface l f s).line l = { s.line l with iface := f (s.line l).iface } := by cases l <;> rfl
@[simp] theorem modIface_line_other (f : Iface → Iface) (h : m ≠ l) : (modIface l f s).line m = s.line m := by
  simp [modIface, h]
@[simp] theorem modIface_st (f : Iface → Iface) : (modIface l f s).st m = s.st m := by cases l <;> cases m <;> rfl

/-! ### modDet -/

@[simp] theorem modDet_link (f : Detector → Detector) : (modDet l f s).link = s.link := by cases l <;> rfl
@[simp] theorem modDet_pins (f : Detector → Detector) : (modDet l f s).pins = s.pins := by cases l <;> rfl
@[simp] theorem modDet_tones (f : Detector → Detector) : (modDet l f s).tones = s.tones := by cases l <;> rfl
@[simp] theorem modDet_cadences (f : Detector → Detector) : (modDet l f s).cadences = s.cadences := by cases l <;> rfl
@[simp] theorem modDet_screen (f : Detector → Detector) : (modDet l f s).screen = s.screen := by cases l <;> rfl
@[simp] theorem modDet_attempts (f : Detector → Detector) : (modDet l f s).attempts = s.attempts := by cases l <;> rfl
@[simp] theorem modDet_jobs (f : Detector → Detector) : (modDet l f s).jobs = s.jobs := by cases l <;> rfl
@[simp] theorem modDet_lastJob (f : Detector → Detector) : (modDet l f s).lastJob = s.lastJob := by cases l <;> rfl
@[simp] theorem modDet_ladder (f : Detector → Detector) : (modDet l f s).ladder = s.ladder := by cases l <;> rfl
@[simp] theorem modDet_mailboxes (f : Detector → Detector) : (modDet l f s).mailboxes = s.mailboxes := by cases l <;> rfl
@[simp] theorem modDet_store (f : Detector → Detector) : (modDet l f s).store = s.store := by cases l <;> rfl
@[simp] theorem modDet_now (f : Detector → Detector) : (modDet l f s).now = s.now := by cases l <;> rfl
@[simp] theorem modDet_samples (f : Detector → Detector) : (modDet l f s).samples = s.samples := by cases l <;> rfl
@[simp] theorem modDet_requests (f : Detector → Detector) : (modDet l f s).requests = s.requests := by cases l <;> rfl
@[simp] theorem modDet_pending (f : Detector → Detector) : (modDet l f s).pending = s.pending := by cases l <;> rfl
@[simp] theorem modDet_line (f : Detector → Detector) :
    (modDet l f s).line l = { s.line l with det := f (s.line l).det } := by cases l <;> rfl
@[simp] theorem modDet_line_other (f : Detector → Detector) (h : m ≠ l) : (modDet l f s).line m = s.line m := by
  simp [modDet, h]
@[simp] theorem modDet_st (f : Detector → Detector) : (modDet l f s).st m = s.st m := by cases l <;> cases m <;> rfl

/-! ### modCall -/

@[simp] theorem modCall_link (f : Call → Call) : (modCall l f s).link = s.link := by cases l <;> rfl
@[simp] theorem modCall_pins (f : Call → Call) : (modCall l f s).pins = s.pins := by cases l <;> rfl
@[simp] theorem modCall_tones (f : Call → Call) : (modCall l f s).tones = s.tones := by cases l <;> rfl
@[simp] theorem modCall_cadences (f : Call → Call) : (modCall l f s).cadences = s.cadences := by cases l <;> rfl
@[simp] theorem modCall_screen (f : Call → Call) : (modCall l f s).screen = s.screen := by cases l <;> rfl
@[simp] theorem modCall_attempts (f : Call → Call) : (modCall l f s).attempts = s.attempts := by cases l <;> rfl
@[simp] theorem modCall_jobs (f : Call → Call) : (modCall l f s).jobs = s.jobs := by cases l <;> rfl
@[simp] theorem modCall_lastJob (f : Call → Call) : (modCall l f s).lastJob = s.lastJob := by cases l <;> rfl
@[simp] theorem modCall_ladder (f : Call → Call) : (modCall l f s).ladder = s.ladder := by cases l <;> rfl
@[simp] theorem modCall_mailboxes (f : Call → Call) : (modCall l f s).mailboxes = s.mailboxes := by cases l <;> rfl
@[simp] theorem modCall_store (f : Call → Call) : (modCall l f s).store = s.store := by cases l <;> rfl
@[simp] theorem modCall_now (f : Call → Call) : (modCall l f s).now = s.now := by cases l <;> rfl
@[simp] theorem modCall_samples (f : Call → Call) : (modCall l f s).samples = s.samples := by cases l <;> rfl
@[simp] theorem modCall_requests (f : Call → Call) : (modCall l f s).requests = s.requests := by cases l <;> rfl
@[simp] theorem modCall_pending (f : Call → Call) : (modCall l f s).pending = s.pending := by cases l <;> rfl
@[simp] theorem modCall_line (f : Call → Call) :
    (modCall l f s).line l = { s.line l with call := f (s.line l).call } := by cases l <;> rfl
@[simp] theorem modCall_line_other (f : Call → Call) (h : m ≠ l) : (modCall l f s).line m = s.line m := by
  simp [modCall, h]

/-! ### modModem -/

@[simp] theorem modModem_link (f : Modem → Modem) : (modModem l f s).link = s.link := by cases l <;> rfl
@[simp] theorem modModem_pins (f : Modem → Modem) : (modModem l f s).pins = s.pins := by cases l <;> rfl
@[simp] theorem modModem_tones (f : Modem → Modem) : (modModem l f s).tones = s.tones := by cases l <;> rfl
@[simp] theorem modModem_cadences (f : Modem → Modem) : (modModem l f s).cadences = s.cadences := by cases l <;> rfl
@[simp] theorem modModem_screen (f : Modem → Modem) : (modModem l f s).screen = s.screen := by cases l <;> rfl
@[simp] theorem modModem_attempts (f : Modem → Modem) : (modModem l f s).attempts = s.attempts := by cases l <;> rfl
@[simp] theorem modModem_jobs (f : Modem → Modem) : (modModem l f s).jobs = s.jobs := by cases l <;> rfl
@[simp] theorem modModem_lastJob (f : Modem → Modem) : (modModem l f s).lastJob = s.lastJob := by cases l <;> rfl
@[simp] theorem modModem_ladder (f : Modem → Modem) : (modModem l f s).ladder = s.ladder := by cases l <;> rfl
@[simp] theorem modModem_mailboxes (f : Modem → Modem) : (modModem l f s).mailboxes = s.mailboxes := by cases l <;> rfl
@[simp] theorem modModem_store (f : Modem → Modem) : (modModem l f s).store = s.store := by cases l <;> rfl
@[simp] theorem modModem_now (f : Modem → Modem) : (modModem l f s).now = s.now := by cases l <;> rfl
@[simp] theorem modModem_samples (f : Modem → Modem) : (modModem l f s).samples = s.samples := by cases l <;> rfl
@[simp] theorem modModem_requests (f : Modem → Modem) : (modModem l f s).requests = s.requests := by cases l <;> rfl
@[simp] theorem modModem_pending (f : Modem → Modem) : (modModem l f s).pending = s.pending := by cases l <;> rfl
@[simp] theorem modModem_line (f : Modem → Modem) :
    (modModem l f s).line l = { s.line l with modem := f (s.line l).modem } := by cases l <;> rfl
@[simp] theorem modModem_line_other (f : Modem → Modem) (h : m ≠ l) : (modModem l f s).line m = s.line m := by
  simp [modModem, h]
@[simp] theorem modModem_st (f : Modem → Modem) : (modModem l f s).st m = s.st m := by cases l <;> cases m <;> rfl

/-! ### modDl -/

@[simp] theorem modDl_link (f : DataLink → DataLink) : (modDl l f s).link = s.link := by cases l <;> rfl
@[simp] theorem modDl_pins (f : DataLink → DataLink) : (modDl l f s).pins = s.pins := by cases l <;> rfl
@[simp] theorem modDl_tones (f : DataLink → DataLink) : (modDl l f s).tones = s.tones := by cases l <;> rfl
@[simp] theorem modDl_cadences (f : DataLink → DataLink) : (modDl l f s).cadences = s.cadences := by cases l <;> rfl
@[simp] theorem modDl_screen (f : DataLink → DataLink) : (modDl l f s).screen = s.screen := by cases l <;> rfl
@[simp] theorem modDl_attempts (f : DataLink → DataLink) : (modDl l f s).attempts = s.attempts := by cases l <;> rfl
@[simp] theorem modDl_jobs (f : DataLink → DataLink) : (modDl l f s).jobs = s.jobs := by cases l <;> rfl
@[simp] theorem modDl_lastJob (f : DataLink → DataLink) : (modDl l f s).lastJob = s.lastJob := by cases l <;> rfl
@[simp] theorem modDl_ladder (f : DataLink → DataLink) : (modDl l f s).ladder = s.ladder := by cases l <;> rfl
@[simp] theorem modDl_mailboxes (f : DataLink → DataLink) : (modDl l f s).mailboxes = s.mailboxes := by cases l <;> rfl
@[simp] theorem modDl_store (f : DataLink → DataLink) : (modDl l f s).store = s.store := by cases l <;> rfl
@[simp] theorem modDl_now (f : DataLink → DataLink) : (modDl l f s).now = s.now := by cases l <;> rfl
@[simp] theorem modDl_samples (f : DataLink → DataLink) : (modDl l f s).samples = s.samples := by cases l <;> rfl
@[simp] theorem modDl_requests (f : DataLink → DataLink) : (modDl l f s).requests = s.requests := by cases l <;> rfl
@[simp] theorem modDl_pending (f : DataLink → DataLink) : (modDl l f s).pending = s.pending := by cases l <;> rfl
@[simp] theorem modDl_line (f : DataLink → DataLink) :
    (modDl l f s).line l = { s.line l with dl := f (s.line l).dl } := by cases l <;> rfl
@[simp] theorem modDl_line_other (f : DataLink → DataLink) (h : m ≠ l) : (modDl l f s).line m = s.line m := by
  simp [modDl, h]
@[simp] theorem modDl_st (f : DataLink → DataLink) : (modDl l f s).st m = s.st m := by cases l <;> cases m <;> rfl

/-! ### modFax -/

@[simp] theorem modFax_link (f : Fax → Fax) : (modFax l f s).link = s.link := by cases l <;> rfl
@[simp] theorem modFax_pins (f : Fax → Fax) : (modFax l f s).pins = s.pins := by cases l <;> rfl
@[simp] theorem modFax_tones (f : Fax → Fax) : (modFax l f s).tones = s.tones := by cases l <;> rfl
@[simp] theorem modFax_cadences (f : Fax → Fax) : (modFax l f s).cadences = s.cadences := by cases l <;> rfl
@[simp] theorem modFax_screen (f : Fax → Fax) : (modFax l f s).screen = s.screen := by cases l <;> rfl
@[simp] theorem modFax_attempts (f : Fax → Fax) : (modFax l f s).attempts = s.attempts := by cases l <;> rfl
@[simp] theorem modFax_jobs (f : Fax → Fax) : (modFax l f s).jobs = s.jobs := by cases l <;> rfl
@[simp] theorem modFax_lastJob (f : Fax → Fax) : (modFax l f s).lastJob = s.lastJob := by cases l <;> rfl
@[simp] theorem modFax_ladder (f : Fax → Fax) : (modFax l f s).ladder = s.ladder := by cases l <;> rfl
@[simp] theorem modFax_mailboxes (f : Fax → Fax) : (modFax l f s).mailboxes = s.mailboxes := by cases l <;> rfl
@[simp] theorem modFax_store (f : Fax → Fax) : (modFax l f s).store = s.store := by cases l <;> rfl
@[simp] theorem modFax_now (f : Fax → Fax) : (modFax l f s).now = s.now := by cases l <;> rfl
@[simp] theorem modFax_samples (f : Fax → Fax) : (modFax l f s).samples = s.samples := by cases l <;> rfl
@[simp] theorem modFax_requests (f : Fax → Fax) : (modFax l f s).requests = s.requests := by cases l <;> rfl
@[simp] theorem modFax_pending (f : Fax → Fax) : (modFax l f s).pending = s.pending := by cases l <;> rfl
@[simp] theorem modFax_line (f : Fax → Fax) :
    (modFax l f s).line l = { s.line l with fax := f (s.line l).fax } := by cases l <;> rfl
@[simp] theorem modFax_line_other (f : Fax → Fax) (h : m ≠ l) : (modFax l f s).line m = s.line m := by
  simp [modFax, h]
@[simp] theorem modFax_st (f : Fax → Fax) : (modFax l f s).st m = s.st m := by cases l <;> cases m <;> rfl

/-! ### modVoice -/

@[simp] theorem modVoice_link (f : Voice → Voice) : (modVoice l f s).link = s.link := by cases l <;> rfl
@[simp] theorem modVoice_pins (f : Voice → Voice) : (modVoice l f s).pins = s.pins := by cases l <;> rfl
@[simp] theorem modVoice_tones (f : Voice → Voice) : (modVoice l f s).tones = s.tones := by cases l <;> rfl
@[simp] theorem modVoice_cadences (f : Voice → Voice) : (modVoice l f s).cadences = s.cadences := by cases l <;> rfl
@[simp] theorem modVoice_screen (f : Voice → Voice) : (modVoice l f s).screen = s.screen := by cases l <;> rfl
@[simp] theorem modVoice_attempts (f : Voice → Voice) : (modVoice l f s).attempts = s.attempts := by cases l <;> rfl
@[simp] theorem modVoice_jobs (f : Voice → Voice) : (modVoice l f s).jobs = s.jobs := by cases l <;> rfl
@[simp] theorem modVoice_lastJob (f : Voice → Voice) : (modVoice l f s).lastJob = s.lastJob := by cases l <;> rfl
@[simp] theorem modVoice_ladder (f : Voice → Voice) : (modVoice l f s).ladder = s.ladder := by cases l <;> rfl
@[simp] theorem modVoice_mailboxes (f : Voice → Voice) : (modVoice l f s).mailboxes = s.mailboxes := by cases l <;> rfl
@[simp] theorem modVoice_store (f : Voice → Voice) : (modVoice l f s).store = s.store := by cases l <;> rfl
@[simp] theorem modVoice_now (f : Voice → Voice) : (modVoice l f s).now = s.now := by cases l <;> rfl
@[simp] theorem modVoice_samples (f : Voice → Voice) : (modVoice l f s).samples = s.samples := by cases l <;> rfl
@[simp] theorem modVoice_requests (f : Voice → Voice) : (modVoice l f s).requests = s.requests := by cases l <;> rfl
@[simp] theorem modVoice_pending (f : Voice → Voice) : (modVoice l f s).pending = s.pending := by cases l <;> rfl
@[simp] theorem modVoice_line (f : Voice → Voice) :
    (modVoice l f s).line l = { s.line l with voice := f (s.line l).voice } := by cases l <;> rfl
@[simp] theorem modVoice_line_other (f : Voice → Voice) (h : m ≠ l) : (modVoice l f s).line m = s.line m := by
  simp [modVoice, h]
@[simp] theorem modVoice_st (f : Voice → Voice) : (modVoice l f s).st m = s.st m := by cases l <;> cases m <;> rfl

/-! ### Clock, requests and report queue -/

@[simp] theorem elapse_link (due : Nat) : (elapse due s).link = s.link := rfl
@[simp] theorem elapse_pins (due : Nat) : (elapse due s).pins = s.pins := rfl
@[simp] theorem elapse_tones (due : Nat) : (elapse due s).tones = s.tones := rfl
@[simp] theorem elapse_cadences (due : Nat) : (elapse due s).cadences = s.cadences := rfl
@[simp] theorem elapse_screen (due : Nat) : (elapse due s).screen = s.screen := rfl
@[simp] theorem elapse_attempts (due : Nat) : (elapse due s).attempts = s.attempts := rfl
@[simp] theorem elapse_jobs (due : Nat) : (elapse due s).jobs = s.jobs := rfl
@[simp] theorem elapse_lastJob (due : Nat) : (elapse due s).lastJob = s.lastJob := rfl
@[simp] theorem elapse_ladder (due : Nat) : (elapse due s).ladder = s.ladder := rfl
@[simp] theorem elapse_mailboxes (due : Nat) : (elapse due s).mailboxes = s.mailboxes := rfl
@[simp] theorem elapse_store (due : Nat) : (elapse due s).store = s.store := rfl
@[simp] theorem elapse_samples (due : Nat) : (elapse due s).samples = s.samples := rfl
@[simp] theorem elapse_requests (due : Nat) : (elapse due s).requests = s.requests := rfl
@[simp] theorem elapse_pending (due : Nat) : (elapse due s).pending = s.pending := rfl
@[simp] theorem elapse_line (due : Nat) : (elapse due s).line l = s.line l := by cases l <;> rfl
@[simp] theorem elapse_st (due : Nat) : (elapse due s).st l = s.st l := by cases l <;> rfl
@[simp] theorem post_link (r : Request) : (post r s).link = s.link := rfl
@[simp] theorem post_pins (r : Request) : (post r s).pins = s.pins := rfl
@[simp] theorem post_tones (r : Request) : (post r s).tones = s.tones := rfl
@[simp] theorem post_cadences (r : Request) : (post r s).cadences = s.cadences := rfl
@[simp] theorem post_screen (r : Request) : (post r s).screen = s.screen := rfl
@[simp] theorem post_attempts (r : Request) : (post r s).attempts = s.attempts := rfl
@[simp] theorem post_jobs (r : Request) : (post r s).jobs = s.jobs := rfl
@[simp] theorem post_lastJob (r : Request) : (post r s).lastJob = s.lastJob := rfl
@[simp] theorem post_ladder (r : Request) : (post r s).ladder = s.ladder := rfl
@[simp] theorem post_mailboxes (r : Request) : (post r s).mailboxes = s.mailboxes := rfl
@[simp] theorem post_store (r : Request) : (post r s).store = s.store := rfl
@[simp] theorem post_now (r : Request) : (post r s).now = s.now := rfl
@[simp] theorem post_samples (r : Request) : (post r s).samples = s.samples := rfl
@[simp] theorem post_pending (r : Request) : (post r s).pending = s.pending := rfl
@[simp] theorem post_line (r : Request) : (post r s).line l = s.line l := by cases l <;> rfl
@[simp] theorem post_st (r : Request) : (post r s).st l = s.st l := by cases l <;> rfl
@[simp] theorem elapse_now (due : Nat) : (elapse due s).now = max s.now due := rfl
@[simp] theorem post_requests (r : Request) : (post r s).requests = s.requests ++ [r] := rfl

/-- A queued report changes the terminal link alone. -/
theorem queueReport_link (r : Report) : ∃ k, queueReport r s = { s with link := k } := by
  unfold queueReport arbiterKick arbiterChoose takeReport modLink
  repeat' split
  all_goals exact ⟨_, rfl⟩

/-- What a queued report does to the terminal link is a function of the link alone (R10 to R12): the queue is not empty as the arbiter
chooses. -/
theorem queueReport_reads_link (r : Report) : ∃ f : Link → Link, ∀ s, queueReport r s = { s with link := f s.link } := by
  refine ⟨fun k => if k.reports.length < 32 then
      if k.sending = .idle ∧ k.hhold = false then
        match k.reports ++ [r] with
        | h :: rest => { k with reports := if k.loss then rest ++ [.loss] else rest, loss := false, sending := .report h }
        | [] => k
      else { k with reports := k.reports ++ [r] }
    else { k with loss := true }, fun s => ?_⟩
  unfold queueReport reportFits arbiterKick arbiterChoose takeReport
  cases h : s.link.reports <;> simp [modLink, h] <;> (repeat' split) <;> simp_all

/-- A queued report and a line's update commute. -/
theorem queueReport_setLine (r : Report) (l : Line) (x : LineState) :
    queueReport r (s.setLine l x) = (queueReport r s).setLine l x := by
  obtain ⟨f, hf⟩ := queueReport_reads_link r
  rw [hf, hf]; cases l <;> rfl

@[simp] theorem queueReport_pins (r : Report) : (queueReport r s).pins = s.pins := by
  obtain ⟨k, h⟩ := queueReport_link s r; rw [h]
@[simp] theorem queueReport_tones (r : Report) : (queueReport r s).tones = s.tones := by
  obtain ⟨k, h⟩ := queueReport_link s r; rw [h]
@[simp] theorem queueReport_cadences (r : Report) : (queueReport r s).cadences = s.cadences := by
  obtain ⟨k, h⟩ := queueReport_link s r; rw [h]
@[simp] theorem queueReport_screen (r : Report) : (queueReport r s).screen = s.screen := by
  obtain ⟨k, h⟩ := queueReport_link s r; rw [h]
@[simp] theorem queueReport_attempts (r : Report) : (queueReport r s).attempts = s.attempts := by
  obtain ⟨k, h⟩ := queueReport_link s r; rw [h]
@[simp] theorem queueReport_jobs (r : Report) : (queueReport r s).jobs = s.jobs := by
  obtain ⟨k, h⟩ := queueReport_link s r; rw [h]
@[simp] theorem queueReport_lastJob (r : Report) : (queueReport r s).lastJob = s.lastJob := by
  obtain ⟨k, h⟩ := queueReport_link s r; rw [h]
@[simp] theorem queueReport_ladder (r : Report) : (queueReport r s).ladder = s.ladder := by
  obtain ⟨k, h⟩ := queueReport_link s r; rw [h]
@[simp] theorem queueReport_mailboxes (r : Report) : (queueReport r s).mailboxes = s.mailboxes := by
  obtain ⟨k, h⟩ := queueReport_link s r; rw [h]
@[simp] theorem queueReport_store (r : Report) : (queueReport r s).store = s.store := by
  obtain ⟨k, h⟩ := queueReport_link s r; rw [h]
@[simp] theorem queueReport_now (r : Report) : (queueReport r s).now = s.now := by
  obtain ⟨k, h⟩ := queueReport_link s r; rw [h]
@[simp] theorem queueReport_samples (r : Report) : (queueReport r s).samples = s.samples := by
  obtain ⟨k, h⟩ := queueReport_link s r; rw [h]
@[simp] theorem queueReport_requests (r : Report) : (queueReport r s).requests = s.requests := by
  obtain ⟨k, h⟩ := queueReport_link s r; rw [h]
@[simp] theorem queueReport_pending (r : Report) : (queueReport r s).pending = s.pending := by
  obtain ⟨k, h⟩ := queueReport_link s r; rw [h]
@[simp] theorem queueReport_line (r : Report) : (queueReport r s).line l = s.line l := by
  obtain ⟨k, h⟩ := queueReport_link s r; rw [h]; cases l <;> rfl
@[simp] theorem queueReport_st (r : Report) : (queueReport r s).st l = s.st l := by
  simp [State.st]
@[simp] theorem done_pins (c : Byte) (r : Result) (vs : List Byte) : (done c r vs s).pins = s.pins := queueReport_pins s _
@[simp] theorem done_tones (c : Byte) (r : Result) (vs : List Byte) : (done c r vs s).tones = s.tones := queueReport_tones s _
@[simp] theorem done_cadences (c : Byte) (r : Result) (vs : List Byte) : (done c r vs s).cadences = s.cadences := queueReport_cadences s _
@[simp] theorem done_screen (c : Byte) (r : Result) (vs : List Byte) : (done c r vs s).screen = s.screen := queueReport_screen s _
@[simp] theorem done_attempts (c : Byte) (r : Result) (vs : List Byte) : (done c r vs s).attempts = s.attempts := queueReport_attempts s _
@[simp] theorem done_jobs (c : Byte) (r : Result) (vs : List Byte) : (done c r vs s).jobs = s.jobs := queueReport_jobs s _
@[simp] theorem done_lastJob (c : Byte) (r : Result) (vs : List Byte) : (done c r vs s).lastJob = s.lastJob := queueReport_lastJob s _
@[simp] theorem done_ladder (c : Byte) (r : Result) (vs : List Byte) : (done c r vs s).ladder = s.ladder := queueReport_ladder s _
@[simp] theorem done_mailboxes (c : Byte) (r : Result) (vs : List Byte) : (done c r vs s).mailboxes = s.mailboxes := queueReport_mailboxes s _
@[simp] theorem done_store (c : Byte) (r : Result) (vs : List Byte) : (done c r vs s).store = s.store := queueReport_store s _
@[simp] theorem done_now (c : Byte) (r : Result) (vs : List Byte) : (done c r vs s).now = s.now := queueReport_now s _
@[simp] theorem done_samples (c : Byte) (r : Result) (vs : List Byte) : (done c r vs s).samples = s.samples := queueReport_samples s _
@[simp] theorem done_requests (c : Byte) (r : Result) (vs : List Byte) : (done c r vs s).requests = s.requests := queueReport_requests s _
@[simp] theorem done_pending (c : Byte) (r : Result) (vs : List Byte) : (done c r vs s).pending = s.pending := queueReport_pending s _
@[simp] theorem done_line (c : Byte) (r : Result) (vs : List Byte) : (done c r vs s).line l = s.line l := queueReport_line s l _
@[simp] theorem done_st (c : Byte) (r : Result) (vs : List Byte) : (done c r vs s).st l = s.st l := by
  simp [State.st]

/-- A queued report, where it finds room and the arbiter is engaged or held: it joins the tail (R10). -/
theorem queueReport_tail (r : Report) (hroom : s.link.reports.length < 32) (hbusy : s.link.sending ≠ .idle ∨ s.link.hhold = true) :
    queueReport r s = { s with link := { s.link with reports := s.link.reports ++ [r] } } := by
  have : ¬(s.link.sending = .idle ∧ s.link.hhold = false) := by
    rintro ⟨h1, h2⟩; rcases hbusy with h | h
    · exact h h1
    · simp [h] at h2
  simp [queueReport, reportFits, hroom, arbiterKick, modLink, this]

/-- A queued report, where the queue is full: it is dropped and the loss flag is set (R10). -/
theorem queueReport_full (r : Report) (hfull : 32 ≤ s.link.reports.length) :
    queueReport r s = { s with link := { s.link with loss := true } } := by
  simp [queueReport, reportFits, Nat.not_lt.mpr hfull, modLink]

/-! ### The end of a command -/

/-- With no request between blocks the end of a command changes nothing. -/
@[simp] theorem finish_of_none (h : s.requests = []) : finish s = s := by
  simp [finish, takeRequests, h]

theorem takeRequests_requests (n : Nat) : (takeRequests n s).requests = [] := by
  induction n generalizing s with
  | zero => rfl
  | succ n ih =>
    unfold takeRequests
    split
    · assumption
    · exact ih _

/-- No request between blocks is left at the end of a command. -/
theorem finish_requests : (finish s).requests = [] := takeRequests_requests s 256

end Sys2Proof.Machine
end

