-- ==== Sys2Proof/Tests/Slice0.lean ====
section
/-! SUPPORT. Tests: ill-formed commands refused, directives written out by hand from 10.2, small steps with values worked by
hand from the spec, and for every statement with hypotheses the states and operands that meet them. -/

namespace Sys2Proof.Tests

open Sys2Proof Sys2Proof.Machine

set_option Elab.async false

/-! ### Well-formedness: one ill-formed command for each check -/

theorem test_query_index_refused : (Instr.query 1#8 5#16).wellFormed = false := by decide
theorem test_blockEnd_samples_refused : (Instr.blockEnd .A (List.replicate 79 0#16)).wellFormed = false := by decide
theorem test_callerMessage_length_refused : (Instr.callerMessage .A (List.replicate 259 0#8)).wellFormed = false := by
  decide +kernel
theorem test_pins_count_refused : (Instr.pins [(1#8, 0#8)]).wellFormed = false := by decide
theorem test_profile_pairs_refused : (Instr.profile 1#8 []).wellFormed = false := by decide
theorem test_cadence_pairs_refused : (Instr.cadenceWrite 0#8 ⟨0xFF#8, 30#8, 1#8, 0#8, 0#8, []⟩).wellFormed = false := by decide
theorem test_screen_any_length_refused : (Instr.screenWrite 0#8 ⟨0#8, 0#8, 0#8, 0xFF#8, []⟩).wellFormed = false := by decide
theorem test_screen_length_refused : (Instr.screenWrite 0#8 ⟨0#8, 0#8, 0#8, 2#8, [0x31#8]⟩).wellFormed = false := by decide
theorem test_dial_symbols_refused : (Instr.dial 1#8 0#8 0#16 (List.replicate 41 0x31#8)).wellFormed = false := by decide
theorem test_jobadd_symbols_refused : (Instr.jobadd 1#8 7#16 0#8 0#8 1#8 (List.replicate 41 0x31#8)).wellFormed = false := by
  decide
theorem test_ladder_count_refused : (Instr.ladder []).wellFormed = false := by decide
theorem test_windowEnd_symbols_refused : (Instr.windowEnd .A [⟨0, 1⟩] 0).wellFormed = false := by decide
theorem test_info_payload_refused : (Instr.info .A 0#8 0#8 []).wellFormed = false := by decide
theorem test_format_regions_refused : (Instr.format []).wellFormed = false := by decide
theorem test_mailbox_digits_refused : (Instr.mailbox 0#8 1#8 0#16 10#16 1#8 []).wellFormed = false := by decide

/-! ### Directives written out from 10.2 -/

/-- TARGET of the store write stream. -/
theorem test_target_bytes : decodeDirective 0x54#8 [3#8] = .directive (.target 3#8) := by decide
/-- CLOCK: year, month, day, hour, minute. -/
theorem test_clock_bytes : decodeDirective 0x43#8 [26#8, 7#8, 14#8, 9#8, 30#8] = .directive (.clock 26#8 7#8 14#8 9#8 30#8) := by
  decide
/-- READ: the message in two bytes and the offset in four, the high byte first (10.1). -/
theorem test_read_bytes :
    decodeDirective 0x52#8 [0x01#8, 0x02#8, 0#8, 0#8, 0x10#8, 0x04#8] = .directive (.readMessage 0x0102#16 0x1004#32) := by
  decide
/-- RESET with scope 2 is RESET LINE of line B. -/
theorem test_reset_bytes : decodeDirective 0x5A#8 [2#8] = .directive (.resetLine .B) := by decide
/-- QUERY of a directory entry carries an index, of another subject none. -/
theorem test_query_bytes : decodeDirective 0x51#8 [0x0B#8, 0x12#8, 0x34#8] = .directive (.query 0x0B#8 0x1234#16) := by decide
theorem test_query_count : decodeDirective 0x51#8 [0x0B#8] = .badParam := by decide
/-- SCREEN DELETE. -/
theorem test_screen_bytes : decodeDirective 0x53#8 [2#8, 31#8] = .directive (.screenDelete 31#8) := by decide
/-- LADDER of one rung: mode, U, D, X. -/
theorem test_ladder_bytes : decodeDirective 0x4C#8 [1#8, 2#8, 0#8, 60#8, 0#8, 200#8, 2#8, 88#8] =
    .directive (.ladder [⟨2#8, 60#16, 200#16, 600#16⟩]) := by decide
/-- A code of 10.2 that names no directive. -/
theorem test_unknown_code : decodeDirective 0x7E#8 [] = .unknown := by decide
/-- The opcode table gives no row any bits. -/
theorem test_no_word : decodeTableWord 8 0x54 = none := rfl

/-! ### States -/

/-- READY with free segments, nothing at the port, the arbiter engaged by a report, and no report waiting. -/
def rested : State := { State.reset with
  link := { State.reset.link with reports := [], sending := .report .loss }
  store := { State.reset.store with st := .ready, grant := none, scan := none, free := List.range' 1 40 } }

/-- The same with a read of the host at the port. -/
def busyPort : State := { rested with store := { rested.store with grant := some (.read .host 9 0 0 0) } }

/-- The same with the arbiter idle. -/
def idleLink : State := { rested with link := { rested.link with sending := .idle } }

/-- A change of the terminal link of the rested part. -/
def linked (f : Link → Link) : State := modLink f rested

/-- The rested part with 32 reports waiting. -/
def fullQueue : State := linked fun k => { k with reports := List.replicate 32 .loss }

/-- Line A in a state of a call, with that change of its blocks. -/
def inCall (st : LineSt) (f : LineState → LineState) (s : State) : State :=
  s.setLine .A (f { s.lineA with call := { s.lineA.call with st := st } })

/-- A job that waits for message 5. -/
def waitingJob : Job := ⟨3, .voice, [0x31#8], [0x31#8], 5, 0, .any, 3, 0, .waiting, none, (0, none)⟩

/-- A closed message of the host. -/
def filed (id : Nat) : Entry :=
  ⟨id, .file, .closed, none, none, .none, 100, 0, none, 0, none, false, false, false, false, 1, [0]⟩

/-- The rested part with a job, a screen entry, an attempt record and a message. -/
def queried : State := { rested with
  jobs := [waitingJob], screen := List.replicate 31 none ++ [some ⟨.withheld, .both, .bar⟩]
  attempts := List.replicate 15 none ++ [some ⟨[0x31#8], 1, 0, 60⟩], store := { rested.store with dir := [filed 5] } }

/-- The rested part without tone and cadence entries, no line answering of itself. -/
def plain : State :=
  let off := fun (x : LineState) => { x with profile := { x.profile with answerMode := .off, extPolicy := .keep } }
  { rested with
    tones := List.replicate 24 none, cadences := List.replicate 8 none, lineA := off rested.lineA, lineB := off rested.lineB }

/-- None of its cadence entries is on RING. -/
theorem plain_cadences : ∀ e, some e ∈ plain.cadences → e.source ≠ .ring := by intro e he; simp [plain] at he

/-- A change of the line interface of line A of that part. -/
def lined (f : Iface → Iface) : State := modIface .A f plain

/-- The same. -/
theorem lined_cadences (f : Iface → Iface) : ∀ e, some e ∈ (lined f).cadences → e.source ≠ .ring := plain_cadences

/-- The default pin assignment as PINS carries it. -/
def pinBytes : List (Byte × Byte) := defaultPins.map fun p => (BitVec.ofNat 8 p.fn.code, 0#8)

/-- A caller record of a message that was not valid. -/
def badCaller : CallerRecord := ⟨false, none, none, none, none⟩

/-- Line B with its loop gone, in a latching source. -/
def loopGone : State := modProfile .B (fun p => { p with monitors := { p.monitors with loopLoss := ⟨true, true, .error⟩ } })
  (modIface .B (fun i => { i with current := { i.current with loopLoss := true }, latched := { i.latched with loopLoss := true } })
    plain)

/-- A withheld code, then a number, then a name cut short. -/
def burstFieldList : List (Byte × List Byte) := [(0x14#8, [0x50#8]), (0x12#8, [0x31#8, 0x32#8, 0x39#8])]

/-- The content that makes. -/
def burstContent : List Byte :=
  [0x14#8, 1#8, 0x50#8, 0x12#8, 3#8, 0x31#8, 0x32#8, 0x39#8, 0x13#8, 9#8, 0x41#8]

/-- A single tone entry for REPORT, live in DIAL and PROGRESS. -/
def toneFields : ToneParams := ⟨0#8, 440#16, 0#16, BitVec.ofInt 8 (-30), 6#8, 40#16, 30#16, 1#8, 0#8, 0#8, 0#8, 0x18#16⟩

/-- The entry those fields make. -/
def toneEntry : ToneEntry :=
  { kind := .single, f1 := 440, f2 := 0, minLevel := -30, twist := 6, onTime := 40, offTime := 30, action := .report
    priorityMark := false, meaning := .none, live := [.dial, .progress] }

/-- The part with n such entries of different frequencies at indexes 0 to n − 1. -/
def toned (n : Nat) : State := { plain with
  tones := ((List.range n).map fun i => some { toneEntry with f1 := 441 + i }) ++ List.replicate (24 - n) none }

/-- A ring pattern of one on and off. -/
def ringFields : CadenceParams := ⟨0xFF#8, 31#8, 0#8, 5#8, 1#8, [(49#16, 8001#16)]⟩

/-- A cadence entry on RING. -/
def ringEntry : CadEntry :=
  { source := .ring, pattern := [50, 8000], tolerance := 30, repeats := 1, meaning := .ringClass 3, report := true }

/-- A capture. -/
def caught (n : Nat) : Capture := { entry := n, digit := none, position := none, lineTime := 0 }

/-- Line B with a change of its detector. -/
def detected (f : Detector → Detector) : State := modDet .B f plain
/-- An entry idle at a line. -/
def idleEdge : EdgeState := (edgeOf plain .A 0)

/-- That entry valid at index 0, ON at line A and READY at line B. -/
def edged : State := modDet .A (fun d => { d with edges := d.edges.set 0 { idleEdge with st := .on, first := 3, last := 9 } })
  { toned 1 with cadences := [none, some { ringEntry with source := .tone 0 }] ++ List.replicate 6 none }

/-- An alignment with no run. -/
def emptyAligned : Machine.Alignment := emptyAlign 0

/-- Line A in VOICE, a ring-on pending after a ring-on of 2 s and a ring-off. -/
def rungAgain (off : Nat) : State := inCall .voice (fun x => { x with
    iface := { x.iface with ring := .pending 6500 6850, ringOff := some off }
    det := { x.det with aligns := x.det.aligns.set 2 { emptyAlign 0 with
      held := true, expect := 1, runStart := off - 2000, prevOn := some (2000, off - 2000) } } })
  { plain with cadences := (List.replicate 8 none).set 2 (some (defaultCadence .ring [2000, 4000] 1 (.ringClass 1))) }

/-- Line A in VOICE with an entry at 441 Hz and its edge state. -/
def watching (x : EdgeState) (action : ToneAction) : State :=
  inCall .voice (fun y => { y with det := { y.det with edges := y.det.edges.set 0 x } })
    { plain with
      tones := (List.replicate 24 none).set 0
        (some { toneEntry with f1 := 441, live := [.dial, .voice], action := action }) }

/-- Line A in a call, in a state with that change of its call controller. -/
def called (st : LineSt) (f : Call → Call) : State := inCall st (fun x => { x with call := f x.call }) plain

/-- A closed voice message of 4000 bytes. -/
def voiceMessage (id : Nat) : Entry :=
  { id := id, kind := .voice, state := .closed, writer := none, mailbox := none, coding := .adc4, length := 4000, pages := 0
    created := none, creation := 0, caller := none, fetched := false, truncated := false, recovered := false
    erasePending := false, inUse := 0, chain := [50, 51, 52, 53] }

/-- The part with that message in its directory. -/
def stored : State := { plain with store := { plain.store with dir := [voiceMessage 7] } }

/-- A job for message 7. -/
def job (id : Nat) (st : JobState) : Job :=
  { id := id, kind := .voice, symbols := [0x31#8], number := [0x31#8], message := 7, priority := 0, preference := .any
    maxTries := 1, tries := 0, state := st, outcome := none, lastTry := (0, none) }

/-- Line A dialling a string, at its first symbol: a step due at 60, the loop present. -/
def dialling (symbols : List Byte) (f : Call → Call) : State :=
  inCall .dial (fun x => { x with
    call := f { x.call with stepDue := some 60, pulse := ⟨61, 39, 700⟩, cr := { x.call.cr with dialled := symbols } }
    iface := { x.iface with loop := .present, loopIn := true, hook := true } }) plain

/-- Line A in SEIZE with a string to dial and no step due. -/
def seizing (symbols : List Byte) (f : Call → Call) : State :=
  inCall .seize (fun x => { x with
    call := f { x.call with cr := { x.call.cr with dialled := symbols } }
    iface := { x.iface with loop := .present, loopIn := true, hook := true } }) plain

/-- Line A in RINGING after one ring. -/
def ringing (f : Call → Call) : State := called .ringing fun c => f { c with cr := { c.cr with dir := some .incoming, rings := 1 } }

/-- Line A in RINGING after some rings, the last screen entry taking every caller without a record. -/
def screened (rings : Nat) (a : ScreenAction) : State :=
  { ringing (fun c => { c with cr := { c.cr with rings := rings } }) with
    screen := List.replicate 31 none ++ [some ⟨.none, if a = .allow then .both else .incoming, a⟩] }

/-- Line A in RINGING with a ring-on pending and a DATA plan of two rings, the profile written since. -/
def rangAgain (rings : Nat) : State :=
  modProfile .A (fun p => { p with answerMode := .data, rings := 15 }) (modIface .A (fun i => { i with ring := .pending 0 1000 })
    (ringing fun c => { c with ringDue := some 8000, ringsToAnswer := some 2, cr := { c.cr with rings := rings } }))

/-- Line A in SEIZE with a ring-on pending. -/
def glaring : State := modIface .A (fun i => { i with ring := .pending 0 1000, hook := true, loop := .present })
  (called .seize fun c => { c with dialToneDue := some 5000, cr := { c.cr with dir := some .outgoing, dialled := [0x31#8] } })

/-- The stored message with a reference. -/
def usedMessage : Entry := { voiceMessage 7 with inUse := 1 }

/-- A busy port, the stored message with a reference, and its job. -/
def jobbed (st : JobState) : State :=
  { busyPort with jobs := [job 8 .waiting, job 9 st], store := { busyPort.store with dir := [usedMessage] } }

/-- Line A IDLE with auto call-out and jobs. -/
def dispatching (jobs : List Job) : State := modProfile .A (fun p => { p with autoCallout := true }) { stored with jobs := jobs }

/-- Line A in PROGRESS with a job's call and its number's attempt record, in that change of its blocks. -/
def onJob (j : Job) (f : LineState → LineState) : State :=
  inCall .progress (fun x => f { x with
    modem := { x.modem with rung := some 2 }
    call := { x.call with progressDue := some 45000, cr := { x.call.cr with
      dir := some .outgoing, number := [0x31#8], job := some j.id } } })
    { stored with jobs := [job 8 .waiting, j], attempts := [none, some ⟨[0x31#8], 1, 0, 0⟩] }

/-- Line A in DATA on rung 3 of the default ladder (L96), all rungs common, a frame on the line, with a change of its blocks. -/
def inData (f : LineState → LineState) : State :=
  inCall .data (fun x => f { x with
    modem := { x.modem with rung := some 3, rungSet := some [0, 1, 2, 3, 4, 5, 6], holdOff := 1 }
    dl := { x.dl with sending := some (.rr 0 false), started := true, negotiated := some (8, 256) } }) plain

/-- Line A in TRAIN with a change of its modem. -/
def training (f : Modem → Modem) : State := inCall .train (fun x => { x with modem := f x.modem }) plain

/-- A window of 240 symbols of which the first `n` are far off. -/
def symbols (n : Nat) : List SymbolReading := List.replicate n ⟨9, 1⟩ ++ List.replicate (240 - n) ⟨0, 1⟩

/-- Line A in DATA with a window in progress. -/
def measured (f : LineState → LineState) : State :=
  inData fun x => f { x with modem := { x.modem with window := some x.profile.freshWindow } }

/-- Line A in DATA with a change of its data link. -/
def onLink (f : DataLink → DataLink) : State := inData fun x => { x with dl := f x.dl }

/-- Three frames on the retransmit list, numbered over the end of the sequence numbers. -/
def threeFrames : List InfoFrame := [⟨62, [1#8]⟩, ⟨63, [2#8]⟩, ⟨0, [3#8]⟩]

/-- A change of the store of the part with message 7. -/
def storing (f : Store → Store) : State := { stored with store := f stored.store }

/-- The same with a read of the host at the port. -/
def storingBusy (f : Store → Store) : State := storing fun t => f { t with grant := some (.read .host 9 0 0 0) }

/-- A message being written by an owner, with its length and segments. -/
def openMessage (id length : Nat) (owner : Owner) (chain : List Nat) : Entry :=
  { voiceMessage id with state := .opened, writer := some owner, length := length, chain := chain }

/-- One region of 64 segments, the others absent. -/
def oneRegion : List RegionParams := ⟨1#8, 0#8, 16#8, 3#8⟩ :: List.replicate 3 ⟨0#8, 0#8, 8#8, 0#8⟩

/-- The region table that makes. -/
def oneRegionTable : List Region := ⟨true, 0, true, 3⟩ :: List.replicate 3 absentRegion

/-- A reading stream on message 7. -/
def reading (position length : Nat) (buffers : List (List Byte)) (ready : Bool) : RStream :=
  { id := 7, position := position, length := length, buffers := buffers, nextSeq := 0, ready := ready
    region := none, tag := 5 }
/-- The host's writing stream of message 8. -/
def hw : WStream := { newWriter 8 .host with seq := 0 }
/-- A writing stream whose segment is being written. -/
def pw : WStream := { newWriter 8 .host with handed := some (List.replicate 960 7#8), granted := true, seg := some 3 }
/-- The write of that segment at the port. -/
def pp : Machine.State := storing fun t => { t with grant := some (.write 8 3), writers := [pw], dir := [openMessage 8 960 .host [3]] }
/-- A segment read of the host at the port. -/
def pr : Machine.State := storing fun t => { t with grant := some (.read .host 5 7 50 0), readHost := some (reading 950 4000 [] false) }
/-- A writing stream of a line that is being cut. -/
def cw : WStream := { newWriter 8 (.line .A) with cut := .running 1 none }

/-- The closing writer of message 8, the rewrite of its copy asked for. -/
def endingWriter : WStream := { newWriter 8 .host with
  active := false, base := 4, closing := some ⟨.byRelease .host, false, 0, true, false⟩ }

/-- A store with two regions of one line stream each. -/
def regioned (f : Store → Store) : State := storing fun t => f { t with
  regions := [⟨true, 0, false, 4⟩, ⟨true, 0, false, 4⟩, absentRegion, absentRegion], free := [1, 2, 1030, 1031] }

/-- A scan with nothing read. -/
def scanStart : Scan := ⟨[], [], [], [], false⟩

/-- The memory with the directory copy of a closed message 7 of 4 bytes in segment 5. -/
def copiedClosed : List Host.Cell :=
  [(5129, 7#8), (5131, 2#8), (5132, 1#8), (5137, 255#8), (5138, 255#8), (5139, 255#8), (5140, 255#8), (5141, 255#8),
   (5142, 128#8), (5146, 4#8), (5182, 101#8), (5183, 220#8)]

/-- The same of the message left open. -/
def copiedOpen : List Host.Cell :=
  [(5129, 7#8), (5131, 2#8), (5132, 1#8), (5137, 255#8), (5138, 255#8), (5139, 255#8), (5140, 255#8), (5141, 255#8),
   (5182, 156#8), (5183, 168#8)]

/-- The bytes of that copy. -/
def closedCopy : List Byte :=
  [0#8, 7#8, 0#8, 2#8, 1#8, 0#8, 0#8, 0#8, 0#8, 255#8, 255#8, 255#8, 255#8, 255#8, 128#8, 0#8, 0#8, 0#8, 4#8] ++
    List.replicate 35 0#8 ++ [101#8, 220#8]

/-- The bytes of the copy left open. -/
def openCopy : List Byte :=
  [0#8, 7#8, 0#8, 2#8, 1#8, 0#8, 0#8, 0#8, 0#8, 255#8, 255#8, 255#8, 255#8, 255#8] ++ List.replicate 40 0#8 ++ [156#8, 168#8]

theorem closedCopy_checked : checkedBody (closedCopy.take 56) = some (closedCopy.take 54) := by
  have h : crc16 (closedCopy.take 54) = 0x65DC#16 := by
    rw [show closedCopy.take 54 = closedCopy.take 19 ++ List.replicate 17 0#8 ++ List.replicate 18 0#8 by decide]
    unfold crc16
    rw [List.foldl_append, List.foldl_append]
    rw [show List.foldl crcByte 0xFFFF#16 (closedCopy.take 19) = 19405#16 by decide +kernel]
    rw [show List.foldl crcByte 19405#16 (List.replicate 17 0#8) = 29464#16 by decide +kernel]
    decide +kernel
  show (if 2 ≤ (closedCopy.take 56).length ∧ (closedCopy.take 56).drop ((closedCopy.take 56).length - 2) = wordBytes (crc16 (closedCopy.take 54)) then
    some (closedCopy.take 54) else none) = _
  rw [h]
  decide

theorem openCopy_checked : checkedBody (openCopy.take 56) = some (openCopy.take 54) := by
  have h : crc16 (openCopy.take 54) = 0x9CA8#16 := by
    rw [show openCopy.take 54 = openCopy.take 14 ++ List.replicate 20 0#8 ++ List.replicate 20 0#8 by decide]
    unfold crc16
    rw [List.foldl_append, List.foldl_append]
    rw [show List.foldl crcByte 0xFFFF#16 (openCopy.take 14) = 28660#16 by decide +kernel]
    rw [show List.foldl crcByte 28660#16 (List.replicate 20 0#8) = 5422#16 by decide +kernel]
    decide +kernel
  show (if 2 ≤ (openCopy.take 56).length ∧ (openCopy.take 56).drop ((openCopy.take 56).length - 2) = wordBytes (crc16 (openCopy.take 54)) then
    some (openCopy.take 54) else none) = _
  rw [h]
  decide

theorem closedCopy_reads (bytes : List Byte) (h : checkedBody (bytes.take 56) = some (closedCopy.take 54)) :
    readCopy 7 bytes = some ({ voiceMessage 7 with length := 4, mailbox := some 2, chain := [] }, true) ∧
      readCopy 9 bytes = none := by
  constructor <;> (unfold readCopy; rw [h]; decide +kernel)

theorem openCopy_reads (bytes : List Byte) (h : checkedBody (bytes.take 56) = some (openCopy.take 54)) :
    readCopy 7 bytes = some ({ voiceMessage 7 with length := 0, mailbox := some 2, chain := [] }, false) := by
  unfold readCopy; rw [h]; decide +kernel

theorem copiedClosed_reads : readCopy 7 (Memory.readBytes copiedClosed (segAddress 5 8) 56) =
      some ({ voiceMessage 7 with length := 4, mailbox := some 2, chain := [] }, true) ∧
    readCopy 9 (Memory.readBytes copiedClosed (segAddress 5 8) 56) = none := by
  rw [show Memory.readBytes copiedClosed (segAddress 5 8) 56 = closedCopy by decide +kernel]
  exact closedCopy_reads closedCopy closedCopy_checked

theorem copiedOpen_reads : readCopy 7 (Memory.readBytes copiedOpen (segAddress 5 8) 56) =
    some ({ voiceMessage 7 with length := 0, mailbox := some 2, chain := [] }, false) := by
  rw [show Memory.readBytes copiedOpen (segAddress 5 8) 56 = openCopy by decide +kernel]
  exact openCopy_reads openCopy openCopy_checked

/-- A part in SCANNING with a memory, a scan and a read under way. -/
def scanning (sc : Scan) (mem : List Host.Cell) (r : ScanRead) : State := { rested with store := { rested.store with
  st := .scanning, scan := some sc, memory := mem, free := [], grant := some (.maint (.scanRead r)) } }

/-- Line A in FAX on a session of a role in a phase, its mode L96 of the fax rungs 2, 3, 4, with a change of its fax engine. The
store has a read at the port, message 7 is read by the line, and the message being received is 8. -/
def faxing (role : FaxRole) (phase : FaxPhase) (r : RStream) (f : Fax → Fax) : State :=
  inCall .fax (fun x => { x with
    modem := { x.modem with rung := some 3, faxRungSet := true, q := 5 }
    fax := f { x.fax with
      role := some role, phase := some phase, rungs := [2, 3, 4], modes := [.l48, .l96, .l144], agreed := some .l96
      page := 1, tryCount := 1, lineTime := 10 } }) (storingBusy fun t => { t with readA := some r })

/-- A message awaiting its answer. -/
def awaited (m : FaxMsg) (sends : Nat) : Outstanding := ⟨m, sends, some 3000⟩

/-- A stream opened and not yet read. -/
def unread : RStream := reading 0 4000 [] false

/-- A receiver with the writing stream of message 8. -/
def receiving (phase : FaxPhase) (f : Fax → Fax) : State :=
  inCall .fax (fun x => { x with
    modem := { x.modem with rung := some 3, faxRungSet := true, q := 5 }
    fax := f { x.fax with
      role := some .receiver, phase := some phase, rungs := [2, 3, 4], agreed := some .l96, page := 1
      message := some 8, pageStart := some 0 } })
    (storingBusy fun t => { t with
      dir := [openMessage 8 16 (.line .A) []]
      writers := [{ newWriter 8 (.line .A) with filling := List.replicate 16 0#8 }] })

/-- A record whose check agrees, of the line expected first. -/
def goodRecord : RecordInput := ⟨0#16, 2#16, [0x11#8, 0x22#8], crc16 (recordBody 0#16 2#16 [0x11#8, 0x22#8])⟩

/-- The session of line A, without stream. -/
def session (role : FaxRole) (f : Fax → Fax) : State :=
  inCall .fax (fun x => { x with fax := f { x.fax with role := some role, phase := some .check } }) plain
/-- The header of the first page of a 10 ms session. -/
def hdr : List Byte := pageHeader 1 false 5 0 0 .none false false false 10
/-- A sender awaiting the verdict on a page. -/
def vs (last : Bool) : Machine.State := faxing .sender .verdict unread fun f => { f with outstanding := some (awaited (.pageEnd last 5) 1), tryCount := 3 }
/-- The rung L96 with other thresholds. -/
def rg : Rung := ⟨.l96, 60, 200, 600⟩
/-- A receiver at the end of its line check with the store full. -/
def fullR : Machine.State := modStore (fun t => { t with free := [] }) (receiving .check fun f => { f with checkCount := 15, checkGood := 15, checkSum := 2999, message := none })
/-- A writing stream of a line with a page header in its buffer. -/
def fw : WStream := { newWriter 8 (.line .A) with filling := List.replicate 16 0#8 }

/-- A receiver in PAGE whose VERDICT on a page of five lines is outstanding. -/
def nextPageDue : State := receiving .page fun f => { f with
  pageStart := none, outstanding := some (awaited (.verdict .good 5 0) 1), lastVerdict := some (.verdict .good 5 0)
  lastPageEnd := some (false, 5) }
/-- A receiver in PAGE whose stream fills its first segment at the next line, and no segment is free. -/
def lastLineFull : State := modStore (fun t => { t with
    grant := none, free := [], dir := [openMessage 8 950 (.line .A) []]
    writers := [{ newWriter 8 (.line .A) with filling := List.replicate 950 0#8 }] })
  (receiving .page fun f => { f with prevGood := some (List.replicate 20 1#8) })

/-- Line A in VOICE with a substate and that change of the voice engine, a read at the port. -/
def voicing (sub : Option VoiceSub) (f : Voice → Voice) (r : Option RStream) : State :=
  inCall .voice (fun x => { x with voice := f { x.voice with sub := sub } })
    (storingBusy fun t => { t with readA := r, dir := [{ voiceMessage 7 with inUse := if r.isSome then 1 else 0 }] })

/-- Line A in CLASSIFY with 5 s of silence for a greeting. -/
def greeting : State :=
  inCall .classify (fun x => { x with
    call := { x.call with cr := { x.call.cr with dir := some .incoming }, classifyDue := some 30000 }
    voice := { x.voice with sub := some .greeting, silentDue := some 5000 } }) stored
/-- Message 7 again. -/
def vm := voiceMessage 7
/-- A reading stream with the last 40 bytes ready. -/
def lastR : RStream := reading 3960 4000 [List.replicate 40 0x17#8] true
/-- A line in VOICE, waiting. -/
def rw1 : Machine.State := voicing (some .waiting) id none

/-- Line A playing message 7 from a position. -/
def playing (sub : VoiceSub) (kind : VoiceKind) (position : Nat) : State :=
  voicing (some sub) (fun v => { v with kind := some kind, coding := .adc4, position := position }) (some (reading 100 60000 [] true))

/-- The writing stream of a recording with so many segments written and those bytes in the buffer. -/
def recWriter (segs : Nat) (bytes : List Byte) : WStream :=
  { newWriter 8 (.line .A) with seq := segs, base := segStart segs, filling := bytes }

/-- The directory entry of that recording. -/
def recEntry (segs : Nat) (bytes : List Byte) : Entry :=
  openMessage 8 (segStart segs + bytes.length) (.line .A) (List.range segs)

/-- Line A recording message 8, the port busy. -/
def recording (segs : Nat) (bytes : List Byte) (f : Voice → Voice) : State :=
  inCall .voice (fun x => { x with
    iface := { x.iface with expecting := true }
    voice := f { x.voice with
      sub := some .recording, kind := some .answered, message := some 8, coding := .adc4, limit := 480000, begun := true } })
    (storingBusy fun t => { t with writers := [recWriter segs bytes], dir := [recEntry segs bytes] })

/-- Line A recording message 8 with a stream and an entry, the port busy. -/
def recordingWith (w : WStream) (e : Entry) : State :=
  inCall .voice (fun x => { x with
    iface := { x.iface with expecting := true }
    voice := { x.voice with
      sub := some .recording, kind := some .answered, message := some 8, coding := .adc4, limit := 480000, begun := true } })
    (storingBusy fun t => { t with writers := [w], dir := [e] })

/-- A loud block. -/
def loud : List Int := List.replicate 80 4000

/-- A read of the host sending its bytes upstream, the port busy. -/
def hostSending (n : Nat) (r : RStream) : State :=
  modLink (fun k => { k with sending := .payload .hostRead n false true })
    (storingBusy fun t => { t with readHost := some r, dir := [{ voiceMessage 7 with inUse := 1 }] })

/-- Both lines IDLE: on line A a set QUALITY that is not enabled, on line B a latched CLIP. -/
def flagged : State :=
  modIface .B (fun i => { i with latched := i.latched.set .clip true })
    (modProfile .B (fun p => { p with monitors := p.monitors.set .clip ⟨true, true, .error⟩ })
      (modIface .A (fun i => { i with current := i.current.set .quality true })
        (modProfile .A (fun p => { p with monitors := p.monitors.set .quality ⟨false, false, .warning⟩ }) plain)))

/-- Mailbox 7 with that greeting, the port busy. -/
def greeted (greeting : Option Nat) (f : Store → Store) : State :=
  { storingBusy f with mailboxes := defaultMailboxes.set 7 { defaultMailbox 7 with greeting := greeting } }

/-- An outcome is a next state with that property. -/
def answers (o : Host.Outcome Machine.State Fault Refusal) (p : Machine.State → Prop) [∀ t, Decidable (p t)] : Bool :=
  match o with
  | .next t => decide (p t)
  | _ => false

/-! ### Values worked by hand from the spec -/

/-- The example of R22: at index 30 a raw 1000 becomes 1412 and a raw −1000 becomes −1412. -/
theorem test_gain_example : gainSample 30 1000#16 = 1412 ∧ gainSample 30 (BitVec.ofInt 16 (-1000)) = -1412 := by decide
/-- The ends of R22: G(0) = 1029, G(24) = 4096, G(72) = 64917, and saturation. -/
theorem test_gain_ends : gainFactor 0 = 1029 ∧ gainFactor 24 = 4096 ∧ gainFactor 72 = 64917 ∧ gainSample 72 0x7FFF#16 = 32767 := by
  decide
/-- The example of gain adjustment in 2.2: 2600, 2560 and 2450 move the index from 24 to 23, 22 and 22, and 3100 to 21. -/
theorem test_agc_example :
    agcMove 24 2600 2000 = 23 ∧ agcMove 23 2560 2000 = 22 ∧ agcMove 22 2450 2000 = 22 ∧ agcMove 22 3100 2000 = 21 := by decide
/-- The band's ends of R23, 1500 to 2500 inclusive. -/
theorem test_agc_band : agcMove 24 2500 2000 = 24 ∧ agcMove 24 1500 2000 = 24 ∧ agcMove 24 1499 2000 = 25 := by decide
/-- R177: step(0) = 8 and step(1) = 9; the first ADC4 code of x = 5 at p = 0 has magnitude floor(4 × 5 / 8) = 2. -/
theorem test_adc4_first : voiceStep 0 = 8 ∧ voiceStep 1 = 9 ∧ magnitude .adc4 5 8 = 2 ∧ magnitude .adc4 5000 8 = 7 := by decide
/-- R1 from reset: after SHF the parser is in SHIFTED and its stall timer runs for 500 ms. -/
theorem test_shift_step : answers (step { State.reset with pending := [.downstreamByte 0xC5#8] })
    (fun t => t.link.parser = .shifted ∧ t.link.stallDue = some 500 ∧ t.pending = []) = true := by decide +kernel
/-- R7: TARGET 2 selects line B and answers DONE (54H, OK). -/
theorem test_target_step : answers (exec (.target 2#8) rested)
    (fun t => t.link.target = .lineB ∧ t.link.reports = [.done 0x54#8 .ok []]) = true := by decide +kernel
/-- R17: a tick of the seconds counter. -/
theorem test_seconds_step : answers (exec .secondsTick rested) (fun t => t.link.seconds = 1) = true := by decide +kernel
/-- R24: a ring pulse in QUIET leaves it, at that line only. -/
theorem test_ringPulse_step : answers (exec (.ringPulse .B) rested)
    (fun t => t.lineB.iface.ring ≠ .quiet ∧ t.lineA = rested.lineA) = true := by decide +kernel
/-- R74: DIAL on a line in VOICE is refused BAD_STATE and the line stays in VOICE. -/
theorem test_dial_step : answers (exec (.dial 1#8 1#8 0#16 [0x31#8]) (inCall .voice id plain))
    (fun t => t.link.reports = [.done 0x44#8 .badState []] ∧ t.lineA.call.st = .voice) = true := by decide +kernel
/-- The total level of a block (R44): a full-scale sine is +3 dBm0, so a constant 32767 is 3 dB more, and zeros are at the floor. -/
theorem test_total_level : totalLevel (List.replicate 80 32767#16) = 60 ∧ totalLevel (List.replicate 80 0#16) = -600 := by decide +kernel
/-- R36: the digit 5 is 770 Hz and 1336 Hz. -/
theorem test_dtmf_pair : (ToneSignal.dtmf 0x35#8 80 80).components.map (·.frequency) = [770, 1336] := by decide
/-- R14: RESET PART takes the strap levels of its moment. -/
theorem test_reset_straps : answers (exec .resetPart rested) (fun t => t.link.straps = Config.strapSample rested.samples) = true := by
  unfold answers; simp only [show exec .resetPart rested = .next (opResetPart rested) from rfl]; exact decide_eq_true rfl
/-- The block idles on an empty queue. -/
theorem test_idle_step : step State.reset = .next State.reset := rfl

/-! ### Every statement's hypotheses are met -/

/-- Both commands of that statement. -/
theorem witness_PowerOnAndResetPartLeaveTheTable :
    (∃ (c : Instr) (byDirective : Bool) (straps : BitVec 3), c = .powerOn straps ∧ byDirective = false) ∧
    (∃ (c : Instr) (byDirective : Bool) (straps : BitVec 3) (s : State),
      c = .resetPart ∧ byDirective = true ∧ straps = Config.strapSample s.samples) :=
  ⟨⟨.powerOn 5#3, false, 5#3, rfl, rfl⟩, ⟨.resetPart, true, _, rested, rfl, rfl, rfl⟩⟩

/-- The settled state has the limits. -/
theorem rested_inv : Inv rested := by
  have stores : StoreSound rested.store := by unfold StoreSound; decide
  have links (l : Line) : LinkSound (rested.line l).dl := by cases l <;> (unfold LinkSound; decide)
  exact ⟨by constructor <;> first | rfl | exact stores | exact links .A | exact links .B | decide, by decide, rfl⟩

/-- A state at which a step answers a next state, and that has the limits: the settled state with TARGET 3 in its queue. -/
theorem witness_EveryStepKeepsTheLimits : ∃ s t : State, Inv s ∧ step s = .next t :=
  ⟨{ rested with pending := [.target 3#8] }, _, ⟨{ rested_inv.1 with pending := rfl }, rested_inv.2⟩, rfl⟩

/-- A state that has the limits. -/
theorem witness_EveryCommandCompletes : ∃ s : State, Inv s := ⟨rested, rested_inv⟩

theorem witness_StepRunsTheFrontCommand :
    (∃ s : State,
      s.pending = [Instr.attemptclear, Instr.resetPart]) ∧
    (∃ s : State,
      s.pending = []) :=
  ⟨⟨{ rested with pending := [.attemptclear, .resetPart] }, by decide +kernel⟩,
    ⟨rested, by decide +kernel⟩⟩

theorem witness_DirectiveBytesReadBack :
    ((Instr.newsack 4660#16).wellFormed = true ∧ directiveCode (Instr.newsack 4660#16) = some 78#8) :=
  by decide +kernel

theorem witness_DirectiveSentInBytesIsTheCommand :
    (∃ s : State,
      (Instr.target 3#8).wellFormed = true ∧ (directiveCode (Instr.target 3#8)).isSome = true ∧ s.requests = [] ∧
      s.link.parser = Parser.payload ∧ s.link.stallDue = none) :=
  ⟨rested, by decide +kernel⟩

theorem witness_ParserFollowsItsStates :
    (∃ s : State,
      s.requests = [] ∧ s.link.parser = Parser.payload) ∧
    (∃ s : State,
      s.requests = [] ∧ s.link.parser = Parser.shifted ∧ 32 ≤ (32#8).toNat ∧ (32#8).toNat ≤ 126) ∧
    (∃ s : State,
      s.requests = [] ∧ s.link.parser = Parser.shifted ∧ 32 ≤ (126#8).toNat ∧ (126#8).toNat ≤ 126) ∧
    (∃ s : State,
      s.requests = [] ∧ s.link.parser = Parser.shifted ∧ ¬31#8 = 197#8 ∧ ((31#8).toNat < 32 ∨ 126 < (31#8).toNat)) ∧
    (∃ s : State,
      s.requests = [] ∧ s.link.parser = Parser.shifted ∧ ¬127#8 = 197#8 ∧ ((127#8).toNat < 32 ∨ 126 < (127#8).toNat)) ∧
    (∃ s : State,
      s.requests = [] ∧ s.link.parser = Parser.count 84#8 ∧ ¬255#8 = 0#8) ∧
    (∃ s : State,
      s.requests = [] ∧ s.link.parser = Parser.params 78#8 2#8 [] ∧ ([] : List Byte).length + 1 < (2#8).toNat) ∧
    (∃ s : State,
      s.requests = [] ∧ s.link.parser = Parser.params (78#8) (201#8) (List.replicate 200 0#8) ∧
      (201#8).toNat = (List.replicate 200 0#8).length + 1 ∧ 200 < (201#8).toNat) ∧
    (∃ s : State,
      s.requests = [] ∧ s.link.parser = Parser.payload ∧ ¬7#8 = 197#8) ∧
    (∃ s : State,
      s.requests = [] ∧ s.link.parser = Parser.shifted) ∧
    (∃ s : State,
      s.requests = [] ∧ s.link.parser = Parser.count 97#8) ∧
    (∃ s : State,
      s.requests = [] ∧ s.link.parser = Parser.params 84#8 1#8 [] ∧ (1#8).toNat = ([] : List Byte).length + 1 ∧ (1#8).toNat ≤ 200) ∧
    (∃ s : State,
      s.requests = [] ∧ s.link.parser = Parser.params 126#8 1#8 [] ∧ (1#8).toNat = ([] : List Byte).length + 1 ∧ (1#8).toNat ≤ 200 ∧
      (126#8).toNat ∉ directiveCodes) ∧
    (∃ s : State,
      (s.requests = [] ∧ s.link.parser = Parser.params 84#8 2#8 [0#8] ∧ (2#8).toNat = [0#8].length + 1 ∧ (2#8).toNat ≤ 200 ∧
       (84#8).toNat ∈ directiveCodes) ∧
      (∀ (i : Instr), decodeDirective (84#8) ([0#8] ++ [3#8]) ≠ Taken.directive i)) ∧
    (∃ s : State,
      s.requests = [] ∧ s.link.stallDue = some 500 ∧ s.link.parser = Parser.shifted) ∧
    (∃ s : State,
      s.requests = [] ∧ s.link.stallDue = some 500 ∧ ((∃ (c : Byte), s.link.parser = Parser.count c) ∧ 2#8 = 2#8)) ∧
    (∃ s : State,
      (s.requests = [] ∧ s.link.stallDue = some 500) ∧
      ((∃ (c : Byte) (n : Byte) (g : List Byte), s.link.parser = Parser.params c n g) ∧ 3#8 = 3#8)) ∧
    (∃ s : State,
      s.requests = [] ∧ s.link.stallDue = none) :=
  ⟨⟨rested, by decide +kernel⟩,
    ⟨(linked fun k => { k with parser := .shifted }), by decide +kernel⟩,
    ⟨(linked fun k => { k with parser := .shifted }), by decide +kernel⟩,
    ⟨(linked fun k => { k with parser := .shifted }), by decide +kernel⟩,
    ⟨(linked fun k => { k with parser := .shifted }), by decide +kernel⟩,
    ⟨(linked fun k => { k with parser := .count 0x54#8 }), by decide +kernel⟩,
    ⟨(linked fun k => { k with parser := .params 0x4E#8 2#8 [] }), by decide +kernel⟩,
    ⟨(linked fun k => { k with parser := .params 0x4E#8 201#8 (List.replicate 200 0#8) }), by decide +kernel⟩,
    ⟨rested, by decide +kernel⟩,
    ⟨(linked fun k => { k with parser := .shifted }), by decide +kernel⟩,
    ⟨(linked fun k => { k with parser := .count 0x61#8 }), by decide +kernel⟩,
    ⟨(linked fun k => { k with parser := .params 0x54#8 1#8 [] }), by decide +kernel⟩,
    ⟨(linked fun k => { k with parser := .params 0x7E#8 1#8 [] }), by decide +kernel⟩,
    ⟨(linked fun k => { k with parser := .params 0x54#8 2#8 [0#8] }), by decide +kernel, by intro x hx; cases hx⟩,
    ⟨(linked fun k => { k with parser := .shifted, stallDue := some 500 }), by decide +kernel⟩,
    ⟨(linked fun k => { k with parser := .count 0x54#8, stallDue := some 500 }), by decide +kernel⟩,
    ⟨(linked fun k => { k with parser := .params 0x54#8 2#8 [0#8], stallDue := some 500 }), by decide +kernel, ⟨⟨_, _, _, rfl⟩, rfl⟩⟩,
    ⟨rested, by decide +kernel⟩⟩

theorem witness_PayloadByteJoinsOrIsDiscarded :
    (∃ s : State,
      s.requests = [] ∧ (s.link.parser = Parser.payload ∧ 7#8 ≠ 197#8) ∧ s.link.target = targetOf Line.A ∧ ¬s.st Line.A = LineSt.idle ∧
      ¬s.st Line.A = LineSt.ringing ∧ (s.line Line.A).dl.tx.length < 2048 ∧ ¬s.st Line.A = LineSt.data) ∧
    (∃ s u : State,
      s.requests = [] ∧
      (s.link.parser = Parser.shifted ∧ u = { s with link := { s.link with parser := Parser.payload, stallDue := none } }) ∧
      s.link.target = targetOf Line.A ∧ ¬s.st Line.A = LineSt.idle ∧ ¬s.st Line.A = LineSt.ringing ∧ (s.line Line.A).dl.tx.length < 2048 ∧
      ¬s.st Line.A = LineSt.data) ∧
    (∃ s : State,
      s.requests = [] ∧ s.link.parser = Parser.payload ∧ ¬7#8 = 197#8 ∧ s.link.target = Target.none ∧
      s.link.discard.get s.link.target = false ∧ s.link.reports.length < 32) ∧
    (∃ s : State,
      (s.requests = [] ∧ s.link.parser = Parser.payload ∧ ¬7#8 = 197#8 ∧ s.link.discard.get s.link.target = false ∧
       s.link.reports.length < 32) ∧
      (∃ (l : Line), s.link.target = targetOf l ∧ (s.st l = LineSt.idle ∨ s.st l = LineSt.ringing ∨ 2048 ≤ (s.line l).dl.tx.length))) ∧
    (∃ s : State,
      s.requests = [] ∧ s.link.parser = Parser.payload ∧ ¬7#8 = 197#8 ∧ s.link.target = Target.none ∧
      s.link.discard.get s.link.target = false ∧ 32 ≤ s.link.reports.length) ∧
    (∃ s : State,
      s.requests = [] ∧ s.link.parser = Parser.payload ∧ ¬7#8 = 197#8 ∧
      (s.link.target = Target.store ∧ (hostWriteOpen s = false ∨ hostWriteRoom s = 0)) ∧ s.link.discard.get s.link.target = true) :=
  ⟨⟨(inCall .train id (linked fun k => { k with target := .lineA })), by decide +kernel⟩,
    ⟨(inCall .train (fun x => { x with dl := { x.dl with tx := List.replicate 1984 0#8 } }) (linked fun k => { k with target := .lineA, parser := .shifted })), (inCall .train (fun x => { x with dl := { x.dl with tx := List.replicate 1984 0#8 } }) (linked fun k => { k with target := .lineA, parser := .payload, stallDue := none })), by decide +kernel⟩,
    ⟨rested, by decide +kernel⟩,
    ⟨(linked fun k => { k with target := .lineB }), by decide +kernel, ⟨.B, rfl, .inl rfl⟩⟩,
    ⟨fullQueue, by decide +kernel⟩,
    ⟨(linked fun k => { k with target := .store, discard := ⟨false, false, false, true⟩ }), by decide +kernel⟩⟩

theorem witness_ReportsQueueAndTheArbiterChooses :
    (∃ s : State,
      s.link.reports.length < 32 ∧ ¬s.link.sending = Sending.idle) ∧
    (∃ s : State,
      s.link.reports = [] ∧ s.link.sending = Sending.idle ∧ s.link.hhold = false) ∧
    (∃ s : State,
      32 ≤ s.link.reports.length) ∧
    (∃ s : State,
      s.link.sending = Sending.idle ∧ s.link.hhold = true) ∧
    (∃ s : State,
      s.link.sending = Sending.idle ∧ s.link.hhold = false ∧ s.link.reports = [Report.discard Target.store]) ∧
    (∃ s : State,
      s.link.sending = Sending.idle ∧ s.link.hhold = false ∧ s.link.reports = [] ∧
      (Source.lineB = s.link.roundRobin.next ∧ sourceReady s s.link.roundRobin = false) ∧ sourceReady s Source.lineB = true ∧
      ¬s.link.announced = some Source.lineB) ∧
    (∃ s : State,
      s.link.sending = Sending.idle ∧ s.link.hhold = false ∧ s.link.reports = [] ∧ Source.lineA = s.link.roundRobin ∧
      sourceReady s Source.lineA = true ∧ s.link.announced = some Source.lineA) ∧
    (∃ s : State,
      (s.link.sending = Sending.idle ∧ s.link.hhold = false ∧ s.link.reports = []) ∧
      (∀ (src : Source), sourceReady s src = false)) :=
  ⟨⟨rested, by decide +kernel⟩,
    ⟨idleLink, by decide +kernel⟩,
    ⟨fullQueue, by decide +kernel⟩,
    ⟨{ idleLink with link := { idleLink.link with hhold := true } }, by decide +kernel⟩,
    ⟨{ idleLink with link := { idleLink.link with loss := true, reports := [.discard .store] } }, by decide +kernel⟩,
    ⟨(modDl .B (fun d => { d with rx := [1#8] }) idleLink), by decide +kernel⟩,
    ⟨(modDl .A (fun d => { d with rx := [1#8] }) { idleLink with link := { idleLink.link with announced := some .lineA } }), by decide +kernel⟩,
    ⟨idleLink, by decide +kernel, by intro l; cases l <;> decide +kernel⟩⟩

theorem witness_ReportSentEndsTheUnitAndHholdHolds :
    (∃ s : State,
      s.requests = [] ∧ s.link.sending = Sending.source Source.lineA) ∧
    (∃ s : State,
      s.requests = [] ∧ s.link.sending = Sending.report (Report.discard Target.lineB)) ∧
    (∃ s : State,
      s.requests = [] ∧ s.link.sending = Sending.report (Report.done (75#8) Result.ok []) ∧ s.link.pendingRate = some 7) ∧
    (∃ s : State,
      (s.requests = [] ∧ s.link.sending = Sending.report Report.loss) ∧
      (∀ (g : Target), Report.loss ≠ Report.discard g) ∧ (∀ (vs : List Byte), Report.loss ≠ Report.done (75#8) Result.ok vs)) ∧
    (∃ s : State,
      s.requests = [] ∧ ¬s.link.sending = Sending.idle ∧ s.link.sending = Sending.payload Source.lineA 5 false true) ∧
    (∃ s : State,
      (s.requests = [] ∧ ¬s.link.sending = Sending.idle) ∧
      (∀ (src : Source) (n : ℕ) (c v : Bool), s.link.sending ≠ Sending.payload src n c v)) ∧
    (∃ s : State,
      s.requests = [] ∧ s.link.hhold = true) :=
  ⟨⟨(linked fun k => { k with sending := .source .lineA }), by decide +kernel⟩,
    ⟨(linked fun k => { k with sending := .report (.discard .lineB), discard := ⟨false, false, true, false⟩ }), by decide +kernel⟩,
    ⟨(linked fun k => { k with sending := .report (.done 0x4B#8 .ok []), pendingRate := some 7 }), by decide +kernel⟩,
    ⟨rested, by decide +kernel, by intro l; cases l <;> decide +kernel, by intro x hx; cases hx⟩,
    ⟨(linked fun k => { k with sending := .payload .lineA 5 false true }), by decide +kernel⟩,
    ⟨rested, by decide +kernel, by simp [rested]⟩,
    ⟨(linked fun k => { k with hhold := true, sending := .idle, reports := [.loss] }), by decide +kernel⟩⟩

theorem witness_PayloadByteSentLeavesReceiveQueue :
    (∃ s : State,
      s.requests = [] ∧ s.link.sending = Sending.payload (sourceOf Line.A) 62 false true ∧ (s.line Line.A).dl.localBusy = false ∧
      ¬(s.line Line.A).dl.clear = ClearSt.received ∧ ¬s.st Line.A = LineSt.data ∧ 62 < 63 ∧ 2 ≤ (s.line Line.A).dl.rx.length) ∧
    (∃ s : State,
      s.requests = [] ∧ s.link.sending = Sending.payload (sourceOf Line.A) 63 false true ∧ (s.line Line.A).dl.localBusy = false ∧
      ¬(s.line Line.A).dl.clear = ClearSt.received ∧ ¬s.st Line.A = LineSt.data ∧ 63 ≤ 63) ∧
    (∃ s : State,
      s.requests = [] ∧ s.link.sending = Sending.payload Source.hostRead 62 false true ∧
      s.store.readHost = some (reading 100 4000 [[1#8, 2#8]] true) ∧ (reading 100 4000 [[1#8, 2#8]] true).buffers = [[1#8, 2#8]] ∧
      ¬s.store.grant = none ∧ (reading 100 4000 [[1#8, 2#8]] true).position + 1 < (reading 100 4000 [[1#8, 2#8]] true).length ∧ 62 < 63 ∧
      ¬[2#8] = []) ∧
    (∃ s : State,
      s.requests = [] ∧ s.link.sending = Sending.payload Source.hostRead 63 false true ∧
      s.store.readHost = some (reading 100 4000 [[1#8, 2#8]] true) ∧ (reading 100 4000 [[1#8, 2#8]] true).buffers = [[1#8, 2#8]] ∧
      ¬s.store.grant = none ∧ (reading 100 4000 [[1#8, 2#8]] true).position + 1 < (reading 100 4000 [[1#8, 2#8]] true).length ∧ 63 ≤ 63) ∧
    (∃ s : State,
      s.requests = [] ∧ s.link.sending = Sending.payload Source.hostRead 3 false true ∧
      s.store.readHost = some (reading 3999 4000 [[1#8]] true) ∧ (reading 3999 4000 [[1#8]] true).buffers = [[1#8]] ∧
      ¬s.store.grant = none ∧ (reading 3999 4000 [[1#8]] true).length ≤ (reading 3999 4000 [[1#8]] true).position + 1 ∧
      findEntry s (reading 3999 4000 [[1#8]] true).id = some { (voiceMessage 7) with inUse := 1 } ∧
      1 ≤ { (voiceMessage 7) with inUse := 1 }.inUse ∧ { (voiceMessage 7) with inUse := 1 }.erasePending = false) :=
  ⟨⟨(modDl .A (fun d => { d with rx := [1#8, 2#8] }) (linked fun k => { k with sending := .payload .lineA 62 false true })), by decide +kernel⟩,
    ⟨(modDl .A (fun d => { d with rx := [1#8, 2#8] }) (linked fun k => { k with sending := .payload .lineA 63 false true })), by decide +kernel⟩,
    ⟨(hostSending 62 (reading 100 4000 [[1#8, 2#8]] true)), by decide +kernel⟩,
    ⟨(hostSending 63 (reading 100 4000 [[1#8, 2#8]] true)), by decide +kernel⟩,
    ⟨(hostSending 3 (reading 3999 4000 [[1#8]] true)), by decide +kernel⟩⟩

theorem witness_TargetSelectsTheTarget :
    (∃ s : State,
      s.requests = [] ∧ (3#8, Target.store) ∈ [(0#8, Target.none), (1#8, Target.lineA), (2#8, Target.lineB), (3#8, Target.store)]) ∧
    (∃ s : State,
      s.requests = [] ∧ (0#8, Target.none) ∈ [(0#8, Target.none), (1#8, Target.lineA), (2#8, Target.lineB), (3#8, Target.store)]) ∧
    (∃ s : State,
      s.requests = [] ∧ 3 < (4#8).toNat) :=
  ⟨⟨rested, by decide +kernel⟩,
    ⟨rested, by decide +kernel⟩,
    ⟨rested, by decide +kernel⟩⟩

theorem witness_LinkrateAwaitsItsAnswer :
    (∃ s : State,
      s.requests = [] ∧ 7 < (8#8).toNat) ∧
    (∃ s : State,
      s.requests = [] ∧ (7#8).toNat ≤ 7 ∧ ¬s.link.pendingRate = none) ∧
    (∃ s : State,
      s.requests = [] ∧ (7#8).toNat ≤ 7 ∧ s.link.pendingRate = none ∧ s.link.reports.length < 32) ∧
    (∃ s : State,
      s.requests = [] ∧ (7#8).toNat ≤ 7 ∧ s.link.pendingRate = none ∧ 32 ≤ s.link.reports.length) :=
  ⟨⟨rested, by decide +kernel⟩,
    ⟨(linked fun k => { k with pendingRate := some 1 }), by decide +kernel⟩,
    ⟨rested, by decide +kernel⟩,
    ⟨fullQueue, by decide +kernel⟩⟩

theorem witness_ClocksAreSetAndCount :
    (∃ s : State,
      s.requests = [] ∧
      (29 = if (2#8).toNat = 2 then if (96#8).toNat % 4 = 0 then 29 else 28 else if (2#8).toNat = 4 ∨ (2#8).toNat = 6 ∨ (2#8).toNat = 9 ∨ (2#8).toNat = 11 then 30 else 31) ∧
      ((96#8).toNat ≤ 99 ∧ 1 ≤ (2#8).toNat ∧ (2#8).toNat ≤ 12 ∧ 1 ≤ (29#8).toNat ∧ (29#8).toNat ≤ 29 ∧ (23#8).toNat ≤ 23 ∧ (59#8).toNat ≤ 59)) ∧
    (∃ s : State,
      s.requests = [] ∧
      (28 = if (2#8).toNat = 2 then if (97#8).toNat % 4 = 0 then 29 else 28 else if (2#8).toNat = 4 ∨ (2#8).toNat = 6 ∨ (2#8).toNat = 9 ∨ (2#8).toNat = 11 then 30 else 31) ∧
      (¬((97#8).toNat ≤ 99 ∧ 1 ≤ (2#8).toNat ∧ (2#8).toNat ≤ 12 ∧ 1 ≤ (29#8).toNat ∧ (29#8).toNat ≤ 28 ∧ (23#8).toNat ≤ 23 ∧ (59#8).toNat ≤ 59))) ∧
    (∃ s : State,
      s.requests = [] ∧ s.link.minuteDue = some 60000 ∧
      s.link.dayClock = some { year := 99, month := 12, day := 31, hour := 23, minute := 59 : DayClock }) ∧
    (∃ s : State,
      s.requests = [] ∧ s.link.minuteDue = none) ∧
    (∃ s : State,
      s.requests = [] ∧ s.jobs = []) :=
  ⟨⟨rested, by decide +kernel⟩,
    ⟨rested, by decide +kernel⟩,
    ⟨(linked fun k => { k with minuteDue := some 60000, dayClock := some ⟨99, 12, 31, 23, 59⟩ }), by decide +kernel⟩,
    ⟨rested, by decide +kernel⟩,
    ⟨(linked fun k => { k with seconds := 4294967295 }), by decide +kernel⟩⟩

theorem witness_ResetTablesRestoresDefaults :
    (∃ s : State,
      (s.requests = []) ∧
      (∃ (l : Line), s.st l ≠ LineSt.idle)) ∧
    (∃ s : State,
      (s.requests = [] ∧ (∀ m ∈ s.mailboxes, m.greeting = none)) ∧
      (∀ (l : Line), s.st l = LineSt.idle)) ∧
    (∃ s : State,
      (s.requests = [] ∧ (∀ m ∈ s.mailboxes, m.greeting = none)) ∧
      (∀ (l : Line), s.st l = LineSt.idle)) :=
  ⟨⟨(inCall .train id rested), by decide +kernel, ⟨.A, by decide⟩⟩,
    ⟨rested, by decide +kernel, by intro l; cases l <;> decide +kernel⟩,
    ⟨flagged, by decide +kernel, by intro l; cases l <;> decide +kernel⟩⟩

theorem witness_ResetLineResetsTheLine :
    (∃ s : State,
      s.requests = [] ∧ (s.line Line.B).fax.role = none ∧ (s.line Line.B).voice.sub = none ∧ (s.line Line.B).call.cr.job = none ∧
      (s.line Line.B).call.refHeld = false ∧ (∀ w ∈ s.store.writers, closingCut Line.B w (findEntry s w.id) = false)) ∧
    (∃ s : State,
      s.requests = [] ∧ (s.line Line.A).fax.role = none ∧ (s.line Line.A).voice.sub = none ∧ (s.line Line.A).call.cr.job = none ∧
      (s.line Line.A).call.refHeld = false ∧ (∀ w ∈ s.store.writers, closingCut Line.A w (findEntry s w.id) = false)) :=
  ⟨⟨rested, by decide +kernel⟩,
    ⟨(inCall .progress id rested), by decide +kernel⟩⟩

theorem witness_QueryRefusesOrAnswers :
    (∃ s : State,
      s.requests = [] ∧ arbiterKick s = s ∧ 11 < (12#8).toNat) ∧
    (∃ s : State,
      s.requests = [] ∧ arbiterKick s = s ∧ 23 < (24#16).toNat) ∧
    (∃ s : State,
      s.requests = [] ∧ arbiterKick s = s ∧ ((31#16).toNat < 32 ∧ entryAt s.screen (31#16).toNat = none)) ∧
    (∃ s : State,
      s.requests = [] ∧ arbiterKick s = s ∧ ((1#16).toNat ≠ 0 ∧ s.store.st = StoreSt.ready ∧ findEntry s (1#16).toNat = none)) ∧
    (∃ s : State,
      s.requests = [] ∧ arbiterKick s = s ∧ ¬(1#16).toNat = 0 ∧ ¬s.store.st = StoreSt.ready) ∧
    (∃ s : State,
      s.requests = [] ∧ arbiterKick s = s) ∧
    (∃ s : State,
      s.requests = [] ∧ arbiterKick s = s ∧
      [[1#8], jobSnapshot waitingJob] = [BitVec.ofNat 8 s.jobs.length] :: List.map jobSnapshot (listOrder s.store.settings.order s.jobs)) ∧
    (∃ s : State,
      (s.requests = [] ∧ arbiterKick s = s) ∧
      (∃ (e : ToneEntry), 5#8 = 5#8 ∧ (0#16).toNat < 24 ∧ entryAt s.tones (0#16).toNat = some e ∧ [toneSnapshot s 0 (defaultTone ToneKind.dtmf 0 (-30) 40 40 ToneAction.report Meaning.dtmf [LineSt.classify, LineSt.voice])] = [toneSnapshot s (0#16).toNat e])) ∧
    (∃ s : State,
      (s.requests = [] ∧ arbiterKick s = s) ∧
      (∃ (e : CadEntry), 6#8 = 6#8 ∧ (3#16).toNat < 8 ∧ entryAt s.cadences (3#16).toNat = some e ∧ [cadenceSnapshot s 3 (defaultCadence CadSource.ring [400, 200, 400, 2000] 1 (Meaning.ringClass 2))] = [cadenceSnapshot s (3#16).toNat e])) ∧
    (∃ s : State,
      (s.requests = [] ∧ arbiterKick s = s) ∧
      (∃ (e : ScreenEntry), 7#8 = 7#8 ∧ (31#16).toNat < 32 ∧ entryAt s.screen (31#16).toNat = some e ∧ [screenSnapshot { pattern := Pattern.withheld, dir := ScreenDir.both, action := ScreenAction.bar : ScreenEntry }] = [screenSnapshot e])) ∧
    (∃ s : State,
      (s.requests = [] ∧ arbiterKick s = s) ∧
      (∃ (e : AttemptRecord), 8#8 = 8#8 ∧ (15#16).toNat < 16 ∧ entryAt s.attempts (15#16).toNat = some e ∧ [attemptSnapshot s { number := [49#8], failures := 1, last := 0, next := 60 : AttemptRecord }] = [attemptSnapshot s e])) ∧
    (∃ s : State,
      (s.requests = [] ∧ arbiterKick s = s) ∧
      (∃ (r : Rung), 9#8 = 9#8 ∧ (6#16).toNat < 8 ∧ s.ladder[(6#16).toNat]? = some r ∧ [rungSnapshot { mode := Mode.l240, u := 60, d := 200, x := 600 : Rung }] = [rungSnapshot r])) ∧
    (∃ s : State,
      (s.requests = [] ∧ arbiterKick s = s) ∧
      (∃ (m : Mailbox), 10#8 = 10#8 ∧ (7#16).toNat < 8 ∧ s.mailboxes[(7#16).toNat]? = some m ∧ [mailboxSnapshot s (defaultMailbox 7)] = [mailboxSnapshot s m])) ∧
    (∃ s : State,
      (s.requests = [] ∧ arbiterKick s = s) ∧
      (∃ (e : Entry), 11#8 = 11#8 ∧ (5#16).toNat ≠ 0 ∧ s.store.st = StoreSt.ready ∧ findEntry s (5#16).toNat = some e ∧ [entrySnapshot s (filed 5)] = [entrySnapshot s e])) ∧
    (∃ s : State,
      s.requests = [] ∧ arbiterKick s = s) :=
  ⟨⟨rested, by decide +kernel⟩,
    ⟨rested, by decide +kernel⟩,
    ⟨rested, by decide +kernel⟩,
    ⟨rested, by decide +kernel⟩,
    ⟨{ rested with store := { rested.store with st := .scanning } }, by decide +kernel⟩,
    ⟨(queried), by decide +kernel⟩,
    ⟨(queried), by decide +kernel⟩,
    ⟨(queried), by decide +kernel, by simp; decide⟩,
    ⟨(queried), by decide +kernel, by simp; decide⟩,
    ⟨(queried), by decide +kernel, by simp; decide⟩,
    ⟨(queried), by decide +kernel, by simp; decide⟩,
    ⟨(queried), by decide +kernel, by simp; decide⟩,
    ⟨(queried), by decide +kernel, by simp; decide⟩,
    ⟨(queried), by decide +kernel, by simp; decide⟩,
    ⟨rested, by decide +kernel⟩⟩

theorem witness_RingDebouncerTakesPulsesAndEnds :
    (∃ s : State,
      (s.requests = [] ∧ hasPin s (ringFn Line.A) = true) ∧
      (∀ (e : CadEntry), some e ∈ s.cadences → e.source ≠ CadSource.ring) ∧
      (∀ (bs : List Byte), (s.line Line.A).iface.window ≠ CallerWindow.gathering bs)) ∧
    (∃ s : State,
      (s.requests = [] ∧ hasPin s (ringFn Line.B) = true) ∧
      (∀ (e : CadEntry), some e ∈ s.cadences → e.source ≠ CadSource.ring) ∧
      (∀ (bs : List Byte), (s.line Line.B).iface.window ≠ CallerWindow.gathering bs)) ∧
    (∃ s : State,
      (s.requests = [] ∧ hasPin s (ringFn Line.A) = true ∧ (s.line Line.A).iface.window = CallerWindow.gathering [0x51#8] ∧
       formCaller [0x51#8] = some badCaller) ∧
      (∀ (e : CadEntry), some e ∈ s.cadences → e.source ≠ CadSource.ring)) ∧
    (∃ s : State,
      (s.requests = [] ∧ hasPin s (ringFn Line.B) = false) ∧
      (∀ (e : CadEntry), some e ∈ s.cadences → e.source ≠ CadSource.ring)) ∧
    (∃ s : State,
      (s.requests = [] ∧ (s.line Line.A).iface.ring = RingDeb.pending 0 150) ∧
      (∀ (e : CadEntry), some e ∈ s.cadences → e.source ≠ CadSource.ring)) ∧
    (∃ s : State,
      (s.requests = [] ∧ (s.line Line.A).iface.ring = RingDeb.on 0 350) ∧
      (∀ (e : CadEntry), some e ∈ s.cadences → e.source ≠ CadSource.ring)) ∧
    (∃ s : State,
      (s.requests = [] ∧ (s.line Line.A).iface.ring = RingDeb.on 0 350 ∧ (s.line Line.A).call.firstRing = true ∧ s.st Line.A = LineSt.ringing) ∧
      (∀ (e : CadEntry), some e ∈ s.cadences → e.source ≠ CadSource.ring)) :=
  ⟨⟨(lined fun i => { i with ring := .pending 0 100, window := .listening }), by decide +kernel, lined_cadences _, by intro x hx; cases hx⟩,
    ⟨plain, by decide +kernel, plain_cadences, by intro x hx; cases hx⟩,
    ⟨(lined fun i => { i with ring := .on 0 100, window := .gathering [0x51#8] }), by decide +kernel, lined_cadences _⟩,
    ⟨{ plain with pins := List.replicate 12 ⟨.out, false⟩ }, by decide +kernel, plain_cadences⟩,
    ⟨(lined fun i => { i with ring := .pending 0 150 }), by decide +kernel, lined_cadences _⟩,
    ⟨(lined fun i => { i with ring := .on 0 350 }), by decide +kernel, lined_cadences _⟩,
    ⟨(inCall .ringing (fun x => { x with
        iface := { x.iface with ring := .on 0 350, window := .closed }, call := { x.call with firstRing := true } }) plain),
      by decide +kernel, plain_cadences⟩⟩

theorem witness_RingOnStartsOrCountsRinging :
    (∃ s : State,
      (s.requests = [] ∧ (s.line Line.A).iface.ring = RingDeb.pending 0 350 ∧ (∀ e ∈ s.screen, e = none) ∧
       (s.line Line.A).profile.answerMode = CallMode.off ∧ (s.line Line.A).iface.expecting = false ∧ (s.line Line.A).voice.sub = none ∧
       s.st Line.A = LineSt.idle ∧ (¬((s.line Line.A).profile.extPolicy = ExtPolicy.yieldLine ∧ (s.line Line.A).iface.extState = true))) ∧
      (∀ (e : CadEntry), some e ∈ s.cadences → e.source ≠ CadSource.ring)) ∧
    (∃ s : State,
      (s.requests = [] ∧ (s.line Line.A).iface.ring = RingDeb.pending 0 350 ∧ (∀ e ∈ s.screen, e = none) ∧
       (s.line Line.A).profile.answerMode = CallMode.off ∧ (s.line Line.A).iface.expecting = false ∧ (s.line Line.A).voice.sub = none ∧
       s.st Line.A = LineSt.ringing ∧ (s.line Line.A).call.cr.ringClass = none) ∧
      (∀ (e : CadEntry), some e ∈ s.cadences → e.source ≠ CadSource.ring)) :=
  ⟨⟨(lined fun i => { i with ring := .pending 0 350 }), by decide +kernel, lined_cadences _⟩,
    ⟨(inCall .ringing (fun x => { x with call := { x.call with cr := { x.call.cr with rings := 254 } } }) (lined fun i => { i with ring := .pending 0 350 })), by decide +kernel, plain_cadences⟩⟩

theorem witness_CallerBurstFormsTheRecord :
    (∃ s : State,
      s.requests = [] ∧ (s.line Line.A).iface.window = CallerWindow.listening) ∧
    (∃ s : State,
      s.requests = [] ∧ (s.line Line.A).iface.window = CallerWindow.gathering [81#8] ∧
      ¬burstLength ([81#8] ++ [0#8]) = some ([81#8].length + 1)) ∧
    (∃ s : State,
      s.requests = [] ∧ (s.line Line.A).iface.window = CallerWindow.gathering [81#8, 0#8] ∧
      burstLength ([81#8, 0#8] ++ [0#8]) = some ([81#8, 0#8].length + 1) ∧ formCaller ([81#8, 0#8] ++ [0#8]) = some badCaller) ∧
    (∃ s : State,
      s.requests = [] ∧ (s.line Line.A).iface.window = CallerWindow.gathering [81#8, 0#8] ∧ formCaller [81#8, 0#8] = some badCaller) ∧
    (∃ s : State,
      s.requests = [] ∧ (s.line Line.A).iface.window = CallerWindow.closed) ∧
    ((burstContent.length = (11#8).toNat ∧ (∀ f ∈ burstFieldList, f.2.length < 256) ∧
       (burstContent = List.flatMap (fun (f : Byte × List Byte) => f.1 :: BitVec.ofNat 8 f.2.length :: f.2) burstFieldList ++ [19#8, 9#8, 65#8])) ∧
      (∃ (code : Byte) (len : Byte) (c : List Byte), [19#8, 9#8, 65#8] = code :: len :: c ∧ c.length < BitVec.toNat len)) ∧
    ((burstContent.length < (12#8).toNat ∧ (∀ f ∈ burstFieldList, f.2.length < 256) ∧
       (burstContent = List.flatMap (fun (f : Byte × List Byte) => f.1 :: BitVec.ofNat 8 f.2.length :: f.2) burstFieldList ++ [19#8, 9#8, 65#8])) ∧
      (∃ (code : Byte) (len : Byte) (c : List Byte), [19#8, 9#8, 65#8] = code :: len :: c ∧ c.length < BitVec.toNat len)) ∧
    ([49#8, 57#8].length = (2#8).toNat) :=
  ⟨⟨(lined fun i => { i with window := .listening }), by decide +kernel⟩,
    ⟨(lined fun i => { i with window := .gathering [0x51#8] }), by decide +kernel⟩,
    ⟨(lined fun i => { i with window := .gathering [0x51#8, 0#8] }), by decide +kernel⟩,
    ⟨(lined fun i => { i with window := .gathering [0x51#8, 0#8] }), by decide +kernel⟩,
    ⟨plain, by decide +kernel⟩,
    ⟨by decide +kernel, by simp [rested]⟩,
    ⟨by decide +kernel, by simp [rested]⟩,
    by decide +kernel⟩

theorem witness_LoopAndExtensionAreDebounced :
    (∃ s : State,
      s.requests = [] ∧ hasPin s (loopFn Line.A) = true ∧ hasPin s (extFn Line.A) = true ∧ ¬(s.line Line.A).iface.loopIn = true ∧
      (s.line Line.A).iface.loopSuspended = false) ∧
    (∃ s : State,
      s.requests = [] ∧ hasPin s (loopFn Line.A) = true ∧ hasPin s (extFn Line.A) = true ∧ ¬(s.line Line.A).iface.loopIn = false ∧
      (s.line Line.A).iface.loopSuspended = false) ∧
    (∃ s : State,
      s.requests = [] ∧ hasPin s (loopFn Line.A) = true ∧ hasPin s (extFn Line.A) = true ∧
      (s.line Line.A).iface.loop = LoopDeb.wait 1000 (some 20) ∧ ¬s.st Line.A = LineSt.seize) ∧
    (∃ s : State,
      s.requests = [] ∧ hasPin s (loopFn Line.B) = true ∧ hasPin s (extFn Line.B) = true ∧ ¬true = (s.line Line.B).iface.extState ∧
      ¬(s.line Line.B).iface.extIn = true) ∧
    (∃ s : State,
      s.requests = [] ∧ hasPin s (loopFn Line.A) = true ∧ hasPin s (extFn Line.A) = true ∧ false = (s.line Line.A).iface.extState) ∧
    (∃ s : State,
      s.requests = [] ∧ hasPin s (loopFn Line.A) = true ∧ hasPin s (extFn Line.A) = true ∧ (s.line Line.A).iface.extDue = some 50 ∧
      (s.line Line.A).iface.extIn = false ∧ (s.line Line.A).iface.extState = true ∧ (s.line Line.A).profile.autoCallout = false) :=
  ⟨⟨(lined fun i => { i with loop := .wait 1000 none }), by decide +kernel⟩,
    ⟨(lined fun i => { i with loop := .present, loopIn := true }), by decide +kernel⟩,
    ⟨(lined fun i => { i with loop := .wait 1000 (some 20) }), by decide +kernel⟩,
    ⟨plain, by decide +kernel⟩,
    ⟨(lined fun i => { i with extIn := true, extDue := some 50 }), by decide +kernel⟩,
    ⟨(lined fun i => { i with extState := true, extDue := some 50 }), by decide +kernel⟩⟩

theorem witness_ToneGeneratorKeepsItsTimes :
    (∃ s : State,
      s.requests = [] ∧ (s.line Line.A).iface.tone = some { signal := ToneSignal.dtmf (49#8) 80 70, sounding := true, due := 80 : ToneGen }) ∧
    (∃ s : State,
      s.requests = [] ∧ (s.line Line.A).iface.tone = some { signal := ToneSignal.faxCalling, sounding := true, due := 500 : ToneGen }) ∧
    (∃ s : State,
      s.requests = [] ∧ (s.line Line.A).iface.tone = some { signal := ToneSignal.dataCalling, sounding := false, due := 500 : ToneGen }) ∧
    (∃ s : State,
      s.requests = [] ∧ (s.line Line.A).iface.tone = some { signal := ToneSignal.beep 1000 500, sounding := true, due := 500 : ToneGen } ∧
      ¬(s.line Line.A).voice.sub = some VoiceSub.beep) ∧
    (∃ s : State,
      s.requests = [] ∧ (s.line Line.A).iface.tone = some { signal := ToneSignal.answer, sounding := true, due := 3000 : ToneGen } ∧
      ¬s.st Line.A = LineSt.train ∧ ¬s.st Line.A = LineSt.fax) ∧
    (∃ s : State,
      s.requests = [] ∧
      (s.line Line.A).iface.tone = some { signal := ToneSignal.dtmf (49#8) 80 70, sounding := false, due := 150 : ToneGen } ∧
      ¬s.st Line.A = LineSt.dial) ∧
    (∃ s : State,
      s.requests = [] ∧ (s.line Line.A).iface.tone = some { signal := ToneSignal.answer, sounding := true, due := 3000 : ToneGen } ∧
      s.st Line.A = LineSt.train ∧ (s.line Line.A).modem.phase = none ∧ (s.line Line.A).modem.retrainFrom = none) ∧
    ([697, 770, 852, 941][3]? = some 941 ∧ [1209, 1336, 1477, 1633][0]? = some 1209 ∧
      [[49#8, 50#8, 51#8, 65#8], [52#8, 53#8, 54#8, 66#8], [55#8, 56#8, 57#8, 67#8], [42#8, 48#8, 35#8, 68#8]][3]? = some [42#8, 48#8, 35#8, 68#8] ∧
      [42#8, 48#8, 35#8, 68#8][0]? = some 42#8) ∧
    (∃ s : State,
      (s.line Line.A).iface.tone = some { signal := ToneSignal.faxCalling, sounding := true, due := 500 : ToneGen } ∧
      ¬s.st Line.A = LineSt.idle ∧ ¬s.st Line.A = LineSt.ringing ∧ ¬s.st Line.A = LineSt.cleardown ∧ squelched s Line.A = false ∧
      { signal := ToneSignal.faxCalling, sounding := true, due := 500 : ToneGen }.sounding = true) ∧
    (∃ s : State,
      (s.line Line.A).iface.tone = some { signal := ToneSignal.faxCalling, sounding := false, due := 500 : ToneGen } ∧
      ({ signal := ToneSignal.faxCalling, sounding := false, due := 500 : ToneGen }.sounding = false ∨ squelched s Line.A = true)) :=
  ⟨⟨(lined fun i => { i with tone := some ⟨.dtmf 0x31#8 80 70, true, 80⟩ }), by decide +kernel⟩,
    ⟨(lined fun i => { i with tone := some ⟨.faxCalling, true, 500⟩ }), by decide +kernel⟩,
    ⟨(lined fun i => { i with tone := some ⟨.dataCalling, false, 500⟩ }), by decide +kernel⟩,
    ⟨(lined fun i => { i with tone := some ⟨.beep 1000 500, true, 500⟩ }), by decide +kernel⟩,
    ⟨(lined fun i => { i with tone := some ⟨.answer, true, 3000⟩ }), by decide +kernel⟩,
    ⟨(lined fun i => { i with tone := some ⟨.dtmf 0x31#8 80 70, false, 150⟩ }), by decide +kernel⟩,
    ⟨(inCall .train (fun x => { x with iface := { x.iface with tone := some ⟨.answer, true, 3000⟩ } }) plain), by decide +kernel⟩,
    by decide +kernel,
    ⟨(inCall .progress (fun x => { x with iface := { x.iface with tone := some ⟨.faxCalling, true, 500⟩ } }) plain), by decide +kernel⟩,
    ⟨(inCall .progress (fun x => { x with iface := { x.iface with tone := some ⟨.faxCalling, false, 500⟩ } }) plain), by decide +kernel⟩⟩

/-- The default assignment with pin `k` made OUT and, where `other` names one, another pin given a function. -/
def movedPins (k : Nat) (other : Option (Nat × PinFn)) : List PinCfg :=
  let out := defaultPins.set k ⟨.out, false⟩
  match other with
  | some (j, g) => out.set j ⟨g, false⟩
  | none => out

/-- An assignment as PINS carries it, every OUT level low. -/
def carried (pins : List PinCfg) : List (Byte × Byte) := pins.map fun p => (BitVec.ofNat 8 p.fn.code, 0#8)

/-- PINS with that assignment is accepted in the state and moves the inputs of one function alone. -/
def movesOnly (g : PinFn) (pins : List PinCfg) (s : State) : Prop :=
  s.requests = [] ∧ pinsOf (carried pins) = some pins ∧ pins.length = 12 ∧ pinsPlaced pins = true ∧
  (∀ l ∈ [Line.A, Line.B], s.st l = .idle ∨ pinOf s.pins (hookFn l) = pinOf pins (hookFn l)) ∧
  (∀ l ∈ [Line.A, Line.B], ∀ f ∈ [ringFn l, loopFn l, extFn l], f ≠ g → pinOf s.pins f = pinOf pins f)

theorem witness_PinsAssignsFunctions :
    (∃ s : State,
      s.requests = [] ∧ (∃ p ∈ pinBytes.set 11 (12#8, 0#8), 11 < BitVec.toNat p.1 ∨ 1 < BitVec.toNat p.2)) ∧
    (∃ s : State,
      s.requests = [] ∧ (∃ p ∈ pinBytes.set 11 (4#8, 2#8), 11 < BitVec.toNat p.1 ∨ 1 < BitVec.toNat p.2)) ∧
    (∃ s : State,
      (s.requests = [] ∧ pinsOf (pinBytes.set 11 (0#8, 0#8)) = some (defaultPins.set 11 { fn := PinFn.hookA, level := false : PinCfg }) ∧
       (defaultPins.set 11 { fn := PinFn.hookA, level := false : PinCfg }).length = 12) ∧
      (∃ (j : ℕ) (k : ℕ) (p : PinCfg) (q : PinCfg), j ≠ k ∧ (defaultPins.set 11 { fn := PinFn.hookA, level := false : PinCfg })[j]? = some p ∧ (defaultPins.set 11 { fn := PinFn.hookA, level := false : PinCfg })[k]? = some q ∧ p.fn = q.fn ∧ p.fn ≠ PinFn.inp ∧ p.fn ≠ PinFn.out)) ∧
    (∃ s : State,
      (s.requests = [] ∧ pinsOf (pinBytes.set 8 (11#8, 0#8)) = some (defaultPins.set 8 { fn := PinFn.inp, level := false : PinCfg }) ∧
       (defaultPins.set 8 { fn := PinFn.inp, level := false : PinCfg }).length = 12) ∧
      (∃ (k : ℕ) (p : PinCfg), 8 ≤ k ∧ (defaultPins.set 8 { fn := PinFn.inp, level := false : PinCfg })[k]? = some p ∧ p.fn.isInput = true)) ∧
    (∃ s : State,
      (s.requests = [] ∧ pinsOf (pinBytes.set 0 (4#8, 0#8)) = some (defaultPins.set 0 { fn := PinFn.out, level := false : PinCfg }) ∧
       (defaultPins.set 0 { fn := PinFn.out, level := false : PinCfg }).length = 12 ∧
       pinsPlaced (defaultPins.set 0 { fn := PinFn.out, level := false : PinCfg }) = true) ∧
      (∃ (l : Line), s.st l ≠ LineSt.idle ∧ pinOf s.pins (hookFn l) ≠ pinOf (defaultPins.set 0 { fn := PinFn.out, level := false : PinCfg }) (hookFn l))) ∧
    (∃ s : State,
      (s.requests = [] ∧ pinsOf (pinBytes.set 11 (4#8, 1#8)) = some (defaultPins.set 11 { fn := PinFn.out, level := true : PinCfg }) ∧
       (defaultPins.set 11 { fn := PinFn.out, level := true : PinCfg }).length = 12 ∧
       pinsPlaced (defaultPins.set 11 { fn := PinFn.out, level := true : PinCfg }) = true) ∧
      (∀ (l : Line), s.st l = LineSt.idle ∨ pinOf s.pins (hookFn l) = pinOf (defaultPins.set 11 { fn := PinFn.out, level := true : PinCfg }) (hookFn l)) ∧
      (∀ (l : Line), ∀ f ∈ [ringFn l, loopFn l, extFn l], pinOf s.pins f = pinOf (defaultPins.set 11 { fn := PinFn.out, level := true : PinCfg }) f)) ∧
    (∃ s : State, movesOnly PinFn.ringA (movedPins 1 none) s ∧ pinOf s.pins PinFn.ringA ≠ none ∧ pinOf (movedPins 1 none) PinFn.ringA = none ∧
      (s.line Line.A).iface.ring = RingDeb.pending 0 150) ∧
    (∃ s : State, movesOnly PinFn.ringA (movedPins 1 none) s ∧ pinOf s.pins PinFn.ringA ≠ none ∧ pinOf (movedPins 1 none) PinFn.ringA = none ∧
      (s.line Line.A).iface.ring = RingDeb.on 0 350 ∧ ∀ (e : CadEntry), some e ∈ s.cadences → e.source ≠ CadSource.ring) ∧
    (∃ s : State, movesOnly PinFn.ringA (movedPins 0 (some (1, .ringA))) s ∧ pinOf (movedPins 0 (some (1, .ringA))) PinFn.ringA ≠ none) ∧
    (∃ s : State, movesOnly PinFn.loopA (movedPins 2 none) s ∧ pinOf s.pins PinFn.loopA ≠ none ∧ pinOf (movedPins 2 none) PinFn.loopA = none ∧ s.st Line.A ≠ LineSt.seize ∧
      (s.line Line.A).iface.loop = LoopDeb.wait 5000 none) ∧
    (∃ s : State, movesOnly PinFn.loopA defaultPins s ∧ pinOf defaultPins PinFn.loopA = some 2 ∧ pinOf s.pins PinFn.loopA ≠ some 2 ∧ (s.line Line.A).iface.loopSuspended = false ∧
      (s.line Line.A).iface.loop = LoopDeb.present) ∧
    (∃ s : State, movesOnly PinFn.extA (movedPins 3 none) s ∧ pinOf s.pins PinFn.extA ≠ none ∧ pinOf (movedPins 3 none) PinFn.extA = none ∧ s.jobs = [] ∧ (s.line Line.A).iface.extState = true) ∧
    (∃ s : State, movesOnly PinFn.extA defaultPins s ∧ pinOf defaultPins PinFn.extA = some 3 ∧ pinOf s.pins PinFn.extA ≠ some 3) :=
  ⟨⟨plain, by decide +kernel⟩,
    ⟨plain, by decide +kernel⟩,
    ⟨plain, by decide +kernel, ⟨0, 11, ⟨.hookA, false⟩, ⟨.hookA, false⟩, by decide⟩⟩,
    ⟨plain, by decide +kernel, ⟨8, ⟨.inp, false⟩, by decide⟩⟩,
    ⟨(inCall .train id plain), by decide +kernel, ⟨.A, by decide⟩⟩,
    ⟨(inCall .train id plain), by decide +kernel, by intro l; cases l <;> decide +kernel, by intro l; cases l <;> decide +kernel⟩,
    ⟨(lined fun i => { i with ring := .pending 0 150 }), by unfold movesOnly; decide +kernel⟩,
    ⟨(lined fun i => { i with ring := .on 0 350 }), by unfold movesOnly; decide +kernel,
      by decide +kernel, by decide +kernel, by decide +kernel, lined_cadences _⟩,
    ⟨{ plain with pins := movedPins 1 (some (0, .ringA)) }, by unfold movesOnly; decide +kernel⟩,
    ⟨(lined fun i => { i with loop := .wait 5000 none }), by unfold movesOnly; decide +kernel⟩,
    ⟨{ lined (fun i => { i with loop := .present }) with pins := movedPins 2 none }, by unfold movesOnly; decide +kernel⟩,
    ⟨(lined fun i => { i with extIn := true, extState := true }), by unfold movesOnly; decide +kernel⟩,
    ⟨{ plain with pins := movedPins 3 none }, by unfold movesOnly; decide +kernel⟩⟩

theorem witness_ProfileAndMonclearAct :
    (∃ s : State,
      s.requests = [] ∧ lineOf 3#8 = none) ∧
    (∃ s : State,
      s.requests = [] ∧ lineOf 0#8 = none) ∧
    (∃ s : State,
      s.requests = [] ∧ lineOf 1#8 = some Line.A ∧
      (∃ p ∈ [(2#8, 1#16), (23#8, 0#16)], ¬(1 ≤ BitVec.toNat p.1 ∧ BitVec.toNat p.1 ≤ 21 ∨ 24 ≤ BitVec.toNat p.1 ∧ BitVec.toNat p.1 ≤ 34 ∨ 40 ≤ BitVec.toNat p.1 ∧ BitVec.toNat p.1 ≤ 44 ∨ 48 ≤ BitVec.toNat p.1 ∧ BitVec.toNat p.1 ≤ 49 ∨ 56 ≤ BitVec.toNat p.1 ∧ BitVec.toNat p.1 ≤ 61 ∨ 64 ≤ BitVec.toNat p.1 ∧ BitVec.toNat p.1 ≤ 67) ∨ ¬((BitVec.toNat p.1 = 1 → BitVec.toNat p.2 ≤ 4) ∧ (4 ≤ BitVec.toNat p.1 → BitVec.toNat p.1 ≤ 6 → BitVec.toNat p.2 / 256 ≤ 4) ∧ (BitVec.toNat p.1 ∈ [7, 8, 9, 18, 21, 32, 57] → BitVec.toNat p.2 ≤ 1) ∧ (24 ≤ BitVec.toNat p.1 → BitVec.toNat p.1 ≤ 31 → BitVec.toNat p.2 ≤ 7) ∧ (BitVec.toNat p.1 = 56 → 3 ≤ BitVec.toNat p.2 ∧ BitVec.toNat p.2 ≤ 5) ∧ (BitVec.toNat p.1 = 58 → BitVec.toNat p.2 ∈ [0, 5, 10, 20, 40])))) ∧
    (∃ s : State,
      s.requests = [] ∧ lineOf 1#8 = some Line.A ∧
      (∃ p ∈ [(58#8, 15#16)], ¬(1 ≤ BitVec.toNat p.1 ∧ BitVec.toNat p.1 ≤ 21 ∨ 24 ≤ BitVec.toNat p.1 ∧ BitVec.toNat p.1 ≤ 34 ∨ 40 ≤ BitVec.toNat p.1 ∧ BitVec.toNat p.1 ≤ 44 ∨ 48 ≤ BitVec.toNat p.1 ∧ BitVec.toNat p.1 ≤ 49 ∨ 56 ≤ BitVec.toNat p.1 ∧ BitVec.toNat p.1 ≤ 61 ∨ 64 ≤ BitVec.toNat p.1 ∧ BitVec.toNat p.1 ≤ 67) ∨ ¬((BitVec.toNat p.1 = 1 → BitVec.toNat p.2 ≤ 4) ∧ (4 ≤ BitVec.toNat p.1 → BitVec.toNat p.1 ≤ 6 → BitVec.toNat p.2 / 256 ≤ 4) ∧ (BitVec.toNat p.1 ∈ [7, 8, 9, 18, 21, 32, 57] → BitVec.toNat p.2 ≤ 1) ∧ (24 ≤ BitVec.toNat p.1 → BitVec.toNat p.1 ≤ 31 → BitVec.toNat p.2 ≤ 7) ∧ (BitVec.toNat p.1 = 56 → 3 ≤ BitVec.toNat p.2 ∧ BitVec.toNat p.2 ≤ 5) ∧ (BitVec.toNat p.1 = 58 → BitVec.toNat p.2 ∈ [0, 5, 10, 20, 40])))) ∧
    (∃ s : State,
      (s.requests = [] ∧ lineOf 1#8 = some Line.A ∧ (∃ p ∈ [(2#8, 1#16), (49#8, 0#16)], BitVec.toNat p.1 ∈ [48, 49, 56, 57, 58]) ∧
       ¬s.st Line.A = LineSt.idle) ∧
      (∀ p ∈ [(2#8, 1#16), (49#8, 0#16)], (1 ≤ BitVec.toNat p.1 ∧ BitVec.toNat p.1 ≤ 21 ∨ 24 ≤ BitVec.toNat p.1 ∧ BitVec.toNat p.1 ≤ 34 ∨ 40 ≤ BitVec.toNat p.1 ∧ BitVec.toNat p.1 ≤ 44 ∨ 48 ≤ BitVec.toNat p.1 ∧ BitVec.toNat p.1 ≤ 49 ∨ 56 ≤ BitVec.toNat p.1 ∧ BitVec.toNat p.1 ≤ 61 ∨ 64 ≤ BitVec.toNat p.1 ∧ BitVec.toNat p.1 ≤ 67) ∧ (BitVec.toNat p.1 = 1 → BitVec.toNat p.2 ≤ 4) ∧ (4 ≤ BitVec.toNat p.1 → BitVec.toNat p.1 ≤ 6 → BitVec.toNat p.2 / 256 ≤ 4) ∧ (BitVec.toNat p.1 ∈ [7, 8, 9, 18, 21, 32, 57] → BitVec.toNat p.2 ≤ 1) ∧ (24 ≤ BitVec.toNat p.1 → BitVec.toNat p.1 ≤ 31 → BitVec.toNat p.2 ≤ 7) ∧ (BitVec.toNat p.1 = 56 → 3 ≤ BitVec.toNat p.2 ∧ BitVec.toNat p.2 ≤ 5) ∧ (BitVec.toNat p.1 = 58 → BitVec.toNat p.2 ∈ [0, 5, 10, 20, 40]))) ∧
    (∃ s : State,
      (s.requests = [] ∧ lineOf 2#8 = some Line.B) ∧
      (∀ p ∈ [(49#8, 31#16), (30#8, 1#16)], (1 ≤ BitVec.toNat p.1 ∧ BitVec.toNat p.1 ≤ 21 ∨ 24 ≤ BitVec.toNat p.1 ∧ BitVec.toNat p.1 ≤ 34 ∨ 40 ≤ BitVec.toNat p.1 ∧ BitVec.toNat p.1 ≤ 44 ∨ 48 ≤ BitVec.toNat p.1 ∧ BitVec.toNat p.1 ≤ 49 ∨ 56 ≤ BitVec.toNat p.1 ∧ BitVec.toNat p.1 ≤ 61 ∨ 64 ≤ BitVec.toNat p.1 ∧ BitVec.toNat p.1 ≤ 67) ∧ (BitVec.toNat p.1 = 1 → BitVec.toNat p.2 ≤ 4) ∧ (4 ≤ BitVec.toNat p.1 → BitVec.toNat p.1 ≤ 6 → BitVec.toNat p.2 / 256 ≤ 4) ∧ (BitVec.toNat p.1 ∈ [7, 8, 9, 18, 21, 32, 57] → BitVec.toNat p.2 ≤ 1) ∧ (24 ≤ BitVec.toNat p.1 → BitVec.toNat p.1 ≤ 31 → BitVec.toNat p.2 ≤ 7) ∧ (BitVec.toNat p.1 = 56 → 3 ≤ BitVec.toNat p.2 ∧ BitVec.toNat p.2 ≤ 5) ∧ (BitVec.toNat p.1 = 58 → BitVec.toNat p.2 ∈ [0, 5, 10, 20, 40])) ∧
      (∀ p ∈ [(49#8, 31#16), (30#8, 1#16)], BitVec.toNat p.1 ∈ [48, 49, 56, 57, 58] → s.st Line.B = LineSt.idle) ∧
      (∀ p ∈ [(49#8, 31#16), (30#8, 1#16)], p.1 ≠ 8#8)) ∧
    (∃ s : State,
      (s.requests = [] ∧ lineOf 1#8 = some Line.A ∧ s.jobs = []) ∧
      (∀ p ∈ [(8#8, 1#16)], (1 ≤ BitVec.toNat p.1 ∧ BitVec.toNat p.1 ≤ 21 ∨ 24 ≤ BitVec.toNat p.1 ∧ BitVec.toNat p.1 ≤ 34 ∨ 40 ≤ BitVec.toNat p.1 ∧ BitVec.toNat p.1 ≤ 44 ∨ 48 ≤ BitVec.toNat p.1 ∧ BitVec.toNat p.1 ≤ 49 ∨ 56 ≤ BitVec.toNat p.1 ∧ BitVec.toNat p.1 ≤ 61 ∨ 64 ≤ BitVec.toNat p.1 ∧ BitVec.toNat p.1 ≤ 67) ∧ (BitVec.toNat p.1 = 1 → BitVec.toNat p.2 ≤ 4) ∧ (4 ≤ BitVec.toNat p.1 → BitVec.toNat p.1 ≤ 6 → BitVec.toNat p.2 / 256 ≤ 4) ∧ (BitVec.toNat p.1 ∈ [7, 8, 9, 18, 21, 32, 57] → BitVec.toNat p.2 ≤ 1) ∧ (24 ≤ BitVec.toNat p.1 → BitVec.toNat p.1 ≤ 31 → BitVec.toNat p.2 ≤ 7) ∧ (BitVec.toNat p.1 = 56 → 3 ≤ BitVec.toNat p.2 ∧ BitVec.toNat p.2 ≤ 5) ∧ (BitVec.toNat p.1 = 58 → BitVec.toNat p.2 ∈ [0, 5, 10, 20, 40])) ∧
      (∀ p ∈ [(8#8, 1#16)], BitVec.toNat p.1 ∈ [48, 49, 56, 57, 58] → s.st Line.A = LineSt.idle)) ∧
    (∃ s : State,
      s.requests = [] ∧ lineOf 1#8 = some Line.A) ∧
    (∃ s : State,
      s.requests = [] ∧ lineOf 2#8 = some Line.B) ∧
    (∃ s : State,
      s.requests = []) :=
  ⟨⟨plain, by decide +kernel⟩,
    ⟨plain, by decide +kernel⟩,
    ⟨plain, by decide +kernel⟩,
    ⟨plain, by decide +kernel⟩,
    ⟨(inCall .train id plain), by decide +kernel, by simp⟩,
    ⟨loopGone, by decide +kernel, by simp, by simp <;> rfl, by simp⟩,
    ⟨plain, by decide +kernel, by simp, by simp <;> rfl⟩,
    ⟨(lined fun i => { i with latched := .all true }), by decide +kernel⟩,
    ⟨loopGone, by decide +kernel⟩,
    ⟨plain, by decide +kernel⟩⟩

theorem witness_BlockEndMeasuresLevelsAndMovesGain :
    (∃ s : State,
      s.requests = [] ∧ (∀ e ∈ s.tones, e = none) ∧ (s.line Line.A).voice.sub = none ∧ (s.line Line.A).iface.ring = RingDeb.quiet ∧
      (s.line Line.A).iface.ringOff = none ∧ s.now ≤ (s.line Line.A).iface.blockDue ∧ readerOf s (Owner.line Line.A) = none ∧
      (∀ w ∈ s.store.writers, w.owner ≠ Owner.line Line.A) ∧
      (¬(s.st Line.A = LineSt.progress ∧ (s.line Line.A).call.cr.mode = some CallMode.voice))) ∧
    (∃ s : State,
      s.requests = [] ∧ (∀ e ∈ s.tones, e = none) ∧ (s.line Line.A).voice.sub = none ∧ (s.line Line.A).iface.ring = RingDeb.quiet ∧
      (s.line Line.A).iface.ringOff = none ∧ s.now ≤ (s.line Line.A).iface.blockDue ∧ readerOf s (Owner.line Line.A) = none ∧
      (∀ w ∈ s.store.writers, w.owner ≠ Owner.line Line.A) ∧
      (¬(s.st Line.A = LineSt.progress ∧ (s.line Line.A).call.cr.mode = some CallMode.voice))) ∧
    (∃ s : State,
      s.requests = [] ∧ (∀ e ∈ s.tones, e = none) ∧ (s.line Line.A).voice.sub = none ∧ (s.line Line.A).iface.ring = RingDeb.quiet ∧
      (s.line Line.A).iface.ringOff = none ∧ s.now ≤ (s.line Line.A).iface.blockDue ∧ readerOf s (Owner.line Line.A) = none ∧
      (∀ w ∈ s.store.writers, w.owner ≠ Owner.line Line.A) ∧
      (¬(s.st Line.A = LineSt.progress ∧ (s.line Line.A).call.cr.mode = some CallMode.voice))) ∧
    (∃ s : State,
      s.requests = [] ∧ (∀ e ∈ s.tones, e = none) ∧ (s.line Line.A).voice.sub = none ∧ (s.line Line.A).iface.ring = RingDeb.quiet ∧
      (s.line Line.A).iface.ringOff = none ∧ s.now ≤ (s.line Line.A).iface.blockDue ∧ readerOf s (Owner.line Line.A) = none ∧
      (∀ w ∈ s.store.writers, w.owner ≠ Owner.line Line.A) ∧
      (¬(s.st Line.A = LineSt.progress ∧ (s.line Line.A).call.cr.mode = some CallMode.voice))) ∧
    (∃ s : State,
      s.requests = [] ∧ (∀ e ∈ s.tones, e = none) ∧ (s.line Line.A).voice.sub = none ∧ (s.line Line.A).iface.ring = RingDeb.quiet ∧
      (s.line Line.A).iface.ringOff = none ∧ s.now ≤ (s.line Line.A).iface.blockDue ∧ readerOf s (Owner.line Line.A) = none ∧
      (∀ w ∈ s.store.writers, w.owner ≠ Owner.line Line.A) ∧
      (¬(s.st Line.A = LineSt.progress ∧ (s.line Line.A).call.cr.mode = some CallMode.voice))) ∧
    (∃ s : State,
      (s.line Line.B).iface.current.get MonSource.loopLoss = true) ∧
    (∃ s : State,
      ¬(s.line Line.A).iface.current.get MonSource.quality = true) ∧
    (∃ s : State,
      ¬(s.line Line.B).iface.current.get MonSource.loopLoss = false) :=
  ⟨⟨plain, by decide +kernel⟩,
    ⟨(inCall .train id plain), by decide +kernel⟩,
    ⟨(inCall .data (fun x => {x with iface := {x.iface with expecting := true}}) plain), by decide +kernel⟩,
    ⟨(inCall .data (fun x => {x with iface := {x.iface with expecting := true, lowRun := 2, gain := 72, gainRun := 9}}) plain), by decide +kernel⟩,
    ⟨(inCall .data (fun x => {x with iface := {x.iface with expecting := true, highRun := 2, gain := 72, current := .all true}}) plain), by decide +kernel⟩,
    ⟨loopGone, by decide +kernel⟩,
    ⟨plain, by decide +kernel⟩,
    ⟨loopGone, by decide +kernel⟩⟩

theorem witness_ToneWriteAndDelete :
    (∃ s : State,
      s.requests = [] ∧ 23 < (24#8).toNat) ∧
    (∃ s : State,
      s.requests = [] ∧
      ({ toneFields with f1 := 299#16 }.kind = 0#8 ∧ (BitVec.toNat { toneFields with f1 := 299#16 }.f1 < 300 ∨ 3400 < BitVec.toNat { toneFields with f1 := 299#16 }.f1))) ∧
    (∃ s : State,
      (s.requests = [] ∧ (23#8).toNat ≤ 23 ∧ toneFields.kind = 0#8 ∧ 300 ≤ BitVec.toNat toneFields.f1 ∧ BitVec.toNat toneFields.f1 ≤ 3400 ∧
       toneFields.action = 1#8 ∧ toneFields.controlOp = 0#8 ∧ toneFields.priorityMark = 0#8 ∧ toneFields.meaning = 0#8 ∧
       stateSet toneFields.liveStates = some [LineSt.dial, LineSt.progress] ∧
       toneEntry = { kind := ToneKind.single, f1 := BitVec.toNat toneFields.f1, f2 := BitVec.toNat toneFields.f2, minLevel := max (-50) (min 0 (BitVec.toInt toneFields.minLevel)), twist := min 12 (BitVec.toNat toneFields.twist), onTime := max 10 (min 5000 (BitVec.toNat toneFields.onTime)), offTime := max 10 (min 5000 (BitVec.toNat toneFields.offTime)), action := ToneAction.report, priorityMark := false, meaning := Meaning.none, live := [LineSt.dial, LineSt.progress] : ToneEntry }) ∧
      (∃ (st : LineSt), 16 < liveCount (s.tones.set (23#8).toNat (some toneEntry)) st)) ∧
    (∃ s : State,
      (s.requests = [] ∧ (23#8).toNat ≤ 23 ∧ toneFields.kind = 0#8 ∧ 300 ≤ BitVec.toNat toneFields.f1 ∧ BitVec.toNat toneFields.f1 ≤ 3400 ∧
       toneFields.action = 1#8 ∧ toneFields.controlOp = 0#8 ∧ toneFields.priorityMark = 0#8 ∧ toneFields.meaning = 0#8 ∧
       stateSet toneFields.liveStates = some [LineSt.dial, LineSt.progress] ∧
       toneEntry = { kind := ToneKind.single, f1 := BitVec.toNat toneFields.f1, f2 := BitVec.toNat toneFields.f2, minLevel := max (-50) (min 0 (BitVec.toInt toneFields.minLevel)), twist := min 12 (BitVec.toNat toneFields.twist), onTime := max 10 (min 5000 (BitVec.toNat toneFields.onTime)), offTime := max 10 (min 5000 (BitVec.toNat toneFields.offTime)), action := ToneAction.report, priorityMark := false, meaning := Meaning.none, live := [LineSt.dial, LineSt.progress] : ToneEntry } ∧
       entryAt s.tones (23#8).toNat = none) ∧
      (∀ (st : LineSt), liveCount (s.tones.set (23#8).toNat (some toneEntry)) st ≤ 16)) ∧
    (∃ s : State,
      (s.requests = [] ∧ (0#8).toNat ≤ 23 ∧ toneFields.kind = 0#8 ∧ 300 ≤ BitVec.toNat toneFields.f1 ∧ BitVec.toNat toneFields.f1 ≤ 3400 ∧
       toneFields.action = 1#8 ∧ toneFields.controlOp = 0#8 ∧ toneFields.priorityMark = 0#8 ∧ toneFields.meaning = 0#8 ∧
       stateSet toneFields.liveStates = some [LineSt.dial, LineSt.progress] ∧
       toneEntry = { kind := ToneKind.single, f1 := BitVec.toNat toneFields.f1, f2 := BitVec.toNat toneFields.f2, minLevel := max (-50) (min 0 (BitVec.toInt toneFields.minLevel)), twist := min 12 (BitVec.toNat toneFields.twist), onTime := max 10 (min 5000 (BitVec.toNat toneFields.onTime)), offTime := max 10 (min 5000 (BitVec.toNat toneFields.offTime)), action := ToneAction.report, priorityMark := false, meaning := Meaning.none, live := [LineSt.dial, LineSt.progress] : ToneEntry } ∧
       entryAt s.tones (0#8).toNat = some { toneEntry with f1 := 441 }) ∧
      (∀ (st : LineSt), liveCount (s.tones.set (0#8).toNat (some toneEntry)) st ≤ 16) ∧
      (∀ (l : Line), (0#8).toNat < (s.line l).det.edges.length)) ∧
    (∃ s : State,
      s.requests = [] ∧ (23#8).toNat ≤ 23 ∧ entryAt s.tones (23#8).toNat = none) ∧
    (∃ s : State,
      s.requests = [] ∧ (0#8).toNat ≤ 23 ∧ entryAt s.tones (0#8).toNat = some { toneEntry with f1 := 441 } ∧
      isCadenceSource s (0#8).toNat = true) ∧
    (∃ s : State,
      (s.requests = [] ∧ (0#8).toNat ≤ 23 ∧ entryAt s.tones (0#8).toNat = some { toneEntry with f1 := 441 } ∧
       isCadenceSource s (0#8).toNat = false) ∧
      (∀ (l : Line), (0#8).toNat < (s.line l).det.edges.length)) :=
  ⟨⟨plain, by decide +kernel⟩,
    ⟨plain, by decide +kernel⟩,
    ⟨(toned 16), by decide +kernel, ⟨.dial, by decide⟩⟩,
    ⟨(toned 15), by decide +kernel, by intro l; cases l <;> decide +kernel⟩,
    ⟨edged, by decide +kernel, by intro l; cases l <;> decide +kernel, by intro l; cases l <;> decide +kernel⟩,
    ⟨plain, by decide +kernel⟩,
    ⟨{ toned 1 with cadences := [some { ringEntry with source := .tone 0 }] }, by decide +kernel⟩,
    ⟨(toned 1), by decide +kernel, by intro l; cases l <;> decide +kernel⟩⟩

theorem witness_CadenceWriteAndDelete :
    (∃ s : State,
      s.requests = [] ∧ 7 < (8#8).toNat) ∧
    (∃ s : State,
      s.requests = [] ∧ (23 < BitVec.toNat { ringFields with source := 24#8 }.source ∧ { ringFields with source := 24#8 }.source ≠ 255#8)) ∧
    (∃ s : State,
      s.requests = [] ∧ (7#8).toNat ≤ 7 ∧
      Meaning.ofCadence (BitVec.toNat { ringFields with source := 23#8 }.meaning) = some (Meaning.ringClass 3) ∧
      onOff (BitVec.toNat { ringFields with source := 23#8 }.reportFlag) = some true ∧ 1 ≤ { ringFields with source := 23#8 }.pairs.length ∧
      { ringFields with source := 23#8 }.pairs.length ≤ 4 ∧ BitVec.toNat { ringFields with source := 23#8 }.source ≤ 23 ∧
      entryAt s.tones (BitVec.toNat { ringFields with source := 23#8 }.source) = none) ∧
    (∃ s : State,
      s.requests = [] ∧ (7#8).toNat ≤ 7 ∧
      Meaning.ofCadence (BitVec.toNat { ringFields with source := 0#8 }.meaning) = some (Meaning.ringClass 3) ∧
      onOff (BitVec.toNat { ringFields with source := 0#8 }.reportFlag) = some true ∧ 1 ≤ { ringFields with source := 0#8 }.pairs.length ∧
      { ringFields with source := 0#8 }.pairs.length ≤ 4 ∧ BitVec.toNat { ringFields with source := 0#8 }.source ≤ 23 ∧
      entryAt s.tones (BitVec.toNat { ringFields with source := 0#8 }.source) = some ((defaultTones[0]?.bind id).getD toneEntry) ∧
      ((defaultTones[0]?.bind id).getD toneEntry).kind = ToneKind.dtmf) ∧
    (∃ s : State,
      (s.requests = [] ∧ (7#8).toNat ≤ 7 ∧ Meaning.ofCadence (BitVec.toNat ringFields.meaning) = some (Meaning.ringClass 3) ∧
       onOff (BitVec.toNat ringFields.reportFlag) = some true ∧ 1 ≤ ringFields.pairs.length ∧ ringFields.pairs.length ≤ 4 ∧
       ringFields.source = 255#8) ∧
      (∀ (l : Line), (7#8).toNat < (s.line l).det.aligns.length)) ∧
    (∃ s : State,
      (s.requests = [] ∧ (7#8).toNat ≤ 7 ∧
       Meaning.ofCadence (BitVec.toNat { ringFields with source := 1#8 }.meaning) = some (Meaning.ringClass 3) ∧
       onOff (BitVec.toNat { ringFields with source := 1#8 }.reportFlag) = some true ∧ 1 ≤ { ringFields with source := 1#8 }.pairs.length ∧
       { ringFields with source := 1#8 }.pairs.length ≤ 4 ∧
       (BitVec.toNat { ringFields with source := 1#8 }.source ≤ 23 ∧ CadSource.tone 1 = CadSource.tone (BitVec.toNat { ringFields with source := 1#8 }.source) ∧ ∃ (e : ToneEntry), entryAt s.tones (BitVec.toNat { ringFields with source := 1#8 }.source) = some e ∧ e.kind ≠ ToneKind.dtmf)) ∧
      (∀ (l : Line), (7#8).toNat < (s.line l).det.aligns.length)) ∧
    (∃ s : State,
      s.requests = [] ∧ (7#8).toNat ≤ 7 ∧ entryAt s.cadences (7#8).toNat = none) ∧
    (∃ s : State,
      (s.requests = [] ∧ (0#8).toNat ≤ 7 ∧ entryAt s.cadences (0#8).toNat = some ringEntry) ∧
      (∀ (l : Line), (0#8).toNat < (s.line l).det.aligns.length)) ∧
    ((¬(defaultCadence CadSource.ring [400, 200, 400, 2000] 2 (Meaning.ringClass 2)).pattern = [] ∧
      (defaultCadence CadSource.ring [400, 200, 400, 2000] 2 (Meaning.ringClass 2)).pattern.length % 2 = 0 ∧
      { emptyAligned with validFrom := 9 }.expect < (defaultCadence CadSource.ring [400, 200, 400, 2000] 2 (Meaning.ringClass 2)).pattern.length ∧
      0 < { emptyAligned with validFrom := 9 }.validFrom) ∧
    (¬(defaultCadence CadSource.ring [400, 200, 400, 2000] 2 (Meaning.ringClass 2)).pattern = [] ∧
      (defaultCadence CadSource.ring [400, 200, 400, 2000] 2 (Meaning.ringClass 2)).pattern.length % 2 = 0 ∧
      emptyAligned.expect < (defaultCadence CadSource.ring [400, 200, 400, 2000] 2 (Meaning.ringClass 2)).pattern.length ∧
      emptyAligned.validFrom ≤ 0 ∧ emptyAligned.held = false ∧
      ((400 : Int) - (((defaultCadence CadSource.ring [400, 200, 400, 2000] 2 (Meaning.ringClass 2)).pattern.getD 0 0) : Int)).natAbs * 100 ≤ (defaultCadence CadSource.ring [400, 200, 400, 2000] 2 (Meaning.ringClass 2)).pattern.getD 0 0 * (defaultCadence CadSource.ring [400, 200, 400, 2000] 2 (Meaning.ringClass 2)).tolerance) ∧
    (¬(defaultCadence CadSource.ring [400, 200, 400, 2000] 2 (Meaning.ringClass 2)).pattern = [] ∧
      (defaultCadence CadSource.ring [400, 200, 400, 2000] 2 (Meaning.ringClass 2)).pattern.length % 2 = 0 ∧
      emptyAligned.expect < (defaultCadence CadSource.ring [400, 200, 400, 2000] 2 (Meaning.ringClass 2)).pattern.length ∧
      emptyAligned.validFrom ≤ 0 ∧ emptyAligned.held = false ∧
      ¬((500 : Int) - (((defaultCadence CadSource.ring [400, 200, 400, 2000] 2 (Meaning.ringClass 2)).pattern.getD 0 0) : Int)).natAbs * 100 ≤ (defaultCadence CadSource.ring [400, 200, 400, 2000] 2 (Meaning.ringClass 2)).pattern.getD 0 0 * (defaultCadence CadSource.ring [400, 200, 400, 2000] 2 (Meaning.ringClass 2)).tolerance) ∧
    (¬(defaultCadence CadSource.ring [400, 200, 400, 2000] 2 (Meaning.ringClass 2)).pattern = [] ∧
      (defaultCadence CadSource.ring [400, 200, 400, 2000] 2 (Meaning.ringClass 2)).pattern.length % 2 = 0 ∧
      { emptyAligned with held := true, expect := 2, cycles := 1 }.expect < (defaultCadence CadSource.ring [400, 200, 400, 2000] 2 (Meaning.ringClass 2)).pattern.length ∧
      { emptyAligned with held := true, expect := 2, cycles := 1 }.validFrom ≤ 0 ∧
      { emptyAligned with held := true, expect := 2, cycles := 1 }.held = true ∧
      ((400 : Int) - (((defaultCadence CadSource.ring [400, 200, 400, 2000] 2 (Meaning.ringClass 2)).pattern.getD { emptyAligned with held := true, expect := 2, cycles := 1 }.expect 0) : Int)).natAbs * 100 ≤ (defaultCadence CadSource.ring [400, 200, 400, 2000] 2 (Meaning.ringClass 2)).pattern.getD { emptyAligned with held := true, expect := 2, cycles := 1 }.expect 0 * (defaultCadence CadSource.ring [400, 200, 400, 2000] 2 (Meaning.ringClass 2)).tolerance) ∧
    (¬(defaultCadence CadSource.ring [400, 200, 400, 2000] 2 (Meaning.ringClass 2)).pattern = [] ∧
      (defaultCadence CadSource.ring [400, 200, 400, 2000] 2 (Meaning.ringClass 2)).pattern.length % 2 = 0 ∧
      { emptyAligned with held := true, expect := 1, matched := true }.expect < (defaultCadence CadSource.ring [400, 200, 400, 2000] 2 (Meaning.ringClass 2)).pattern.length ∧
      { emptyAligned with held := true, expect := 1, matched := true }.validFrom ≤ 0 ∧
      { emptyAligned with held := true, expect := 1, matched := true }.held = true ∧
      ¬((400 : Int) - (((defaultCadence CadSource.ring [400, 200, 400, 2000] 2 (Meaning.ringClass 2)).pattern.getD { emptyAligned with held := true, expect := 1, matched := true }.expect 0) : Int)).natAbs * 100 ≤ (defaultCadence CadSource.ring [400, 200, 400, 2000] 2 (Meaning.ringClass 2)).pattern.getD { emptyAligned with held := true, expect := 1, matched := true }.expect 0 * (defaultCadence CadSource.ring [400, 200, 400, 2000] 2 (Meaning.ringClass 2)).tolerance ∧
      ((400 : Int) - (((defaultCadence CadSource.ring [400, 200, 400, 2000] 2 (Meaning.ringClass 2)).pattern.getD 0 0) : Int)).natAbs * 100 ≤ (defaultCadence CadSource.ring [400, 200, 400, 2000] 2 (Meaning.ringClass 2)).pattern.getD 0 0 * (defaultCadence CadSource.ring [400, 200, 400, 2000] 2 (Meaning.ringClass 2)).tolerance) ∧
    (¬(defaultCadence CadSource.ring [400, 200, 400, 2000] 2 (Meaning.ringClass 2)).pattern = [] ∧
      (defaultCadence CadSource.ring [400, 200, 400, 2000] 2 (Meaning.ringClass 2)).pattern.length % 2 = 0 ∧
      { emptyAligned with held := true, expect := 1, matched := true }.expect < (defaultCadence CadSource.ring [400, 200, 400, 2000] 2 (Meaning.ringClass 2)).pattern.length ∧
      { emptyAligned with held := true, expect := 1, matched := true }.validFrom ≤ 0 ∧
      { emptyAligned with held := true, expect := 1, matched := true }.held = true ∧
      ¬((900 : Int) - (((defaultCadence CadSource.ring [400, 200, 400, 2000] 2 (Meaning.ringClass 2)).pattern.getD { emptyAligned with held := true, expect := 1, matched := true }.expect 0) : Int)).natAbs * 100 ≤ (defaultCadence CadSource.ring [400, 200, 400, 2000] 2 (Meaning.ringClass 2)).pattern.getD { emptyAligned with held := true, expect := 1, matched := true }.expect 0 * (defaultCadence CadSource.ring [400, 200, 400, 2000] 2 (Meaning.ringClass 2)).tolerance ∧
      ¬((900 : Int) - (((defaultCadence CadSource.ring [400, 200, 400, 2000] 2 (Meaning.ringClass 2)).pattern.getD 0 0) : Int)).natAbs * 100 ≤ (defaultCadence CadSource.ring [400, 200, 400, 2000] 2 (Meaning.ringClass 2)).pattern.getD 0 0 * (defaultCadence CadSource.ring [400, 200, 400, 2000] 2 (Meaning.ringClass 2)).tolerance) ∧
    (¬(defaultCadence CadSource.ring [400, 200, 400, 2000] 2 (Meaning.ringClass 2)).pattern = [] ∧
      (defaultCadence CadSource.ring [400, 200, 400, 2000] 2 (Meaning.ringClass 2)).pattern.length % 2 = 0 ∧
      emptyAligned.expect < (defaultCadence CadSource.ring [400, 200, 400, 2000] 2 (Meaning.ringClass 2)).pattern.length ∧
      emptyAligned.held = false) ∧
    (¬(defaultCadence CadSource.ring [400, 200, 400, 2000] 2 (Meaning.ringClass 2)).pattern = [] ∧
      (defaultCadence CadSource.ring [400, 200, 400, 2000] 2 (Meaning.ringClass 2)).pattern.length % 2 = 0 ∧
      { emptyAligned with held := true, expect := 1 }.expect < (defaultCadence CadSource.ring [400, 200, 400, 2000] 2 (Meaning.ringClass 2)).pattern.length ∧
      { emptyAligned with held := true, expect := 1 }.held = true ∧
      ((200 : Int) - (((defaultCadence CadSource.ring [400, 200, 400, 2000] 2 (Meaning.ringClass 2)).pattern.getD { emptyAligned with held := true, expect := 1 }.expect 0) : Int)).natAbs * 100 ≤ (defaultCadence CadSource.ring [400, 200, 400, 2000] 2 (Meaning.ringClass 2)).pattern.getD { emptyAligned with held := true, expect := 1 }.expect 0 * (defaultCadence CadSource.ring [400, 200, 400, 2000] 2 (Meaning.ringClass 2)).tolerance ∧
      { emptyAligned with held := true, expect := 1 }.expect + 1 < (defaultCadence CadSource.ring [400, 200, 400, 2000] 2 (Meaning.ringClass 2)).pattern.length) ∧
    (¬(defaultCadence CadSource.ring [400, 200, 400, 2000] 2 (Meaning.ringClass 2)).pattern = [] ∧
      (defaultCadence CadSource.ring [400, 200, 400, 2000] 2 (Meaning.ringClass 2)).pattern.length % 2 = 0 ∧
      { emptyAligned with held := true, expect := 3 }.expect < (defaultCadence CadSource.ring [400, 200, 400, 2000] 2 (Meaning.ringClass 2)).pattern.length ∧
      { emptyAligned with held := true, expect := 3 }.held = true ∧
      ((2000 : Int) - (((defaultCadence CadSource.ring [400, 200, 400, 2000] 2 (Meaning.ringClass 2)).pattern.getD { emptyAligned with held := true, expect := 3 }.expect 0) : Int)).natAbs * 100 ≤ (defaultCadence CadSource.ring [400, 200, 400, 2000] 2 (Meaning.ringClass 2)).pattern.getD { emptyAligned with held := true, expect := 3 }.expect 0 * (defaultCadence CadSource.ring [400, 200, 400, 2000] 2 (Meaning.ringClass 2)).tolerance ∧
      { emptyAligned with held := true, expect := 3 }.expect + 1 = (defaultCadence CadSource.ring [400, 200, 400, 2000] 2 (Meaning.ringClass 2)).pattern.length ∧
      { emptyAligned with held := true, expect := 3 }.cycles + 1 < (defaultCadence CadSource.ring [400, 200, 400, 2000] 2 (Meaning.ringClass 2)).repeats) ∧
    (¬(defaultCadence CadSource.ring [400, 200, 400, 2000] 2 (Meaning.ringClass 2)).pattern = [] ∧
      (defaultCadence CadSource.ring [400, 200, 400, 2000] 2 (Meaning.ringClass 2)).pattern.length % 2 = 0 ∧
      { emptyAligned with held := true, expect := 3, cycles := 1 }.expect < (defaultCadence CadSource.ring [400, 200, 400, 2000] 2 (Meaning.ringClass 2)).pattern.length ∧
      { emptyAligned with held := true, expect := 3, cycles := 1 }.held = true ∧
      ((2000 : Int) - (((defaultCadence CadSource.ring [400, 200, 400, 2000] 2 (Meaning.ringClass 2)).pattern.getD { emptyAligned with held := true, expect := 3, cycles := 1 }.expect 0) : Int)).natAbs * 100 ≤ (defaultCadence CadSource.ring [400, 200, 400, 2000] 2 (Meaning.ringClass 2)).pattern.getD { emptyAligned with held := true, expect := 3, cycles := 1 }.expect 0 * (defaultCadence CadSource.ring [400, 200, 400, 2000] 2 (Meaning.ringClass 2)).tolerance ∧
      { emptyAligned with held := true, expect := 3, cycles := 1 }.expect + 1 = (defaultCadence CadSource.ring [400, 200, 400, 2000] 2 (Meaning.ringClass 2)).pattern.length ∧
      (defaultCadence CadSource.ring [400, 200, 400, 2000] 2 (Meaning.ringClass 2)).repeats ≤ { emptyAligned with held := true, expect := 3, cycles := 1 }.cycles + 1) ∧
    (¬(defaultCadence CadSource.ring [400, 200, 400, 2000] 2 (Meaning.ringClass 2)).pattern = [] ∧
      (defaultCadence CadSource.ring [400, 200, 400, 2000] 2 (Meaning.ringClass 2)).pattern.length % 2 = 0 ∧
      { emptyAligned with held := true, expect := 3, prevOn := some (400, 5) }.expect < (defaultCadence CadSource.ring [400, 200, 400, 2000] 2 (Meaning.ringClass 2)).pattern.length ∧
      { emptyAligned with held := true, expect := 3, prevOn := some (400, 5) }.held = true ∧
      ¬((200 : Int) - (((defaultCadence CadSource.ring [400, 200, 400, 2000] 2 (Meaning.ringClass 2)).pattern.getD { emptyAligned with held := true, expect := 3, prevOn := some (400, 5) }.expect 0) : Int)).natAbs * 100 ≤ (defaultCadence CadSource.ring [400, 200, 400, 2000] 2 (Meaning.ringClass 2)).pattern.getD { emptyAligned with held := true, expect := 3, prevOn := some (400, 5) }.expect 0 * (defaultCadence CadSource.ring [400, 200, 400, 2000] 2 (Meaning.ringClass 2)).tolerance ∧
      { emptyAligned with held := true, expect := 3, prevOn := some (400, 5) }.prevOn = some (400, 5)) ∧
    (¬(defaultCadence CadSource.ring [2000, 4000] 1 (Meaning.ringClass 1)).pattern = [] ∧
      (defaultCadence CadSource.ring [2000, 4000] 1 (Meaning.ringClass 1)).pattern.length % 2 = 0 ∧
      { emptyAligned with held := true, expect := 0, prevOn := some (2000, 5) }.expect < (defaultCadence CadSource.ring [2000, 4000] 1 (Meaning.ringClass 1)).pattern.length ∧
      { emptyAligned with held := true, expect := 0, prevOn := some (2000, 5) }.held = true ∧
      ¬((4000 : Int) - (((defaultCadence CadSource.ring [2000, 4000] 1 (Meaning.ringClass 1)).pattern.getD { emptyAligned with held := true, expect := 0, prevOn := some (2000, 5) }.expect 0) : Int)).natAbs * 100 ≤ (defaultCadence CadSource.ring [2000, 4000] 1 (Meaning.ringClass 1)).pattern.getD { emptyAligned with held := true, expect := 0, prevOn := some (2000, 5) }.expect 0 * (defaultCadence CadSource.ring [2000, 4000] 1 (Meaning.ringClass 1)).tolerance ∧
      { emptyAligned with held := true, expect := 0, prevOn := some (2000, 5) }.prevOn = some (2000, 5)) ∧
    (¬(defaultCadence CadSource.ring [2000, 4000] 1 (Meaning.ringClass 1)).pattern = [] ∧
      (defaultCadence CadSource.ring [2000, 4000] 1 (Meaning.ringClass 1)).pattern.length % 2 = 0 ∧
      { emptyAligned with held := true, matched := true }.expect < (defaultCadence CadSource.ring [2000, 4000] 1 (Meaning.ringClass 1)).pattern.length ∧
      { emptyAligned with held := true, matched := true }.held = true ∧ { emptyAligned with held := true, matched := true }.expect % 2 = 0 ∧
      (defaultCadence CadSource.ring [2000, 4000] 1 (Meaning.ringClass 1)).pattern.getD { emptyAligned with held := true, matched := true }.expect 0 * (100 + (defaultCadence CadSource.ring [2000, 4000] 1 (Meaning.ringClass 1)).tolerance) < 2401 * 100) ∧
    (¬(defaultCadence CadSource.ring [2000, 4000] 1 (Meaning.ringClass 1)).pattern = [] ∧
      (defaultCadence CadSource.ring [2000, 4000] 1 (Meaning.ringClass 1)).pattern.length % 2 = 0 ∧
      { emptyAligned with held := true, matched := true }.expect < (defaultCadence CadSource.ring [2000, 4000] 1 (Meaning.ringClass 1)).pattern.length ∧
      (¬({ emptyAligned with held := true, matched := true }.held = true ∧ { emptyAligned with held := true, matched := true }.expect % 2 = 0 ∧ (defaultCadence CadSource.ring [2000, 4000] 1 (Meaning.ringClass 1)).pattern.getD { emptyAligned with held := true, matched := true }.expect 0 * (100 + (defaultCadence CadSource.ring [2000, 4000] 1 (Meaning.ringClass 1)).tolerance) < 2400 * 100))) ∧
    (¬(defaultCadence CadSource.ring [2000, 4000] 1 (Meaning.ringClass 1)).pattern = [] ∧
      (defaultCadence CadSource.ring [2000, 4000] 1 (Meaning.ringClass 1)).pattern.length % 2 = 0 ∧
      { emptyAligned with held := true, expect := 1 }.expect < (defaultCadence CadSource.ring [2000, 4000] 1 (Meaning.ringClass 1)).pattern.length ∧
      { emptyAligned with held := true, expect := 1 }.held = true ∧ { emptyAligned with held := true, expect := 1 }.expect % 2 = 1 ∧
      (defaultCadence CadSource.ring [2000, 4000] 1 (Meaning.ringClass 1)).pattern.getD { emptyAligned with held := true, expect := 1 }.expect 0 * (100 + (defaultCadence CadSource.ring [2000, 4000] 1 (Meaning.ringClass 1)).tolerance) < 4801 * 100) ∧
    (¬(defaultCadence CadSource.ring [2000, 4000] 1 (Meaning.ringClass 1)).pattern = [] ∧
      (defaultCadence CadSource.ring [2000, 4000] 1 (Meaning.ringClass 1)).pattern.length % 2 = 0 ∧
      { emptyAligned with held := true, expect := 1 }.expect < (defaultCadence CadSource.ring [2000, 4000] 1 (Meaning.ringClass 1)).pattern.length ∧
      (¬({ emptyAligned with held := true, expect := 1 }.held = true ∧ { emptyAligned with held := true, expect := 1 }.expect % 2 = 1 ∧ (defaultCadence CadSource.ring [2000, 4000] 1 (Meaning.ringClass 1)).pattern.getD { emptyAligned with held := true, expect := 1 }.expect 0 * (100 + (defaultCadence CadSource.ring [2000, 4000] 1 (Meaning.ringClass 1)).tolerance) < 4800 * 100)))) ∧
    (∃ s : State,
      s.requests = [] ∧
      s.cadences = (List.replicate 8 none).set 2 (some (defaultCadence CadSource.ring [2000, 4000] 1 (Meaning.ringClass 1))) ∧ 2 < 8 ∧
      2 < (s.line Line.A).det.aligns.length ∧ (defaultCadence CadSource.ring [2000, 4000] 1 (Meaning.ringClass 1)).source = CadSource.ring ∧
      (defaultCadence CadSource.ring [2000, 4000] 1 (Meaning.ringClass 1)).meaning = Meaning.ringClass 1 ∧
      (defaultCadence CadSource.ring [2000, 4000] 1 (Meaning.ringClass 1)).pattern.length = 2 ∧
      (defaultCadence CadSource.ring [2000, 4000] 1 (Meaning.ringClass 1)).repeats = 1 ∧ ¬s.st Line.A = LineSt.idle ∧
      ¬s.st Line.A = LineSt.ringing ∧ ¬s.st Line.A = LineSt.seize ∧ (s.line Line.A).iface.ring = RingDeb.pending 6500 6850 ∧
      (s.line Line.A).iface.ringOff = some 2000 ∧ (alignOf s Line.A 2).held = true ∧ (alignOf s Line.A 2).expect = 1 ∧
      max s.now (6500 + 200) - 6500 ≤ (defaultCadence CadSource.ring [2000, 4000] 1 (Meaning.ringClass 1)).pattern.getD 0 0 ∧
      (((6500 - 2000) : Int) - (((defaultCadence CadSource.ring [2000, 4000] 1 (Meaning.ringClass 1)).pattern.getD 1 0) : Int)).natAbs * 100 ≤ (defaultCadence CadSource.ring [2000, 4000] 1 (Meaning.ringClass 1)).pattern.getD 1 0 * (defaultCadence CadSource.ring [2000, 4000] 1 (Meaning.ringClass 1)).tolerance) ∧
    (∃ s : State,
      s.requests = [] ∧
      s.cadences = (List.replicate 8 none).set 2 (some (defaultCadence CadSource.ring [2000, 4000] 1 (Meaning.ringClass 1))) ∧ 2 < 8 ∧
      2 < (s.line Line.A).det.aligns.length ∧ (defaultCadence CadSource.ring [2000, 4000] 1 (Meaning.ringClass 1)).source = CadSource.ring ∧
      (defaultCadence CadSource.ring [2000, 4000] 1 (Meaning.ringClass 1)).meaning = Meaning.ringClass 1 ∧
      (defaultCadence CadSource.ring [2000, 4000] 1 (Meaning.ringClass 1)).pattern.length = 2 ∧
      (defaultCadence CadSource.ring [2000, 4000] 1 (Meaning.ringClass 1)).repeats = 1 ∧ ¬s.st Line.A = LineSt.idle ∧
      ¬s.st Line.A = LineSt.ringing ∧ ¬s.st Line.A = LineSt.seize ∧ (s.line Line.A).iface.ring = RingDeb.pending 6500 6850 ∧
      (s.line Line.A).iface.ringOff = some 3500 ∧ (alignOf s Line.A 2).held = true ∧ (alignOf s Line.A 2).expect = 1 ∧
      max s.now (6500 + 200) - 6500 ≤ (defaultCadence CadSource.ring [2000, 4000] 1 (Meaning.ringClass 1)).pattern.getD 0 0 ∧
      ¬(((6500 - 3500) : Int) - (((defaultCadence CadSource.ring [2000, 4000] 1 (Meaning.ringClass 1)).pattern.getD 1 0) : Int)).natAbs * 100 ≤ (defaultCadence CadSource.ring [2000, 4000] 1 (Meaning.ringClass 1)).pattern.getD 1 0 * (defaultCadence CadSource.ring [2000, 4000] 1 (Meaning.ringClass 1)).tolerance) :=
  ⟨⟨plain, by decide +kernel⟩,
    ⟨plain, by decide +kernel⟩,
    ⟨plain, by decide +kernel⟩,
    ⟨{ plain with tones := defaultTones }, by decide +kernel⟩,
    ⟨plain, by decide +kernel, by intro l; cases l <;> decide +kernel⟩,
    ⟨(toned 2), by decide +kernel, by intro l; cases l <;> decide +kernel⟩,
    ⟨plain, by decide +kernel⟩,
    ⟨{ plain with cadences := [some ringEntry] }, by decide +kernel, by intro l; cases l <;> decide +kernel⟩,
    by and_intros <;> decide +kernel,
    ⟨(rungAgain 2000), by decide +kernel⟩,
    ⟨(rungAgain 3500), by decide +kernel⟩⟩

theorem witness_MarkreadReadsTheOldestCapture :
    (∃ s : State,
      s.requests = [] ∧ ((3#8).toNat = 0 ∨ 2 < (3#8).toNat)) ∧
    (∃ s : State,
      s.requests = [] ∧ 2#8 = lineByte Line.B ∧ (s.line Line.B).det.slot0 = some (caught 1) ∧ (s.line Line.B).det.slot1 = none) ∧
    (∃ s : State,
      s.requests = [] ∧ 2#8 = lineByte Line.B ∧ (s.line Line.B).det.slot0 = none ∧ (s.line Line.B).det.slot1 = some (caught 1)) ∧
    (∃ s : State,
      s.requests = [] ∧ 2#8 = lineByte Line.B ∧ (s.line Line.B).det.slot0 = some (caught 1) ∧ (s.line Line.B).det.slot1 = some (caught 2) ∧
      (s.line Line.B).det.slot1Older = false) ∧
    (∃ s : State,
      s.requests = [] ∧ 2#8 = lineByte Line.B ∧ (s.line Line.B).det.slot0 = some (caught 1) ∧ (s.line Line.B).det.slot1 = some (caught 2) ∧
      (s.line Line.B).det.slot1Older = true) ∧
    (∃ s : State,
      s.requests = [] ∧ 2#8 = lineByte Line.B ∧ (s.line Line.B).det.slot0 = none ∧ (s.line Line.B).det.slot1 = none) :=
  ⟨⟨plain, by decide +kernel⟩,
    ⟨(detected fun d => { d with slot0 := some (caught 1), overflow := true }), by decide +kernel⟩,
    ⟨(detected fun d => { d with slot1 := some (caught 1), slot1Older := true }), by decide +kernel⟩,
    ⟨(detected fun d => { d with slot0 := some (caught 1), slot1 := some (caught 2) }), by decide +kernel⟩,
    ⟨(detected fun d => { d with slot0 := some (caught 1), slot1 := some (caught 2), slot1Older := true }), by decide +kernel⟩,
    ⟨plain, by decide +kernel⟩⟩

theorem witness_EdgeStatesFollowTheTable :
    ((1 < toneEntry.onNeed ∧ idleEdge.st = EdgeSt.ready) ∧
    (1 < toneEntry.onNeed ∧ { idleEdge with st := EdgeSt.rising, onCount := 2 }.st = EdgeSt.rising ∧
      { idleEdge with st := EdgeSt.rising, onCount := 2 }.digit = none ∧
      { idleEdge with st := EdgeSt.rising, onCount := 2 }.onCount + 1 < toneEntry.onNeed) ∧
    (1 < toneEntry.onNeed ∧ { idleEdge with st := EdgeSt.rising, onCount := 3 }.st = EdgeSt.rising ∧
      { idleEdge with st := EdgeSt.rising, onCount := 3 }.digit = none ∧
      toneEntry.onNeed ≤ { idleEdge with st := EdgeSt.rising, onCount := 3 }.onCount + 1) ∧
    (1 < toneEntry.onNeed ∧ { idleEdge with st := EdgeSt.rising, onCount := 3 }.st = EdgeSt.rising) ∧
    (1 < toneEntry.onNeed ∧
      ({ idleEdge with st := EdgeSt.bridge }.st = EdgeSt.on ∨ { idleEdge with st := EdgeSt.bridge }.st = EdgeSt.bridge) ∧
      { idleEdge with st := EdgeSt.bridge }.digit = none) ∧
    (1 < toneEntry.onNeed ∧ { idleEdge with st := EdgeSt.on }.st = EdgeSt.on) ∧
    (1 < toneEntry.onNeed ∧ { idleEdge with st := EdgeSt.bridge, first := 1, last := 9 }.st = EdgeSt.bridge) ∧
    (1 < toneEntry.onNeed ∧ { idleEdge with st := EdgeSt.recover, absent := 2 }.st = EdgeSt.recover) ∧
    (1 < toneEntry.onNeed ∧ { idleEdge with st := EdgeSt.recover, absent := 1 }.st = EdgeSt.recover)) ∧
    (∃ s : State,
      ({ toneEntry with action := ToneAction.ignore }.meaning = Meaning.none ∧
       { toneEntry with action := ToneAction.ignore }.action = ToneAction.ignore) ∧
      (∀ (c : CadEntry), some c ∈ s.cadences → c.source ≠ CadSource.tone 1)) ∧
    (∃ s : State,
      (toneEntry.meaning = Meaning.none ∧ toneEntry.action = ToneAction.report) ∧
      (∀ (c : CadEntry), some c ∈ s.cadences → c.source ≠ CadSource.tone 1)) ∧
    (∃ s : State,
      ({ toneEntry with action := ToneAction.priority }.meaning = Meaning.none ∧
       { toneEntry with action := ToneAction.priority }.action = ToneAction.priority) ∧
      (∀ (c : CadEntry), some c ∈ s.cadences → c.source ≠ CadSource.tone 1)) ∧
    (∃ s : State,
      ({ toneEntry with action := ToneAction.capture, priorityMark := true }.meaning = Meaning.none ∧
       { toneEntry with action := ToneAction.capture, priorityMark := true }.action = ToneAction.capture ∧ (s.line Line.A).det.slot0 = none) ∧
      (∀ (c : CadEntry), some c ∈ s.cadences → c.source ≠ CadSource.tone 1)) ∧
    (∃ s : State,
      ({ toneEntry with action := ToneAction.capture }.meaning = Meaning.none ∧
       { toneEntry with action := ToneAction.capture }.action = ToneAction.capture ∧ ¬(s.line Line.A).det.slot0 = none ∧
       (s.line Line.A).det.slot1 = none) ∧
      (∀ (c : CadEntry), some c ∈ s.cadences → c.source ≠ CadSource.tone 1)) ∧
    (∃ s : State,
      ({ toneEntry with action := ToneAction.capture, priorityMark := true }.meaning = Meaning.none ∧
       { toneEntry with action := ToneAction.capture, priorityMark := true }.action = ToneAction.capture ∧
       ¬(s.line Line.A).det.slot0 = none ∧ ¬(s.line Line.A).det.slot1 = none) ∧
      (∀ (c : CadEntry), some c ∈ s.cadences → c.source ≠ CadSource.tone 1)) ∧
    (∃ s : State,
      (¬{ toneEntry with action := ToneAction.ignore, meaning := Meaning.dialtone }.meaning = Meaning.none ∧
       { toneEntry with action := ToneAction.ignore, meaning := Meaning.dialtone }.action = ToneAction.ignore) ∧
      (∀ (c : CadEntry), some c ∈ s.cadences → c.source ≠ CadSource.tone 1)) ∧
    (∃ s : State,
      (¬{ toneEntry with meaning := Meaning.callData }.meaning = Meaning.none ∧
       { toneEntry with meaning := Meaning.callData }.action = ToneAction.report) ∧
      (∀ (c : CadEntry), some c ∈ s.cadences → c.source ≠ CadSource.tone 1)) ∧
    (∃ s : State,
      (toneEntry.action = ToneAction.report) ∧
      (∀ (c : CadEntry), some c ∈ s.cadences → c.source ≠ CadSource.tone 1)) ∧
    (∃ s : State,
      (¬{ toneEntry with action := ToneAction.capture }.action = ToneAction.report) ∧
      (∀ (c : CadEntry), some c ∈ s.cadences → c.source ≠ CadSource.tone 1)) ∧
    (∃ s : State,
      s.requests = [] ∧ s.tones = (List.replicate 24 none).set 0 (some { toneEntry with f1 := 441, live := [LineSt.dial, LineSt.voice] }) ∧
      0 < 24 ∧ { toneEntry with f1 := 441, live := [LineSt.dial, LineSt.voice] }.kind = ToneKind.single ∧
      s.st Line.A ∈ { toneEntry with f1 := 441, live := [LineSt.dial, LineSt.voice] }.live ∧
      { toneEntry with f1 := 441, live := [LineSt.dial, LineSt.voice] }.meaning = Meaning.none ∧ (∀ c ∈ s.cadences, c = none) ∧
      0 < (s.line Line.A).det.edges.length ∧ (s.line Line.A).voice.sub = none ∧ (s.line Line.A).iface.ring = RingDeb.quiet ∧
      (s.line Line.A).iface.ringOff = none ∧ s.now ≤ (s.line Line.A).iface.blockDue ∧ readerOf s (Owner.line Line.A) = none ∧
      (∀ w ∈ s.store.writers, w.owner ≠ Owner.line Line.A) ∧ ¬s.st Line.A = LineSt.progress ∧ ¬s.st Line.A = LineSt.train ∧
      ¬s.st Line.A = LineSt.data ∧ ¬s.st Line.A = LineSt.fax ∧ (s.line Line.A).iface.expecting = false ∧
      (s.line Line.A).iface.current.streamSlip = false ∧
      ((s.line Line.A).iface.current.clip = decide (4 ≤ (List.filter (fun (x : Sample) => decide (32600 ≤ (BitVec.toInt x).natAbs)) (List.replicate 80 1000#16)).length))) ∧
    (∃ s : State,
      s.requests = [] ∧
      s.tones = (List.replicate 24 none).set 0 (some { toneEntry with f1 := 441, action := ToneAction.capture, live := [LineSt.dial, LineSt.voice] }) ∧
      0 < 24 ∧ { toneEntry with f1 := 441, action := ToneAction.capture, live := [LineSt.dial, LineSt.voice] }.kind = ToneKind.single ∧
      s.st Line.A ∈ { toneEntry with f1 := 441, action := ToneAction.capture, live := [LineSt.dial, LineSt.voice] }.live ∧
      { toneEntry with f1 := 441, action := ToneAction.capture, live := [LineSt.dial, LineSt.voice] }.meaning = Meaning.none ∧
      (∀ c ∈ s.cadences, c = none) ∧ 0 < (s.line Line.A).det.edges.length ∧ (s.line Line.A).voice.sub = none ∧
      (s.line Line.A).iface.ring = RingDeb.quiet ∧ (s.line Line.A).iface.ringOff = none ∧ s.now ≤ (s.line Line.A).iface.blockDue ∧
      readerOf s (Owner.line Line.A) = none ∧ (∀ w ∈ s.store.writers, w.owner ≠ Owner.line Line.A) ∧ ¬s.st Line.A = LineSt.progress ∧
      ¬s.st Line.A = LineSt.train ∧ ¬s.st Line.A = LineSt.data ∧ ¬s.st Line.A = LineSt.fax ∧ (s.line Line.A).iface.expecting = false ∧
      (s.line Line.A).iface.current.streamSlip = false ∧
      ((s.line Line.A).iface.current.clip = decide (4 ≤ (List.filter (fun (x : Sample) => decide (32600 ≤ (BitVec.toInt x).natAbs)) (List.replicate 80 1000#16)).length))) ∧
    ({ toneEntry with onTime := 10 }.onNeed ≤ 1 ∧ 1 < { toneEntry with onTime := 11 }.onNeed ∧ idleEdge.st = EdgeSt.ready ∧
      { idleEdge with st := EdgeSt.rising, digit := some 49#8 }.st = EdgeSt.rising ∧
      { idleEdge with st := EdgeSt.rising, digit := some 49#8 }.digit ≠ some 50#8 ∧
      { idleEdge with st := EdgeSt.on, digit := some 49#8, first := 1, last := 9 }.st = EdgeSt.on ∧
      { idleEdge with st := EdgeSt.bridge, digit := some 49#8, first := 1, last := 9 }.st = EdgeSt.bridge ∧
      { idleEdge with st := EdgeSt.bridge, digit := some 49#8, first := 1, last := 9 }.digit ≠ some 50#8) ∧
    (∃ s : State,
      ({ toneEntry with action := .control .stop }.action = ToneAction.control .stop ∧ (s.line Line.A).voice.sub ≠ some .playing ∧ (s.line Line.A).voice.sub ≠ some .paused) ∧
      (∀ (c : CadEntry), some c ∈ s.cadences → c.source ≠ CadSource.tone 1)) ∧
    (∃ s : State,
      ({ toneEntry with action := .control .pause }.action = ToneAction.control .pause ∧ s.st Line.A = .voice ∧ (s.line Line.A).iface.expecting = false ∧ (s.line Line.A).voice.sub = some .playing) ∧
      (∀ (c : CadEntry), some c ∈ s.cadences → c.source ≠ CadSource.tone 1)) ∧
    (∃ s : State,
      ({ toneEntry with action := .control .pause }.action = ToneAction.control .pause ∧ s.st Line.A = .voice ∧ (s.line Line.A).iface.expecting = false ∧ (s.line Line.A).voice.sub = some .paused) ∧
      (∀ (c : CadEntry), some c ∈ s.cadences → c.source ≠ CadSource.tone 1)) ∧
    (∃ s : State,
      ({ toneEntry with action := .control .skipFwd }.action = ToneAction.control .skipFwd ∧ (s.line Line.A).voice.sub = some .paused) ∧
      (∀ (c : CadEntry), some c ∈ s.cadences → c.source ≠ CadSource.tone 1)) :=
  ⟨by and_intros <;> decide +kernel,
    ⟨(inCall .voice id plain), by decide +kernel, by simp [inCall, plain, rested, State.setLine]⟩,
    ⟨(inCall .voice id plain), by decide +kernel, by simp [inCall, plain, rested, State.setLine]⟩,
    ⟨(inCall .voice id plain), by decide +kernel, by simp [inCall, plain, rested, State.setLine]⟩,
    ⟨(inCall .voice (fun x => { x with det := { x.det with slot1 := some (caught 3) } }) plain), by decide +kernel, by simp [inCall, plain, rested, State.setLine]⟩,
    ⟨(inCall .voice (fun x => { x with det := { x.det with slot0 := some (caught 3) } }) plain), by decide +kernel, by simp [inCall, plain, rested, State.setLine]⟩,
    ⟨(inCall .voice (fun x => { x with det := { x.det with slot0 := some (caught 3), slot1 := some (caught 4) } }) plain), by decide +kernel, by simp [inCall, plain, rested, State.setLine]⟩,
    ⟨(inCall .seize id plain), by decide +kernel, by simp [inCall, plain, rested, State.setLine]⟩,
    ⟨(inCall .classify id plain), by decide +kernel, by simp [inCall, plain, rested, State.setLine]⟩,
    ⟨(inCall .voice id plain), by decide +kernel, by simp [inCall, plain, rested, State.setLine]⟩,
    ⟨(inCall .voice id plain), by decide +kernel, by simp [inCall, plain, rested, State.setLine]⟩,
    ⟨(watching { idleEdge with st := .rising, onCount := 3, first := 1 } .report), by decide +kernel⟩,
    ⟨(watching { idleEdge with st := .rising, onCount := 3, first := 1 } .capture), by decide +kernel⟩,
    by and_intros <;> decide +kernel,
    ⟨(inCall .voice id plain), by decide +kernel, by simp [inCall, plain, rested, State.setLine]⟩,
    ⟨(voicing (some .playing) id (some unread)), by decide +kernel, by simp [voicing, storingBusy, storing, stored, inCall, plain, rested, State.setLine]⟩,
    ⟨(voicing (some .paused) id (some unread)), by decide +kernel, by simp [voicing, storingBusy, storing, stored, inCall, plain, rested, State.setLine]⟩,
    ⟨(voicing (some .paused) id (some unread)), by decide +kernel, by simp [voicing, storingBusy, storing, stored, inCall, plain, rested, State.setLine]⟩⟩

theorem witness_ListedReleasesEnterCleardown :
    (∃ s : State,
      s.requests = [] ∧ (s.st Line.A).releasable = true ∧ (s.line Line.A).iface.tone = none ∧ (s.line Line.A).fax.role = none ∧
      (s.line Line.A).voice.sub = none ∧ (s.line Line.A).call.cr.job = none ∧ (s.line Line.A).call.refHeld = false ∧
      Instr.release 1#8 2#8 = Instr.release (lineByte Line.A) 2#8) ∧
    (∃ s : State,
      s.requests = [] ∧ (s.st Line.A).releasable = true ∧ (s.line Line.A).iface.tone = none ∧ (s.line Line.A).fax.role = none ∧
      (s.line Line.A).voice.sub = none ∧ (s.line Line.A).call.cr.job = none ∧ (s.line Line.A).call.refHeld = false ∧
      (s.line Line.A).call.dialToneDue ≠ none) ∧
    (∃ s : State,
      s.requests = [] ∧ (s.st Line.A).releasable = true ∧ (s.line Line.A).iface.tone = none ∧ (s.line Line.A).fax.role = none ∧
      (s.line Line.A).voice.sub = none ∧ (s.line Line.A).call.cr.job = none ∧ (s.line Line.A).call.refHeld = false ∧
      (s.line Line.A).call.progressDue ≠ none) ∧
    (∃ s : State,
      s.requests = [] ∧ (s.st Line.A).releasable = true ∧ (s.line Line.A).iface.tone = none ∧ (s.line Line.A).fax.role = none ∧
      (s.line Line.A).voice.sub = none ∧ (s.line Line.A).call.cr.job = none ∧ (s.line Line.A).call.refHeld = false ∧
      (s.line Line.A).call.progressDue ≠ none) ∧
    (∃ s : State,
      (s.requests = [] ∧ (s.st Line.A).releasable = true ∧ (s.line Line.A).iface.tone = none ∧ (s.line Line.A).fax.role = none ∧
       (s.line Line.A).voice.sub = none ∧ (s.line Line.A).call.cr.job = none ∧ (s.line Line.A).call.refHeld = false) ∧
      (Instr.noLoop Line.A = Instr.noLoop Line.A ∧ s.st Line.A = LineSt.seize ∧ (∃ (due : ℕ) (e : Option ℕ), (s.line Line.A).iface.loop = LoopDeb.wait due e) ∧ ReleaseReason.noLoop = ReleaseReason.noLoop)) ∧
    (∃ s : State,
      (s.requests = [] ∧ (s.st Line.A).releasable = true ∧ (s.line Line.A).iface.tone = none ∧ (s.line Line.A).fax.role = none ∧
       (s.line Line.A).voice.sub = none ∧ (s.line Line.A).call.cr.job = none ∧ (s.line Line.A).call.refHeld = false) ∧
      (Instr.noLoop Line.A = Instr.noLoop Line.A ∧ s.st Line.A ≠ LineSt.seize ∧ (∃ (due : ℕ) (e : Option ℕ), (s.line Line.A).iface.loop = LoopDeb.wait due e) ∧ ReleaseReason.farEnd = ReleaseReason.farEnd)) ∧
    (∃ s : State,
      (s.requests = [] ∧ (s.st Line.A).releasable = true ∧ (s.line Line.A).iface.tone = none ∧ (s.line Line.A).fax.role = none ∧
       (s.line Line.A).voice.sub = none ∧ (s.line Line.A).call.cr.job = none ∧ (s.line Line.A).call.refHeld = false) ∧
      (Instr.loopLost Line.A = Instr.loopLost Line.A ∧ (∃ (due : ℕ), (s.line Line.A).iface.loop = LoopDeb.doubt due) ∧ (s.line Line.A).iface.loopSuspended = false ∧ ReleaseReason.farEnd = ReleaseReason.farEnd)) ∧
    (∃ s : State,
      s.requests = [] ∧ (s.st Line.A).releasable = true ∧ (s.line Line.A).iface.tone = none ∧ (s.line Line.A).fax.role = none ∧
      (s.line Line.A).voice.sub = none ∧ (s.line Line.A).call.cr.job = none ∧ (s.line Line.A).call.refHeld = false ∧
      ((s.line Line.A).iface.extDue ≠ none ∧ (s.line Line.A).iface.extIn = true ∧ (s.line Line.A).iface.extState = false ∧ (s.line Line.A).profile.extPolicy = ExtPolicy.yieldLine)) ∧
    (∃ s : State,
      s.requests = [] ∧ (s.st Line.A).releasable = true ∧ (s.line Line.A).iface.tone = none ∧ (s.line Line.A).fax.role = none ∧
      (s.line Line.A).voice.sub = none ∧ (s.line Line.A).call.cr.job = none ∧ (s.line Line.A).call.refHeld = false ∧
      (s.line Line.A).modem.trainDue ≠ none) ∧
    (∃ s : State,
      (s.requests = [] ∧ (s.st Line.A).releasable = true ∧ (s.line Line.A).iface.tone = none ∧ (s.line Line.A).fax.role = none ∧
       (s.line Line.A).voice.sub = none ∧ (s.line Line.A).call.cr.job = none ∧ (s.line Line.A).call.refHeld = false) ∧
      (Instr.retransmitTimerExpiry Line.A = Instr.retransmitTimerExpiry Line.A ∧ (∃ (due : ℕ), (s.line Line.A).dl.timer = DlTimer.running due) ∧ 10 ≤ (s.line Line.A).dl.retries ∧ ReleaseReason.linkFail = ReleaseReason.linkFail)) ∧
    (∃ s : State,
      s.requests = [] ∧ (s.st Line.A).releasable = true ∧ (s.line Line.A).iface.tone = none ∧ (s.line Line.A).fax.role = none ∧
      (s.line Line.A).voice.sub = none ∧ (s.line Line.A).call.cr.job = none ∧ (s.line Line.A).call.refHeld = false ∧
      (s.st Line.A = LineSt.data ∧ (s.line Line.A).dl.clear ≠ ClearSt.received ∧ (s.line Line.A).dl.rx = [])) ∧
    (∃ s : State,
      s.requests = [] ∧ (s.st Line.A).releasable = true ∧ (s.line Line.A).iface.tone = none ∧ (s.line Line.A).fax.role = none ∧
      (s.line Line.A).voice.sub = none ∧ (s.line Line.A).call.cr.job = none ∧ (s.line Line.A).call.refHeld = false ∧
      ((s.line Line.A).dl.sending = some Frame.clear ∧ (s.line Line.A).dl.clear = ClearSt.graceful)) ∧
    (∃ s : State,
      (s.requests = [] ∧ (s.st Line.A).releasable = true ∧ (s.line Line.A).iface.tone = none ∧ (s.line Line.A).fax.role = none ∧
       (s.line Line.A).voice.sub = none ∧ (s.line Line.A).call.cr.job = none ∧ (s.line Line.A).call.refHeld = false) ∧
      (Instr.loopLost Line.A = Instr.loopLost Line.A ∧ (∃ (due : ℕ), (s.line Line.A).iface.loop = LoopDeb.doubt due) ∧ (s.line Line.A).iface.loopSuspended = false ∧ ReleaseReason.farEnd = ReleaseReason.farEnd ∧ s.st Line.A = LineSt.seize)) :=
  ⟨⟨(called .seize id), by decide +kernel⟩,
    ⟨(called .seize fun c => { c with dialToneDue := some 5000 }), by decide +kernel⟩,
    ⟨(called .progress fun c => { c with progressDue := some 45000 }), by decide +kernel⟩,
    ⟨(called .progress fun c => { c with progressDue := some 45000, cr := {c.cr with dir := some .outgoing, number := [0x31#8]} }), by decide +kernel⟩,
    ⟨(inCall .seize (fun x => { x with iface := { x.iface with loop := .wait 1000 none } }) plain), by decide +kernel, ⟨rfl, by decide, ⟨_, _, rfl⟩, rfl⟩⟩,
    ⟨(inCall .train (fun x => { x with iface := { x.iface with loop := .wait 1000 none } }) plain), by decide +kernel, ⟨rfl, by decide, ⟨_, _, rfl⟩, rfl⟩⟩,
    ⟨(inCall .data (fun x => { x with iface := { x.iface with loop := .doubt 300 } }) plain), by decide +kernel, ⟨rfl, ⟨_, rfl⟩, rfl, rfl⟩⟩,
    ⟨(inCall .data (fun x => { x with profile := { x.profile with extPolicy := .yieldLine }, iface := { x.iface with extIn := true, extDue := some 50 } }) plain), by decide +kernel⟩,
    ⟨(inCall .train (fun x => { x with modem := { x.modem with trainDue := some 10000 } }) plain), by decide +kernel⟩,
    ⟨(inCall .data (fun x => { x with dl := { x.dl with timer := .running 900, retries := 10 } }) plain), by decide +kernel, ⟨rfl, ⟨_, rfl⟩, by decide, rfl⟩⟩,
    ⟨(inCall .data id plain), by decide +kernel⟩,
    ⟨(inCall .data (fun x => { x with dl := { x.dl with sending := some .clear, clear := .graceful } }) plain), by decide +kernel⟩,
    ⟨(inCall .seize (fun x => { x with iface := { x.iface with loop := .doubt 300 } }) plain), by decide +kernel, ⟨rfl, ⟨_, rfl⟩, rfl, rfl, rfl⟩⟩⟩

theorem witness_ReleaseChecksAndGraceful :
    (∃ s : State,
      s.requests = [] ∧ 2 < (3#8).toNat) ∧
    (∃ s : State,
      s.requests = [] ∧ 1#8 = lineByte Line.A ∧ s.st Line.A = LineSt.cleardown) ∧
    (∃ s : State,
      s.requests = [] ∧ 1#8 = lineByte Line.A ∧ s.st Line.A = LineSt.data ∧ ¬(s.line Line.A).dl.clear = ClearSt.none) ∧
    (∃ s : State,
      s.requests = [] ∧ 1#8 = lineByte Line.A ∧ s.st Line.A = LineSt.data ∧ (s.line Line.A).dl.clear = ClearSt.none ∧
      ¬(s.line Line.A).dl.sending = none) :=
  ⟨⟨plain, by decide +kernel⟩,
    ⟨(called .cleardown id), by decide +kernel⟩,
    ⟨(inCall .data (fun x => { x with dl := { x.dl with clear := .graceful } }) plain), by decide +kernel⟩,
    ⟨(inCall .data (fun x => { x with dl := { x.dl with sending := some (.rr 0 false) } }) plain), by decide +kernel⟩⟩

theorem witness_LineReturnsToIdle :
    (∃ s : State,
      (s.requests = [] ∧ (s.line Line.A).iface.tone = none ∧ (s.line Line.A).profile.autoCallout = false ∧
       (Instr.cleardownTimerExpiry Line.A = Instr.cleardownTimerExpiry Line.A ∧ s.st Line.A = LineSt.cleardown ∧ (s.line Line.A).call.cleardownDue ≠ none ∧ ∃ (r : ReleaseReason), (s.line Line.A).call.cr.release = some r ∧ LineReason.release ReleaseReason.farEnd = LineReason.release r)) ∧
      (∀ (bs : List Byte), (s.line Line.A).iface.window ≠ CallerWindow.gathering bs)) ∧
    (∃ s : State,
      (s.requests = [] ∧ (s.line Line.A).iface.tone = none ∧ (s.line Line.A).profile.autoCallout = false ∧
       (s.st Line.A = LineSt.ringing ∧ (s.line Line.A).call.ringDue ≠ none)) ∧
      (∀ (bs : List Byte), (s.line Line.A).iface.window ≠ CallerWindow.gathering bs)) ∧
    (∃ s : State,
      (s.requests = [] ∧ (s.line Line.A).iface.tone = none ∧ (s.line Line.A).profile.autoCallout = false ∧
       (s.st Line.A = LineSt.ringing ∧ (s.line Line.A).iface.extDue ≠ none ∧ (s.line Line.A).iface.extIn = true ∧ (s.line Line.A).iface.extState = false)) ∧
      (∀ (bs : List Byte), (s.line Line.A).iface.window ≠ CallerWindow.gathering bs)) :=
  ⟨⟨(called .cleardown fun c => { c with cleardownDue := some 2000, cr := { c.cr with release := some .farEnd } }), by decide +kernel, by intro x hx; cases hx⟩,
    ⟨(called .ringing fun c => { c with ringDue := some 8000 }), by decide +kernel, by intro x hx; cases hx⟩,
    ⟨(inCall .ringing (fun x => { x with iface := { x.iface with extIn := true, extDue := some 50 } }) plain), by decide +kernel, by intro x hx; cases hx⟩⟩

theorem witness_DialChecksThenSeizes :
    (∃ s : State,
      s.requests = [] ∧ lineOf 3#8 = none) ∧
    (∃ s : State,
      s.requests = [] ∧ 1#8 = lineByte Line.A ∧ CallMode.ofDial (2#8).toNat = some CallMode.fax ∧ CallMode.fax ≠ CallMode.data) ∧
    (∃ s : State,
      s.requests = [] ∧ 1#8 = lineByte Line.A ∧ CallMode.ofDial (1#8).toNat = some CallMode.data ∧
      dialStringOk (s.line Line.A).profile.dialMethod [49#8] = true ∧ ¬s.st Line.A = LineSt.idle) ∧
    (∃ s : State,
      s.requests = [] ∧ 1#8 = lineByte Line.A ∧ CallMode.ofDial (1#8).toNat = some CallMode.data ∧
      dialStringOk (s.line Line.A).profile.dialMethod [49#8] = true ∧ s.st Line.A = LineSt.idle ∧ hasHook s Line.A = true ∧
      (CallMode.data = CallMode.fax → faxRungs s.ladder ≠ []) ∧ (s.line Line.A).profile.extPolicy = ExtPolicy.yieldLine ∧
      (s.line Line.A).iface.extState = true) ∧
    (∃ s : State,
      s.requests = [] ∧ 1#8 = lineByte Line.A ∧ CallMode.ofDial (3#8).toNat = some CallMode.voice ∧
      dialStringOk (s.line Line.A).profile.dialMethod [49#8] = true ∧ ¬7#16 = 0#16 ∧ s.st Line.A = LineSt.idle ∧ hasHook s Line.A = true ∧
      (CallMode.voice = CallMode.fax → faxRungs s.ladder ≠ []) ∧ ((s.line Line.A).profile.extPolicy = .keep ∨ (s.line Line.A).iface.extState = false) ∧ ¬CallMode.voice = CallMode.data ∧
      ¬s.store.st = StoreSt.ready) ∧
    (∃ s : State,
      s.requests = [] ∧ 1#8 = lineByte Line.A ∧ CallMode.ofDial (1#8).toNat = some CallMode.data ∧
      dialStringOk (s.line Line.A).profile.dialMethod [49#8] = true ∧ s.st Line.A = LineSt.idle ∧ hasHook s Line.A = true ∧
      (CallMode.data = CallMode.fax → faxRungs s.ladder ≠ []) ∧ ((s.line Line.A).profile.extPolicy = .keep ∨ (s.line Line.A).iface.extState = false) ∧
      outgoingBarred s (s.line Line.A).profile.screenBar (dialNumber [49#8]) = true) ∧
    (∃ s : State,
      s.requests = [] ∧ 1#8 = lineByte Line.A ∧ CallMode.ofDial (1#8).toNat = some CallMode.data ∧
      dialStringOk (s.line Line.A).profile.dialMethod [49#8] = true ∧ s.st Line.A = LineSt.idle ∧ hasHook s Line.A = true ∧
      (CallMode.data = CallMode.fax → faxRungs s.ladder ≠ []) ∧ ((s.line Line.A).profile.extPolicy = .keep ∨ (s.line Line.A).iface.extState = false) ∧
      outgoingBarred s (s.line Line.A).profile.screenBar (dialNumber [49#8]) = false ∧
      consultAttempts s (dialNumber [49#8]) = AttemptVerdict.barred) ∧
    (∃ s : State,
      s.requests = [] ∧ 1#8 = lineByte Line.A ∧ CallMode.ofDial (1#8).toNat = some CallMode.data ∧
      dialStringOk (s.line Line.A).profile.dialMethod [49#8] = true ∧ s.st Line.A = LineSt.idle ∧ hasHook s Line.A = true ∧
      (CallMode.data = CallMode.fax → faxRungs s.ladder ≠ []) ∧ ((s.line Line.A).profile.extPolicy = .keep ∨ (s.line Line.A).iface.extState = false) ∧
      outgoingBarred s (s.line Line.A).profile.screenBar (dialNumber [49#8]) = false ∧
      consultAttempts s (dialNumber [49#8]) = AttemptVerdict.delayed 60 ∧ 60 ≤ 65535) ∧
    (∃ s : State,
      s.requests = [] ∧ 1#8 = lineByte Line.A ∧ CallMode.ofDial (1#8).toNat = some CallMode.data ∧
      dialStringOk (s.line Line.A).profile.dialMethod [49#8] = true ∧ s.st Line.A = LineSt.idle ∧ hasHook s Line.A = true ∧
      (CallMode.data = CallMode.fax → faxRungs s.ladder ≠ []) ∧ ((s.line Line.A).profile.extPolicy = .keep ∨ (s.line Line.A).iface.extState = false) ∧
      outgoingBarred s (s.line Line.A).profile.screenBar (dialNumber [49#8]) = false ∧
      consultAttempts s (dialNumber [49#8]) = AttemptVerdict.allowed ∧ hasPin s (loopFn Line.A) = true ∧
      (s.line Line.A).iface.loop = LoopDeb.onHook ∧ (s.line Line.A).iface.expecting = false ∧ (s.line Line.A).voice.sub = none) ∧
    (∃ s : State,
      s.requests = [] ∧ CallMode.ofDial (3#8).toNat = some CallMode.voice ∧ ¬8#16 = 0#16 ∧
      dialStringOk (s.line Line.A).profile.dialMethod [49#8] = true ∧ s.st Line.A = LineSt.idle ∧ hasHook s Line.A = true ∧
      (CallMode.voice = CallMode.fax → faxRungs s.ladder ≠ []) ∧ ((s.line Line.A).profile.extPolicy = .keep ∨ (s.line Line.A).iface.extState = false) ∧ s.store.st = StoreSt.ready ∧
      findEntry s (8#16).toNat = none) ∧
    (∃ s : State,
      s.requests = [] ∧ CallMode.ofDial (2#8).toNat = some CallMode.fax ∧ ¬7#16 = 0#16 ∧
      dialStringOk (s.line Line.A).profile.dialMethod [49#8] = true ∧ s.st Line.A = LineSt.idle ∧ hasHook s Line.A = true ∧
      (CallMode.fax = CallMode.fax → faxRungs s.ladder ≠ []) ∧ ((s.line Line.A).profile.extPolicy = .keep ∨ (s.line Line.A).iface.extState = false) ∧ s.store.st = StoreSt.ready ∧
      findEntry s (7#16).toNat = some (voiceMessage 7) ∧
      (¬((voiceMessage 7).state = MsgState.closed ∧ (voiceMessage 7).erasePending = false ∧ (voiceMessage 7).inUse < 255 ∧ if CallMode.fax = CallMode.fax then (voiceMessage 7).kind = MsgKind.fax else (voiceMessage 7).kind = MsgKind.voice ∨ (voiceMessage 7).kind = MsgKind.file ∧ (voiceMessage 7).coding ≠ Coding.none))) ∧
    (∃ s : State,
      s.requests = [] ∧ CallMode.ofDial (3#8).toNat = some CallMode.voice ∧ ¬7#16 = 0#16 ∧
      dialStringOk (s.line Line.A).profile.dialMethod [49#8] = true ∧ s.st Line.A = LineSt.idle ∧ hasHook s Line.A = true ∧
      (CallMode.voice = CallMode.fax → faxRungs s.ladder ≠ []) ∧ ((s.line Line.A).profile.extPolicy = .keep ∨ (s.line Line.A).iface.extState = false) ∧ s.store.st = StoreSt.ready ∧
      findEntry s (7#16).toNat = some { (voiceMessage 7) with inUse := 255 } ∧
      (¬({ (voiceMessage 7) with inUse := 255 }.state = MsgState.closed ∧ { (voiceMessage 7) with inUse := 255 }.erasePending = false ∧ { (voiceMessage 7) with inUse := 255 }.inUse < 255 ∧ if CallMode.voice = CallMode.fax then { (voiceMessage 7) with inUse := 255 }.kind = MsgKind.fax else { (voiceMessage 7) with inUse := 255 }.kind = MsgKind.voice ∨ { (voiceMessage 7) with inUse := 255 }.kind = MsgKind.file ∧ { (voiceMessage 7) with inUse := 255 }.coding ≠ Coding.none))) ∧
    (∃ s : State,
      s.requests = [] ∧ CallMode.ofDial (3#8).toNat = some CallMode.voice ∧ ¬7#16 = 0#16 ∧
      dialStringOk (s.line Line.A).profile.dialMethod [49#8] = true ∧ s.st Line.A = LineSt.idle ∧ hasHook s Line.A = true ∧
      (CallMode.voice = CallMode.fax → faxRungs s.ladder ≠ []) ∧ ((s.line Line.A).profile.extPolicy = .keep ∨ (s.line Line.A).iface.extState = false) ∧ s.store.st = StoreSt.ready ∧
      findEntry s (7#16).toNat = some (voiceMessage 7) ∧
      ((voiceMessage 7).state = MsgState.closed ∧ (voiceMessage 7).erasePending = false ∧ (voiceMessage 7).inUse < 255 ∧ if CallMode.voice = CallMode.fax then (voiceMessage 7).kind = MsgKind.fax else (voiceMessage 7).kind = MsgKind.voice ∨ (voiceMessage 7).kind = MsgKind.file ∧ (voiceMessage 7).coding ≠ Coding.none) ∧
      outgoingBarred s (s.line Line.A).profile.screenBar (dialNumber [49#8]) = true) ∧
    (∃ s : State,
      s.requests = [] ∧ CallMode.ofDial (3#8).toNat = some CallMode.voice ∧ ¬7#16 = 0#16 ∧
      dialStringOk (s.line Line.A).profile.dialMethod [49#8] = true ∧ s.st Line.A = LineSt.idle ∧ hasHook s Line.A = true ∧
      (CallMode.voice = CallMode.fax → faxRungs s.ladder ≠ []) ∧ ((s.line Line.A).profile.extPolicy = .keep ∨ (s.line Line.A).iface.extState = false) ∧ s.store.st = StoreSt.ready ∧
      findEntry s (7#16).toNat = some (voiceMessage 7) ∧
      ((voiceMessage 7).state = MsgState.closed ∧ (voiceMessage 7).erasePending = false ∧ (voiceMessage 7).inUse < 255 ∧ if CallMode.voice = CallMode.fax then (voiceMessage 7).kind = MsgKind.fax else (voiceMessage 7).kind = MsgKind.voice ∨ (voiceMessage 7).kind = MsgKind.file ∧ (voiceMessage 7).coding ≠ Coding.none) ∧
      outgoingBarred s (s.line Line.A).profile.screenBar (dialNumber [49#8]) = false ∧
      consultAttempts s (dialNumber [49#8]) = AttemptVerdict.barred) ∧
    (∃ s : State,
      s.requests = [] ∧ CallMode.ofDial (3#8).toNat = some CallMode.voice ∧ ¬7#16 = 0#16 ∧
      dialStringOk (s.line Line.A).profile.dialMethod [49#8] = true ∧ s.st Line.A = LineSt.idle ∧ hasHook s Line.A = true ∧
      (CallMode.voice = CallMode.fax → faxRungs s.ladder ≠ []) ∧ ((s.line Line.A).profile.extPolicy = .keep ∨ (s.line Line.A).iface.extState = false) ∧ s.store.st = StoreSt.ready ∧
      findEntry s (7#16).toNat = some (voiceMessage 7) ∧
      ((voiceMessage 7).state = MsgState.closed ∧ (voiceMessage 7).erasePending = false ∧ (voiceMessage 7).inUse < 255 ∧ if CallMode.voice = CallMode.fax then (voiceMessage 7).kind = MsgKind.fax else (voiceMessage 7).kind = MsgKind.voice ∨ (voiceMessage 7).kind = MsgKind.file ∧ (voiceMessage 7).coding ≠ Coding.none) ∧
      outgoingBarred s (s.line Line.A).profile.screenBar (dialNumber [49#8]) = false ∧
      consultAttempts s (dialNumber [49#8]) = AttemptVerdict.delayed 60 ∧ 60 ≤ 65535) ∧
    (∃ s : State,
      s.requests = [] ∧ CallMode.ofDial (3#8).toNat = some CallMode.voice ∧ ¬7#16 = 0#16 ∧
      dialStringOk (s.line Line.A).profile.dialMethod [49#8] = true ∧ s.st Line.A = LineSt.idle ∧ hasHook s Line.A = true ∧
      (CallMode.voice = CallMode.fax → faxRungs s.ladder ≠ []) ∧ ((s.line Line.A).profile.extPolicy = .keep ∨ (s.line Line.A).iface.extState = false) ∧ s.store.st = StoreSt.ready ∧
      findEntry s (7#16).toNat = some (voiceMessage 7) ∧
      ((voiceMessage 7).state = MsgState.closed ∧ (voiceMessage 7).erasePending = false ∧ (voiceMessage 7).inUse < 255 ∧ if CallMode.voice = CallMode.fax then (voiceMessage 7).kind = MsgKind.fax else (voiceMessage 7).kind = MsgKind.voice ∨ (voiceMessage 7).kind = MsgKind.file ∧ (voiceMessage 7).coding ≠ Coding.none) ∧
      outgoingBarred s (s.line Line.A).profile.screenBar (dialNumber [49#8]) = false ∧
      consultAttempts s (dialNumber [49#8]) = AttemptVerdict.allowed ∧ hasPin s (loopFn Line.A) = true ∧
      (s.line Line.A).iface.loop = LoopDeb.onHook ∧ (s.line Line.A).iface.expecting = false ∧ (s.line Line.A).voice.sub = none) ∧
    (∃ s : State,
      s.requests = [] ∧ CallMode.ofDial (2#8).toNat = some CallMode.fax ∧ ¬7#16 = 0#16 ∧
      dialStringOk (s.line Line.A).profile.dialMethod [49#8] = true ∧ s.st Line.A = LineSt.idle ∧ hasHook s Line.A = true ∧
      (CallMode.fax = CallMode.fax → faxRungs s.ladder ≠ []) ∧ ((s.line Line.A).profile.extPolicy = .keep ∨ (s.line Line.A).iface.extState = false) ∧ s.store.st = StoreSt.ready ∧
      findEntry s (7#16).toNat = some { (voiceMessage 7) with kind := MsgKind.fax, inUse := 254 } ∧
      ({ (voiceMessage 7) with kind := MsgKind.fax, inUse := 254 }.state = MsgState.closed ∧ { (voiceMessage 7) with kind := MsgKind.fax, inUse := 254 }.erasePending = false ∧ { (voiceMessage 7) with kind := MsgKind.fax, inUse := 254 }.inUse < 255 ∧ if CallMode.fax = CallMode.fax then { (voiceMessage 7) with kind := MsgKind.fax, inUse := 254 }.kind = MsgKind.fax else { (voiceMessage 7) with kind := MsgKind.fax, inUse := 254 }.kind = MsgKind.voice ∨ { (voiceMessage 7) with kind := MsgKind.fax, inUse := 254 }.kind = MsgKind.file ∧ { (voiceMessage 7) with kind := MsgKind.fax, inUse := 254 }.coding ≠ Coding.none) ∧
      outgoingBarred s (s.line Line.A).profile.screenBar (dialNumber [49#8]) = false ∧
      consultAttempts s (dialNumber [49#8]) = AttemptVerdict.allowed ∧ hasPin s (loopFn Line.A) = true ∧
      (s.line Line.A).iface.loop = LoopDeb.onHook ∧ (s.line Line.A).iface.expecting = false ∧ (s.line Line.A).voice.sub = none) ∧
    (∃ s : State,
      s.requests = [] ∧ 2#8 = lineByte Line.B ∧ CallMode.ofDial (2#8).toNat = some CallMode.fax ∧
      dialStringOk (s.line Line.B).profile.dialMethod [49#8] = true ∧ ¬7#16 = 0#16 ∧ faxRungs s.ladder = []) ∧
    (∃ s : State,
      s.requests = [] ∧ 1#8 = lineByte Line.A ∧ CallMode.ofDial (1#8).toNat = some CallMode.data ∧
      dialStringOk (s.line Line.A).profile.dialMethod [49#8] = true ∧ s.st Line.A = LineSt.idle ∧ hasHook s Line.A = true ∧
      (s.line Line.A).profile.extPolicy = .keep ∧ (s.line Line.A).iface.extState = true ∧
      outgoingBarred s (s.line Line.A).profile.screenBar (dialNumber [49#8]) = false ∧
      consultAttempts s (dialNumber [49#8]) = AttemptVerdict.allowed ∧ hasPin s (loopFn Line.A) = true ∧
      (s.line Line.A).iface.loop = LoopDeb.onHook ∧ (s.line Line.A).iface.expecting = false ∧ (s.line Line.A).voice.sub = none) ∧
    (∃ s : State,
      s.requests = [] ∧ CallMode.ofDial (3#8).toNat = some CallMode.voice ∧ ¬7#16 = 0#16 ∧
      dialStringOk (s.line Line.A).profile.dialMethod [49#8] = true ∧ s.st Line.A = LineSt.idle ∧ hasHook s Line.A = true ∧
      (s.line Line.A).profile.extPolicy = .keep ∧ (s.line Line.A).iface.extState = true ∧ s.store.st = StoreSt.ready ∧
      findEntry s (7#16).toNat = some (voiceMessage 7) ∧ (voiceMessage 7).state = MsgState.closed ∧
      (voiceMessage 7).erasePending = false ∧ (voiceMessage 7).inUse < 255 ∧ (voiceMessage 7).kind = MsgKind.voice ∧
      outgoingBarred s (s.line Line.A).profile.screenBar (dialNumber [49#8]) = false ∧
      consultAttempts s (dialNumber [49#8]) = AttemptVerdict.allowed ∧ hasPin s (loopFn Line.A) = true ∧
      (s.line Line.A).iface.loop = LoopDeb.onHook ∧ (s.line Line.A).iface.expecting = false ∧ (s.line Line.A).voice.sub = none) :=
  ⟨⟨plain, by decide +kernel⟩,
    ⟨plain, by decide +kernel⟩,
    ⟨(called .train id), by decide +kernel⟩,
    ⟨(modIface .A (fun i => { i with extState := true }) rested), by decide +kernel⟩,
    ⟨{ plain with store := { plain.store with st := .scanning } }, by decide +kernel⟩,
    ⟨(modProfile .A (fun p => { p with screenBar := true }) plain), by decide +kernel⟩,
    ⟨{ plain with attempts := [some ⟨[0x31#8], 12, 0, 0⟩] }, by decide +kernel⟩,
    ⟨{ plain with attempts := [some ⟨[0x31#8], 2, 0, 60⟩] }, by decide +kernel⟩,
    ⟨plain, by decide +kernel⟩,
    ⟨stored, by decide +kernel⟩,
    ⟨stored, by decide +kernel⟩,
    ⟨{ stored with store := { stored.store with dir := [{ voiceMessage 7 with inUse := 255 }] } }, by decide +kernel⟩,
    ⟨(modProfile .A (fun p => { p with screenBar := true }) stored), by decide +kernel⟩,
    ⟨{ stored with attempts := [some ⟨[0x31#8], 12, 0, 0⟩] }, by decide +kernel⟩,
    ⟨{ stored with attempts := [some ⟨[0x31#8], 2, 0, 60⟩] }, by decide +kernel⟩,
    ⟨stored, by decide +kernel⟩,
    ⟨(storing fun t => { t with dir := [{ voiceMessage 7 with kind := .fax, inUse := 254 }] }), by decide +kernel⟩,
    ⟨{ plain with ladder := [⟨.l12, 60, 200, 600⟩, ⟨.l24, 60, 200, 600⟩] }, by decide +kernel⟩,
    ⟨(modIface .A (fun i => { i with extState := true }) plain), by decide +kernel⟩,
    ⟨(modIface .A (fun i => { i with extState := true }) stored), by decide +kernel⟩⟩

theorem witness_DialStepsFollowTheString :
    (∃ s : State,
      s.requests = [] ∧ s.st Line.A = LineSt.dial ∧ (s.line Line.A).call.step = DialStep.brk 2 ∧ (s.line Line.A).call.stepDue = some 60 ∧
      hasPin s (loopFn Line.A) = true ∧ (s.line Line.A).iface.loop = LoopDeb.present) ∧
    (∃ s : State,
      s.requests = [] ∧ s.st Line.A = LineSt.dial ∧ (s.line Line.A).call.step = DialStep.mk 0 ∧ (s.line Line.A).call.stepDue = some 60) ∧
    (∃ s : State,
      s.requests = [] ∧ s.st Line.A = LineSt.dial ∧ (s.line Line.A).call.step = DialStep.mk (0 + 1) ∧ (s.line Line.A).call.stepDue = some 60) ∧
    (∃ s : State,
      s.requests = [] ∧ s.st Line.A = LineSt.dial ∧
      ((s.line Line.A).call.step = DialStep.interdigit ∧ (s.line Line.A).call.stepDue = some 60 ∧ s.lineA.iface = (s.line Line.A).iface) ∧
      s.lineA.iface.tone = none ∧ (s.line Line.A).call.cr.dialled[(s.line Line.A).call.cr.position + 1]? = some 44#8 ∧
      (44#8 = 87#8 → (s.line Line.A).call.toneHeard = false)) ∧
    (∃ s : State,
      s.requests = [] ∧ s.st Line.A = LineSt.dial ∧
      ((s.line Line.A).call.step = DialStep.interdigit ∧ (s.line Line.A).call.stepDue = some 60 ∧ s.lineA.iface = (s.line Line.A).iface) ∧
      s.lineA.iface.tone = none ∧ (s.line Line.A).call.cr.dialled[(s.line Line.A).call.cr.position + 1]? = some 33#8 ∧
      (33#8 = 87#8 → (s.line Line.A).call.toneHeard = false)) ∧
    (∃ s : State,
      s.requests = [] ∧ s.st Line.A = LineSt.dial ∧
      ((s.line Line.A).call.step = DialStep.interdigit ∧ (s.line Line.A).call.stepDue = some 60 ∧ s.lineA.iface = (s.line Line.A).iface) ∧
      s.lineA.iface.tone = none ∧ (s.line Line.A).call.cr.dialled[(s.line Line.A).call.cr.position + 1]? = some 87#8 ∧
      (87#8 = 87#8 → (s.line Line.A).call.toneHeard = false)) ∧
    (∃ s : State,
      s.requests = [] ∧ s.st Line.A = LineSt.dial ∧
      ((s.line Line.A).call.step = DialStep.interdigit ∧ (s.line Line.A).call.stepDue = some 60 ∧ s.lineA.iface = (s.line Line.A).iface) ∧
      s.lineA.iface.tone = none ∧ (s.line Line.A).call.cr.dialled[(s.line Line.A).call.cr.position + 1]? = some 53#8 ∧
      (53#8 = 87#8 → (s.line Line.A).call.toneHeard = false)) ∧
    (∃ s : State,
      s.requests = [] ∧ s.st Line.A = LineSt.dial ∧
      ((s.line Line.A).call.step = DialStep.comma ∧ (s.line Line.A).call.stepDue = some 60 ∧ s.lineA.iface = (s.line Line.A).iface) ∧
      s.lineA.iface.tone = none ∧ (s.line Line.A).call.cr.dialled[(s.line Line.A).call.cr.position + 1]? = some 48#8 ∧
      (48#8 = 87#8 → (s.line Line.A).call.toneHeard = false)) ∧
    (∃ s : State,
      s.requests = [] ∧ s.st Line.A = LineSt.dial ∧
      ((s.line Line.A).call.step = DialStep.flash ∧ (s.line Line.A).call.stepDue = some 60 ∧ hasPin s (loopFn Line.A) = true ∧ (s.line Line.A).iface.loop = LoopDeb.present ∧ { s.lineA.iface with hook := true, loop := LoopDeb.present, loopSuspended := false } = { (s.line Line.A).iface with hook := true, loop := if (s.line Line.A).iface.loopIn = true then LoopDeb.present else LoopDeb.doubt (max s.now 60 + 300), loopSuspended := false }) ∧
      { s.lineA.iface with hook := true, loop := LoopDeb.present, loopSuspended := false }.tone = none ∧
      (s.line Line.A).call.cr.dialled[(s.line Line.A).call.cr.position + 1]? = some 50#8 ∧
      (50#8 = 87#8 → (s.line Line.A).call.toneHeard = false)) ∧
    (∃ s : State,
      (s.requests = [] ∧ s.st Line.A = LineSt.dial ∧ { s.lineA.iface with tone := none }.tone = none ∧
       (s.line Line.A).call.cr.dialled[(s.line Line.A).call.cr.position + 1]? = some 35#8 ∧
       (35#8 = 87#8 → (s.line Line.A).call.toneHeard = false)) ∧
      (Instr.toneGeneratorCompletion Line.A = Instr.toneGeneratorCompletion Line.A ∧ (s.line Line.A).call.step = DialStep.toneDigit ∧ (∃ (d : Byte) (on : ℕ) (off : ℕ), (s.line Line.A).iface.tone = some { signal := ToneSignal.dtmf d on off, sounding := false, due := 60 : ToneGen }) ∧ { s.lineA.iface with tone := none } = { (s.line Line.A).iface with tone := none })) ∧
    (∃ s : State,
      s.requests = [] ∧ s.st Line.A = LineSt.dial ∧
      ((s.line Line.A).call.step = DialStep.comma ∧ (s.line Line.A).call.stepDue = some 60 ∧ s.lineA.iface = (s.line Line.A).iface) ∧
      s.lineA.iface.tone = none ∧ (s.line Line.A).call.cr.dialled[(s.line Line.A).call.cr.position + 1]? = some 87#8 ∧
      (s.line Line.A).call.toneHeard = true ∧ (s.line Line.A).call.cr.dialled[(s.line Line.A).call.cr.position + 2]? = some 44#8 ∧
      ¬44#8 = 87#8) ∧
    (∃ s : State,
      s.requests = [] ∧ s.st Line.A = LineSt.dial ∧
      ((s.line Line.A).call.step = DialStep.interdigit ∧ (s.line Line.A).call.stepDue = some 60 ∧ s.lineA.iface = (s.line Line.A).iface) ∧
      s.lineA.iface.tone = none ∧ (s.line Line.A).call.cr.dialled.length = (s.line Line.A).call.cr.position + 1 ∧
      s.lineA.iface.expecting = false ∧ (s.line Line.A).voice.sub = none) ∧
    (∃ s : State,
      s.requests = [] ∧ s.st Line.A = LineSt.dial ∧
      ((s.line Line.A).call.step = DialStep.interdigit ∧ (s.line Line.A).call.stepDue = some 60 ∧ s.lineA.iface = (s.line Line.A).iface) ∧
      s.lineA.iface.tone = none ∧ (s.line Line.A).call.cr.dialled.length = (s.line Line.A).call.cr.position + 1 ∧
      s.lineA.iface.expecting = false ∧ (s.line Line.A).voice.sub = none) ∧
    (∃ s : State,
      s.requests = [] ∧ s.st Line.A = LineSt.dial ∧
      ((s.line Line.A).call.step = DialStep.interdigit ∧ (s.line Line.A).call.stepDue = some 60 ∧ s.lineA.iface = (s.line Line.A).iface) ∧
      s.lineA.iface.tone = none ∧ (s.line Line.A).call.cr.dialled.length = (s.line Line.A).call.cr.position + 1 ∧
      s.lineA.iface.expecting = false ∧ (s.line Line.A).voice.sub = none) ∧
    (∃ s : State,
      s.requests = [] ∧ (s.line Line.A).iface.tone = none ∧ (s.line Line.A).iface.expecting = false ∧ (s.line Line.A).voice.sub = none ∧
      (s.line Line.A).call.blindDue = some 2000 ∧ s.st Line.A = LineSt.seize ∧ ¬(s.line Line.A).call.cr.dialled = [] ∧
      (∀ (b : BitVec 8), (s.line Line.A).call.cr.dialled[0]? = some b → b = 44#8 ∨ isDigitChar b = true)) ∧
    (∃ s : State,
      s.requests = [] ∧ (s.line Line.A).iface.tone = none ∧ (s.line Line.A).iface.expecting = false ∧ (s.line Line.A).voice.sub = none ∧
      (s.line Line.A).call.blindDue = some 2000 ∧ s.st Line.A = LineSt.seize ∧ ¬(s.line Line.A).call.cr.dialled = [] ∧
      (∀ (b : BitVec 8), (s.line Line.A).call.cr.dialled[0]? = some b → b = 44#8 ∨ isDigitChar b = true)) ∧
    (∃ s : State,
      s.requests = [] ∧ (s.line Line.A).iface.tone = none ∧ (s.line Line.A).iface.expecting = false ∧ (s.line Line.A).voice.sub = none ∧
      (s.line Line.A).call.blindDue = some 2000 ∧ s.st Line.A = LineSt.seize ∧ ¬(s.line Line.A).call.cr.dialled = [] ∧
      (∀ (b : BitVec 8), (s.line Line.A).call.cr.dialled[0]? = some b → b = 44#8 ∨ isDigitChar b = true)) ∧
    (∃ s : State,
      s.requests = [] ∧ (s.line Line.A).iface.tone = none ∧ (s.line Line.A).iface.expecting = false ∧ (s.line Line.A).voice.sub = none ∧
      (s.line Line.A).iface.loop = LoopDeb.wait 1000 (some 20) ∧ s.st Line.A = LineSt.seize ∧ (s.line Line.A).profile.blindDial = true) ∧
    (∃ s : State,
      s.requests = [] ∧ (s.line Line.A).iface.tone = none ∧ (s.line Line.A).iface.expecting = false ∧ (s.line Line.A).voice.sub = none ∧
      (s.line Line.A).iface.loop = LoopDeb.wait 1000 (some 20) ∧ s.st Line.A = LineSt.seize ∧ (s.line Line.A).profile.blindDial = false ∧
      (s.line Line.A).call.toneHeard = false) ∧
    (∃ s : State,
      s.requests = [] ∧ (s.line Line.A).iface.tone = none ∧ (s.line Line.A).iface.expecting = false ∧ (s.line Line.A).voice.sub = none ∧
      (s.line Line.A).iface.loop = LoopDeb.wait 1000 (some 20) ∧ s.st Line.A = LineSt.seize ∧ (s.line Line.A).profile.blindDial = false ∧
      (s.line Line.A).call.toneHeard = true ∧ ¬(s.line Line.A).call.cr.dialled = [] ∧
      (∀ (b : BitVec 8), (s.line Line.A).call.cr.dialled[0]? = some b → b = 44#8 ∨ isDigitChar b = true)) ∧
    (∃ s : State,
      s.requests = [] ∧ (s.line Line.A).iface.tone = none ∧ (s.line Line.A).iface.expecting = false ∧ (s.line Line.A).voice.sub = none ∧
      s.st Line.A = LineSt.seize ∧ (s.line Line.A).profile.blindDial = true) ∧
    (∃ s : State,
      s.requests = [] ∧ (s.line Line.A).iface.tone = none ∧ (s.line Line.A).iface.expecting = false ∧ (s.line Line.A).voice.sub = none ∧
      s.st Line.A = LineSt.seize ∧ (s.line Line.A).profile.blindDial = false ∧ (s.line Line.A).call.loopUp = false) ∧
    (∃ s : State,
      s.requests = [] ∧ (s.line Line.A).iface.tone = none ∧ (s.line Line.A).iface.expecting = false ∧ (s.line Line.A).voice.sub = none ∧
      s.st Line.A = LineSt.seize ∧ (s.line Line.A).profile.blindDial = false ∧ (s.line Line.A).call.loopUp = true ∧
      ¬(s.line Line.A).call.cr.dialled = [] ∧
      (∀ (b : BitVec 8), (s.line Line.A).call.cr.dialled[0]? = some b → b = 44#8 ∨ isDigitChar b = true)) ∧
    (∃ s : State,
      s.requests = [] ∧ (s.line Line.A).iface.tone = none ∧ (s.line Line.A).iface.expecting = false ∧ (s.line Line.A).voice.sub = none ∧
      s.st Line.A = LineSt.dial ∧ ¬(s.line Line.A).call.step = DialStep.waitTone) ∧
    (∃ s : State,
      s.requests = [] ∧ (s.line Line.A).iface.tone = none ∧ (s.line Line.A).iface.expecting = false ∧ (s.line Line.A).voice.sub = none ∧
      s.st Line.A = LineSt.dial ∧ (s.line Line.A).call.step = DialStep.waitTone ∧
      (s.line Line.A).call.cr.dialled[(s.line Line.A).call.cr.position + 1]? = some 44#8) :=
  ⟨⟨(dialling [0x31#8] fun c => { c with step := .brk 2 }), by decide +kernel⟩,
    ⟨(dialling [0x31#8] fun c => { c with step := .mk 0 }), by decide +kernel⟩,
    ⟨(dialling [0x31#8] fun c => { c with step := .mk 1 }), by decide +kernel⟩,
    ⟨(dialling [0x31#8, 0x2C#8] fun c => { c with step := .interdigit }), by decide +kernel⟩,
    ⟨(dialling [0x31#8, 0x21#8] fun c => { c with step := .interdigit }), by decide +kernel⟩,
    ⟨(dialling [0x31#8, 0x57#8] fun c => { c with step := .interdigit }), by decide +kernel⟩,
    ⟨(dialling [0x31#8, 0x35#8] fun c => { c with step := .interdigit }), by decide +kernel⟩,
    ⟨(modProfile .A (fun p => { p with dialMethod := .pulse }) (dialling [0x31#8, 0x30#8] fun c => { c with step := .comma })), by decide +kernel⟩,
    ⟨(dialling [0x31#8, 0x32#8] fun c => { c with step := .flash }), by decide +kernel⟩,
    ⟨(modIface .A (fun i => { i with tone := some ⟨.dtmf 0x31#8 80 80, false, 60⟩ }) (dialling [0x31#8, 0x23#8] fun c => { c with step := .toneDigit })), by decide +kernel, ⟨rfl, rfl, ⟨_, _, _, rfl⟩, rfl⟩⟩,
    ⟨(dialling [0x31#8, 0x57#8, 0x2C#8] fun c => { c with step := .comma, toneHeard := true }), by decide +kernel⟩,
    ⟨(dialling [0x31#8] fun c => { c with step := .interdigit, cr := { c.cr with mode := some .voice } }), by decide +kernel⟩,
    ⟨(dialling [0x31#8] fun c => { c with step := .interdigit, cr := { c.cr with mode := some .fax } }), by decide +kernel⟩,
    ⟨(dialling [0x31#8] fun c => { c with step := .interdigit, cr := { c.cr with mode := some .data } }), by decide +kernel⟩,
    ⟨(seizing [0x2C#8] fun c => { c with blindDue := some 2000 }), by decide +kernel⟩,
    ⟨(seizing [0x39#8] fun c => { c with blindDue := some 2000 }), by decide +kernel⟩,
    ⟨(modProfile .A (fun p => { p with dialMethod := .pulse }) (seizing [0x39#8] fun c => { c with blindDue := some 2000 })), by decide +kernel⟩,
    ⟨(modProfile .A (fun p => { p with blindDial := true }) (modIface .A (fun i => { i with loop := .wait 1000 (some 20) }) (seizing [0x39#8] id))), by decide +kernel⟩,
    ⟨(modIface .A (fun i => { i with loop := .wait 1000 (some 20) }) (seizing [0x39#8] id)), by decide +kernel⟩,
    ⟨(modIface .A (fun i => { i with loop := .wait 1000 (some 20) }) (seizing [0x39#8] fun c => { c with toneHeard := true })), by decide +kernel⟩,
    ⟨(modProfile .A (fun p => { p with blindDial := true }) (seizing [0x39#8] id)), by decide +kernel⟩,
    ⟨(seizing [0x39#8] id), by decide +kernel⟩,
    ⟨(seizing [0x39#8] fun c => { c with loopUp := true }), by decide +kernel⟩,
    ⟨(dialling [0x39#8] id), by decide +kernel⟩,
    ⟨(dialling [0x57#8, 0x2C#8] fun c => { c with step := .waitTone }), by decide +kernel⟩⟩

theorem witness_AnswerChecksThenAnswers :
    (∃ s : State,
      s.requests = [] ∧ (7 < (8#8).toNat ∧ 8#8 ≠ 255#8)) ∧
    (∃ s : State,
      s.requests = [] ∧ 1#8 = lineByte Line.A ∧ 1 ≤ (4#8).toNat ∧ (4#8).toNat ≤ 4 ∧ mailboxOf 255#8 = some none ∧
      (¬(s.st Line.A = LineSt.idle ∨ s.st Line.A = LineSt.ringing))) ∧
    (∃ s : State,
      s.requests = [] ∧ 1#8 = lineByte Line.A ∧ 1 ≤ (4#8).toNat ∧ (4#8).toNat ≤ 4 ∧ mailboxOf 7#8 = some (some 7) ∧
      s.st Line.A = LineSt.idle ∧ hasHook s Line.A = true ∧ ¬4#8 = 1#8 ∧ ¬s.store.st = StoreSt.ready) ∧
    (∃ s : State,
      (s.requests = [] ∧ 1#8 = lineByte Line.A ∧ 1 ≤ (1#8).toNat ∧ (1#8).toNat ≤ 4 ∧ mailboxOf 255#8 = some none ∧
       s.st Line.A = LineSt.ringing ∧ hasHook s Line.A = true ∧ hasPin s (loopFn Line.A) = true ∧
       (s.line Line.A).iface.loop = LoopDeb.onHook ∧ (s.line Line.A).iface.tone = none) ∧
      (∀ (bs : List Byte), (s.line Line.A).iface.window ≠ CallerWindow.gathering bs)) ∧
    (∃ s : State,
      (s.requests = [] ∧ 1#8 = lineByte Line.A ∧ 1 ≤ (2#8).toNat ∧ (2#8).toNat ≤ 4 ∧ mailboxOf 7#8 = some (some 7) ∧
       s.st Line.A = LineSt.idle ∧ hasHook s Line.A = true ∧ s.store.st = StoreSt.ready ∧ hasPin s (loopFn Line.A) = true ∧
       (s.line Line.A).iface.loop = LoopDeb.onHook ∧ (s.line Line.A).iface.tone = none) ∧
      (∀ (bs : List Byte), (s.line Line.A).iface.window ≠ CallerWindow.gathering bs)) ∧
    (∃ s : State,
      (s.line Line.A).call.cr.rings < 2) ∧
    (∃ s : State,
      consult s true (callerSubject (s.line Line.A).iface.caller) = none) ∧
    (∃ s : State,
      consult s true (callerSubject (s.line Line.A).iface.caller) = some ScreenAction.allow) ∧
    (∃ s : State,
      2 ≤ (s.line Line.A).call.cr.rings ∧ consult s true (callerSubject (s.line Line.A).iface.caller) = some ScreenAction.noAnswer) ∧
    (∃ s : State,
      2 ≤ (s.line Line.A).call.cr.rings ∧ consult s true (callerSubject (s.line Line.A).iface.caller) = some (ScreenAction.answerRings 5)) ∧
    (∃ s : State,
      2 ≤ (s.line Line.A).call.cr.rings ∧ consult s true (callerSubject (s.line Line.A).iface.caller) = some (ScreenAction.route 3)) ∧
    (∃ s : State,
      2 ≤ (s.line Line.A).call.cr.rings ∧ consult s true (callerSubject (s.line Line.A).iface.caller) = some ScreenAction.faxOnly) ∧
    (∃ s : State,
      2 ≤ (s.line Line.A).call.cr.rings ∧ consult s true (callerSubject (s.line Line.A).iface.caller) = some ScreenAction.dataOnly) ∧
    (∃ s : State,
      (s.requests = [] ∧ s.st Line.A = LineSt.ringing ∧ (s.line Line.A).iface.ring = RingDeb.pending 0 1000 ∧ (∀ e ∈ s.screen, e = none) ∧
       (s.line Line.A).call.cr.ringClass = none ∧ (s.line Line.A).profile.answerMode = CallMode.data ∧ hasHook s Line.A = true ∧
       hasPin s (loopFn Line.A) = true ∧ (s.line Line.A).iface.loop = LoopDeb.onHook ∧ (s.line Line.A).iface.tone = none ∧
       (s.line Line.A).call.ringsToAnswer.getD (s.line Line.A).profile.rings ≤ min 255 ((s.line Line.A).call.cr.rings + 1)) ∧
      (∀ (e : CadEntry), some e ∈ s.cadences → e.source ≠ CadSource.ring) ∧
      (∀ (bs : List Byte), (s.line Line.A).iface.window ≠ CallerWindow.gathering bs)) ∧
    (∃ s : State,
      (s.requests = [] ∧ s.st Line.A = LineSt.ringing ∧ (s.line Line.A).iface.ring = RingDeb.pending 0 1000 ∧ (∀ e ∈ s.screen, e = none) ∧
       (s.line Line.A).call.cr.ringClass = none ∧ (s.line Line.A).profile.answerMode = CallMode.data ∧ hasHook s Line.A = true ∧
       hasPin s (loopFn Line.A) = true ∧ (s.line Line.A).iface.loop = LoopDeb.onHook ∧ (s.line Line.A).iface.tone = none ∧
       min 255 ((s.line Line.A).call.cr.rings + 1) < (s.line Line.A).call.ringsToAnswer.getD (s.line Line.A).profile.rings) ∧
      (∀ (e : CadEntry), some e ∈ s.cadences → e.source ≠ CadSource.ring) ∧
      (∀ (bs : List Byte), (s.line Line.A).iface.window ≠ CallerWindow.gathering bs)) ∧
    (∃ s : State,
      (s.requests = [] ∧ s.st Line.A = LineSt.seize ∧ (s.line Line.A).iface.ring = RingDeb.pending 0 1000 ∧
       (s.line Line.A).call.refHeld = false ∧ (s.line Line.A).iface.tone = none ∧ ¬s.store.st = StoreSt.ready ∧
       (s.line Line.A).iface.expecting = false) ∧
      (∀ (e : CadEntry), some e ∈ s.cadences → e.source ≠ CadSource.ring) ∧ (∀ (l : Line), (s.line l).profile.autoCallout = false)) ∧
    (∃ s : State,
      (s.requests = [] ∧ s.st Line.A = LineSt.seize ∧ (s.line Line.A).iface.ring = RingDeb.pending 0 1000 ∧
       (s.line Line.A).call.refHeld = false ∧ (s.line Line.A).iface.tone = none ∧ s.store.st = StoreSt.ready ∧
       (s.line Line.A).iface.expecting = false ∧ readerOf s (Owner.line Line.A) = none ∧
       (greetingOf s { emptyCallRecord with dir := some Direction.incoming, mode := some CallMode.auto, mailbox := if (Option.map (fun (x : Mailbox) => x.enabled) s.mailboxes[(s.line Line.A).profile.mailbox]?).getD false = true then some (s.line Line.A).profile.mailbox else none, rings := 1 }.mailbox = none)) ∧
      (∀ (e : CadEntry), some e ∈ s.cadences → e.source ≠ CadSource.ring) ∧ (∀ (l : Line), (s.line l).profile.autoCallout = false)) ∧
    (∃ s : State,
      (s.requests = [] ∧ s.st Line.A = LineSt.seize ∧ (s.line Line.A).iface.ring = RingDeb.pending 0 1000 ∧
       (s.line Line.A).call.refHeld = false ∧ (s.line Line.A).iface.tone = none ∧ s.store.st = StoreSt.ready ∧
       (s.line Line.A).iface.expecting = false ∧ readerOf s (Owner.line Line.A) = none ∧
       (greetingOf s { emptyCallRecord with dir := some Direction.incoming, mode := some CallMode.auto, mailbox := if (Option.map (fun (x : Mailbox) => x.enabled) s.mailboxes[(s.line Line.A).profile.mailbox]?).getD false = true then some (s.line Line.A).profile.mailbox else none, rings := 1 }.mailbox = none)) ∧
      (∀ (e : CadEntry), some e ∈ s.cadences → e.source ≠ CadSource.ring) ∧ (∀ (l : Line), (s.line l).profile.autoCallout = false)) ∧
    (∃ s : State,
      (s.requests = [] ∧ 1#8 = lineByte Line.A ∧ 1 ≤ (3#8).toNat ∧ (3#8).toNat ≤ 4 ∧ mailboxOf 255#8 = some none ∧
       (s.st Line.A = LineSt.idle ∨ s.st Line.A = LineSt.ringing) ∧ hasHook s Line.A = true ∧ (3#8 = 3#8 ∨ 3#8 = 4#8) ∧
       s.store.st = StoreSt.ready ∧ hasPin s (loopFn Line.A) = true ∧ (s.line Line.A).iface.loop = LoopDeb.onHook ∧
       (s.line Line.A).iface.expecting = false ∧ readerOf s (Owner.line Line.A) = none ∧
       (let x := s.line Line.A
        let enabled := fun (m : Nat) => ((s.mailboxes[m]?).map (·.enabled)).getD false
        let checked := if enabled ((none : Option Nat).getD x.profile.mailbox) then some ((none : Option Nat).getD x.profile.mailbox)
          else if enabled x.profile.mailbox then some x.profile.mailbox else none
        greetingOf s checked = none)) ∧
      (∀ (bs : List Byte), (s.line Line.A).iface.window ≠ CallerWindow.gathering bs)) ∧
    (∃ s : State,
      (s.requests = [] ∧ 1#8 = lineByte Line.A ∧ 1 ≤ (4#8).toNat ∧ (4#8).toNat ≤ 4 ∧ mailboxOf 7#8 = some (some 7) ∧
       (s.st Line.A = LineSt.idle ∨ s.st Line.A = LineSt.ringing) ∧ hasHook s Line.A = true ∧ (4#8 = 3#8 ∨ 4#8 = 4#8) ∧
       s.store.st = StoreSt.ready ∧ hasPin s (loopFn Line.A) = true ∧ (s.line Line.A).iface.loop = LoopDeb.onHook ∧
       (s.line Line.A).iface.expecting = false ∧ readerOf s (Owner.line Line.A) = none ∧
       (let x := s.line Line.A
        let enabled := fun (m : Nat) => ((s.mailboxes[m]?).map (·.enabled)).getD false
        let checked := if enabled ((some 7).getD x.profile.mailbox) then some ((some 7).getD x.profile.mailbox)
          else if enabled x.profile.mailbox then some x.profile.mailbox else none
        greetingOf s checked = none)) ∧
      (∀ (bs : List Byte), (s.line Line.A).iface.window ≠ CallerWindow.gathering bs)) ∧
    (∃ s : State,
      (s.requests = [] ∧ 1#8 = lineByte Line.A ∧ 1 ≤ (3#8).toNat ∧ (3#8).toNat ≤ 4 ∧ mailboxOf 7#8 = some (some 7) ∧
       (s.st Line.A = LineSt.idle ∨ s.st Line.A = LineSt.ringing) ∧ hasHook s Line.A = true ∧ (3#8 = 3#8 ∨ 3#8 = 4#8) ∧
       s.store.st = StoreSt.ready ∧ hasPin s (loopFn Line.A) = true ∧ (s.line Line.A).iface.loop = LoopDeb.onHook ∧
       (s.line Line.A).iface.expecting = false ∧ readerOf s (Owner.line Line.A) = none ∧
       (let x := s.line Line.A
        let enabled := fun (m : Nat) => ((s.mailboxes[m]?).map (·.enabled)).getD false
        let checked := if enabled ((some 7).getD x.profile.mailbox) then some ((some 7).getD x.profile.mailbox)
          else if enabled x.profile.mailbox then some x.profile.mailbox else none
        checked = none ∧ greetingOf s checked = none)) ∧
      (∀ (bs : List Byte), (s.line Line.A).iface.window ≠ CallerWindow.gathering bs)) ∧
    (∃ s : State,
      (s.requests = [] ∧ 1#8 = lineByte Line.A ∧ 1 ≤ (3#8).toNat ∧ (3#8).toNat ≤ 4 ∧ mailboxOf 7#8 = some (some 7) ∧
       (s.st Line.A = LineSt.idle ∨ s.st Line.A = LineSt.ringing) ∧ hasHook s Line.A = true ∧ (3#8 = 3#8 ∨ 3#8 = 4#8) ∧
       s.store.st = StoreSt.ready ∧ hasPin s (loopFn Line.A) = true ∧ (s.line Line.A).iface.loop = LoopDeb.onHook ∧
       (s.line Line.A).iface.expecting = false ∧ readerOf s (Owner.line Line.A) = none ∧
       (let x := s.line Line.A
        let enabled := fun (m : Nat) => ((s.mailboxes[m]?).map (·.enabled)).getD false
        let checked := if enabled ((some 7).getD x.profile.mailbox) then some ((some 7).getD x.profile.mailbox)
          else if enabled x.profile.mailbox then some x.profile.mailbox else none
        greetingOf s checked = some (voiceMessage 7) ∧ (voiceMessage 7).state = .closed ∧ (voiceMessage 7).erasePending = false ∧ (voiceMessage 7).inUse < 255 ∧
        s.store.grant ≠ none)) ∧
      (∀ (bs : List Byte), (s.line Line.A).iface.window ≠ CallerWindow.gathering bs)) ∧
    (∃ s : State,
      (s.requests = [] ∧ 1#8 = lineByte Line.A ∧ 1 ≤ (4#8).toNat ∧ (4#8).toNat ≤ 4 ∧ mailboxOf 7#8 = some (some 7) ∧
       (s.st Line.A = LineSt.idle ∨ s.st Line.A = LineSt.ringing) ∧ hasHook s Line.A = true ∧ (4#8 = 3#8 ∨ 4#8 = 4#8) ∧
       s.store.st = StoreSt.ready ∧ hasPin s (loopFn Line.A) = true ∧ (s.line Line.A).iface.loop = LoopDeb.onHook ∧
       (s.line Line.A).iface.expecting = false ∧ readerOf s (Owner.line Line.A) = none ∧
       (let x := s.line Line.A
        let enabled := fun (m : Nat) => ((s.mailboxes[m]?).map (·.enabled)).getD false
        let checked := if enabled ((some 7).getD x.profile.mailbox) then some ((some 7).getD x.profile.mailbox)
          else if enabled x.profile.mailbox then some x.profile.mailbox else none
        greetingOf s checked = some ({ voiceMessage 7 with inUse := 254 }) ∧ ({ voiceMessage 7 with inUse := 254 }).state = .closed ∧ ({ voiceMessage 7 with inUse := 254 }).erasePending = false ∧ ({ voiceMessage 7 with inUse := 254 }).inUse < 255 ∧
        s.store.grant ≠ none)) ∧
      (∀ (bs : List Byte), (s.line Line.A).iface.window ≠ CallerWindow.gathering bs)) :=
  ⟨⟨plain, by decide +kernel⟩,
    ⟨(called .train id), by decide +kernel⟩,
    ⟨{ plain with store := { plain.store with st := .scanning } }, by decide +kernel⟩,
    ⟨(called .ringing id), by decide +kernel, by intro x hx; cases hx⟩,
    ⟨plain, by decide +kernel, by intro x hx; cases hx⟩,
    ⟨(ringing id), by decide +kernel⟩,
    ⟨(ringing fun c => { c with cr := { c.cr with rings := 2, ringClass := some 2 } }), by decide +kernel⟩,
    ⟨(screened 2 .allow), by decide +kernel⟩,
    ⟨(screened 2 .noAnswer), by decide +kernel⟩,
    ⟨(screened 2 (.answerRings 5)), by decide +kernel⟩,
    ⟨(screened 2 (.route 3)), by decide +kernel⟩,
    ⟨(screened 2 .faxOnly), by decide +kernel⟩,
    ⟨(screened 2 .dataOnly), by decide +kernel⟩,
    ⟨(rangAgain 1), by decide +kernel, plain_cadences, by intro x hx; cases hx⟩,
    ⟨(rangAgain 0), by decide +kernel, plain_cadences, by intro x hx; cases hx⟩,
    ⟨({ glaring with store := { glaring.store with st := .scanning } }), by decide +kernel, plain_cadences, by intro l; cases l <;> decide +kernel⟩,
    ⟨(glaring), by decide +kernel, plain_cadences, by intro l; cases l <;> decide +kernel⟩,
    ⟨(modRecord .A (fun r => { r with job := some 9 }) { glaring with jobs := [job 8 .waiting, job 9 .active] }), by decide +kernel, plain_cadences, by intro l; cases l <;> decide +kernel⟩,
    ⟨plain, by decide +kernel, by intro x hx; cases hx⟩,
    ⟨(ringing id), by decide +kernel, by intro x hx; cases hx⟩,
    ⟨{ plain with mailboxes := defaultMailboxes.map fun b => { b with enabled := false } }, by decide +kernel, by intro x hx; cases hx⟩,
    ⟨(greeted (some 7) id), by decide +kernel, by intro x hx; cases hx⟩,
    ⟨(greeted (some 7) fun t => { t with dir := [{ voiceMessage 7 with inUse := 254 }] }), by decide +kernel, by intro x hx; cases hx⟩⟩

theorem witness_ScreenAndAttemptTablesAct :
    (∃ s : State,
      s.requests = [] ∧ 31 < (32#8).toNat) ∧
    (∃ s : State,
      s.requests = [] ∧
      (BitVec.toNat { direction := 0#8, action := 1#8, argument := 0#8, patternLength := 1#8, pattern := [49#8] : ScreenParams }.action ≤ 1 ∧ { direction := 0#8, action := 1#8, argument := 0#8, patternLength := 1#8, pattern := [49#8] : ScreenParams }.direction = 0#8)) ∧
    (∃ s : State,
      s.requests = [] ∧
      (254 ≤ BitVec.toNat { direction := 1#8, action := 1#8, argument := 0#8, patternLength := 254#8, pattern := [49#8] : ScreenParams }.patternLength ∧ { direction := 1#8, action := 1#8, argument := 0#8, patternLength := 254#8, pattern := [49#8] : ScreenParams }.direction = 1#8)) ∧
    (∃ s : State,
      s.requests = [] ∧
      ({ direction := 0#8, action := 4#8, argument := 8#8, patternLength := 1#8, pattern := [49#8] : ScreenParams }.action = 4#8 ∧ 7 < BitVec.toNat { direction := 0#8, action := 4#8, argument := 8#8, patternLength := 1#8, pattern := [49#8] : ScreenParams }.argument)) ∧
    (∃ s : State,
      s.requests = [] ∧ (31#8).toNat ≤ 31 ∧
      { direction := 2#8, action := 1#8, argument := 0#8, patternLength := 1#8, pattern := [49#8] : ScreenParams }.pattern.all isDigitChar = true ∧
      1 ≤ { direction := 2#8, action := 1#8, argument := 0#8, patternLength := 1#8, pattern := [49#8] : ScreenParams }.pattern.length ∧
      { direction := 2#8, action := 1#8, argument := 0#8, patternLength := 1#8, pattern := [49#8] : ScreenParams }.pattern.length ≤ 20 ∧
      BitVec.toNat { direction := 2#8, action := 1#8, argument := 0#8, patternLength := 1#8, pattern := [49#8] : ScreenParams }.patternLength = { direction := 2#8, action := 1#8, argument := 0#8, patternLength := 1#8, pattern := [49#8] : ScreenParams }.pattern.length ∧
      ScreenDir.ofCode (BitVec.toNat { direction := 2#8, action := 1#8, argument := 0#8, patternLength := 1#8, pattern := [49#8] : ScreenParams }.direction) = some ScreenDir.both ∧
      ¬ScreenDir.both = ScreenDir.incoming ∧
      { direction := 2#8, action := 1#8, argument := 0#8, patternLength := 1#8, pattern := [49#8] : ScreenParams }.action = 1#8) ∧
    (∃ s : State,
      s.requests = [] ∧ (31#8).toNat ≤ 31 ∧ entryAt s.screen (31#8).toNat = none) ∧
    (∃ s : State,
      s.requests = [] ∧ (0#8).toNat ≤ 31 ∧
      entryAt s.screen (0#8).toNat = some { pattern := Pattern.withheld, dir := ScreenDir.incoming, action := ScreenAction.noAnswer : ScreenEntry }) ∧
    (∃ s : State,
      s.requests = [] ∧ s.attempts.length = 16) :=
  ⟨⟨plain, by decide +kernel⟩,
    ⟨plain, by decide +kernel⟩,
    ⟨plain, by decide +kernel⟩,
    ⟨plain, by decide +kernel⟩,
    ⟨plain, by decide +kernel⟩,
    ⟨plain, by decide +kernel⟩,
    ⟨{ plain with screen := [some ⟨.withheld, .incoming, .noAnswer⟩] }, by decide +kernel⟩,
    ⟨{ plain with attempts := List.replicate 15 none ++ [some ⟨[0x31#8], 12, 0, 0⟩] }, by decide +kernel⟩⟩

theorem witness_JobaddAndJobclear :
    (∃ s : State,
      s.requests = [] ∧ JobKind.ofCode (3#8).toNat = none) ∧
    (∃ s : State,
      s.requests = [] ∧ JobKind.ofCode (2#8).toNat = some JobKind.voice ∧ LinePref.ofCode (1#8).toNat = some LinePref.a ∧
      (∃ l ∈ LinePref.a.lines, dialStringOk (s.line l).profile.dialMethod [42#8] = false)) ∧
    (∃ s : State,
      s.requests = [] ∧ JobKind.ofCode (1#8).toNat = some JobKind.fax ∧ LinePref.ofCode (3#8).toNat = some LinePref.any ∧
      (∀ l ∈ LinePref.any.lines, dialStringOk (s.line l).profile.dialMethod [49#8] = true) ∧ s.jobs.length < 16 ∧ faxRungs s.ladder = []) ∧
    (∃ s : State,
      s.requests = [] ∧ JobKind.ofCode (2#8).toNat = some JobKind.voice ∧ LinePref.ofCode (1#8).toNat = some LinePref.a ∧
      (∀ l ∈ LinePref.a.lines, dialStringOk (s.line l).profile.dialMethod [49#8] = true) ∧ s.jobs.length < 16 ∧
      (JobKind.voice = JobKind.fax → faxRungs s.ladder ≠ []) ∧ s.store.st = StoreSt.ready ∧
      messageFits s JobKind.voice.mode (7#16).toNat = true ∧
      (∀ l ∈ LinePref.a.lines, outgoingBarred s (s.line l).profile.screenBar (dialNumber [49#8]) = true)) ∧
    (∃ s : State,
      (s.requests = [] ∧ JobKind.ofCode (2#8).toNat = some JobKind.voice ∧ LinePref.ofCode (3#8).toNat = some LinePref.any ∧
       16 ≤ s.jobs.length) ∧
      (∀ (l : Line), dialStringOk (s.line l).profile.dialMethod [49#8] = true) ∧ (∀ (l : Line), (s.line l).profile.autoCallout = false)) ∧
    (∃ s : State,
      (s.requests = [] ∧ JobKind.ofCode (2#8).toNat = some JobKind.voice ∧ LinePref.ofCode (3#8).toNat = some LinePref.any ∧
       s.jobs.length < 16 ∧ ¬s.store.st = StoreSt.ready) ∧
      (∀ (l : Line), dialStringOk (s.line l).profile.dialMethod [49#8] = true) ∧ (∀ (l : Line), (s.line l).profile.autoCallout = false)) ∧
    (∃ s : State,
      (s.requests = [] ∧ JobKind.ofCode (2#8).toNat = some JobKind.voice ∧ LinePref.ofCode (3#8).toNat = some LinePref.any ∧
       s.jobs.length < 16 ∧ s.store.st = StoreSt.ready ∧ findEntry s (8#16).toNat = none) ∧
      (∀ (l : Line), dialStringOk (s.line l).profile.dialMethod [49#8] = true) ∧ (∀ (l : Line), (s.line l).profile.autoCallout = false)) ∧
    (∃ s : State,
      (s.requests = [] ∧ JobKind.ofCode (2#8).toNat = some JobKind.voice ∧ LinePref.ofCode (3#8).toNat = some LinePref.any ∧
       s.jobs.length < 16 ∧ s.store.st = StoreSt.ready ∧ messageFits s JobKind.voice.mode (7#16).toNat = true ∧
       1 = freeJobId s.jobs 16 (nextJobId s.lastJob) ∧ 1 < 256 ∧ findJob s 1 = none) ∧
      (∀ (l : Line), dialStringOk (s.line l).profile.dialMethod [49#8] = true) ∧ (∀ (l : Line), (s.line l).profile.autoCallout = false) ∧
      (∀ (l : Line), outgoingBarred s (s.line l).profile.screenBar (dialNumber [49#8]) = false)) ∧
    (∃ s : State,
      (s.requests = [] ∧ JobKind.ofCode (2#8).toNat = some JobKind.voice ∧ LinePref.ofCode (3#8).toNat = some LinePref.any ∧
       findJob s (9#8).toNat = none) ∧
      (∀ (l : Line), dialStringOk (s.line l).profile.dialMethod [49#8] = true) ∧ (∀ (l : Line), (s.line l).profile.autoCallout = false)) ∧
    (∃ s : State,
      (s.requests = [] ∧ JobKind.ofCode (2#8).toNat = some JobKind.voice ∧ LinePref.ofCode (3#8).toNat = some LinePref.any ∧
       findJob s (9#8).toNat = some (job 9 JobState.active) ∧ (job 9 JobState.active).state = JobState.active) ∧
      (∀ (l : Line), dialStringOk (s.line l).profile.dialMethod [49#8] = true) ∧ (∀ (l : Line), (s.line l).profile.autoCallout = false)) ∧
    (∃ s : State,
      (s.requests = [] ∧ JobKind.ofCode (2#8).toNat = some JobKind.voice ∧ LinePref.ofCode (3#8).toNat = some LinePref.any ∧
       findJob s (9#8).toNat = some (job 9 JobState.waiting) ∧ findEntry s (job 9 JobState.waiting).message = some usedMessage ∧
       1 ≤ usedMessage.inUse ∧ usedMessage.erasePending = false ∧ ¬s.store.grant = none ∧ (job 9 JobState.waiting).state = JobState.waiting) ∧
      (∀ (l : Line), dialStringOk (s.line l).profile.dialMethod [49#8] = true) ∧ (∀ (l : Line), (s.line l).profile.autoCallout = false)) ∧
    (∃ s : State,
      (s.requests = [] ∧ JobKind.ofCode (2#8).toNat = some JobKind.voice ∧ LinePref.ofCode (3#8).toNat = some LinePref.any ∧
       findJob s (9#8).toNat = some (job 9 JobState.done) ∧ findEntry s (job 9 JobState.done).message = some usedMessage ∧
       1 ≤ usedMessage.inUse ∧ usedMessage.erasePending = false ∧ ¬s.store.grant = none ∧ (job 9 JobState.done).state = JobState.done) ∧
      (∀ (l : Line), dialStringOk (s.line l).profile.dialMethod [49#8] = true) ∧ (∀ (l : Line), (s.line l).profile.autoCallout = false)) ∧
    (∃ s : State,
      s.requests = [] ∧ ¬Line.B = Line.A ∧ (s.line Line.B).profile.autoCallout = false ∧ (s.line Line.A).profile.autoCallout = false) ∧
    (∃ s : State,
      s.requests = [] ∧ ¬Line.B = Line.A ∧ (s.line Line.B).profile.autoCallout = false ∧
      (List.filter (fun (k : Job) => decide (k.state = JobState.waiting)) (listOrder s.store.settings.order s.jobs) = [{ (job 9 JobState.waiting) with preference := LinePref.b }]) ∧
      findJob s { (job 9 JobState.waiting) with preference := LinePref.b }.id = some { (job 9 JobState.waiting) with preference := LinePref.b } ∧
      s.st Line.A = LineSt.idle ∧ (s.line Line.A).profile.autoCallout = true ∧ hasHook s Line.A = true ∧ s.store.st = StoreSt.ready ∧
      (¬((s.line Line.A).profile.extPolicy = ExtPolicy.yieldLine ∧ (s.line Line.A).iface.extState = true)) ∧
      Line.A ∉ { (job 9 JobState.waiting) with preference := LinePref.b }.preference.lines) ∧
    (∃ s : State,
      s.requests = [] ∧ ¬Line.B = Line.A ∧ (s.line Line.B).profile.autoCallout = false ∧
      (List.filter (fun (k : Job) => decide (k.state = JobState.waiting)) (listOrder s.store.settings.order s.jobs) = [job 9 JobState.waiting]) ∧
      findJob s (job 9 JobState.waiting).id = some (job 9 JobState.waiting) ∧ s.st Line.A = LineSt.idle ∧
      (s.line Line.A).profile.autoCallout = true ∧ hasHook s Line.A = true ∧ s.store.st = StoreSt.ready ∧
      (¬((s.line Line.A).profile.extPolicy = ExtPolicy.yieldLine ∧ (s.line Line.A).iface.extState = true)) ∧
      Line.A ∈ (job 9 JobState.waiting).preference.lines ∧
      consultAttempts { s with link := { s.link with seconds := min 4294967295 (s.link.seconds + 1), secondDue := s.link.secondDue + 1000 }, now := max s.now s.link.secondDue } (job 9 JobState.waiting).number = AttemptVerdict.barred) ∧
    (∃ s : State,
      s.requests = [] ∧ ¬Line.B = Line.A ∧ (s.line Line.B).profile.autoCallout = false ∧
      (List.filter (fun (k : Job) => decide (k.state = JobState.waiting)) (listOrder s.store.settings.order s.jobs) = [job 9 JobState.waiting]) ∧
      findJob s (job 9 JobState.waiting).id = some (job 9 JobState.waiting) ∧ s.st Line.A = LineSt.idle ∧
      (s.line Line.A).profile.autoCallout = true ∧ hasHook s Line.A = true ∧ s.store.st = StoreSt.ready ∧
      (¬((s.line Line.A).profile.extPolicy = ExtPolicy.yieldLine ∧ (s.line Line.A).iface.extState = true)) ∧
      Line.A ∈ (job 9 JobState.waiting).preference.lines ∧
      consultAttempts { s with link := { s.link with seconds := min 4294967295 (s.link.seconds + 1), secondDue := s.link.secondDue + 1000 }, now := max s.now s.link.secondDue } (job 9 JobState.waiting).number = AttemptVerdict.delayed 59) ∧
    (∃ s : State,
      s.requests = [] ∧ ¬Line.B = Line.A ∧ (s.line Line.B).profile.autoCallout = false ∧
      (List.filter (fun (k : Job) => decide (k.state = JobState.waiting)) (listOrder s.store.settings.order s.jobs) = [job 9 JobState.waiting]) ∧
      findJob s (job 9 JobState.waiting).id = some (job 9 JobState.waiting) ∧ s.st Line.A = LineSt.idle ∧
      (s.line Line.A).profile.autoCallout = true ∧ hasHook s Line.A = true ∧ s.store.st = StoreSt.ready ∧
      (¬((s.line Line.A).profile.extPolicy = ExtPolicy.yieldLine ∧ (s.line Line.A).iface.extState = true)) ∧
      Line.A ∈ (job 9 JobState.waiting).preference.lines ∧
      consultAttempts { s with link := { s.link with seconds := min 4294967295 (s.link.seconds + 1), secondDue := s.link.secondDue + 1000 }, now := max s.now s.link.secondDue } (job 9 JobState.waiting).number = AttemptVerdict.allowed ∧
      outgoingBarred s (s.line Line.A).profile.screenBar (job 9 JobState.waiting).number = true) ∧
    (∃ s : State,
      s.requests = [] ∧ ¬Line.B = Line.A ∧ (s.line Line.B).profile.autoCallout = false ∧
      (List.filter (fun (k : Job) => decide (k.state = JobState.waiting)) (listOrder s.store.settings.order s.jobs) = [job 9 JobState.waiting, job 10 JobState.waiting]) ∧
      findJob s (job 9 JobState.waiting).id = some (job 9 JobState.waiting) ∧ s.st Line.A = LineSt.idle ∧
      (s.line Line.A).profile.autoCallout = true ∧ hasHook s Line.A = true ∧ s.store.st = StoreSt.ready ∧
      (¬((s.line Line.A).profile.extPolicy = ExtPolicy.yieldLine ∧ (s.line Line.A).iface.extState = true)) ∧
      Line.A ∈ (job 9 JobState.waiting).preference.lines ∧
      consultAttempts { s with link := { s.link with seconds := min 4294967295 (s.link.seconds + 1), secondDue := s.link.secondDue + 1000 }, now := max s.now s.link.secondDue } (job 9 JobState.waiting).number = AttemptVerdict.allowed ∧
      outgoingBarred s (s.line Line.A).profile.screenBar (job 9 JobState.waiting).number = false ∧ hasPin s (loopFn Line.A) = true ∧
      (s.line Line.A).iface.loop = LoopDeb.onHook ∧ (s.line Line.A).iface.expecting = false ∧ (s.line Line.A).voice.sub = none) ∧
    (∃ s : State,
      (s.requests = [] ∧ (s.st Line.A).releasable = true ∧ (s.line Line.A).iface.tone = none ∧ (s.line Line.A).fax.role = none ∧
       (s.line Line.A).voice.sub = none ∧ (s.line Line.A).call.refHeld = false ∧
       (s.line Line.A).call.cr.job = some { (job 9 JobState.active) with maxTries := 2 }.id ∧
       findJob s { (job 9 JobState.active) with maxTries := 2 }.id = some { (job 9 JobState.active) with maxTries := 2 } ∧
       Instr.release 1#8 2#8 = Instr.release (lineByte Line.A) 2#8) ∧
      (∀ (l : Line), (s.line l).profile.autoCallout = false)) ∧
    (∃ s : State,
      (s.requests = [] ∧ (s.st Line.A).releasable = true ∧ (s.line Line.A).iface.tone = none ∧ (s.line Line.A).fax.role = none ∧
       (s.line Line.A).voice.sub = none ∧ (s.line Line.A).call.refHeld = false ∧
       (s.line Line.A).call.cr.job = some { (job 9 JobState.active) with maxTries := 2 }.id ∧
       findJob s { (job 9 JobState.active) with maxTries := 2 }.id = some { (job 9 JobState.active) with maxTries := 2 } ∧
       ¬(s.line Line.A).iface.extDue = none ∧ (s.line Line.A).iface.extIn = true ∧ (s.line Line.A).iface.extState = false ∧
       (s.line Line.A).profile.extPolicy = ExtPolicy.yieldLine) ∧
      (∀ (l : Line), (s.line l).profile.autoCallout = false)) ∧
    (∃ s : State,
      (s.requests = [] ∧ (s.st Line.A).releasable = true ∧ (s.line Line.A).iface.tone = none ∧ (s.line Line.A).fax.role = none ∧
       (s.line Line.A).voice.sub = none ∧ (s.line Line.A).call.refHeld = false ∧
       (s.line Line.A).call.cr.job = some { (job 9 JobState.active) with maxTries := 2 }.id ∧
       findJob s { (job 9 JobState.active) with maxTries := 2 }.id = some { (job 9 JobState.active) with maxTries := 2 } ∧
       ¬(s.line Line.A).call.progressDue = none ∧ (s.line Line.A).fax.good = 0) ∧
      (∀ (l : Line), (s.line l).profile.autoCallout = false)) ∧
    (∃ s : State,
      (s.requests = [] ∧ (s.st Line.A).releasable = true ∧ (s.line Line.A).iface.tone = none ∧ (s.line Line.A).fax.role = none ∧
       (s.line Line.A).voice.sub = none ∧ (s.line Line.A).call.refHeld = false ∧
       (s.line Line.A).call.cr.job = some { (job 9 JobState.active) with maxTries := 2, tries := 1 }.id ∧
       findJob s { (job 9 JobState.active) with maxTries := 2, tries := 1 }.id = some { (job 9 JobState.active) with maxTries := 2, tries := 1 } ∧
       ¬(s.line Line.A).call.progressDue = none ∧ (s.line Line.A).fax.good = 0) ∧
      (∀ (l : Line), (s.line l).profile.autoCallout = false)) :=
  ⟨⟨stored, by decide +kernel⟩,
    ⟨(modProfile .A (fun p => { p with dialMethod := .pulse }) stored), by decide +kernel⟩,
    ⟨{ stored with ladder := [⟨.l12, 60, 200, 600⟩] }, by decide +kernel⟩,
    ⟨(modProfile .A (fun p => { p with screenBar := true }) stored), by decide +kernel⟩,
    ⟨{ stored with jobs := List.replicate 16 (job 1 .waiting) }, by decide +kernel, by intro l; cases l <;> decide +kernel, by intro l; cases l <;> decide +kernel⟩,
    ⟨{ stored with store := { stored.store with st := .formatting } }, by decide +kernel, by intro l; cases l <;> decide +kernel, by intro l; cases l <;> decide +kernel⟩,
    ⟨stored, by decide +kernel, by intro l; cases l <;> decide +kernel, by intro l; cases l <;> decide +kernel⟩,
    ⟨stored, by decide +kernel, by intro l; cases l <;> decide +kernel, by intro l; cases l <;> decide +kernel, by intro l; cases l <;> decide +kernel⟩,
    ⟨stored, by decide +kernel, by intro l; cases l <;> decide +kernel, by intro l; cases l <;> decide +kernel⟩,
    ⟨{ stored with jobs := [job 9 .active] }, by decide +kernel, by intro l; cases l <;> decide +kernel, by intro l; cases l <;> decide +kernel⟩,
    ⟨(jobbed .waiting), by decide +kernel, by intro l; cases l <;> decide +kernel, by intro l; cases l <;> decide +kernel⟩,
    ⟨(jobbed .done), by decide +kernel, by intro l; cases l <;> decide +kernel, by intro l; cases l <;> decide +kernel⟩,
    ⟨stored, by decide +kernel⟩,
    ⟨(dispatching [{ job 9 .waiting with preference := .b }]), by decide +kernel⟩,
    ⟨({ dispatching [job 9 .waiting] with attempts := [some ⟨[0x31#8], 12, 0, 0⟩] }), by decide +kernel⟩,
    ⟨({ dispatching [job 9 .waiting] with attempts := [some ⟨[0x31#8], 2, 0, 60⟩] }), by decide +kernel⟩,
    ⟨(modProfile .A (fun p => { p with screenBar := true }) (dispatching [job 9 .waiting])), by decide +kernel⟩,
    ⟨(dispatching [job 8 .done, job 9 .waiting, job 10 .waiting]), by decide +kernel⟩,
    ⟨(onJob ({ job 9 .active with maxTries := 2 }) id), by decide +kernel, by intro l; cases l <;> decide +kernel⟩,
    ⟨(onJob ({ job 9 .active with maxTries := 2 }) fun x => { x with profile := { x.profile with extPolicy := .yieldLine }, iface := { x.iface with extIn := true, extDue := some 50 } }), by decide +kernel, by intro l; cases l <;> decide +kernel⟩,
    ⟨(onJob ({ job 9 .active with maxTries := 2 }) id), by decide +kernel, by intro l; cases l <;> decide +kernel⟩,
    ⟨(onJob ({ job 9 .active with maxTries := 2, tries := 1 }) id), by decide +kernel, by intro l; cases l <;> decide +kernel⟩⟩

theorem witness_CallTimersAct :
    (∃ s : State,
      s.requests = [] ∧ (s.line Line.A).call.digitDue = some 4000) ∧
    (∃ s : State,
      s.requests = [] ∧ (s.line Line.A).call.watchDue = some 10000 ∧ s.st Line.A = LineSt.progress ∧ (s.line Line.A).call.ringback = false) ∧
    (∃ s : State,
      s.requests = [] ∧ (s.line Line.A).call.classifyDue = some 30000 ∧ s.st Line.A = LineSt.classify ∧ s.store.st = StoreSt.ready ∧
      s.store.settings.reserve < s.store.free.length ∧ s.store.dir.length < 96 ∧ (s.line Line.A).voice.sub = some VoiceSub.greeting ∧
      readerOf s (Owner.line Line.A) = none ∧ (s.line Line.A).iface.tone = none ∧ (s.line Line.A).iface.expecting = false) ∧
    (∃ s : State,
      s.requests = [] ∧ (s.line Line.A).call.classifyDue = some 30000 ∧ s.st Line.A = LineSt.classify ∧ ¬s.store.st = StoreSt.ready ∧
      (s.line Line.A).voice.sub = some VoiceSub.greeting ∧ readerOf s (Owner.line Line.A) = none ∧ (s.line Line.A).call.cr.job = none ∧
      (s.line Line.A).call.refHeld = false ∧ (s.line Line.A).fax.role = none ∧ (s.line Line.A).iface.tone = none ∧
      (s.line Line.A).iface.current = PerSource.all false) :=
  ⟨⟨(called .classify fun c => { c with digitDue := some 4000, digits := [0x31#8] }), by decide +kernel⟩,
    ⟨(called .progress fun c => { c with watchDue := some 10000 }), by decide +kernel⟩,
    ⟨(inCall .classify (fun x => { x with call := { x.call with classifyDue := some 30000, cr := { x.call.cr with mailbox := some 1 } }, voice := { x.voice with sub := some .greeting, silentDue := some 31000 } }) stored), by decide +kernel⟩,
    ⟨(inCall .classify (fun x => { x with call := { x.call with classifyDue := some 30000 }, voice := { x.voice with sub := some .greeting } }) { plain with store := { plain.store with st := .scanning } }), by decide +kernel⟩⟩

/-- Operands of a LADDER whose values pass its checks. -/
def risingLadder (raw : List RungParams) : Prop :=
  raw ≠ [] ∧ raw.length ≤ 8 ∧ (∀ r ∈ raw, r.mode.toNat ≤ 7 ∧ r.u.toNat < r.d.toNat ∧ r.d.toNat < r.x.toNat) ∧
  (∀ (i : Nat) (a b : RungParams), raw[i]? = some a → raw[i + 1]? = some b → a.mode.toNat < b.mode.toNat)

theorem witness_LadderChecksThenLoads :
    (∃ s : State,
      s.requests = [] ∧
      (∃ r ∈ [{ mode := 8#8, u := 1#16, d := 2#16, x := 3#16 : RungParams }], 7 < BitVec.toNat r.mode ∨ BitVec.toNat r.d ≤ BitVec.toNat r.u ∨ BitVec.toNat r.x ≤ BitVec.toNat r.d)) ∧
    (∃ s : State,
      (s.requests = []) ∧
      (∃ (i : ℕ) (a : RungParams) (b : RungParams), [{ mode := 3#8, u := 1#16, d := 2#16, x := 3#16 : RungParams }, { mode := 3#8, u := 1#16, d := 2#16, x := 3#16 : RungParams }][i]? = some a ∧ [{ mode := 3#8, u := 1#16, d := 2#16, x := 3#16 : RungParams }, { mode := 3#8, u := 1#16, d := 2#16, x := 3#16 : RungParams }][i + 1]? = some b ∧ BitVec.toNat b.mode ≤ BitVec.toNat a.mode)) ∧
    (∃ s : State,
      s.requests = [] ∧ risingLadder [⟨7#8, 1#16, 2#16, 3#16⟩] ∧
      (∃ (l : Line), s.st l = LineSt.train ∨ s.st l = LineSt.data ∨ s.st l = LineSt.fax)) ∧
    (∃ s : State,
      (s.requests = [] ∧ risingLadder [⟨3#8, 1#16, 2#16, 3#16⟩, ⟨7#8, 0#16, 2#16, 0xFFFF#16⟩]) ∧
      (∀ (l : Line), s.st l ≠ LineSt.train ∧ s.st l ≠ LineSt.data ∧ s.st l ≠ LineSt.fax)) :=
  ⟨⟨plain, by decide +kernel⟩,
    ⟨plain, by decide +kernel, ⟨0, _, _, rfl, rfl, by decide⟩⟩,
    ⟨(inData id), by decide +kernel, ⟨by decide, by decide, by decide, fun _ _ _ _ h => by simp at h⟩, ⟨.A, by decide⟩⟩,
    ⟨plain, ⟨by decide +kernel, by decide, by decide, by decide, by
        rintro (_ | _) a b ha hb <;> simp at ha hb
        subst ha hb; decide⟩, by intro l; cases l <;> decide +kernel⟩⟩

theorem witness_WindowEndBlendsQuality :
    (∃ s : State,
      s.requests = [] ∧ s.st Line.A = LineSt.data ∧ currentRung s Line.A = some { mode := Mode.l96, u := 60, d := 200, x := 600 : Rung } ∧
      (s.line Line.A).modem.window = some { threshold := 2048, divisor := 16, sum := 0, impulses := 0, count := 0 : Window } ∧
      (s.line Line.A).modem.phase = none ∧ (s.line Line.A).fax.role = none ∧ (s.line Line.A).iface.current.freqLimit = false ∧
      Int.natAbs 0 ≤ (s.line Line.A).profile.freqLimit * 10 ∧ ¬(s.line Line.A).dl.sending = none ∧
      ¬(s.line Line.A).dl.clear = ClearSt.received ∧
      ({ threshold := 2048, divisor := 16, sum := 0, impulses := 0, count := 0 : Window }.impulses + (List.filter (fun (y : SymbolReading) => decide ({ threshold := 2048, divisor := 16, sum := 0, impulses := 0, count := 0 : Window }.threshold < symbolError y)) (symbols 1)).length ≤ { mode := Mode.l96, u := 60, d := 200, x := 600 : Rung }.mode.windowLength / { threshold := 2048, divisor := 16, sum := 0, impulses := 0, count := 0 : Window }.divisor) ∧
      (s.line Line.A).iface.current.impulse = true ∧ 0 < (s.line Line.A).modem.holdOff) ∧
    (∃ s : State,
      s.requests = [] ∧ s.st Line.A = LineSt.data ∧ currentRung s Line.A = some { mode := Mode.l96, u := 60, d := 200, x := 600 : Rung } ∧
      (s.line Line.A).modem.window = some { threshold := 2048, divisor := 16, sum := 0, impulses := 0, count := 0 : Window } ∧
      (s.line Line.A).modem.phase = none ∧ (s.line Line.A).fax.role = none ∧ (s.line Line.A).iface.current.freqLimit = false ∧
      Int.natAbs 0 ≤ (s.line Line.A).profile.freqLimit * 10 ∧ ¬(s.line Line.A).dl.sending = none ∧
      ¬(s.line Line.A).dl.clear = ClearSt.received ∧
      ({ threshold := 2048, divisor := 16, sum := 0, impulses := 0, count := 0 : Window }.impulses + (List.filter (fun (y : SymbolReading) => decide ({ threshold := 2048, divisor := 16, sum := 0, impulses := 0, count := 0 : Window }.threshold < symbolError y)) (symbols 1)).length ≤ { mode := Mode.l96, u := 60, d := 200, x := 600 : Rung }.mode.windowLength / { threshold := 2048, divisor := 16, sum := 0, impulses := 0, count := 0 : Window }.divisor) ∧
      (s.line Line.A).modem.holdOff = 0 ∧
      ({ mode := Mode.l96, u := 60, d := 200, x := 600 : Rung }.x ≤ (3 * (s.line Line.A).modem.q + ({ threshold := 2048, divisor := 16, sum := 0, impulses := 0, count := 0 : Window }.sum + (List.map (fun (y : SymbolReading) => min (symbolError y) { threshold := 2048, divisor := 16, sum := 0, impulses := 0, count := 0 : Window }.threshold) (symbols 1)).sum) / { mode := Mode.l96, u := 60, d := 200, x := 600 : Rung }.mode.windowLength + 2) / 4) ∧
      historyFull (addHistory (s.line Line.A).modem.history (s.now - (s.line Line.A).call.leftAt)) = false) ∧
    (∃ s : State,
      s.requests = [] ∧ s.st Line.A = LineSt.data ∧ currentRung s Line.A = some { mode := Mode.l96, u := 60, d := 200, x := 600 : Rung } ∧
      (s.line Line.A).modem.window = some { threshold := 2048, divisor := 16, sum := 0, impulses := 0, count := 0 : Window } ∧
      (s.line Line.A).modem.phase = none ∧ (s.line Line.A).fax.role = none ∧ (s.line Line.A).iface.current.freqLimit = false ∧
      Int.natAbs 0 ≤ (s.line Line.A).profile.freqLimit * 10 ∧ ¬(s.line Line.A).dl.sending = none ∧
      ¬(s.line Line.A).dl.clear = ClearSt.received ∧
      ({ threshold := 2048, divisor := 16, sum := 0, impulses := 0, count := 0 : Window }.impulses + (List.filter (fun (y : SymbolReading) => decide ({ threshold := 2048, divisor := 16, sum := 0, impulses := 0, count := 0 : Window }.threshold < symbolError y)) (symbols 1)).length ≤ { mode := Mode.l96, u := 60, d := 200, x := 600 : Rung }.mode.windowLength / { threshold := 2048, divisor := 16, sum := 0, impulses := 0, count := 0 : Window }.divisor) ∧
      (s.line Line.A).modem.holdOff = 0 ∧
      ({ mode := Mode.l96, u := 60, d := 200, x := 600 : Rung }.x ≤ (3 * (s.line Line.A).modem.q + ({ threshold := 2048, divisor := 16, sum := 0, impulses := 0, count := 0 : Window }.sum + (List.map (fun (y : SymbolReading) => min (symbolError y) { threshold := 2048, divisor := 16, sum := 0, impulses := 0, count := 0 : Window }.threshold) (symbols 1)).sum) / { mode := Mode.l96, u := 60, d := 200, x := 600 : Rung }.mode.windowLength + 2) / 4) ∧
      historyFull (addHistory (s.line Line.A).modem.history (s.now - (s.line Line.A).call.leftAt)) = true ∧
      (s.line Line.A).iface.tone = none ∧ (s.line Line.A).voice.sub = none ∧ (s.line Line.A).call.cr.job = none ∧
      (s.line Line.A).call.refHeld = false) ∧
    (∃ s : State,
      s.requests = [] ∧ s.st Line.A = LineSt.data ∧ currentRung s Line.A = some { mode := Mode.l96, u := 60, d := 200, x := 600 : Rung } ∧
      (s.line Line.A).modem.window = some { threshold := 2048, divisor := 16, sum := 0, impulses := 0, count := 0 : Window } ∧
      (s.line Line.A).modem.phase = none ∧ (s.line Line.A).fax.role = none ∧ (s.line Line.A).iface.current.freqLimit = false ∧
      Int.natAbs 0 ≤ (s.line Line.A).profile.freqLimit * 10 ∧ ¬(s.line Line.A).dl.sending = none ∧
      ¬(s.line Line.A).dl.clear = ClearSt.received ∧
      ({ threshold := 2048, divisor := 16, sum := 0, impulses := 0, count := 0 : Window }.impulses + (List.filter (fun (y : SymbolReading) => decide ({ threshold := 2048, divisor := 16, sum := 0, impulses := 0, count := 0 : Window }.threshold < symbolError y)) (symbols 1)).length ≤ { mode := Mode.l96, u := 60, d := 200, x := 600 : Rung }.mode.windowLength / { threshold := 2048, divisor := 16, sum := 0, impulses := 0, count := 0 : Window }.divisor) ∧
      (s.line Line.A).modem.holdOff = 0 ∧
      ((3 * (s.line Line.A).modem.q + ({ threshold := 2048, divisor := 16, sum := 0, impulses := 0, count := 0 : Window }.sum + (List.map (fun (y : SymbolReading) => min (symbolError y) { threshold := 2048, divisor := 16, sum := 0, impulses := 0, count := 0 : Window }.threshold) (symbols 1)).sum) / { mode := Mode.l96, u := 60, d := 200, x := 600 : Rung }.mode.windowLength + 2) / 4 < { mode := Mode.l96, u := 60, d := 200, x := 600 : Rung }.x) ∧
      ¬(s.line Line.A).modem.request = none) ∧
    (∃ s : State,
      s.requests = [] ∧ s.st Line.A = LineSt.data ∧ currentRung s Line.A = some { mode := Mode.l96, u := 60, d := 200, x := 600 : Rung } ∧
      (s.line Line.A).modem.window = some { threshold := 2048, divisor := 16, sum := 0, impulses := 0, count := 0 : Window } ∧
      (s.line Line.A).modem.phase = none ∧ (s.line Line.A).fax.role = none ∧ (s.line Line.A).iface.current.freqLimit = false ∧
      Int.natAbs 0 ≤ (s.line Line.A).profile.freqLimit * 10 ∧ ¬(s.line Line.A).dl.sending = none ∧
      ¬(s.line Line.A).dl.clear = ClearSt.received ∧
      ({ threshold := 2048, divisor := 16, sum := 0, impulses := 0, count := 0 : Window }.impulses + (List.filter (fun (y : SymbolReading) => decide ({ threshold := 2048, divisor := 16, sum := 0, impulses := 0, count := 0 : Window }.threshold < symbolError y)) (symbols 1)).length ≤ { mode := Mode.l96, u := 60, d := 200, x := 600 : Rung }.mode.windowLength / { threshold := 2048, divisor := 16, sum := 0, impulses := 0, count := 0 : Window }.divisor) ∧
      (s.line Line.A).modem.holdOff = 0 ∧
      ((3 * (s.line Line.A).modem.q + ({ threshold := 2048, divisor := 16, sum := 0, impulses := 0, count := 0 : Window }.sum + (List.map (fun (y : SymbolReading) => min (symbolError y) { threshold := 2048, divisor := 16, sum := 0, impulses := 0, count := 0 : Window }.threshold) (symbols 1)).sum) / { mode := Mode.l96, u := 60, d := 200, x := 600 : Rung }.mode.windowLength + 2) / 4 < { mode := Mode.l96, u := 60, d := 200, x := 600 : Rung }.x) ∧
      (s.line Line.A).modem.request = none ∧
      ({ mode := Mode.l96, u := 60, d := 200, x := 600 : Rung }.d ≤ (3 * (s.line Line.A).modem.q + ({ threshold := 2048, divisor := 16, sum := 0, impulses := 0, count := 0 : Window }.sum + (List.map (fun (y : SymbolReading) => min (symbolError y) { threshold := 2048, divisor := 16, sum := 0, impulses := 0, count := 0 : Window }.threshold) (symbols 1)).sum) / { mode := Mode.l96, u := 60, d := 200, x := 600 : Rung }.mode.windowLength + 2) / 4) ∧
      ((List.filter (fun (i : ℕ) => decide (i < (s.line Line.A).modem.rung.getD 0)) ((s.line Line.A).modem.rungSet.getD [])).getLast? = some 2) ∧
      s.ladder[2]? = some { mode := Mode.l48, u := 60, d := 200, x := 600 : Rung }) ∧
    (∃ s : State,
      s.requests = [] ∧ s.st Line.A = LineSt.data ∧ currentRung s Line.A = some { mode := Mode.l96, u := 60, d := 200, x := 600 : Rung } ∧
      (s.line Line.A).modem.window = some { threshold := 2048, divisor := 16, sum := 0, impulses := 0, count := 0 : Window } ∧
      (s.line Line.A).modem.phase = none ∧ (s.line Line.A).fax.role = none ∧ (s.line Line.A).iface.current.freqLimit = false ∧
      Int.natAbs 0 ≤ (s.line Line.A).profile.freqLimit * 10 ∧ ¬(s.line Line.A).dl.sending = none ∧
      ¬(s.line Line.A).dl.clear = ClearSt.received ∧
      ({ threshold := 2048, divisor := 16, sum := 0, impulses := 0, count := 0 : Window }.impulses + (List.filter (fun (y : SymbolReading) => decide ({ threshold := 2048, divisor := 16, sum := 0, impulses := 0, count := 0 : Window }.threshold < symbolError y)) (symbols 1)).length ≤ { mode := Mode.l96, u := 60, d := 200, x := 600 : Rung }.mode.windowLength / { threshold := 2048, divisor := 16, sum := 0, impulses := 0, count := 0 : Window }.divisor) ∧
      (s.line Line.A).modem.holdOff = 0 ∧
      ((3 * (s.line Line.A).modem.q + ({ threshold := 2048, divisor := 16, sum := 0, impulses := 0, count := 0 : Window }.sum + (List.map (fun (y : SymbolReading) => min (symbolError y) { threshold := 2048, divisor := 16, sum := 0, impulses := 0, count := 0 : Window }.threshold) (symbols 1)).sum) / { mode := Mode.l96, u := 60, d := 200, x := 600 : Rung }.mode.windowLength + 2) / 4 < { mode := Mode.l96, u := 60, d := 200, x := 600 : Rung }.x) ∧
      (s.line Line.A).modem.request = none ∧
      ((3 * (s.line Line.A).modem.q + ({ threshold := 2048, divisor := 16, sum := 0, impulses := 0, count := 0 : Window }.sum + (List.map (fun (y : SymbolReading) => min (symbolError y) { threshold := 2048, divisor := 16, sum := 0, impulses := 0, count := 0 : Window }.threshold) (symbols 1)).sum) / { mode := Mode.l96, u := 60, d := 200, x := 600 : Rung }.mode.windowLength + 2) / 4 < { mode := Mode.l96, u := 60, d := 200, x := 600 : Rung }.d) ∧
      ((if (3 * (s.line Line.A).modem.q + ({ threshold := 2048, divisor := 16, sum := 0, impulses := 0, count := 0 : Window }.sum + (List.map (fun (y : SymbolReading) => min (symbolError y) { threshold := 2048, divisor := 16, sum := 0, impulses := 0, count := 0 : Window }.threshold) (symbols 1)).sum) / { mode := Mode.l96, u := 60, d := 200, x := 600 : Rung }.mode.windowLength + 2) / 4 < { mode := Mode.l96, u := 60, d := 200, x := 600 : Rung }.u then min 30 ((s.line Line.A).modem.upCount + 1) else 0) < 30)) ∧
    (∃ s : State,
      s.requests = [] ∧ s.st Line.A = LineSt.data ∧ currentRung s Line.A = some { mode := Mode.l96, u := 60, d := 200, x := 600 : Rung } ∧
      (s.line Line.A).modem.window = some { threshold := 2048, divisor := 16, sum := 0, impulses := 0, count := 0 : Window } ∧
      (s.line Line.A).modem.phase = none ∧ (s.line Line.A).fax.role = none ∧ (s.line Line.A).iface.current.freqLimit = false ∧
      Int.natAbs 0 ≤ (s.line Line.A).profile.freqLimit * 10 ∧ ¬(s.line Line.A).dl.sending = none ∧
      ¬(s.line Line.A).dl.clear = ClearSt.received ∧
      ({ threshold := 2048, divisor := 16, sum := 0, impulses := 0, count := 0 : Window }.impulses + (List.filter (fun (y : SymbolReading) => decide ({ threshold := 2048, divisor := 16, sum := 0, impulses := 0, count := 0 : Window }.threshold < symbolError y)) (symbols 1)).length ≤ { mode := Mode.l96, u := 60, d := 200, x := 600 : Rung }.mode.windowLength / { threshold := 2048, divisor := 16, sum := 0, impulses := 0, count := 0 : Window }.divisor) ∧
      (s.line Line.A).modem.holdOff = 0 ∧
      ((3 * (s.line Line.A).modem.q + ({ threshold := 2048, divisor := 16, sum := 0, impulses := 0, count := 0 : Window }.sum + (List.map (fun (y : SymbolReading) => min (symbolError y) { threshold := 2048, divisor := 16, sum := 0, impulses := 0, count := 0 : Window }.threshold) (symbols 1)).sum) / { mode := Mode.l96, u := 60, d := 200, x := 600 : Rung }.mode.windowLength + 2) / 4 < { mode := Mode.l96, u := 60, d := 200, x := 600 : Rung }.x) ∧
      (s.line Line.A).modem.request = none ∧
      ((3 * (s.line Line.A).modem.q + ({ threshold := 2048, divisor := 16, sum := 0, impulses := 0, count := 0 : Window }.sum + (List.map (fun (y : SymbolReading) => min (symbolError y) { threshold := 2048, divisor := 16, sum := 0, impulses := 0, count := 0 : Window }.threshold) (symbols 1)).sum) / { mode := Mode.l96, u := 60, d := 200, x := 600 : Rung }.mode.windowLength + 2) / 4 < { mode := Mode.l96, u := 60, d := 200, x := 600 : Rung }.d) ∧
      ((if (3 * (s.line Line.A).modem.q + ({ threshold := 2048, divisor := 16, sum := 0, impulses := 0, count := 0 : Window }.sum + (List.map (fun (y : SymbolReading) => min (symbolError y) { threshold := 2048, divisor := 16, sum := 0, impulses := 0, count := 0 : Window }.threshold) (symbols 1)).sum) / { mode := Mode.l96, u := 60, d := 200, x := 600 : Rung }.mode.windowLength + 2) / 4 < { mode := Mode.l96, u := 60, d := 200, x := 600 : Rung }.u then min 30 ((s.line Line.A).modem.upCount + 1) else 0) < 30)) ∧
    (∃ s : State,
      s.requests = [] ∧ s.st Line.A = LineSt.data ∧ currentRung s Line.A = some { mode := Mode.l96, u := 60, d := 200, x := 600 : Rung } ∧
      (s.line Line.A).modem.window = some { threshold := 2048, divisor := 16, sum := 0, impulses := 0, count := 0 : Window } ∧
      (s.line Line.A).modem.phase = none ∧ (s.line Line.A).fax.role = none ∧ (s.line Line.A).iface.current.freqLimit = false ∧
      Int.natAbs 0 ≤ (s.line Line.A).profile.freqLimit * 10 ∧ ¬(s.line Line.A).dl.sending = none ∧
      ¬(s.line Line.A).dl.clear = ClearSt.received ∧
      ({ threshold := 2048, divisor := 16, sum := 0, impulses := 0, count := 0 : Window }.impulses + (List.filter (fun (y : SymbolReading) => decide ({ threshold := 2048, divisor := 16, sum := 0, impulses := 0, count := 0 : Window }.threshold < symbolError y)) (symbols 1)).length ≤ { mode := Mode.l96, u := 60, d := 200, x := 600 : Rung }.mode.windowLength / { threshold := 2048, divisor := 16, sum := 0, impulses := 0, count := 0 : Window }.divisor) ∧
      (s.line Line.A).modem.holdOff = 0 ∧
      ((3 * (s.line Line.A).modem.q + ({ threshold := 2048, divisor := 16, sum := 0, impulses := 0, count := 0 : Window }.sum + (List.map (fun (y : SymbolReading) => min (symbolError y) { threshold := 2048, divisor := 16, sum := 0, impulses := 0, count := 0 : Window }.threshold) (symbols 1)).sum) / { mode := Mode.l96, u := 60, d := 200, x := 600 : Rung }.mode.windowLength + 2) / 4 < { mode := Mode.l96, u := 60, d := 200, x := 600 : Rung }.x) ∧
      (s.line Line.A).modem.request = none ∧ (∀ i ∈ (s.line Line.A).modem.rungSet.getD [], (s.line Line.A).modem.rung.getD 0 ≤ i) ∧
      ((if (3 * (s.line Line.A).modem.q + ({ threshold := 2048, divisor := 16, sum := 0, impulses := 0, count := 0 : Window }.sum + (List.map (fun (y : SymbolReading) => min (symbolError y) { threshold := 2048, divisor := 16, sum := 0, impulses := 0, count := 0 : Window }.threshold) (symbols 1)).sum) / { mode := Mode.l96, u := 60, d := 200, x := 600 : Rung }.mode.windowLength + 2) / 4 < { mode := Mode.l96, u := 60, d := 200, x := 600 : Rung }.u then min 30 ((s.line Line.A).modem.upCount + 1) else 0) < 30)) ∧
    (∃ s : State,
      s.requests = [] ∧ s.st Line.A = LineSt.data ∧ currentRung s Line.A = some { mode := Mode.l96, u := 60, d := 200, x := 600 : Rung } ∧
      (s.line Line.A).modem.window = some { threshold := 2048, divisor := 16, sum := 0, impulses := 0, count := 0 : Window } ∧
      (s.line Line.A).modem.phase = none ∧ (s.line Line.A).fax.role = none ∧ (s.line Line.A).iface.current.freqLimit = false ∧
      Int.natAbs 0 ≤ (s.line Line.A).profile.freqLimit * 10 ∧ ¬(s.line Line.A).dl.sending = none ∧
      ¬(s.line Line.A).dl.clear = ClearSt.received ∧
      ({ threshold := 2048, divisor := 16, sum := 0, impulses := 0, count := 0 : Window }.impulses + (List.filter (fun (y : SymbolReading) => decide ({ threshold := 2048, divisor := 16, sum := 0, impulses := 0, count := 0 : Window }.threshold < symbolError y)) (symbols 1)).length ≤ { mode := Mode.l96, u := 60, d := 200, x := 600 : Rung }.mode.windowLength / { threshold := 2048, divisor := 16, sum := 0, impulses := 0, count := 0 : Window }.divisor) ∧
      (s.line Line.A).modem.holdOff = 0 ∧
      ((3 * (s.line Line.A).modem.q + ({ threshold := 2048, divisor := 16, sum := 0, impulses := 0, count := 0 : Window }.sum + (List.map (fun (y : SymbolReading) => min (symbolError y) { threshold := 2048, divisor := 16, sum := 0, impulses := 0, count := 0 : Window }.threshold) (symbols 1)).sum) / { mode := Mode.l96, u := 60, d := 200, x := 600 : Rung }.mode.windowLength + 2) / 4 < { mode := Mode.l96, u := 60, d := 200, x := 600 : Rung }.x) ∧
      (s.line Line.A).modem.request = none ∧
      ((3 * (s.line Line.A).modem.q + ({ threshold := 2048, divisor := 16, sum := 0, impulses := 0, count := 0 : Window }.sum + (List.map (fun (y : SymbolReading) => min (symbolError y) { threshold := 2048, divisor := 16, sum := 0, impulses := 0, count := 0 : Window }.threshold) (symbols 1)).sum) / { mode := Mode.l96, u := 60, d := 200, x := 600 : Rung }.mode.windowLength + 2) / 4 < { mode := Mode.l96, u := 60, d := 200, x := 600 : Rung }.d) ∧
      (∀ i ∈ (s.line Line.A).modem.rungSet.getD [], i ≤ (s.line Line.A).modem.rung.getD 0)) ∧
    (∃ s : State,
      s.requests = [] ∧ s.st Line.A = LineSt.data ∧ currentRung s Line.A = some { mode := Mode.l96, u := 60, d := 200, x := 600 : Rung } ∧
      (s.line Line.A).modem.window = some { threshold := 2048, divisor := 16, sum := 0, impulses := 0, count := 0 : Window } ∧
      (s.line Line.A).modem.phase = none ∧ (s.line Line.A).fax.role = none ∧ (s.line Line.A).iface.current.freqLimit = false ∧
      Int.natAbs 0 ≤ (s.line Line.A).profile.freqLimit * 10 ∧ ¬(s.line Line.A).dl.sending = none ∧
      ¬(s.line Line.A).dl.clear = ClearSt.received ∧
      ({ threshold := 2048, divisor := 16, sum := 0, impulses := 0, count := 0 : Window }.impulses + (List.filter (fun (y : SymbolReading) => decide ({ threshold := 2048, divisor := 16, sum := 0, impulses := 0, count := 0 : Window }.threshold < symbolError y)) (symbols 1)).length ≤ { mode := Mode.l96, u := 60, d := 200, x := 600 : Rung }.mode.windowLength / { threshold := 2048, divisor := 16, sum := 0, impulses := 0, count := 0 : Window }.divisor) ∧
      (s.line Line.A).modem.holdOff = 0 ∧
      ((3 * (s.line Line.A).modem.q + ({ threshold := 2048, divisor := 16, sum := 0, impulses := 0, count := 0 : Window }.sum + (List.map (fun (y : SymbolReading) => min (symbolError y) { threshold := 2048, divisor := 16, sum := 0, impulses := 0, count := 0 : Window }.threshold) (symbols 1)).sum) / { mode := Mode.l96, u := 60, d := 200, x := 600 : Rung }.mode.windowLength + 2) / 4 < { mode := Mode.l96, u := 60, d := 200, x := 600 : Rung }.x) ∧
      (s.line Line.A).modem.request = none ∧
      ((3 * (s.line Line.A).modem.q + ({ threshold := 2048, divisor := 16, sum := 0, impulses := 0, count := 0 : Window }.sum + (List.map (fun (y : SymbolReading) => min (symbolError y) { threshold := 2048, divisor := 16, sum := 0, impulses := 0, count := 0 : Window }.threshold) (symbols 1)).sum) / { mode := Mode.l96, u := 60, d := 200, x := 600 : Rung }.mode.windowLength + 2) / 4 < { mode := Mode.l96, u := 60, d := 200, x := 600 : Rung }.d) ∧
      ((if (3 * (s.line Line.A).modem.q + ({ threshold := 2048, divisor := 16, sum := 0, impulses := 0, count := 0 : Window }.sum + (List.map (fun (y : SymbolReading) => min (symbolError y) { threshold := 2048, divisor := 16, sum := 0, impulses := 0, count := 0 : Window }.threshold) (symbols 1)).sum) / { mode := Mode.l96, u := 60, d := 200, x := 600 : Rung }.mode.windowLength + 2) / 4 < { mode := Mode.l96, u := 60, d := 200, x := 600 : Rung }.u then min 30 ((s.line Line.A).modem.upCount + 1) else 0) = 30) ∧
      (List.find? (fun (i : ℕ) => decide ((s.line Line.A).modem.rung.getD 0 < i)) ((s.line Line.A).modem.rungSet.getD []) = some 4) ∧
      s.ladder[4]? = some { mode := Mode.l144, u := 60, d := 200, x := 600 : Rung }) ∧
    (∃ s : State,
      s.requests = [] ∧ s.st Line.A = LineSt.data ∧ currentRung s Line.A = some { mode := Mode.l96, u := 60, d := 200, x := 600 : Rung } ∧
      (s.line Line.A).modem.window = some { threshold := 2048, divisor := 16, sum := 0, impulses := 0, count := 0 : Window } ∧
      (s.line Line.A).modem.phase = none ∧ (s.line Line.A).fax.role = none ∧ (s.line Line.A).iface.current.freqLimit = false ∧
      Int.natAbs 0 ≤ (s.line Line.A).profile.freqLimit * 10 ∧ ¬(s.line Line.A).dl.sending = none ∧
      ¬(s.line Line.A).dl.clear = ClearSt.received ∧
      ({ mode := Mode.l96, u := 60, d := 200, x := 600 : Rung }.mode.windowLength / { threshold := 2048, divisor := 16, sum := 0, impulses := 0, count := 0 : Window }.divisor < { threshold := 2048, divisor := 16, sum := 0, impulses := 0, count := 0 : Window }.impulses + (List.filter (fun (y : SymbolReading) => decide ({ threshold := 2048, divisor := 16, sum := 0, impulses := 0, count := 0 : Window }.threshold < symbolError y)) (symbols 200)).length) ∧
      (s.line Line.A).iface.current.impulse = false ∧ (s.line Line.A).modem.burstRun < 2) ∧
    (∃ s : State,
      s.requests = [] ∧ s.st Line.A = LineSt.data ∧ currentRung s Line.A = some { mode := Mode.l96, u := 60, d := 200, x := 600 : Rung } ∧
      (s.line Line.A).modem.window = some { threshold := 2048, divisor := 16, sum := 0, impulses := 0, count := 0 : Window } ∧
      (s.line Line.A).modem.phase = none ∧ (s.line Line.A).fax.role = none ∧ (s.line Line.A).iface.current.freqLimit = false ∧
      Int.natAbs 0 ≤ (s.line Line.A).profile.freqLimit * 10 ∧ ¬(s.line Line.A).dl.sending = none ∧
      ¬(s.line Line.A).dl.clear = ClearSt.received ∧
      ({ mode := Mode.l96, u := 60, d := 200, x := 600 : Rung }.mode.windowLength / { threshold := 2048, divisor := 16, sum := 0, impulses := 0, count := 0 : Window }.divisor < { threshold := 2048, divisor := 16, sum := 0, impulses := 0, count := 0 : Window }.impulses + (List.filter (fun (y : SymbolReading) => decide ({ threshold := 2048, divisor := 16, sum := 0, impulses := 0, count := 0 : Window }.threshold < symbolError y)) (symbols 200)).length) ∧
      (s.line Line.A).iface.current.impulse = true ∧ 2 ≤ (s.line Line.A).modem.burstRun ∧
      historyFull (addHistory (s.line Line.A).modem.history (s.now - (s.line Line.A).call.leftAt)) = false) ∧
    (∃ s : State,
      s.requests = [] ∧ s.st Line.A = LineSt.data ∧ currentRung s Line.A = some { mode := Mode.l96, u := 60, d := 200, x := 600 : Rung } ∧
      (s.line Line.A).modem.window = some { threshold := 2048, divisor := 16, sum := 0, impulses := 0, count := 0 : Window } ∧
      (s.line Line.A).modem.phase = none ∧ (s.line Line.A).fax.role = none ∧ (s.line Line.A).iface.current.freqLimit = false ∧
      Int.natAbs 0 ≤ (s.line Line.A).profile.freqLimit * 10 ∧ ¬(s.line Line.A).dl.sending = none ∧
      ¬(s.line Line.A).dl.clear = ClearSt.received ∧
      ({ mode := Mode.l96, u := 60, d := 200, x := 600 : Rung }.mode.windowLength / { threshold := 2048, divisor := 16, sum := 0, impulses := 0, count := 0 : Window }.divisor < { threshold := 2048, divisor := 16, sum := 0, impulses := 0, count := 0 : Window }.impulses + (List.filter (fun (y : SymbolReading) => decide ({ threshold := 2048, divisor := 16, sum := 0, impulses := 0, count := 0 : Window }.threshold < symbolError y)) (symbols 200)).length) ∧
      2 ≤ (s.line Line.A).modem.burstRun ∧
      historyFull (addHistory (s.line Line.A).modem.history (s.now - (s.line Line.A).call.leftAt)) = true ∧
      (s.line Line.A).iface.tone = none ∧ (s.line Line.A).voice.sub = none ∧ (s.line Line.A).call.cr.job = none ∧
      (s.line Line.A).call.refHeld = false) ∧
    (∃ s u : State,
      s.requests = [] ∧ s.st Line.A = LineSt.data ∧ currentRung s Line.A = some { mode := Mode.l96, u := 60, d := 200, x := 600 : Rung } ∧
      (s.line Line.A).modem.window = some { threshold := 2048, divisor := 16, sum := 0, impulses := 0, count := 0 : Window } ∧
      (s.line Line.A).modem.phase = none ∧ (s.line Line.A).fax.role = none ∧ (s.line Line.A).iface.current.freqLimit = false ∧
      Int.natAbs 0 ≤ (s.line Line.A).profile.freqLimit * 10 ∧ ¬(s.line Line.A).dl.sending = none ∧
      ¬(s.line Line.A).dl.clear = ClearSt.received ∧ (u.line Line.A).modem.window = none ∧ u.requests = []) :=
  ⟨⟨(measured fun x => { x with modem := { x.modem with holdOff := 3, q := 1000 }, iface := { x.iface with current := { x.iface.current with impulse := true } } }), by decide +kernel⟩,
    ⟨(measured fun x => { x with modem := { x.modem with holdOff := 0, q := 2000 } }), by decide +kernel⟩,
    ⟨(measured fun x => { x with modem := { x.modem with holdOff := 0, q := 2000, history := [0, 0] } }), by decide +kernel⟩,
    ⟨(measured fun x => { x with modem := { x.modem with holdOff := 0, q := 500, request := some ⟨2, .l48, 0, 2000⟩ } }), by decide +kernel⟩,
    ⟨(measured fun x => { x with modem := { x.modem with holdOff := 0, q := 500 } }), by decide +kernel⟩,
    ⟨(measured fun x => { x with modem := { x.modem with holdOff := 0, q := 100, upCount := 5 } }), by decide +kernel⟩,
    ⟨(measured fun x => { x with modem := { x.modem with holdOff := 0, q := 10, upCount := 5 } }), by decide +kernel⟩,
    ⟨(measured fun x => { x with modem := { x.modem with holdOff := 0, q := 500, upCount := 5, rungSet := some [3, 4] } }), by decide +kernel⟩,
    ⟨(measured fun x => { x with modem := { x.modem with holdOff := 0, q := 10, upCount := 30, rungSet := some [2, 3] } }), by decide +kernel⟩,
    ⟨(measured fun x => { x with modem := { x.modem with holdOff := 0, q := 10, upCount := 29 } }), by decide +kernel⟩,
    ⟨(measured fun x => { x with modem := { x.modem with burstRun := 1 } }), by decide +kernel⟩,
    ⟨(measured fun x => { x with modem := { x.modem with burstRun := 2 }, iface := { x.iface with current := { x.iface.current with impulse := true } } }), by decide +kernel⟩,
    ⟨(measured fun x => { x with modem := { x.modem with burstRun := 2, history := [0, 0] } }), by decide +kernel⟩,
    ⟨(measured id), plain, by decide +kernel⟩⟩

theorem witness_TrainingProposesConfirmsCompletes :
    (∃ s : State,
      s.requests = [] ∧ s.st Line.A = LineSt.train ∧ (s.line Line.A).modem.probeDue = some 1000 ∧ (s.line Line.A).modem.probeCount < 10) ∧
    (∃ s : State,
      s.requests = [] ∧ s.st Line.A = LineSt.train ∧ (s.line Line.A).modem.phase = some Phase.probe ∧
      Mode.ofCode (7#8).toNat = some Mode.l240) ∧
    (∃ s : State,
      s.requests = [] ∧ s.st Line.A = LineSt.train ∧ (s.line Line.A).modem.phase = some Phase.propose ∧
      (s.line Line.A).modem.retrainFrom = none ∧ (s.line Line.A).modem.farConfirm = none ∧ Mode.ofCode (4#8).toNat = some Mode.l96 ∧
      (s.line Line.A).modem.proposal = some Mode.l240 ∧
      chooseMode s.ladder (commonRungs s.ladder (modeSet 255#8)) (some Mode.l240) (some Mode.l96) = some Mode.l96) ∧
    (∃ s : State,
      s.requests = [] ∧ s.st Line.A = LineSt.train ∧ (s.line Line.A).modem.repeatDue = some 500 ∧
      (s.line Line.A).modem.phase = some Phase.propose ∧ (s.line Line.A).modem.farConfirm = some (Mode.l96, 8, 256)) ∧
    (∃ s : State,
      s.requests = [] ∧ s.st Line.A = LineSt.train ∧ (s.line Line.A).modem.repeatDue = some 500 ∧
      (s.line Line.A).modem.phase = some Phase.confirm ∧ (s.line Line.A).modem.chosen = some Mode.l96) ∧
    (∃ s : State,
      s.requests = [] ∧ s.st Line.A = LineSt.train ∧ (s.line Line.A).modem.phase = some Phase.propose ∧
      Mode.ofCode (4#8).toNat = some Mode.l96) ∧
    (∃ s : State,
      s.requests = [] ∧ s.st Line.A = LineSt.train ∧ (s.line Line.A).modem.phase = some Phase.probe ∧
      (s.line Line.A).modem.probeDue = some 1000 ∧ 10 ≤ (s.line Line.A).modem.probeCount ∧ 0 < (s.line Line.A).modem.probeGood ∧
      (s.line Line.A).modem.retrainFrom = none ∧ (s.line Line.A).modem.farConfirm = none ∧
      (s.line Line.A).modem.farPropose = some (some Mode.l240, Mode.all) ∧
      proposalOf s.ladder ((s.line Line.A).modem.probeSum / (s.line Line.A).modem.probeGood) = some Mode.l96 ∧
      chooseMode s.ladder (commonRungs s.ladder Mode.all) (some Mode.l96) (some Mode.l240) = some Mode.l96) ∧
    (∃ s : State,
      s.requests = [] ∧ s.st Line.A = LineSt.train ∧ (s.line Line.A).modem.phase = some Phase.confirm ∧
      (s.line Line.A).modem.chosen = some Mode.l96 ∧ Mode.ofCode (4#8).toNat = some Mode.l96 ∧ rungOfMode s Mode.l96 = some 3 ∧
      s.ladder[3]? = some { mode := Mode.l96, u := 60, d := 200, x := 600 : Rung } ∧ (s.line Line.A).modem.retrainFrom = none ∧
      (s.line Line.A).call.cr.dir = some Direction.incoming ∧ (s.line Line.A).dl.tx = [] ∧ (s.line Line.A).dl.sending = none ∧
      (s.line Line.A).dl.clear = ClearSt.none ∧ (s.line Line.A).dl.rateQueue = [] ∧ (s.line Line.A).dl.started = false ∧
      (s.line Line.A).dl.clearForced = false ∧ (s.line Line.A).iface.current = PerSource.all false) :=
  ⟨⟨(training fun m => { m with phase := some .probe, probeDue := some 1000, probeCount := 9 }), by decide +kernel⟩,
    ⟨(training fun m => { m with phase := some .probe }), by decide +kernel⟩,
    ⟨(training fun m => { m with phase := some .propose, proposal := some .l240 }), by decide +kernel⟩,
    ⟨(training fun m => { m with phase := some .propose, repeatDue := some 500, farConfirm := some (.l96, 8, 256) }), by decide +kernel⟩,
    ⟨(training fun m => { m with phase := some .confirm, repeatDue := some 500, chosen := some .l96 }), by decide +kernel⟩,
    ⟨(training fun m => { m with phase := some .propose, sent := [.propose none []] }), by decide +kernel⟩,
    ⟨(training fun m => { m with phase := some .probe, probeDue := some 1000, probeCount := 10, probeGood := 1, probeSum := 10, farPropose := some (some .l240, Mode.all) }), by decide +kernel⟩,
    ⟨(inCall .train (fun x => { x with call := { x.call with cr := { x.call.cr with dir := some .incoming } }, modem := { x.modem with phase := some .confirm, chosen := some .l96, mProbe := some 10, rungSet := some [3], trainDue := some 9 } }) plain), by decide +kernel⟩⟩

theorem witness_RateFramesChangeTheRung :
    (∃ s : State,
      s.requests = [] ∧ s.st Line.A = LineSt.data ∧ ¬(s.line Line.A).dl.clear = ClearSt.received ∧ ¬(s.line Line.A).dl.sending = none ∧
      currentRung s Line.A = some { mode := Mode.l96, u := 60, d := 200, x := 600 : Rung } ∧
      s.ladder[2]? = some { mode := Mode.l48, u := 60, d := 200, x := 600 : Rung }) ∧
    (∃ s : State,
      s.requests = [] ∧ s.st Line.A = LineSt.data ∧ ¬(s.line Line.A).dl.clear = ClearSt.received ∧ ¬(s.line Line.A).dl.sending = none ∧
      currentRung s Line.A = some { mode := Mode.l96, u := 60, d := 200, x := 600 : Rung } ∧
      s.ladder[2]? = some { mode := Mode.l48, u := 60, d := 200, x := 600 : Rung } ∧
      (s.line Line.A).modem.request = some { rung := 2, mode := Mode.l48, sentAt := 0, due := 2000 : RateRequest } ∧
      { rung := 2, mode := Mode.l48, sentAt := 0, due := 2000 : RateRequest }.rung = 2 ∧
      { rung := 2, mode := Mode.l48, sentAt := 0, due := 2000 : RateRequest }.mode.code = (3#8).toNat) ∧
    (∃ s : State,
      s.requests = [] ∧ s.st Line.A = LineSt.data ∧ ¬(s.line Line.A).dl.clear = ClearSt.received ∧ ¬(s.line Line.A).dl.sending = none ∧
      currentRung s Line.A = some { mode := Mode.l96, u := 60, d := 200, x := 600 : Rung } ∧
      s.ladder[2]? = some { mode := Mode.l48, u := 60, d := 200, x := 600 : Rung } ∧ Mode.ofCode (3#8).toNat = some Mode.l48 ∧
      { mode := Mode.l48, u := 60, d := 200, x := 600 : Rung }.mode = Mode.l48 ∧
      Mode.l48.below { mode := Mode.l96, u := 60, d := 200, x := 600 : Rung }.mode = true ∧
      (List.find? (fun (k : ℕ) => decide (Option.map (fun (x : Rung) => x.mode) s.ladder[k]? = some Mode.l48)) ((s.line Line.A).modem.rungSet.getD []) = some 2)) ∧
    (∃ s : State,
      s.requests = [] ∧ s.st Line.A = LineSt.data ∧ ¬(s.line Line.A).dl.clear = ClearSt.received ∧ ¬(s.line Line.A).dl.sending = none ∧
      currentRung s Line.A = some { mode := Mode.l96, u := 60, d := 200, x := 600 : Rung } ∧
      s.ladder[2]? = some { mode := Mode.l48, u := 60, d := 200, x := 600 : Rung } ∧ Mode.ofCode (0#8).toNat = some Mode.l3 ∧
      (List.find? (fun (k : ℕ) => decide (Option.map (fun (x : Rung) => x.mode) s.ladder[k]? = some Mode.l3)) ((s.line Line.A).modem.rungSet.getD []) = none)) ∧
    (∃ s : State,
      s.requests = [] ∧ s.st Line.A = LineSt.data ∧ ¬(s.line Line.A).dl.clear = ClearSt.received ∧ ¬(s.line Line.A).dl.sending = none ∧
      currentRung s Line.A = some { mode := Mode.l96, u := 60, d := 200, x := 600 : Rung } ∧
      s.ladder[5]? = some { mode := Mode.l192, u := 60, d := 200, x := 600 : Rung } ∧ Mode.ofCode (6#8).toNat = some Mode.l192 ∧
      Mode.l96.below Mode.l192 = true ∧
      (List.find? (fun (k : ℕ) => decide (Option.map (fun (x : Rung) => x.mode) s.ladder[k]? = some Mode.l192)) ((s.line Line.A).modem.rungSet.getD []) = some 5) ∧
      (s.line Line.A).modem.request = none ∧ (s.line Line.A).modem.q * Mode.l192.density / Mode.l96.density < 200) ∧
    (∃ s : State,
      s.requests = [] ∧ s.st Line.A = LineSt.data ∧ ¬(s.line Line.A).dl.clear = ClearSt.received ∧ ¬(s.line Line.A).dl.sending = none ∧
      currentRung s Line.A = some { mode := Mode.l96, u := 60, d := 200, x := 600 : Rung } ∧
      s.ladder[5]? = some { mode := Mode.l192, u := 60, d := 200, x := 600 : Rung } ∧ Mode.ofCode (6#8).toNat = some Mode.l192 ∧
      Mode.l96.below Mode.l192 = true ∧
      (List.find? (fun (k : ℕ) => decide (Option.map (fun (x : Rung) => x.mode) s.ladder[k]? = some Mode.l192)) ((s.line Line.A).modem.rungSet.getD []) = some 5) ∧
      ¬(s.line Line.A).modem.request = none) ∧
    (∃ s : State,
      s.requests = [] ∧ s.st Line.A = LineSt.data ∧ ¬(s.line Line.A).dl.clear = ClearSt.received ∧ ¬(s.line Line.A).dl.sending = none ∧
      currentRung s Line.A = some { mode := Mode.l96, u := 60, d := 200, x := 600 : Rung } ∧
      s.ladder[5]? = some { mode := Mode.l192, u := 60, d := 200, x := 600 : Rung } ∧ Mode.ofCode (6#8).toNat = some Mode.l192 ∧
      Mode.l96.below Mode.l192 = true ∧
      (List.find? (fun (k : ℕ) => decide (Option.map (fun (x : Rung) => x.mode) s.ladder[k]? = some Mode.l192)) ((s.line Line.A).modem.rungSet.getD []) = some 5) ∧
      (s.line Line.A).modem.request = none ∧ 200 ≤ (s.line Line.A).modem.q * Mode.l192.density / Mode.l96.density) ∧
    (∃ s : State,
      s.requests = [] ∧ s.st Line.A = LineSt.data ∧ ¬(s.line Line.A).dl.clear = ClearSt.received ∧ ¬(s.line Line.A).dl.sending = none ∧
      currentRung s Line.A = some { mode := Mode.l96, u := 60, d := 200, x := 600 : Rung } ∧ Mode.ofCode (4#8).toNat = some Mode.l96) :=
  ⟨⟨(inData fun x => { x with modem := { x.modem with request := some ⟨2, .l48, 0, 2000⟩ } }), by decide +kernel⟩,
    ⟨(inData fun x => { x with modem := { x.modem with request := some ⟨2, .l48, 0, 2000⟩ } }), by decide +kernel⟩,
    ⟨(inData id), by decide +kernel⟩,
    ⟨(inData id), by decide +kernel⟩,
    ⟨(inData fun x => { x with modem := { x.modem with q := 35 } }), by decide +kernel⟩,
    ⟨(inData fun x => { x with modem := { x.modem with q := 35, request := some ⟨2, .l48, 0, 2000⟩ } }), by decide +kernel⟩,
    ⟨(inData fun x => { x with modem := { x.modem with q := 36 } }), by decide +kernel⟩,
    ⟨(inData id), by decide +kernel⟩⟩

theorem witness_RetrainTakesDataToTrain :
    (∃ s : State,
      s.requests = [] ∧ s.st Line.A = LineSt.data ∧ ¬(s.line Line.A).dl.clear = ClearSt.received ∧ 0 = s.now ∧
      historyFull (addHistory (s.line Line.A).modem.history (0 - (s.line Line.A).call.leftAt)) = false) ∧
    (∃ s : State,
      (s.requests = [] ∧ s.st Line.A = LineSt.data ∧ ¬(s.line Line.A).dl.clear = ClearSt.received ∧
       historyFull (addHistory (s.line Line.A).modem.history (2000 - (s.line Line.A).call.leftAt)) = false) ∧
      (∃ (q : RateRequest), Instr.rateAnswerTimerExpiry Line.A = Instr.rateAnswerTimerExpiry Line.A ∧ (s.line Line.A).modem.request = some q ∧ 2000 = max s.now q.due)) ∧
    (∃ s : State,
      (s.requests = [] ∧ s.st Line.A = LineSt.data ∧ ¬(s.line Line.A).dl.clear = ClearSt.received ∧
       historyFull (addHistory (s.line Line.A).modem.history (0 - (s.line Line.A).call.leftAt)) = false) ∧
      (∃ (q : RateRequest) (b : Byte), Instr.rateOk Line.A 4#8 = Instr.rateOk Line.A b ∧ (s.line Line.A).modem.request = some q ∧ q.mode.code ≠ BitVec.toNat b ∧ 0 = s.now)) ∧
    (∃ s : State,
      s.requests = [] ∧ s.st Line.A = LineSt.data ∧ ¬(s.line Line.A).dl.clear = ClearSt.received ∧ 0 = s.now ∧
      historyFull (addHistory (s.line Line.A).modem.history (0 - (s.line Line.A).call.leftAt)) = false ∧
      (s.line Line.A).dl.timer = .running 2500 ∧ (s.line Line.A).dl.formDue = some 15 ∧ (s.line Line.A).dl.resend = some 63 ∧
      (s.line Line.A).dl.rateQueue = [.rateOk .l48] ∧ (s.line Line.A).dl.sending = some .clear ∧ (s.line Line.A).dl.clearSent = true) :=
  ⟨⟨(inData id), by decide +kernel⟩,
    ⟨(inData fun x => { x with modem := { x.modem with request := some ⟨2, .l48, 0, 2000⟩ } }), by decide +kernel, by simp; decide⟩,
    ⟨(inData fun x => { x with modem := { x.modem with request := some ⟨2, .l48, 0, 2000⟩, history := [0] } }), by decide +kernel, by simp; decide⟩,
    ⟨(onLink fun d => { d with
      list := threeFrames, send := 1, timer := .running 2500, formDue := some 15, resend := some 63, rateQueue := [.rateOk .l48]
      sending := some .clear, clear := .graceful, clearSent := true, clearForced := true }), by decide +kernel⟩⟩

theorem witness_InfoIsAcceptedOrRejected :
    (∃ s : State,
      s.requests = [] ∧ s.st Line.A = LineSt.data ∧ ¬(s.line Line.A).dl.clear = ClearSt.received ∧ ¬(s.line Line.A).dl.sending = none ∧
      (s.line Line.A).dl.list = [] ∧ ¬s.link.sending = Sending.idle ∧ 1 ≤ (List.replicate 256 7#8).length ∧
      (List.replicate 256 7#8).length ≤ 256 ∧ (63#8).toNat = (s.line Line.A).dl.expected ∧ (s.line Line.A).dl.expected < 64 ∧
      (List.replicate 256 7#8).length ≤ 4096 - (s.line Line.A).dl.rx.length ∧
      (s.line Line.A).dl.payloadMax ≤ 4096 - ((s.line Line.A).dl.rx.length + (List.replicate 256 7#8).length)) ∧
    (∃ s : State,
      s.requests = [] ∧ s.st Line.A = LineSt.data ∧ ¬(s.line Line.A).dl.clear = ClearSt.received ∧ ¬(s.line Line.A).dl.sending = none ∧
      (s.line Line.A).dl.list = [] ∧ ¬s.link.sending = Sending.idle ∧ 1 ≤ [7#8].length ∧ [7#8].length ≤ 256 ∧
      (63#8).toNat = (s.line Line.A).dl.expected ∧ (s.line Line.A).dl.expected < 64 ∧ [7#8].length ≤ 4096 - (s.line Line.A).dl.rx.length ∧
      4096 - ((s.line Line.A).dl.rx.length + [7#8].length) < (s.line Line.A).dl.payloadMax ∧ (s.line Line.A).dl.localBusy = false) ∧
    (∃ s : State,
      s.requests = [] ∧ s.st Line.A = LineSt.data ∧ ¬(s.line Line.A).dl.clear = ClearSt.received ∧ ¬(s.line Line.A).dl.sending = none ∧
      (s.line Line.A).dl.list = [] ∧ ¬s.link.sending = Sending.idle ∧ 1 ≤ [7#8].length ∧ [7#8].length ≤ 256 ∧ 1 ≤ 8 ∧ 8 ≤ 8 ∧
      (58#8).toNat < 64 ∧ (s.line Line.A).dl.expected < 64 ∧ ((58#8).toNat + 8) % 64 = (s.line Line.A).dl.expected) ∧
    (∃ s : State,
      s.requests = [] ∧ s.st Line.A = LineSt.data ∧ ¬(s.line Line.A).dl.clear = ClearSt.received ∧ ¬(s.line Line.A).dl.sending = none ∧
      (s.line Line.A).dl.list = [] ∧ ¬s.link.sending = Sending.idle ∧ 1 ≤ [7#8].length ∧ [7#8].length ≤ 256 ∧ 1 ≤ 1 ∧ 1 ≤ 8 ∧
      (0#8).toNat < 64 ∧ (s.line Line.A).dl.expected < 64 ∧ ((s.line Line.A).dl.expected + 1) % 64 = (0#8).toNat ∧
      (s.line Line.A).dl.rejSent = false) ∧
    (∃ s : State,
      s.requests = [] ∧ s.st Line.A = LineSt.data ∧ ¬(s.line Line.A).dl.clear = ClearSt.received ∧ ¬(s.line Line.A).dl.sending = none ∧
      (s.line Line.A).dl.list = [] ∧ ¬s.link.sending = Sending.idle ∧ 1 ≤ [7#8].length ∧ [7#8].length ≤ 256 ∧ 1 ≤ 8 ∧ 8 ≤ 8 ∧
      (7#8).toNat < 64 ∧ (s.line Line.A).dl.expected < 64 ∧ ((s.line Line.A).dl.expected + 8) % 64 = (7#8).toNat ∧
      (s.line Line.A).dl.rejSent = true) ∧
    (∃ s : State,
      s.requests = [] ∧ s.st Line.A = LineSt.data ∧ ¬(s.line Line.A).dl.clear = ClearSt.received ∧ ¬(s.line Line.A).dl.sending = none ∧
      (s.line Line.A).dl.list = [] ∧ ¬s.link.sending = Sending.idle ∧ ([] : List Byte).length = 0) ∧
    (∃ s : State,
      s.requests = [] ∧ s.st Line.A = LineSt.data ∧ ¬(s.line Line.A).dl.clear = ClearSt.received ∧ ¬(s.line Line.A).dl.sending = none ∧
      (s.line Line.A).dl.list = [] ∧ ¬s.link.sending = Sending.idle ∧ 256 < (List.replicate 257 0#8).length) ∧
    (∃ s : State,
      s.requests = [] ∧ s.st Line.A = LineSt.data ∧ ¬(s.line Line.A).dl.clear = ClearSt.received ∧ ¬(s.line Line.A).dl.sending = none ∧
      (s.line Line.A).dl.list = [] ∧ ¬s.link.sending = Sending.idle ∧ frameGood [1#8, 2#8, 3#8] = false) ∧
    (∃ s : State,
      s.requests = [] ∧ s.st Line.A = LineSt.train ∧ (s.line Line.A).dl.clear ≠ ClearSt.received ∧ ([] : List Byte).length = 0 ∧
      frameGood [1#8, 2#8, 3#8] = false) ∧
    (∃ s : State,
      s.requests = [] ∧ (s.line Line.A).dl.clear = ClearSt.received) ∧
    (∃ s : State,
      s.requests = [] ∧ frameGood (withCheck [7#8]) = true) :=
  ⟨⟨(onLink fun d => { d with expected := 63 }), by decide +kernel⟩,
    ⟨(onLink fun d => { d with expected := 63, rx := List.replicate 3840 0#8 }), by decide +kernel⟩,
    ⟨(onLink fun d => { d with expected := 2 }), by decide +kernel⟩,
    ⟨(onLink fun d => { d with expected := 63 }), by decide +kernel⟩,
    ⟨(onLink fun d => { d with expected := 63, rejSent := true }), by decide +kernel⟩,
    ⟨(onLink id), by decide +kernel⟩,
    ⟨(onLink id), by decide +kernel⟩,
    ⟨(onLink id), by decide +kernel⟩,
    ⟨(inCall .train id plain), by decide +kernel⟩,
    ⟨(onLink fun d => { d with clear := .received }), by decide +kernel⟩,
    ⟨(onLink id), by decide +kernel⟩⟩

theorem witness_AcknowledgementsMoveTheList :
    (∃ s : State,
      s.requests = [] ∧ s.st Line.A = LineSt.data ∧ ¬(s.line Line.A).dl.clear = ClearSt.received ∧ ¬(s.line Line.A).dl.sending = none ∧
      (s.line Line.A).dl.list = [{ sequence := 62, payload := [1#8] : InfoFrame }, { sequence := 63, payload := [2#8] : InfoFrame }, { sequence := 0, payload := [3#8] : InfoFrame }] ∧
      (s.line Line.A).dl.remoteBusy = false ∧ (s.line Line.A).dl.resend = none ∧
      { sequence := 62, payload := [1#8] : InfoFrame }.sequence < 64 ∧
      (s.line Line.A).dl.send = ({ sequence := 62, payload := [1#8] : InfoFrame }.sequence + [{ sequence := 63, payload := [2#8] : InfoFrame }, { sequence := 0, payload := [3#8] : InfoFrame }].length + 1) % 64 ∧
      [{ sequence := 63, payload := [2#8] : InfoFrame }, { sequence := 0, payload := [3#8] : InfoFrame }].length < 8 ∧
      2 ≤ [{ sequence := 63, payload := [2#8] : InfoFrame }, { sequence := 0, payload := [3#8] : InfoFrame }].length ∧ 1 ≤ 2 ∧
      (0#8).toNat = ({ sequence := 62, payload := [1#8] : InfoFrame }.sequence + 2) % 64) ∧
    (∃ s : State,
      s.requests = [] ∧ s.st Line.A = LineSt.data ∧ ¬(s.line Line.A).dl.clear = ClearSt.received ∧ ¬(s.line Line.A).dl.sending = none ∧
      (s.line Line.A).dl.list = [{ sequence := 62, payload := [1#8] : InfoFrame }, { sequence := 63, payload := [2#8] : InfoFrame }, { sequence := 0, payload := [3#8] : InfoFrame }] ∧
      (s.line Line.A).dl.remoteBusy = false ∧ (s.line Line.A).dl.resend = none ∧
      { sequence := 62, payload := [1#8] : InfoFrame }.sequence < 64 ∧
      (s.line Line.A).dl.send = ({ sequence := 62, payload := [1#8] : InfoFrame }.sequence + [{ sequence := 63, payload := [2#8] : InfoFrame }, { sequence := 0, payload := [3#8] : InfoFrame }].length + 1) % 64 ∧
      [{ sequence := 63, payload := [2#8] : InfoFrame }, { sequence := 0, payload := [3#8] : InfoFrame }].length < 8 ∧
      1 ≤ [{ sequence := 63, payload := [2#8] : InfoFrame }, { sequence := 0, payload := [3#8] : InfoFrame }].length ∧ 1 ≤ 1 ∧
      (63#8).toNat = ({ sequence := 62, payload := [1#8] : InfoFrame }.sequence + 1) % 64 ∧ ¬(s.line Line.A).dl.timer = DlTimer.stopped) :=
  ⟨⟨(onLink fun d => { d with list := threeFrames, send := 1, retries := 3, timer := .running 5 }), by decide +kernel⟩,
    ⟨(onLink fun d => { d with list := threeFrames, send := 1, retries := 3, timer := .running 5 }), by decide +kernel⟩⟩

theorem witness_TransmitterChoosesTheNextFrame :
    (∃ s : State,
      s.requests = [] ∧ s.st Line.A = LineSt.data ∧ ¬(s.line Line.A).dl.clear = ClearSt.received ∧
      (s.line Line.A).dl.sending = some (Frame.rr 0 false) ∧ ¬Frame.rr 0 false = Frame.clear ∧
      (s.line Line.A).dl.rateQueue = [Frame.rateOk Mode.l48]) ∧
    (∃ s : State,
      s.requests = [] ∧ s.st Line.A = LineSt.data ∧ ¬(s.line Line.A).dl.clear = ClearSt.received ∧
      (s.line Line.A).dl.sending = some (Frame.rr 0 false) ∧ ¬Frame.rr 0 false = Frame.clear ∧ (s.line Line.A).dl.rateQueue = [] ∧
      (s.line Line.A).dl.rejDue = false ∧ (s.line Line.A).dl.rrDue = false ∧ (s.line Line.A).dl.pollDue = false ∧
      (s.line Line.A).dl.resend = none ∧ (s.line Line.A).dl.tx = [] ∧ (s.line Line.A).dl.ackDue = false ∧
      (s.line Line.A).dl.clear = ClearSt.none ∧ 1 ≤ (s.line Line.A).dl.payloadMax) ∧
    (∃ s : State,
      s.requests = [] ∧ s.st Line.A = LineSt.data ∧ ¬(s.line Line.A).dl.clear = ClearSt.received ∧ (s.line Line.A).dl.formDue = some 20 ∧
      (s.line Line.A).dl.sending = none ∧ (s.line Line.A).dl.rateQueue = [] ∧ (s.line Line.A).dl.rejDue = false ∧
      (s.line Line.A).dl.rrDue = false ∧ (s.line Line.A).dl.pollDue = false ∧ (s.line Line.A).dl.resend = none ∧
      (s.line Line.A).dl.remoteBusy = false ∧ (s.line Line.A).dl.clearForced = false ∧ (s.line Line.A).dl.list = [] ∧
      1 ≤ (s.line Line.A).dl.windowSize ∧ ¬(s.line Line.A).dl.tx = [] ∧ (s.line Line.A).dl.tx.length ≤ (s.line Line.A).dl.payloadMax ∧
      ¬s.link.target = targetOf Line.A) ∧
    (∃ s : State,
      s.requests = [] ∧ s.st Line.A = LineSt.data ∧ ¬(s.line Line.A).dl.clear = ClearSt.received ∧
      (s.line Line.A).dl.timer = DlTimer.running 900 ∧ (s.line Line.A).dl.retries < 10 ∧ ¬(s.line Line.A).dl.sending = none ∧
      (s.line Line.A).dl.remoteBusy = false) ∧
    (∃ s : State,
      s.requests = [] ∧ s.st Line.A = LineSt.data ∧ ¬(s.line Line.A).dl.clear = ClearSt.received ∧ (s.line Line.A).dl.clearDue = some 5000 ∧
      ¬(s.line Line.A).dl.sending = none) ∧
    (∃ s : State,
      s.requests = [] ∧ s.st Line.A = LineSt.data ∧ ¬(s.line Line.A).dl.clear = ClearSt.received ∧
      (s.line Line.A).dl.sending = some (Frame.rr 0 false) ∧ (s.line Line.A).dl.rateQueue = [] ∧
      (s.line Line.A).dl.rejDue = true) ∧
    (∃ s : State,
      s.requests = [] ∧ s.st Line.A = LineSt.data ∧ ¬(s.line Line.A).dl.clear = ClearSt.received ∧
      (s.line Line.A).dl.sending = some (Frame.rr 0 false) ∧ (s.line Line.A).dl.rateQueue = [] ∧
      (s.line Line.A).dl.rejDue = false ∧ (s.line Line.A).dl.rrDue = true ∧ (s.line Line.A).dl.pollDue = false) ∧
    (∃ s : State,
      s.requests = [] ∧ s.st Line.A = LineSt.data ∧ ¬(s.line Line.A).dl.clear = ClearSt.received ∧
      (s.line Line.A).dl.sending = some (Frame.rr 0 false) ∧ (s.line Line.A).dl.rateQueue = [] ∧
      (s.line Line.A).dl.rejDue = false ∧ (s.line Line.A).dl.pollDue = true ∧ (s.line Line.A).dl.localBusy = true) ∧
    (∃ s : State,
      s.requests = [] ∧ s.st Line.A = LineSt.data ∧ ¬(s.line Line.A).dl.clear = ClearSt.received ∧
      (s.line Line.A).dl.sending = some (Frame.rr 0 false) ∧ (s.line Line.A).dl.rateQueue = [] ∧
      (s.line Line.A).dl.rejDue = false ∧ (s.line Line.A).dl.rrDue = false ∧ (s.line Line.A).dl.pollDue = false ∧ (s.line Line.A).dl.remoteBusy = false ∧ (s.line Line.A).dl.list = [⟨62, [1#8]⟩] ++ ⟨63, [2#8]⟩ :: [⟨0, [3#8]⟩] ∧ (s.line Line.A).dl.resend = some 63 ∧ (∀ h ∈ [(⟨62, [1#8]⟩ : InfoFrame)], h.sequence ≠ 63) ∧ (63 + 1) % 64 ≠ (s.line Line.A).dl.send) ∧
    (∃ s : State,
      s.requests = [] ∧ s.st Line.A = LineSt.data ∧ ¬(s.line Line.A).dl.clear = ClearSt.received ∧
      (s.line Line.A).dl.sending = some (Frame.rr 0 false) ∧ (s.line Line.A).dl.rateQueue = [] ∧
      (s.line Line.A).dl.rejDue = false ∧ (s.line Line.A).dl.rrDue = false ∧ (s.line Line.A).dl.pollDue = false ∧ (s.line Line.A).dl.remoteBusy = false ∧ (s.line Line.A).dl.list = [⟨62, [1#8]⟩, ⟨63, [2#8]⟩] ++ ⟨0, [3#8]⟩ :: [] ∧ (s.line Line.A).dl.resend = some 0 ∧ (∀ h ∈ [(⟨62, [1#8]⟩ : InfoFrame), ⟨63, [2#8]⟩], h.sequence ≠ 0) ∧ (0 + 1) % 64 = (s.line Line.A).dl.send) ∧
    (∃ s : State,
      s.requests = [] ∧ s.st Line.A = LineSt.data ∧ ¬(s.line Line.A).dl.clear = ClearSt.received ∧
      (s.line Line.A).dl.sending = some (Frame.rr 0 false) ∧ (s.line Line.A).dl.rateQueue = [] ∧
      (s.line Line.A).dl.rejDue = false ∧ (s.line Line.A).dl.rrDue = false ∧ (s.line Line.A).dl.pollDue = false ∧ (s.line Line.A).dl.remoteBusy = false ∧ (s.line Line.A).dl.resend = none ∧ (s.line Line.A).dl.list.length < (s.line Line.A).dl.windowSize ∧ (s.line Line.A).dl.clearForced = false ∧ (s.line Line.A).dl.payloadMax ≤ (s.line Line.A).dl.tx.length ∧ s.link.target ≠ targetOf Line.A) ∧
    (∃ s : State,
      s.requests = [] ∧ s.st Line.A = LineSt.data ∧ ¬(s.line Line.A).dl.clear = ClearSt.received ∧
      (s.line Line.A).dl.sending = some (Frame.rr 0 false) ∧ (s.line Line.A).dl.rateQueue = [] ∧
      (s.line Line.A).dl.rejDue = false ∧ (s.line Line.A).dl.rrDue = false ∧ (s.line Line.A).dl.pollDue = false ∧ (s.line Line.A).dl.remoteBusy = false ∧ (s.line Line.A).dl.resend = none ∧ (s.line Line.A).dl.list.length < (s.line Line.A).dl.windowSize ∧ (s.line Line.A).dl.clearForced = false ∧ (s.line Line.A).dl.tx ≠ [] ∧ (s.line Line.A).dl.formDue = none ∧ (s.line Line.A).dl.list ≠ [] ∧ s.link.target ≠ targetOf Line.A) ∧
    (∃ s : State,
      s.requests = [] ∧ s.st Line.A = LineSt.data ∧ ¬(s.line Line.A).dl.clear = ClearSt.received ∧
      (s.line Line.A).dl.sending = some (Frame.rr 0 false) ∧ (s.line Line.A).dl.rateQueue = [] ∧
      (s.line Line.A).dl.rejDue = false ∧ (s.line Line.A).dl.rrDue = false ∧ (s.line Line.A).dl.pollDue = false ∧ ((s.line Line.A).dl.remoteBusy = true ∨ (s.line Line.A).dl.resend = none ∧ ((s.line Line.A).dl.windowSize ≤ (s.line Line.A).dl.list.length ∨ (s.line Line.A).dl.clearForced = true ∨
       (s.line Line.A).dl.tx.length < (s.line Line.A).dl.payloadMax ∧ ((s.line Line.A).dl.tx = [] ∨ s.now < ((s.line Line.A).dl.formDue).getD 0))) ∧ (s.line Line.A).dl.remoteBusy = true ∧ (s.line Line.A).dl.ackDue = true) ∧
    (∃ s : State,
      s.requests = [] ∧ s.st Line.A = LineSt.data ∧ ¬(s.line Line.A).dl.clear = ClearSt.received ∧
      (s.line Line.A).dl.sending = some (Frame.rr 0 false) ∧ (s.line Line.A).dl.rateQueue = [] ∧
      (s.line Line.A).dl.rejDue = false ∧ (s.line Line.A).dl.rrDue = false ∧ (s.line Line.A).dl.pollDue = false ∧ ((s.line Line.A).dl.remoteBusy = true ∨ (s.line Line.A).dl.resend = none ∧ ((s.line Line.A).dl.windowSize ≤ (s.line Line.A).dl.list.length ∨ (s.line Line.A).dl.clearForced = true ∨
       (s.line Line.A).dl.tx.length < (s.line Line.A).dl.payloadMax ∧ ((s.line Line.A).dl.tx = [] ∨ s.now < ((s.line Line.A).dl.formDue).getD 0))) ∧ (s.line Line.A).dl.ackDue = true ∧ s.now < ((s.line Line.A).dl.formDue).getD 0) ∧
    (∃ s : State,
      s.requests = [] ∧ s.st Line.A = LineSt.data ∧ ¬(s.line Line.A).dl.clear = ClearSt.received ∧
      (s.line Line.A).dl.sending = some (Frame.rr 0 false) ∧ (s.line Line.A).dl.rateQueue = [] ∧
      (s.line Line.A).dl.rejDue = false ∧ (s.line Line.A).dl.rrDue = false ∧ (s.line Line.A).dl.pollDue = false ∧ ((s.line Line.A).dl.remoteBusy = true ∨ (s.line Line.A).dl.resend = none ∧ ((s.line Line.A).dl.windowSize ≤ (s.line Line.A).dl.list.length ∨ (s.line Line.A).dl.clearForced = true ∨
       (s.line Line.A).dl.tx.length < (s.line Line.A).dl.payloadMax ∧ ((s.line Line.A).dl.tx = [] ∨ s.now < ((s.line Line.A).dl.formDue).getD 0))) ∧ (s.line Line.A).dl.windowSize ≤ (s.line Line.A).dl.list.length ∧ (s.line Line.A).dl.ackDue = false ∧ (s.line Line.A).dl.clear = .none) ∧
    (∃ s : State,
      s.requests = [] ∧ s.st Line.A = LineSt.data ∧ ¬(s.line Line.A).dl.clear = ClearSt.received ∧
      (s.line Line.A).dl.sending = some (Frame.rr 0 false) ∧ (s.line Line.A).dl.rateQueue = [] ∧
      (s.line Line.A).dl.rejDue = false ∧ (s.line Line.A).dl.rrDue = false ∧ (s.line Line.A).dl.pollDue = false ∧ ((s.line Line.A).dl.remoteBusy = true ∨ (s.line Line.A).dl.resend = none ∧ ((s.line Line.A).dl.windowSize ≤ (s.line Line.A).dl.list.length ∨ (s.line Line.A).dl.clearForced = true ∨
       (s.line Line.A).dl.tx.length < (s.line Line.A).dl.payloadMax ∧ ((s.line Line.A).dl.tx = [] ∨ s.now < ((s.line Line.A).dl.formDue).getD 0))) ∧ (s.line Line.A).dl.ackDue = false ∧ (s.line Line.A).dl.clear = .graceful ∧ (s.line Line.A).dl.clearSent = false ∧ (s.line Line.A).dl.tx = [] ∧ (s.line Line.A).dl.list = []) ∧
    (∃ s : State,
      s.requests = [] ∧ s.st Line.A = LineSt.data ∧ ¬(s.line Line.A).dl.clear = ClearSt.received ∧
      (s.line Line.A).dl.sending = some (Frame.rr 0 false) ∧ (s.line Line.A).dl.rateQueue = [] ∧
      (s.line Line.A).dl.rejDue = false ∧ (s.line Line.A).dl.rrDue = false ∧ (s.line Line.A).dl.pollDue = false ∧ ((s.line Line.A).dl.remoteBusy = true ∨ (s.line Line.A).dl.resend = none ∧ ((s.line Line.A).dl.windowSize ≤ (s.line Line.A).dl.list.length ∨ (s.line Line.A).dl.clearForced = true ∨
       (s.line Line.A).dl.tx.length < (s.line Line.A).dl.payloadMax ∧ ((s.line Line.A).dl.tx = [] ∨ s.now < ((s.line Line.A).dl.formDue).getD 0))) ∧ (s.line Line.A).dl.ackDue = false ∧ (s.line Line.A).dl.clear = .graceful ∧ (s.line Line.A).dl.clearSent = false ∧ (s.line Line.A).dl.clearForced = true) ∧
    (∃ s : State,
      s.requests = [] ∧ s.st Line.A = LineSt.data ∧ ¬(s.line Line.A).dl.clear = ClearSt.received ∧
      (s.line Line.A).dl.sending = some (Frame.rr 0 false) ∧ (s.line Line.A).dl.rateQueue = [] ∧
      (s.line Line.A).dl.rejDue = false ∧ (s.line Line.A).dl.rrDue = false ∧ (s.line Line.A).dl.pollDue = false ∧ ((s.line Line.A).dl.remoteBusy = true ∨ (s.line Line.A).dl.resend = none ∧ ((s.line Line.A).dl.windowSize ≤ (s.line Line.A).dl.list.length ∨ (s.line Line.A).dl.clearForced = true ∨
       (s.line Line.A).dl.tx.length < (s.line Line.A).dl.payloadMax ∧ ((s.line Line.A).dl.tx = [] ∨ s.now < ((s.line Line.A).dl.formDue).getD 0))) ∧ (s.line Line.A).dl.ackDue = false ∧ (s.line Line.A).dl.clearSent = true) ∧
    (∃ s : State,
      s.requests = [] ∧ s.st Line.A = LineSt.data ∧ ¬(s.line Line.A).dl.clear = ClearSt.received ∧
      (s.line Line.A).dl.sending = some (Frame.rr 0 false) ∧ (s.line Line.A).dl.rateQueue = [] ∧
      (s.line Line.A).dl.rejDue = false ∧ (s.line Line.A).dl.rrDue = false ∧ (s.line Line.A).dl.pollDue = false ∧ ((s.line Line.A).dl.remoteBusy = true ∨ (s.line Line.A).dl.resend = none ∧ ((s.line Line.A).dl.windowSize ≤ (s.line Line.A).dl.list.length ∨ (s.line Line.A).dl.clearForced = true ∨
       (s.line Line.A).dl.tx.length < (s.line Line.A).dl.payloadMax ∧ ((s.line Line.A).dl.tx = [] ∨ s.now < ((s.line Line.A).dl.formDue).getD 0))) ∧ (s.line Line.A).dl.ackDue = false ∧ (s.line Line.A).dl.clear = .graceful ∧ (s.line Line.A).dl.clearForced = false ∧ (s.line Line.A).dl.list ≠ []) ∧
    (∃ s : State,
      s.requests = [] ∧ s.st Line.A = LineSt.data ∧ ¬(s.line Line.A).dl.clear = ClearSt.received ∧
      (s.line Line.A).dl.timer = DlTimer.running 900 ∧ (s.line Line.A).dl.retries < 10 ∧ (s.line Line.A).dl.remoteBusy = true ∧
      (s.line Line.A).dl.sending ≠ none) ∧
    (∃ s : State,
      s.requests = [] ∧ s.st Line.A = LineSt.data ∧ ¬(s.line Line.A).dl.clear = ClearSt.received ∧
      (s.line Line.A).dl.timer = DlTimer.running 900 ∧ (s.line Line.A).dl.retries < 10 ∧ (s.line Line.A).dl.remoteBusy = true ∧
      (s.line Line.A).dl.sending = none ∧ (s.line Line.A).dl.rateQueue = [] ∧ (s.line Line.A).dl.rejDue = false) :=
  ⟨⟨(onLink fun d => { d with rateQueue := [.rateOk .l48] }), by decide +kernel⟩,
    ⟨(onLink id), by decide +kernel⟩,
    ⟨(onLink fun d => { d with sending := none, formDue := some 20, tx := List.replicate 256 1#8, send := 63 }), by decide +kernel⟩,
    ⟨(onLink fun d => { d with timer := .running 900, retries := 9, list := threeFrames }), by decide +kernel⟩,
    ⟨(onLink fun d => { d with clearDue := some 5000, clear := .graceful }), by decide +kernel⟩,
    ⟨(onLink fun d => { d with rejDue := true, rrDue := true }), by decide +kernel⟩,
    ⟨(onLink fun d => { d with rrDue := true }), by decide +kernel⟩,
    ⟨(onLink fun d => { d with pollDue := true, localBusy := true }), by decide +kernel⟩,
    ⟨(onLink fun d => { d with list := threeFrames, resend := some 63, send := 1 }), by decide +kernel⟩,
    ⟨(onLink fun d => { d with list := threeFrames, resend := some 0, send := 1 }), by decide +kernel⟩,
    ⟨(onLink fun d => { d with tx := List.replicate 256 5#8, send := 63, formDue := some 20 }), by decide +kernel⟩,
    ⟨(onLink fun d => { d with list := List.replicate 7 ⟨0, [3#8]⟩, tx := [5#8], send := 1 }), by decide +kernel⟩,
    ⟨(onLink fun d => { d with remoteBusy := true, ackDue := true, localBusy := true, tx := [5#8] }), by decide +kernel⟩,
    ⟨(onLink fun d => { d with tx := List.replicate 255 5#8, formDue := some 1, ackDue := true }), by decide +kernel⟩,
    ⟨(onLink fun d => { d with list := List.replicate 8 ⟨0, [3#8]⟩, tx := List.replicate 300 5#8 }), by decide +kernel⟩,
    ⟨(onLink fun d => { d with clear := .graceful }), by decide +kernel⟩,
    ⟨(onLink fun d => { d with clear := .graceful, clearForced := true, tx := [5#8], list := threeFrames }), by decide +kernel⟩,
    ⟨(onLink fun d => { d with clear := .graceful, clearSent := true }), by decide +kernel⟩,
    ⟨(onLink fun d => { d with clear := .graceful, list := threeFrames }), by decide +kernel⟩,
    ⟨(onLink fun d => { d with timer := .running 900, retries := 9, list := threeFrames, remoteBusy := true }), by decide +kernel⟩,
    ⟨(onLink fun d => { d with sending := none, timer := .running 900, retries := 0, list := threeFrames, remoteBusy := true }), by decide +kernel⟩⟩

theorem witness_FormatAndStoresetAct :
    (∃ s : State,
      s.requests = [] ∧ s.store.st = StoreSt.formatting) ∧
    (∃ s : State,
      s.requests = [] ∧ s.store.st = StoreSt.ready ∧
      Machine.formatTable (oneRegion.set 0 { present := 0#8, sizeCode := 0#8, width := 0#8, waitStates := 0#8 : RegionParams }) = none) ∧
    (∃ s : State,
      s.requests = [] ∧ s.store.st = StoreSt.ready ∧ Machine.formatTable oneRegion = some oneRegionTable ∧ ¬s.jobs = []) ∧
    (∃ s : State,
      s.requests = [] ∧ s.store.st = StoreSt.ready ∧ Machine.formatTable oneRegion = some oneRegionTable ∧ s.jobs = [] ∧
      (∀ e ∈ s.store.dir, e.state ≠ MsgState.opened ∧ e.inUse = 0) ∧ s.store.readA = none ∧ s.store.readB = none ∧ s.store.readHost = none ∧
      s.store.grant = none) ∧
    (∃ s : State,
      (s.requests = [] ∧ s.store.grant = some (Grant.maint (Maint.label true)) ∧ s.jobs = []) ∧
      portQuiet s) ∧
    (∃ s : State,
      (s.requests = [] ∧ s.store.grant = some (Grant.maint (Maint.label true)) ∧ s.jobs = [] ∧ Memory.wf s.store.memory = true ∧
       (labelBytes true s.store.regions s.store.formatCount).length ≤ 24) ∧
      portQuiet s) ∧
    (∃ s : State,
      s.requests = [] ∧ ¬s.store.st = StoreSt.ready) ∧
    (∃ s : State,
      s.requests = [] ∧ s.store.st = StoreSt.ready ∧ 1 < (2#8).toNat) ∧
    (∃ s : State,
      s.requests = [] ∧ s.store.st = StoreSt.ready ∧ s.store.unheard.length < min 96 (97#8).toNat) ∧
    (∃ s : State,
      s.requests = [] ∧ s.store.st = StoreSt.ready ∧ Machine.formatTable oneRegion = some oneRegionTable ∧ s.jobs = [] ∧
      (∃ e ∈ s.store.dir, e.state ≠ MsgState.opened ∧ 0 < e.inUse)) ∧
    (∃ s : State,
      s.requests = [] ∧ s.store.st = StoreSt.ready ∧ Machine.formatTable oneRegion = some oneRegionTable ∧ s.jobs = [] ∧
      (∃ e ∈ s.store.dir, e.state = MsgState.opened ∧ e.inUse = 0)) ∧
    (∃ s : State,
      s.requests = [] ∧ s.store.st = StoreSt.ready ∧ s.store.unheard.length = 1 ∧ ¬1#8 = 0#8 ∧
      min 96 (1#8).toNat ≤ s.store.unheard.length) :=
  ⟨⟨(storing fun t => { t with st := .formatting }), by decide +kernel⟩,
    ⟨stored, by decide +kernel⟩,
    ⟨{ stored with jobs := [job 1 .waiting] }, by decide +kernel⟩,
    ⟨stored, by decide +kernel⟩,
    ⟨(storing fun t => { t with st := .formatting, dir := [], grant := some (.maint (.label true)), regions := oneRegionTable }), by decide +kernel, ⟨rfl, rfl, rfl, rfl, rfl, rfl⟩⟩,
    ⟨(storing fun t => { t with st := .formatting, dir := [], grant := some (.maint (.label true)), regions := oneRegionTable }), by decide +kernel, ⟨rfl, rfl, rfl, rfl, rfl, rfl⟩⟩,
    ⟨(storing fun t => { t with st := .unformatted }), by decide +kernel⟩,
    ⟨stored, by decide +kernel⟩,
    ⟨stored, by decide +kernel⟩,
    ⟨(storing fun t => { t with dir := [{ voiceMessage 7 with inUse := 1 }] }), by decide +kernel⟩,
    ⟨(storing fun t => { t with dir := [openMessage 8 0 .host []], writers := [newWriter 8 .host] }), by decide +kernel⟩,
    ⟨(storing fun t => { t with unheard := [7] }), by decide +kernel⟩⟩

theorem witness_HostStreamsOpenCloseRead :
    (∃ s : State,
      s.requests = [] ∧ ¬s.store.st = StoreSt.ready) ∧
    (∃ s : State,
      s.requests = [] ∧ s.store.st = StoreSt.ready ∧ ¬hostWriter s = none) ∧
    (∃ s : State,
      s.requests = [] ∧ s.store.st = StoreSt.ready ∧ hostWriter s = none ∧ 96 ≤ s.store.dir.length) ∧
    (∃ s : State,
      s.requests = [] ∧ s.store.st = StoreSt.ready ∧ hostWriter s = none ∧ s.store.dir.length < 96 ∧
      s.store.free.length ≤ s.store.settings.reserve) ∧
    (∃ s : State,
      s.requests = [] ∧ s.store.st = StoreSt.ready ∧ hostWriter s = none ∧ s.store.dir.length < 96 ∧
      s.store.settings.reserve < s.store.free.length ∧ ¬s.link.target = Target.store) ∧
    (∃ s : State,
      s.requests = [] ∧ s.store.st = StoreSt.ready ∧ 1#8 ≠ 0#8) ∧
    (∃ s : State,
      s.requests = [] ∧ s.store.st = StoreSt.ready ∧ 2 < (3#8).toNat) ∧
    (∃ s : State,
      s.requests = [] ∧ s.store.st = StoreSt.ready ∧ s.store.hostFail = true) ∧
    (∃ s : State,
      s.requests = [] ∧ s.store.st = StoreSt.ready ∧ s.store.hostFail = false ∧ activeWriter s Owner.host = none) ∧
    (∃ s : State,
      s.requests = [] ∧ s.store.st = StoreSt.ready ∧ s.store.hostFail = false ∧ activeWriter s Owner.host = some hw ∧
      findEntry s hw.id = some (openMessage 8 0 Owner.host []) ∧ (openMessage 8 0 Owner.host []).length = 0) ∧
    (∃ s : State,
      s.requests = [] ∧ s.store.st = StoreSt.ready ∧ s.store.readHost = none) ∧
    (∃ s : State,
      s.requests = [] ∧ s.store.st = StoreSt.ready ∧ s.store.readHost = none ∧ ¬7#16 = 0#16 ∧
      findEntry s (7#16).toNat = some (voiceMessage 7) ∧ (voiceMessage 7).state = MsgState.closed ∧ (voiceMessage 7).erasePending = false ∧
      (voiceMessage 7).length < (4001#32).toNat) ∧
    (∃ s : State,
      s.requests = [] ∧ s.store.st = StoreSt.ready ∧ s.store.readHost = none ∧ ¬7#16 = 0#16 ∧
      findEntry s (7#16).toNat = some (voiceMessage 7) ∧ (voiceMessage 7).state = MsgState.closed ∧ (voiceMessage 7).erasePending = false ∧
      (4000#32).toNat = (voiceMessage 7).length ∧ (voiceMessage 7).inUse < 255 ∧ (voiceMessage 7).id = (7#16).toNat) ∧
    (∃ s : State,
      s.requests = [] ∧ s.store.st = StoreSt.ready ∧ s.store.readHost = none ∧ ¬7#16 = 0#16 ∧
      findEntry s (7#16).toNat = some (voiceMessage 7) ∧ (voiceMessage 7).state = MsgState.closed ∧ (voiceMessage 7).erasePending = false ∧
      (3999#32).toNat < (voiceMessage 7).length ∧ (voiceMessage 7).inUse < 255 ∧ (voiceMessage 7).id = (7#16).toNat ∧ ¬s.store.grant = none) ∧
    (∃ s : State,
      s.requests = [] ∧ s.link.parser = Parser.payload ∧ ¬9#8 = 197#8 ∧ s.link.target = Target.store ∧
      s.store.writers = [{ hw with filling := List.replicate 958 0#8 }] ∧ { hw with filling := List.replicate 958 0#8 }.owner = Owner.host ∧
      { hw with filling := List.replicate 958 0#8 }.active = true ∧ { hw with filling := List.replicate 958 0#8 }.handed = none ∧
      { hw with filling := List.replicate 958 0#8 }.filling.length + 1 < segCapacity { hw with filling := List.replicate 958 0#8 }.seq ∧
      ¬s.store.grant = none ∧ findEntry s { hw with filling := List.replicate 958 0#8 }.id = some (openMessage 8 958 Owner.host [])) ∧
    (∃ s : State,
      s.requests = [] ∧ findEntry s 8 = some (openMessage 8 964 Owner.host [3]) ∧ (openMessage 8 964 Owner.host [3]).id = 8 ∧
      { hw with seq := 1, base := 960, filling := [1#8, 2#8, 3#8, 4#8] }.id = 8 ∧
      s.store.writers = [{ hw with seq := 1, base := 960, filling := [1#8, 2#8, 3#8, 4#8] }] ∧ s.store.st = StoreSt.ready ∧
      s.store.hostFail = false ∧ { hw with seq := 1, base := 960, filling := [1#8, 2#8, 3#8, 4#8] }.owner = Owner.host ∧
      { hw with seq := 1, base := 960, filling := [1#8, 2#8, 3#8, 4#8] }.active = true ∧
      { hw with seq := 1, base := 960, filling := [1#8, 2#8, 3#8, 4#8] }.cut = CutState.none ∧
      0 < (openMessage 8 964 Owner.host [3]).length ∧ ¬s.link.target = Target.store ∧ ¬s.store.grant = none ∧
      { hw with seq := 1, base := 960, filling := [1#8, 2#8, 3#8, 4#8] }.handed = none ∧
      ¬{ hw with seq := 1, base := 960, filling := [1#8, 2#8, 3#8, 4#8] }.filling = []) ∧
    (∃ s : State,
      s.requests = [] ∧ findEntry s 8 = some (openMessage 8 964 Owner.host [3]) ∧ (openMessage 8 964 Owner.host [3]).id = 8 ∧
      { hw with handed := some (List.replicate 960 7#8), granted := true, filling := [1#8, 2#8, 3#8, 4#8] }.id = 8 ∧
      s.store.writers = [{ hw with handed := some (List.replicate 960 7#8), granted := true, filling := [1#8, 2#8, 3#8, 4#8] }] ∧
      s.store.st = StoreSt.ready ∧ s.store.hostFail = false ∧
      { hw with handed := some (List.replicate 960 7#8), granted := true, filling := [1#8, 2#8, 3#8, 4#8] }.owner = Owner.host ∧
      { hw with handed := some (List.replicate 960 7#8), granted := true, filling := [1#8, 2#8, 3#8, 4#8] }.active = true ∧
      { hw with handed := some (List.replicate 960 7#8), granted := true, filling := [1#8, 2#8, 3#8, 4#8] }.cut = CutState.none ∧
      0 < (openMessage 8 964 Owner.host [3]).length ∧ ¬s.link.target = Target.store ∧ ¬s.store.grant = none ∧
      ¬{ hw with handed := some (List.replicate 960 7#8), granted := true, filling := [1#8, 2#8, 3#8, 4#8] }.handed = none) ∧
    (∃ s : State,
      s.requests = [] ∧ findEntry s 8 = some (openMessage 8 964 Owner.host [3]) ∧ (openMessage 8 964 Owner.host [3]).id = 8 ∧
      { hw with seq := 1, base := 964, seg := some 4 }.id = 8 ∧ s.store.writers = [{ hw with seq := 1, base := 964, seg := some 4 }] ∧
      s.store.st = StoreSt.ready ∧ s.store.hostFail = false ∧ { hw with seq := 1, base := 964, seg := some 4 }.owner = Owner.host ∧
      { hw with seq := 1, base := 964, seg := some 4 }.active = true ∧
      { hw with seq := 1, base := 964, seg := some 4 }.cut = CutState.none ∧ 0 < (openMessage 8 964 Owner.host [3]).length ∧
      ¬s.link.target = Target.store ∧ ¬s.store.grant = none ∧ { hw with seq := 1, base := 964, seg := some 4 }.handed = none ∧
      { hw with seq := 1, base := 964, seg := some 4 }.filling = [] ∧ ¬(openMessage 8 964 Owner.host [3]).chain = []) ∧
    (∃ s : State,
      s.requests = [] ∧ findEntry s 8 = some { (openMessage 8 4 Owner.host [3]) with kind := MsgKind.file, fetched := true } ∧
      { (openMessage 8 4 Owner.host [3]) with kind := MsgKind.file, fetched := true }.id = 8 ∧ endingWriter.id = 8 ∧
      s.store.writers = [endingWriter] ∧ s.store.grant = some (Grant.maint (Maint.copyRewrite 8)) ∧
      endingWriter.closing = some { reason := EndReason.byRelease ReleaseReason.host, truncated := false, pages := 0, copyAsked := true, erase := false : Closing } ∧
      { reason := EndReason.byRelease ReleaseReason.host, truncated := false, pages := 0, copyAsked := true, erase := false : Closing }.copyAsked = true ∧
      s.store.settings.watermark = 0 ∧ s.store.readA = none ∧ s.store.readB = none ∧ s.store.readHost = none ∧ s.store.maint = []) ∧
    (∃ s : State,
      s.requests = [] ∧ findEntry s 8 = some { (openMessage 8 4 Owner.host [3]) with mailbox := some 2 } ∧
      { (openMessage 8 4 Owner.host [3]) with mailbox := some 2 }.id = 8 ∧ endingWriter.id = 8 ∧ s.store.writers = [endingWriter] ∧
      s.store.grant = some (Grant.maint (Maint.copyRewrite 8)) ∧
      endingWriter.closing = some { reason := EndReason.byRelease ReleaseReason.host, truncated := false, pages := 0, copyAsked := true, erase := false : Closing } ∧
      { reason := EndReason.byRelease ReleaseReason.host, truncated := false, pages := 0, copyAsked := true, erase := false : Closing }.copyAsked = true ∧
      s.store.settings.watermark = 0 ∧ s.store.readA = none ∧ s.store.readB = none ∧ s.store.readHost = none ∧ s.store.maint = []) ∧
    (∃ s : State,
      s.requests = [] ∧ s.store.st = StoreSt.ready ∧ (0#8 : Byte) = 0#8 ∧ (2#8 : Byte) ≠ 0#8 ∧ MsgKind.ofCode (0#8).toNat = some .voice ∧ Coding.ofCode (2#8).toNat = some .adc2 ∧ hostWriter s = none ∧ s.store.dir.length < 96 ∧
      s.store.settings.reserve < s.store.free.length ∧ ¬s.link.target = Target.store) ∧
    (∃ s : State,
      s.requests = [] ∧ s.store.st = StoreSt.ready ∧ MsgKind.ofCode (1#8).toNat = some .fax ∧ Coding.ofCode (0#8).toNat = some Coding.none ∧ hostWriter s = none ∧ s.store.dir.length < 96 ∧
      s.store.settings.reserve < s.store.free.length ∧ ¬s.link.target = Target.store) ∧
    (∃ s : State,
      s.requests = [] ∧ s.store.st = StoreSt.ready ∧ MsgKind.ofCode (2#8).toNat = some .file ∧ Coding.ofCode (1#8).toNat = some .adc4 ∧ hostWriter s = none ∧ s.store.dir.length < 96 ∧
      s.store.settings.reserve < s.store.free.length ∧ ¬s.link.target = Target.store) ∧
    (∃ s : State,
      s.requests = [] ∧ s.store.st = StoreSt.ready ∧ s.store.readHost = some { unread with id := 7 } ∧ (1#16 : Word16) ≠ 0#16) ∧
    (∃ s : State,
      s.requests = [] ∧ s.store.st = StoreSt.ready ∧ s.store.readHost = some { unread with id := 7 } ∧ s.store.grant ≠ none ∧ s.link.sending ≠ .idle ∧
      findEntry s 7 = some usedMessage ∧ usedMessage.erasePending = false) ∧
    (∃ s : State,
      s.requests = [] ∧ s.store.st = StoreSt.ready ∧ s.store.readHost = some { unread with id := 7 } ∧ s.store.grant ≠ none ∧ s.link.sending ≠ .idle ∧
      findEntry s 7 = some { usedMessage with erasePending := true, inUse := 2 }) ∧
    (∃ s : State,
      s.requests = [] ∧ s.store.st = StoreSt.ready ∧ s.store.readHost = none ∧ findEntry s (7#16).toNat = some { voiceMessage 7 with state := .opened } ∧
      { voiceMessage 7 with state := .opened }.state ≠ MsgState.closed) ∧
    (∃ s : State,
      s.requests = [] ∧ s.store.st = StoreSt.ready ∧ s.store.readHost = none ∧ findEntry s (7#16).toNat = some { voiceMessage 7 with state := .erasing } ∧
      { voiceMessage 7 with state := .erasing }.state ≠ MsgState.closed) ∧
    (∃ s : State,
      s.requests = [] ∧ s.store.st = StoreSt.ready ∧ s.store.readHost = none ∧ findEntry s (7#16).toNat = some { voiceMessage 7 with erasePending := true } ∧
      { voiceMessage 7 with erasePending := true }.erasePending = true) ∧
    (∃ s : State,
      s.requests = [] ∧ s.store.st = StoreSt.ready ∧ s.store.readHost = none ∧ findEntry s (7#16).toNat = some { voiceMessage 7 with inUse := 255 } ∧
      { voiceMessage 7 with inUse := 255 }.id = (7#16).toNat ∧ { voiceMessage 7 with inUse := 255 }.inUse = 255 ∧
      (4000#32).toNat ≤ { voiceMessage 7 with inUse := 255 }.length) :=
  ⟨⟨(storing fun t => { t with st := .scanning }), by decide +kernel⟩,
    ⟨(storing fun t => { t with writers := [hw] }), by decide +kernel⟩,
    ⟨(storing fun t => { t with dir := List.replicate 96 (voiceMessage 7) }), by decide +kernel⟩,
    ⟨(storing fun t => { t with free := List.range 32 }), by decide +kernel⟩,
    ⟨(storing fun t => { t with free := List.range 33, nextId := 7 }), by decide +kernel⟩,
    ⟨stored, by decide +kernel⟩,
    ⟨stored, by decide +kernel⟩,
    ⟨(storing fun t => { t with hostFail := true }), by decide +kernel⟩,
    ⟨stored, by decide +kernel⟩,
    ⟨(storing fun t => { t with writers := [hw], dir := t.dir ++ [openMessage 8 0 .host []] }), by decide +kernel⟩,
    ⟨stored, by decide +kernel⟩,
    ⟨stored, by decide +kernel⟩,
    ⟨stored, by decide +kernel⟩,
    ⟨(storingBusy id), by decide +kernel⟩,
    ⟨{ storingBusy (fun t => { t with writers := [{ hw with filling := List.replicate 958 0#8 }], dir := [openMessage 8 958 .host []] }) with link := { stored.link with target := .store } }, by decide +kernel⟩,
    ⟨(storingBusy fun t => { t with writers := [{ hw with seq := 1, base := 960, filling := [1#8, 2#8, 3#8, 4#8] }], dir := [openMessage 8 964 .host [3]] }), by decide +kernel⟩,
    ⟨(storingBusy fun t => { t with writers := [{ hw with handed := some (List.replicate 960 7#8), granted := true, filling := [1#8, 2#8, 3#8, 4#8] }], dir := [openMessage 8 964 .host [3]] }), by decide +kernel⟩,
    ⟨(storingBusy fun t => { t with writers := [{ hw with seq := 1, base := 964, seg := some 4 }], dir := [openMessage 8 964 .host [3]] }), by decide +kernel⟩,
    ⟨(storing fun t => { t with writers := [endingWriter], dir := [voiceMessage 7, { openMessage 8 4 .host [3] with kind := .file, fetched := true }], unheard := [7], grant := some (.maint (.copyRewrite 8)) }), by decide +kernel⟩,
    ⟨(storing fun t => { t with writers := [endingWriter], dir := [voiceMessage 7, { openMessage 8 4 .host [3] with mailbox := some 2 }], unheard := [7], grant := some (.maint (.copyRewrite 8)) }), by decide +kernel⟩,
    ⟨(storing fun t => { t with free := List.range 33, nextId := 65535, hostFail := true }), by decide +kernel⟩,
    ⟨(storing fun t => { t with free := List.range 33, nextId := 65535, hostFail := true }), by decide +kernel⟩,
    ⟨(storing fun t => { t with free := List.range 33, nextId := 65535, hostFail := true }), by decide +kernel⟩,
    ⟨(hostSending 3 { unread with id := 7 }), by decide +kernel⟩,
    ⟨(hostSending 3 { unread with id := 7 }), by decide +kernel⟩,
    ⟨(modStore (fun t => { t with dir := [{ usedMessage with erasePending := true, inUse := 2 }] }) (hostSending 3 { unread with id := 7 })), by decide +kernel⟩,
    ⟨(storing fun t => { t with dir := [{ voiceMessage 7 with state := .opened }] }), by decide +kernel⟩,
    ⟨(storing fun t => { t with dir := [{ voiceMessage 7 with state := .erasing }] }), by decide +kernel⟩,
    ⟨(storing fun t => { t with dir := [{ voiceMessage 7 with erasePending := true }] }), by decide +kernel⟩,
    ⟨(storing fun t => { t with dir := [{ voiceMessage 7 with inUse := 255 }] }), by decide +kernel⟩⟩

theorem witness_EraseAndNewsackAct :
    (∃ s : State,
      (s.requests = [] ∧ ¬s.store.grant = none ∧ ¬s.store.st = StoreSt.ready) ∧
      (∀ (x : Maint), s.store.grant ≠ some (Grant.maint x))) ∧
    (∃ s : State,
      (s.requests = [] ∧ ¬s.store.grant = none ∧ s.store.st = StoreSt.ready ∧ findEntry s (6#16).toNat = none) ∧
      (∀ (x : Maint), s.store.grant ≠ some (Grant.maint x))) ∧
    (∃ s : State,
      (s.requests = [] ∧ ¬s.store.grant = none ∧ s.store.st = StoreSt.ready ∧
       findEntry s (7#16).toNat = some { (voiceMessage 7) with state := MsgState.erasing } ∧
       { (voiceMessage 7) with state := MsgState.erasing }.state = MsgState.erasing) ∧
      (∀ (x : Maint), s.store.grant ≠ some (Grant.maint x))) ∧
    (∃ s : State,
      (s.requests = [] ∧ ¬s.store.grant = none ∧ s.store.st = StoreSt.ready ∧
       findEntry s (8#16).toNat = some (openMessage 8 0 Owner.host []) ∧ (openMessage 8 0 Owner.host []).state = MsgState.opened) ∧
      (∀ (x : Maint), s.store.grant ≠ some (Grant.maint x))) ∧
    (∃ s : State,
      (s.requests = [] ∧ ¬s.store.grant = none ∧ s.store.st = StoreSt.ready ∧
       findEntry s (7#16).toNat = some { (voiceMessage 7) with inUse := 1 } ∧ { (voiceMessage 7) with inUse := 1 }.state = MsgState.closed ∧
       0 < { (voiceMessage 7) with inUse := 1 }.inUse ∧ { (voiceMessage 7) with inUse := 1 }.id = (7#16).toNat) ∧
      (∀ (x : Maint), s.store.grant ≠ some (Grant.maint x))) ∧
    (∃ s : State,
      (s.requests = [] ∧ ¬s.store.grant = none ∧ s.store.st = StoreSt.ready ∧ findEntry s (7#16).toNat = some (voiceMessage 7) ∧
       (voiceMessage 7).state = MsgState.closed ∧ (voiceMessage 7).inUse = 0 ∧ (voiceMessage 7).id = (7#16).toNat ∧
       ¬(voiceMessage 7).chain = []) ∧
      (∀ (x : Maint), s.store.grant ≠ some (Grant.maint x))) ∧
    (∃ s : State,
      (s.requests = [] ∧ ¬s.store.grant = none ∧ s.store.st = StoreSt.ready ∧ (7#16).toNat ∉ s.store.unheard) ∧
      (∀ (x : Maint), s.store.grant ≠ some (Grant.maint x))) ∧
    (∃ s : State,
      (s.requests = [] ∧ ¬s.store.grant = none ∧ s.store.st = StoreSt.ready ∧ s.store.unheard = [9] ++ [(7#16).toNat, 5] ∧
       s.store.unheard.Nodup) ∧
      (∀ (x : Maint), s.store.grant ≠ some (Grant.maint x))) ∧
    (∃ s : State,
      (findWriter s 8 = some { (newWriter 8 (Owner.line Line.A)) with seq := 1 } ∧ 0 < 4 ∧
       (List.find? (fun (n : ℕ) => decide (n / 1024 = 0)) s.store.free = some 1) ∧
       (freeInRegion s 0 ≠ 0 ∧ residents s 0 8 < (s.store.regions.getD 0 absentRegion).sustain) ∧
       (∀ k < 0, ¬(freeInRegion s k ≠ 0 ∧ residents s k 8 < (s.store.regions.getD k absentRegion).sustain))) ∧
      (∃ (l : Line), { (newWriter 8 (Owner.line Line.A)) with seq := 1 }.owner = Owner.line l)) ∧
    (∃ s : State,
      (findWriter s 8 = some { (newWriter 8 (Owner.line Line.A)) with seq := 1 } ∧ 1 < 4 ∧
       (List.find? (fun (n : ℕ) => decide (n / 1024 = 1)) s.store.free = some 1030) ∧
       (freeInRegion s 1 ≠ 0 ∧ residents s 1 8 < (s.store.regions.getD 1 absentRegion).sustain) ∧
       (∀ k < 1, ¬(freeInRegion s k ≠ 0 ∧ residents s k 8 < (s.store.regions.getD k absentRegion).sustain))) ∧
      (∃ (l : Line), { (newWriter 8 (Owner.line Line.A)) with seq := 1 }.owner = Owner.line l)) ∧
    (∃ s : State,
      (findWriter s 8 = some { (newWriter 8 (Owner.line Line.A)) with seq := 1 } ∧ 0 < 4 ∧
       (List.find? (fun (n : ℕ) => decide (n / 1024 = 0)) s.store.free = some 1) ∧
       (∀ k < 4, ¬(freeInRegion s k ≠ 0 ∧ residents s k 8 < (s.store.regions.getD k absentRegion).sustain)) ∧
       (∀ k < 0, freeInRegion s k = 0) ∧ { (newWriter 8 (Owner.line Line.A)) with seq := 1 }.paced = false) ∧
      (∃ (l : Line), { (newWriter 8 (Owner.line Line.A)) with seq := 1 }.owner = Owner.line l)) ∧
    (∃ s : State,
      (findWriter s 8 = some { (newWriter 8 (Owner.line Line.A)) with seq := 1, paced := true } ∧ 0 < 4 ∧
       (List.find? (fun (n : ℕ) => decide (n / 1024 = 0)) s.store.free = some 1) ∧
       (∀ k < 4, ¬(freeInRegion s k ≠ 0 ∧ residents s k 8 < (s.store.regions.getD k absentRegion).sustain)) ∧
       (∀ k < 0, freeInRegion s k = 0) ∧ { (newWriter 8 (Owner.line Line.A)) with seq := 1, paced := true }.paced = true) ∧
      (∃ (l : Line), { (newWriter 8 (Owner.line Line.A)) with seq := 1, paced := true }.owner = Owner.line l)) ∧
    (∃ s : State,
      findWriter s 8 = some (newWriter 8 Owner.host) ∧ 1 < 4 ∧
      (List.find? (fun (n : ℕ) => decide (n / 1024 = 1)) s.store.free = some 1030) ∧ (newWriter 8 Owner.host).owner = Owner.host ∧
      (∀ k < 1, freeInRegion s k = 0)) ∧
    (∃ s : State,
      findWriter s 8 = some { (newWriter 8 (Owner.line Line.A)) with seq := 1 } ∧
      (∃ e ∈ s.store.dir, e.state = MsgState.erasing ∧ e.chain ≠ [])) ∧
    (∃ s : State,
      (findWriter s 8 = some { (newWriter 8 (Owner.line Line.A)) with seq := 1 } ∧
       (¬∃ e ∈ s.store.dir, e.state = MsgState.erasing ∧ e.chain ≠ []) ∧ s.store.settings.policy = FullPolicy.recycle ∧
       { (voiceMessage 7) with creation := 3, fetched := true } ∈ s.store.dir ∧
       { (voiceMessage 7) with creation := 3, fetched := true }.state = MsgState.closed ∧
       { (voiceMessage 7) with creation := 3, fetched := true }.inUse = 0 ∧
       { (voiceMessage 7) with creation := 3, fetched := true }.fetched = true ∧
       { (voiceMessage 7) with creation := 3, fetched := true }.erasePending = false ∧
       findEntry s { (voiceMessage 7) with creation := 3, fetched := true }.id = some { (voiceMessage 7) with creation := 3, fetched := true } ∧
       ¬{ (voiceMessage 7) with creation := 3, fetched := true }.chain = [] ∧
       (∀ e ∈ s.store.dir, e.state = MsgState.closed → e.inUse = 0 → e.fetched = true → e.erasePending = false → e ≠ { (voiceMessage 7) with creation := 3, fetched := true } → { (voiceMessage 7) with creation := 3, fetched := true }.creation < e.creation)) ∧
      (∀ (x : Maint), s.store.grant ≠ some (Grant.maint x))) ∧
    (∃ s : State,
      findWriter s 8 = some (newWriter 8 Owner.host) ∧ (¬∃ e ∈ s.store.dir, e.state = MsgState.erasing ∧ e.chain ≠ []) ∧
      findEntry s 8 = some (openMessage 8 0 Owner.host []) ∧ (openMessage 8 0 Owner.host []).id = 8 ∧
      s.store.settings.policy = FullPolicy.keep ∧ (newWriter 8 Owner.host).owner = Owner.host ∧ (openMessage 8 0 Owner.host []).chain = [] ∧
      ¬s.link.target = Target.store) ∧
    (∃ s : State,
      findWriter s 8 = some { (newWriter 8 (Owner.line Line.A)) with seq := 1 } ∧
      (¬∃ e ∈ s.store.dir, e.state = MsgState.erasing ∧ e.chain ≠ []) ∧ findEntry s 8 = some (openMessage 8 0 (Owner.line Line.A) [3]) ∧
      (openMessage 8 0 (Owner.line Line.A) [3]).id = 8 ∧ s.store.settings.policy = FullPolicy.keep ∧
      { (newWriter 8 (Owner.line Line.A)) with seq := 1 }.owner = Owner.line Line.A ∧
      { (newWriter 8 (Owner.line Line.A)) with seq := 1 }.active = true) ∧
    (∃ s : State,
      findWriter s 8 = some { (newWriter 8 (Owner.line Line.A)) with seq := 1 } ∧ s.store.waiting = []) ∧
    (∃ s : State,
      findWriter s 8 = some (newWriter 8 Owner.host) ∧ s.store.waiting = [8] ∧ 8 ∉ [] ∧ s.store.free = [] ∧ 5 / 1024 < 4 ∧
      (newWriter 8 Owner.host).owner = Owner.host) :=
  ⟨⟨(storingBusy fun t => { t with st := .scanning }), by decide +kernel, by intro x hx; cases hx⟩,
    ⟨(storingBusy id), by decide +kernel, by intro x hx; cases hx⟩,
    ⟨(storingBusy fun t => { t with dir := [{ voiceMessage 7 with state := .erasing }] }), by decide +kernel, by intro x hx; cases hx⟩,
    ⟨(storingBusy fun t => { t with dir := [openMessage 8 0 .host []] }), by decide +kernel, by intro x hx; cases hx⟩,
    ⟨(storingBusy fun t => { t with dir := [{ voiceMessage 7 with inUse := 1 }] }), by decide +kernel, by intro x hx; cases hx⟩,
    ⟨(storingBusy fun t => { t with unheard := [7] }), by decide +kernel, by intro x hx; cases hx⟩,
    ⟨(storingBusy id), by decide +kernel, by intro x hx; cases hx⟩,
    ⟨(storingBusy fun t => { t with unheard := [9, 7, 5], dir := [voiceMessage 5, voiceMessage 7, voiceMessage 9] }), by decide +kernel, by intro x hx; cases hx⟩,
    ⟨(regioned fun t => { t with writers := [{ newWriter 8 (.line .A) with seq := 1 }], dir := [openMessage 8 0 (.line .A) [3]] }), by decide +kernel, ⟨_, rfl⟩⟩,
    ⟨(regioned fun t => { t with writers := [{ newWriter 8 (.line .A) with seq := 1 }], dir := [openMessage 8 0 (.line .A) [3]], readB := some { reading 0 4000 [] false with region := some 0 } }), by decide +kernel, ⟨_, rfl⟩⟩,
    ⟨(regioned fun t => { t with writers := [{ newWriter 8 (.line .A) with seq := 1 }], dir := [openMessage 8 0 (.line .A) [3]], readB := some { reading 0 4000 [] false with region := some 0 }, free := [1, 2] }), by decide +kernel, ⟨_, rfl⟩⟩,
    ⟨(regioned fun t => { t with writers := [{ newWriter 8 (.line .A) with seq := 1, paced := true }], dir := [openMessage 8 0 (.line .A) [3]], readB := some { reading 0 4000 [] false with region := some 0 }, free := [1, 2] }), by decide +kernel, ⟨_, rfl⟩⟩,
    ⟨(regioned fun t => { t with writers := [newWriter 8 .host], dir := [openMessage 8 0 (.line .A) [3]], free := [1030, 1031] }), by decide +kernel⟩,
    ⟨(regioned fun t => { t with writers := [{ newWriter 8 (.line .A) with seq := 1 }], dir := [{ voiceMessage 7 with state := .erasing }, openMessage 8 0 (.line .A) [3]], free := [] }), by decide +kernel⟩,
    ⟨(regioned fun t => { t with writers := [{ newWriter 8 (.line .A) with seq := 1 }], dir := [{ voiceMessage 6 with fetched := true, creation := 5 }, { voiceMessage 7 with fetched := true, creation := 3 }, openMessage 8 0 (.line .A) [3]], free := [], settings := ⟨0, .recycle, 0, .fifo⟩ }), by decide +kernel, by intro x hx; cases hx⟩,
    ⟨(regioned fun t => { t with writers := [newWriter 8 .host], waiting := [8], free := [], dir := [voiceMessage 7, openMessage 8 0 .host []] }), by decide +kernel⟩,
    ⟨(regioned fun t => { t with writers := [{ newWriter 8 (.line .A) with seq := 1 }], dir := [openMessage 8 0 (.line .A) [3]], free := [] }), by decide +kernel⟩,
    ⟨(regioned fun t => { t with writers := [{ newWriter 8 (.line .A) with seq := 1 }], dir := [openMessage 8 0 (.line .A) [3]], free := [] }), by decide +kernel⟩,
    ⟨(regioned fun t => { t with writers := [newWriter 8 .host], waiting := [8], free := [], dir := [voiceMessage 7, openMessage 8 0 .host []] }), by decide +kernel⟩⟩

theorem witness_PortCompletionsTakeEffect :
    (∃ s : State,
      s.requests = [] ∧ findEntry s 8 = some (openMessage 8 960 Owner.host [3]) ∧ (openMessage 8 960 Owner.host [3]).id = 8 ∧
      s.store.grant = some (Grant.write 8 3) ∧ s.store.writers = [pw] ∧ pw.id = 8 ∧ pw.owner = Owner.host ∧
      pw.handed = some (List.replicate 960 7#8) ∧ pw.filling = [] ∧ pw.cut = CutState.none ∧ pw.closing = none ∧ pw.failed = false ∧
      (List.replicate 960 7#8).length = segCapacity pw.seq ∧ s.store.readA = none ∧ s.store.readB = none ∧ s.store.readHost = none ∧
      s.store.maint = [] ∧ ¬s.link.target = Target.store) ∧
    (∃ s : State,
      s.requests = [] ∧ findEntry s 7 = some (voiceMessage 7) ∧ (voiceMessage 7).id = 7 ∧
      s.store.grant = some (Grant.read Owner.host 5 7 50 0) ∧ s.store.readHost = some (reading 950 4000 [] false) ∧
      (reading 950 4000 [] false).tag = 5 ∧ (reading 950 4000 [] false).buffers = [] ∧ s.store.writers = [] ∧ s.store.readA = none ∧
      s.store.readB = none ∧ s.store.maint = [] ∧
      max (segStart 0) (reading 950 4000 [] false).position < min (segStart 0 + segCapacity 0) (reading 950 4000 [] false).length ∧
      ¬s.link.sending = Sending.idle) ∧
    (∃ s : State,
      (s.requests = [] ∧ findEntry s 7 = some { (voiceMessage 7) with state := MsgState.erasing, chain := [50] } ∧
       { (voiceMessage 7) with state := MsgState.erasing, chain := [50] }.id = 7 ∧
       s.store.grant = some (Grant.maint (Maint.freeHeader 50 (FreeFor.erase 7))) ∧
       { (voiceMessage 7) with state := MsgState.erasing, chain := [50] }.state = MsgState.erasing ∧
       { (voiceMessage 7) with state := MsgState.erasing, chain := [50] }.chain = [50]) ∧
      portQuiet s) ∧
    (∃ s : State,
      (s.requests = [] ∧ findEntry s 7 = some (voiceMessage 7) ∧ (voiceMessage 7).id = 7 ∧
       s.store.grant = some (Grant.maint (Maint.copyRewrite 7)) ∧ s.store.scan = none) ∧
      portQuiet s) ∧
    (∃ s : State,
      (s.requests = [] ∧ findEntry s 7 = some (voiceMessage 7) ∧ (voiceMessage 7).id = 7 ∧
       s.store.grant = some (Grant.maint (Maint.headerRewrite 7 3 0 [1#8])) ∧ s.store.scan = none ∧ (voiceMessage 7).chain[3]? = some 53) ∧
      portQuiet s) ∧
    (∃ s : State,
      (s.requests = [] ∧ findEntry s 7 = some (voiceMessage 7) ∧ (voiceMessage 7).id = 7 ∧
       s.store.grant = some (Grant.maint (Maint.scanRead ScanRead.label)) ∧ readLabel (Memory.readBytes s.store.memory 0 24) = none) ∧
      portQuiet s) ∧
    (∃ s : State,
      s.requests = [] ∧ findEntry s 8 = some (openMessage 8 0 (Owner.line Line.A) [3]) ∧ (openMessage 8 0 (Owner.line Line.A) [3]).id = 8 ∧
      (openMessage 8 0 (Owner.line Line.A) [3]).state = MsgState.opened ∧ 3 ∈ (openMessage 8 0 (Owner.line Line.A) [3]).chain ∧
      s.store.writers = [cw] ∧ cw.id = 8 ∧ cw.owner = Owner.line Line.A ∧ cw.active = true ∧ cw.cut = CutState.running 1 none ∧
      cw.handed = none ∧ cw.filling = [] ∧ cw.closing = none ∧ s.store.waiting = [] ∧
      s.store.grant = some (Grant.maint (Maint.freeHeader 3 (FreeFor.cut 8))) ∧ s.store.readA = none ∧ s.store.readB = none ∧
      s.store.readHost = none ∧ s.store.maint = [] ∧ (s.line Line.A).fax.role = none) ∧
    (∃ s : State,
      (s.requests = [] ∧ s.store.scan = some scanStart ∧ s.store.st = StoreSt.scanning ∧
       s.store.grant = some (Grant.maint (Maint.scanRead ScanRead.label)) ∧
       readLabel (Memory.readBytes s.store.memory 0 24) = some (oneRegionTable, 3) ∧ presentSegments oneRegionTable = 1 :: List.range' 2 62) ∧
      portQuiet s ∧ (∀ (l : Line), (s.line l).profile.autoCallout = false)) ∧
    (∃ s : State,
      (s.requests = [] ∧ s.store.scan = some { scanStart with todo := [6, 7] } ∧ s.store.st = StoreSt.scanning ∧
       s.store.grant = some (Grant.maint (Maint.scanRead (ScanRead.header 5))) ∧ { scanStart with todo := [6, 7] }.todo = [6, 7] ∧
       readHeader (Memory.readBytes s.store.memory (segAddress 5 0) 8) = HeaderRead.used 7 2 4 ∧ ¬2 = 0) ∧
      portQuiet s ∧ (∀ (l : Line), (s.line l).profile.autoCallout = false)) ∧
    (∃ s : State,
      (s.requests = [] ∧ s.store.scan = some { scanStart with todo := [6, 7] } ∧ s.store.st = StoreSt.scanning ∧
       s.store.grant = some (Grant.maint (Maint.scanRead (ScanRead.header 5))) ∧ { scanStart with todo := [6, 7] }.todo = [6, 7] ∧
       readHeader (Memory.readBytes s.store.memory (segAddress 5 0) 8) = HeaderRead.used 7 0 4) ∧
      portQuiet s ∧ (∀ (l : Line), (s.line l).profile.autoCallout = false)) ∧
    (∃ s : State,
      (s.requests = [] ∧ s.store.scan = some { scanStart with todo := [6, 7] } ∧ s.store.st = StoreSt.scanning ∧
       s.store.grant = some (Grant.maint (Maint.scanRead (ScanRead.header 5))) ∧ { scanStart with todo := [6, 7] }.todo = [6, 7] ∧
       readHeader (Memory.readBytes s.store.memory (segAddress 5 0) 8) = HeaderRead.free) ∧
      portQuiet s ∧ (∀ (l : Line), (s.line l).profile.autoCallout = false)) ∧
    (∃ s : State,
      (s.requests = [] ∧ s.store.scan = some { scanStart with todo := [6, 7] } ∧ s.store.st = StoreSt.scanning ∧
       s.store.grant = some (Grant.maint (Maint.scanRead (ScanRead.header 5))) ∧ { scanStart with todo := [6, 7] }.todo = [6, 7] ∧
       readHeader (Memory.readBytes s.store.memory (segAddress 5 0) 8) = HeaderRead.bad) ∧
      portQuiet s ∧ (∀ (l : Line), (s.line l).profile.autoCallout = false)) ∧
    (∃ s : State,
      (s.requests = [] ∧ s.store.scan = some { scanStart with groups := [{ seg := 5, id := 7, seq := 0, used := 4 : ScanSeg }] } ∧
       s.store.st = StoreSt.scanning ∧ s.store.grant = some (Grant.maint (Maint.scanRead (ScanRead.copy 5))) ∧
       { scanStart with groups := [{ seg := 5, id := 7, seq := 0, used := 4 : ScanSeg }] }.todo = [] ∧
       { scanStart with groups := [{ seg := 5, id := 7, seq := 0, used := 4 : ScanSeg }] }.groups = [{ seg := 5, id := 7, seq := 0, used := 4 : ScanSeg }] ∧
       { scanStart with groups := [{ seg := 5, id := 7, seq := 0, used := 4 : ScanSeg }] }.judged = false) ∧
      portQuiet s ∧ (∀ (l : Line), (s.line l).profile.autoCallout = false) ∧
      readCopy 7 (Memory.readBytes s.store.memory (segAddress 5 8) 56) = some ({ (voiceMessage 7) with mailbox := some 2, length := 4, chain := [] }, true)) ∧
    (∃ s : State,
      (s.requests = [] ∧ s.store.scan = some { scanStart with groups := [{ seg := 5, id := 7, seq := 0, used := 4 : ScanSeg }] } ∧
       s.store.st = StoreSt.scanning ∧ s.store.grant = some (Grant.maint (Maint.scanRead (ScanRead.copy 5))) ∧
       { scanStart with groups := [{ seg := 5, id := 7, seq := 0, used := 4 : ScanSeg }] }.todo = [] ∧
       { scanStart with groups := [{ seg := 5, id := 7, seq := 0, used := 4 : ScanSeg }] }.groups = [{ seg := 5, id := 7, seq := 0, used := 4 : ScanSeg }] ∧
       { scanStart with groups := [{ seg := 5, id := 7, seq := 0, used := 4 : ScanSeg }] }.judged = false ∧
       ¬{ (voiceMessage 7) with mailbox := some 2, length := 0, chain := [] }.kind = MsgKind.fax ∧ 0 < 4) ∧
      portQuiet s ∧ (∀ (l : Line), (s.line l).profile.autoCallout = false) ∧
      readCopy 7 (Memory.readBytes s.store.memory (segAddress 5 8) 56) = some ({ (voiceMessage 7) with mailbox := some 2, length := 0, chain := [] }, false)) ∧
    (∃ s : State,
      (s.requests = [] ∧ s.store.scan = some { scanStart with groups := [{ seg := 5, id := 9, seq := 0, used := 4 : ScanSeg }] } ∧
       s.store.st = StoreSt.scanning ∧ s.store.grant = some (Grant.maint (Maint.scanRead (ScanRead.copy 5))) ∧
       { scanStart with groups := [{ seg := 5, id := 9, seq := 0, used := 4 : ScanSeg }] }.todo = [] ∧
       { scanStart with groups := [{ seg := 5, id := 9, seq := 0, used := 4 : ScanSeg }] }.groups = [{ seg := 5, id := 9, seq := 0, used := 4 : ScanSeg }] ∧
       { scanStart with groups := [{ seg := 5, id := 9, seq := 0, used := 4 : ScanSeg }] }.judged = false) ∧
      portQuiet s ∧ (∀ (l : Line), (s.line l).profile.autoCallout = false) ∧
      readCopy 9 (Memory.readBytes s.store.memory (segAddress 5 8) 56) = none) ∧
    (∃ s : State,
      (s.requests = [] ∧ s.store.scan = some { scanStart with judged := true } ∧ s.store.st = StoreSt.scanning ∧
       { scanStart with judged := true }.judged = true ∧ s.store.grant = some (Grant.maint (Maint.freeHeader 5 FreeFor.scan))) ∧
      portQuiet s ∧ (∀ (l : Line), (s.line l).profile.autoCallout = false)) ∧
    (∃ s : State,
      (s.requests = [] ∧ s.store.scan = some { scanStart with judged := true } ∧ s.store.st = StoreSt.scanning ∧
       { scanStart with judged := true }.judged = true ∧ s.store.grant = some (Grant.maint (Maint.copyRewrite 7)) ∧
       findEntry s 7 = some (voiceMessage 7)) ∧
      portQuiet s ∧ (∀ (l : Line), (s.line l).profile.autoCallout = false)) ∧
    (∃ s : State,
      (s.requests = [] ∧ s.store.scan = some scanStart ∧ s.store.st = StoreSt.scanning ∧
       (∃ k < (List.filter (fun (g : ScanSeg) => decide (g.id = 7)) [{ seg := 5, id := 7, seq := 0, used := 960 : ScanSeg }, { seg := 6, id := 7, seq := 2, used := 4 : ScanSeg }]).length, ∀ g ∈ List.filter (fun (g : ScanSeg) => decide (g.id = 7)) [{ seg := 5, id := 7, seq := 0, used := 960 : ScanSeg }, { seg := 6, id := 7, seq := 2, used := 4 : ScanSeg }], g.seq ≠ k)) ∧
      portQuiet s ∧ (∀ (l : Line), (s.line l).profile.autoCallout = false)) ∧
    (∃ s : State,
      (s.requests = [] ∧ s.store.scan = some scanStart ∧ s.store.st = StoreSt.scanning ∧
       (∃ g ∈ List.filter (fun (g : ScanSeg) => decide (g.id = 7)) [{ seg := 5, id := 7, seq := 0, used := 959 : ScanSeg }, { seg := 6, id := 7, seq := 1, used := 4 : ScanSeg }], g.seq + 1 < (List.filter (fun (g : ScanSeg) => decide (g.id = 7)) [{ seg := 5, id := 7, seq := 0, used := 959 : ScanSeg }, { seg := 6, id := 7, seq := 1, used := 4 : ScanSeg }]).length ∧ g.used ≠ segCapacity g.seq ∧ ∀ h ∈ List.filter (fun (g : ScanSeg) => decide (g.id = 7)) [{ seg := 5, id := 7, seq := 0, used := 959 : ScanSeg }, { seg := 6, id := 7, seq := 1, used := 4 : ScanSeg }], h.seq = g.seq → h = g)) ∧
      portQuiet s ∧ (∀ (l : Line), (s.line l).profile.autoCallout = false)) :=
  ⟨⟨pp, by decide +kernel⟩,
    ⟨pr, by decide +kernel⟩,
    ⟨(storing fun t => { t with grant := some (.maint (.freeHeader 50 (.erase 7))), dir := [{ voiceMessage 7 with state := .erasing, chain := [50] }] }), by decide +kernel, ⟨rfl, rfl, rfl, rfl, rfl, rfl⟩⟩,
    ⟨(storing fun t => { t with grant := some (.maint (.copyRewrite 7)) }), by decide +kernel, ⟨rfl, rfl, rfl, rfl, rfl, rfl⟩⟩,
    ⟨(storing fun t => { t with grant := some (.maint (.headerRewrite 7 3 0 [1#8])) }), by decide +kernel, ⟨rfl, rfl, rfl, rfl, rfl, rfl⟩⟩,
    ⟨(storing fun t => { t with grant := some (.maint (.scanRead .label)) }), by decide +kernel, ⟨rfl, rfl, rfl, rfl, rfl, rfl⟩⟩,
    ⟨(storing fun t => { t with grant := some (.maint (.freeHeader 3 (.cut 8))), writers := [cw], dir := [openMessage 8 0 (.line .A) [3]] }), by decide +kernel⟩,
    ⟨(scanning scanStart (Memory.writeBytes [] 0 (labelBytes true oneRegionTable 3)) .label), by decide +kernel, ⟨rfl, rfl, rfl, rfl, rfl, rfl⟩, by intro l; cases l <;> decide +kernel⟩,
    ⟨(scanning { scanStart with todo := [6, 7] } (Memory.writeBytes [] (segAddress 5 0) (usedHeader 7 2 4)) (.header 5)), by decide +kernel, ⟨rfl, rfl, rfl, rfl, rfl, rfl⟩, by intro l; cases l <;> decide +kernel⟩,
    ⟨(scanning { scanStart with todo := [6, 7] } (Memory.writeBytes [] (segAddress 5 0) (usedHeader 7 0 4)) (.header 5)), by decide +kernel, ⟨rfl, rfl, rfl, rfl, rfl, rfl⟩, by intro l; cases l <;> decide +kernel⟩,
    ⟨(scanning { scanStart with todo := [6, 7] } (Memory.writeBytes [] (segAddress 5 0) (freeHeader)) (.header 5)), by decide +kernel, ⟨rfl, rfl, rfl, rfl, rfl, rfl⟩, by intro l; cases l <;> decide +kernel⟩,
    ⟨(scanning { scanStart with todo := [6, 7] } (Memory.writeBytes [] (segAddress 5 0) ([1#8])) (.header 5)), by decide +kernel, ⟨rfl, rfl, rfl, rfl, rfl, rfl⟩, by intro l; cases l <;> decide +kernel⟩,
    ⟨(scanning { scanStart with groups := [⟨5, 7, 0, 4⟩] } copiedClosed (.copy 5)), by decide +kernel, ⟨rfl, rfl, rfl, rfl, rfl, rfl⟩, by intro l; cases l <;> decide +kernel, copiedClosed_reads.1⟩,
    ⟨(scanning { scanStart with groups := [⟨5, 7, 0, 4⟩] } copiedOpen (.copy 5)), by decide +kernel, ⟨rfl, rfl, rfl, rfl, rfl, rfl⟩, by intro l; cases l <;> decide +kernel, copiedOpen_reads⟩,
    ⟨(scanning { scanStart with groups := [⟨5, 9, 0, 4⟩] } copiedClosed (.copy 5)), by decide +kernel, ⟨rfl, rfl, rfl, rfl, rfl, rfl⟩, by intro l; cases l <;> decide +kernel, copiedClosed_reads.2⟩,
    ⟨{ scanning { scanStart with judged := true } [] .label with store := { (scanning { scanStart with judged := true } [] .label).store with grant := some (.maint (.freeHeader 5 .scan)) } }, by decide +kernel, ⟨rfl, rfl, rfl, rfl, rfl, rfl⟩, by intro l; cases l <;> decide +kernel⟩,
    ⟨{ scanning { scanStart with judged := true } [] .label with store := { (scanning { scanStart with judged := true } [] .label).store with dir := [voiceMessage 7], grant := some (.maint (.copyRewrite 7)) } }, by decide +kernel, ⟨rfl, rfl, rfl, rfl, rfl, rfl⟩, by intro l; cases l <;> decide +kernel⟩,
    ⟨(scanning scanStart [] .label), by decide +kernel, ⟨rfl, rfl, rfl, rfl, rfl, rfl⟩, by intro l; cases l <;> decide +kernel⟩,
    ⟨(scanning scanStart [] .label), by decide +kernel, ⟨rfl, rfl, rfl, rfl, rfl, rfl⟩, by intro l; cases l <;> decide +kernel⟩⟩

theorem witness_FaxSenderFollowsTheAnswers :
    (∃ s : State,
      s.requests = [] ∧ (s.line Line.A).fax.role = some FaxRole.sender ∧ s.st Line.A = LineSt.fax ∧
      readerOf s (Owner.line Line.A) = some unread ∧ ¬s.store.grant = none ∧ (s.line Line.A).fax.phase = some FaxPhase.setup ∧
      (s.line Line.A).fax.capsModes = none ∧ (unread.ready = false ∧ unread.buffers = [] ∧ unread.position + 16 ≤ unread.length)) ∧
    (∃ s : State,
      s.requests = [] ∧ (s.line Line.A).fax.role = some FaxRole.sender ∧ s.st Line.A = LineSt.fax ∧
      readerOf s (Owner.line Line.A) = some (reading 0 4000 [hdr] true) ∧ ¬s.store.grant = none ∧
      (s.line Line.A).fax.phase = some FaxPhase.setup ∧ (s.line Line.A).fax.capsModes = none ∧
      16 ≤ (reading 0 4000 [hdr] true).held.length ∧ (reading 0 4000 [hdr] true).position + 16 ≤ (reading 0 4000 [hdr] true).length ∧
      readPageHeader (List.take 16 (reading 0 4000 [hdr] true).held) = some (false, 5) ∧
      (sessionModes s Line.A (modeSet 24#8)).getLast? = some Mode.l96 ∧ faxRungOf s Line.A Mode.l96 = some 3) ∧
    (∃ s : State,
      s.requests = [] ∧ (s.line Line.A).fax.role = some FaxRole.sender ∧ s.st Line.A = LineSt.fax ∧
      readerOf s (Owner.line Line.A) = some unread ∧ ¬s.store.grant = none ∧ (s.line Line.A).fax.phase = some FaxPhase.check ∧
      (s.line Line.A).fax.outstanding = some (awaited (FaxMsg.set Mode.l96 false 10) 1) ∧
      (awaited (FaxMsg.set Mode.l96 false 10) 1).msg.isSet = true ∧ ¬(awaited (FaxMsg.set Mode.l96 false 10) 1).due = none ∧
      (s.line Line.A).fax.header = some (false, 0 + 1) ∧ (unread.ready = false ∧ unread.buffers = [] ∧ unread.position + 16 ≤ unread.length)) ∧
    (∃ s : State,
      s.requests = [] ∧ (s.line Line.A).fax.role = some FaxRole.sender ∧ s.st Line.A = LineSt.fax ∧
      readerOf s (Owner.line Line.A) = some unread ∧ ¬s.store.grant = none ∧ (s.line Line.A).fax.phase = some FaxPhase.check ∧
      (s.line Line.A).fax.outstanding = some (awaited (FaxMsg.set Mode.l48 false 10) 1) ∧
      (awaited (FaxMsg.set Mode.l48 false 10) 1).msg.isSet = true ∧ ¬(awaited (FaxMsg.set Mode.l48 false 10) 1).due = none ∧
      nextLowerMode (s.line Line.A).fax = none) ∧
    (∃ s : State,
      s.requests = [] ∧ (s.line Line.A).fax.role = some FaxRole.sender ∧ s.st Line.A = LineSt.fax ∧
      readerOf s (Owner.line Line.A) = some unread ∧ ¬s.store.grant = none ∧ (s.line Line.A).fax.phase = some FaxPhase.check ∧
      (s.line Line.A).fax.outstanding = some (awaited (FaxMsg.set Mode.l96 false 10) 1) ∧
      (awaited (FaxMsg.set Mode.l96 false 10) 1).msg.isSet = true ∧ ¬(awaited (FaxMsg.set Mode.l96 false 10) 1).due = none ∧
      nextLowerMode (s.line Line.A).fax = some Mode.l48 ∧ faxRungOf s Line.A Mode.l48 = some 2) ∧
    (∃ s : State,
      s.requests = [] ∧ (s.line Line.A).fax.role = some FaxRole.sender ∧ s.st Line.A = LineSt.fax ∧
      readerOf s (Owner.line Line.A) = some (reading 4000 4000 [] true) ∧ ¬s.store.grant = none ∧
      (s.line Line.A).fax.phase = some FaxPhase.page ∧ (s.line Line.A).fax.txRecord = some { bytes := [1#8], fill := 0 : TxRecord } ∧
      (s.line Line.A).fax.header = some (false, 5) ∧ 5 ≤ (s.line Line.A).fax.recordNo + 1) ∧
    (∃ s : State,
      s.requests = [] ∧ (s.line Line.A).fax.role = some FaxRole.sender ∧ s.st Line.A = LineSt.fax ∧
      readerOf s (Owner.line Line.A) = some unread ∧ ¬s.store.grant = none ∧ (s.line Line.A).fax.phase = some FaxPhase.verdict ∧
      (s.line Line.A).fax.outstanding = some (awaited (FaxMsg.pageEnd true 5) 1) ∧
      (awaited (FaxMsg.pageEnd true 5) 1).msg = FaxMsg.pageEnd true 5) ∧
    (∃ s : State,
      s.requests = [] ∧ (s.line Line.A).fax.role = some FaxRole.sender ∧ s.st Line.A = LineSt.fax ∧
      readerOf s (Owner.line Line.A) = some unread ∧ ¬s.store.grant = none ∧ (s.line Line.A).fax.phase = some FaxPhase.verdict ∧
      (s.line Line.A).fax.outstanding = some (awaited (FaxMsg.pageEnd false 5) 1) ∧
      (awaited (FaxMsg.pageEnd false 5) 1).msg = FaxMsg.pageEnd false 5 ∧
      (unread.ready = false ∧ unread.buffers = [] ∧ unread.position + 16 ≤ unread.length)) ∧
    (∃ s : State,
      s.requests = [] ∧ (s.line Line.A).fax.role = some FaxRole.sender ∧ s.st Line.A = LineSt.fax ∧
      readerOf s (Owner.line Line.A) = some unread ∧ ¬s.store.grant = none ∧ (s.line Line.A).fax.phase = some FaxPhase.verdict ∧
      (s.line Line.A).fax.outstanding = some (awaited (FaxMsg.pageEnd false 5) 1) ∧
      (awaited (FaxMsg.pageEnd false 5) 1).msg = FaxMsg.pageEnd false 5 ∧ 3 ≤ (s.line Line.A).fax.tryCount) ∧
    (∃ s : State,
      s.requests = [] ∧ (s.line Line.A).fax.role = some FaxRole.sender ∧ s.st Line.A = LineSt.fax ∧
      readerOf s (Owner.line Line.A) = some unread ∧ ¬s.store.grant = none ∧ (s.line Line.A).fax.phase = some FaxPhase.check ∧
      (s.line Line.A).fax.outstanding = some { msg := FaxMsg.set Mode.l96 false 10, sends := 1, due := none : Outstanding } ∧
      { msg := FaxMsg.set Mode.l96 false 10, sends := 1, due := none : Outstanding }.msg.isSet = true ∧
      { msg := FaxMsg.set Mode.l96 false 10, sends := 1, due := none : Outstanding }.due = none ∧
      { msg := FaxMsg.set Mode.l96 false 10, sends := 1, due := none : Outstanding }.sends ≤ 1) ∧
    (∃ s : State,
      s.requests = [] ∧ (s.line Line.A).fax.role = some FaxRole.sender ∧ s.st Line.A = LineSt.fax ∧
      readerOf s (Owner.line Line.A) = some (reading 16 4000 [[0#8, 2#8, 7#8, 8#8, 9#8]] true) ∧ ¬s.store.grant = none ∧
      (s.line Line.A).fax.phase = some FaxPhase.page ∧ (s.line Line.A).fax.txRecord = some { bytes := [1#8], fill := 0 : TxRecord } ∧
      (s.line Line.A).fax.header = some (false, 5) ∧ (s.line Line.A).fax.recordNo + 1 < 5 ∧
      (reading 16 4000 [[0#8, 2#8, 7#8, 8#8, 9#8]] true).held = [0#8, 2#8, 7#8, 8#8, 9#8] ∧ (0#8).toNat * 256 + (2#8).toNat ≤ 512 ∧
      (0#8).toNat * 256 + (2#8).toNat ≤ [7#8, 8#8, 9#8].length ∧
      (reading 16 4000 [[0#8, 2#8, 7#8, 8#8, 9#8]] true).position + (reading 16 4000 [[0#8, 2#8, 7#8, 8#8, 9#8]] true).held.length ≤ (reading 16 4000 [[0#8, 2#8, 7#8, 8#8, 9#8]] true).length) ∧
    (∃ s : State,
      (s.requests = [] ∧ (s.line Line.A).fax.role = some FaxRole.sender ∧ s.st Line.A = LineSt.fax ∧
       readerOf s (Owner.line Line.A) = some unread ∧ ¬s.store.grant = none ∧
       (s.line Line.A).fax.outstanding = some { msg := FaxMsg.bye ByeReason.done, sends := 1, due := some 3000 : Outstanding } ∧
       (s.line Line.A).fax.taken = some FaxKind.verdict ∧ 1 ≤ (1#8).toNat ∧ (1#8).toNat ≤ 3 ∧
       ¬{ msg := FaxMsg.bye ByeReason.done, sends := 1, due := some 3000 : Outstanding }.due = none) ∧
      (∃ (b : ByeReason), { msg := FaxMsg.bye ByeReason.done, sends := 1, due := some 3000 : Outstanding }.msg = FaxMsg.bye b)) ∧
    (∃ s : State,
      (s.requests = [] ∧ (s.line Line.A).fax.role = some FaxRole.sender ∧ s.st Line.A = LineSt.fax ∧
       readerOf s (Owner.line Line.A) = some unread ∧ ¬s.store.grant = none ∧
       (s.line Line.A).fax.outstanding = some { msg := FaxMsg.bye ByeReason.done, sends := 1, due := none : Outstanding } ∧
       (s.line Line.A).fax.taken = some FaxKind.verdict ∧ 1 ≤ (1#8).toNat ∧ (1#8).toNat ≤ 3 ∧
       { msg := FaxMsg.bye ByeReason.done, sends := 1, due := none : Outstanding }.due = none) ∧
      (∃ (b : ByeReason), { msg := FaxMsg.bye ByeReason.done, sends := 1, due := none : Outstanding }.msg = FaxMsg.bye b)) ∧
    (∃ s : State,
      s.requests = [] ∧ (s.line Line.A).fax.role = some FaxRole.sender ∧ s.st Line.A = LineSt.fax ∧
      readerOf s (Owner.line Line.A) = some (reading 0 4000 [pageHeader 1 false 5 0 0 Verdict.none false false false 10] true) ∧
      ¬s.store.grant = none ∧ (s.line Line.A).fax.phase = some FaxPhase.check ∧ (s.line Line.A).fax.header = none ∧
      (s.line Line.A).fax.outstanding = some (awaited (FaxMsg.set Mode.l96 true 10) 1) ∧
      (awaited (FaxMsg.set Mode.l96 true 10) 1).msg.isSet = true ∧ ¬(awaited (FaxMsg.set Mode.l96 true 10) 1).due = none ∧
      16 ≤ (reading 0 4000 [pageHeader 1 false 5 0 0 Verdict.none false false false 10] true).held.length ∧
      (reading 0 4000 [pageHeader 1 false 5 0 0 Verdict.none false false false 10] true).position + 16 ≤ (reading 0 4000 [pageHeader 1 false 5 0 0 Verdict.none false false false 10] true).length ∧
      readPageHeader (List.take 16 (reading 0 4000 [pageHeader 1 false 5 0 0 Verdict.none false false false 10] true).held) = some (false, 5) ∧
      ¬false = (s.line Line.A).fax.fine) ∧
    (∃ s : State,
      s.requests = [] ∧ (s.line Line.A).fax.role = some FaxRole.sender ∧ s.st Line.A = LineSt.fax ∧
      readerOf s (Owner.line Line.A) = some (reading 0 4000 [pageHeader 1 true 5 0 0 Verdict.none false false false 10] true) ∧
      ¬s.store.grant = none ∧ (s.line Line.A).fax.phase = some FaxPhase.check ∧ (s.line Line.A).fax.header = none ∧
      (s.line Line.A).fax.outstanding = some (awaited (FaxMsg.set Mode.l96 false 10) 1) ∧
      (awaited (FaxMsg.set Mode.l96 false 10) 1).msg.isSet = true ∧ ¬(awaited (FaxMsg.set Mode.l96 false 10) 1).due = none ∧
      16 ≤ (reading 0 4000 [pageHeader 1 true 5 0 0 Verdict.none false false false 10] true).held.length ∧
      (reading 0 4000 [pageHeader 1 true 5 0 0 Verdict.none false false false 10] true).position + 16 ≤ (reading 0 4000 [pageHeader 1 true 5 0 0 Verdict.none false false false 10] true).length ∧
      readPageHeader (List.take 16 (reading 0 4000 [pageHeader 1 true 5 0 0 Verdict.none false false false 10] true).held) = some (true, 5) ∧
      ¬true = (s.line Line.A).fax.fine) ∧
    (∃ s : State,
      s.requests = [] ∧ (s.line Line.A).fax.role = some FaxRole.sender ∧ s.st Line.A = LineSt.fax ∧
      readerOf s (Owner.line Line.A) = some (reading 0 4000 [pageHeader 1 true 5 0 0 Verdict.none false false false 10] true) ∧
      ¬s.store.grant = none ∧ (s.line Line.A).fax.phase = some FaxPhase.check ∧ (s.line Line.A).fax.header = none ∧
      (s.line Line.A).fax.outstanding = some (awaited (FaxMsg.set Mode.l96 false 10) 1) ∧
      (awaited (FaxMsg.set Mode.l96 false 10) 1).msg.isSet = true ∧ ¬(awaited (FaxMsg.set Mode.l96 false 10) 1).due = none ∧
      16 ≤ (reading 0 4000 [pageHeader 1 true 5 0 0 Verdict.none false false false 10] true).held.length ∧
      (reading 0 4000 [pageHeader 1 true 5 0 0 Verdict.none false false false 10] true).position + 16 ≤ (reading 0 4000 [pageHeader 1 true 5 0 0 Verdict.none false false false 10] true).length ∧
      readPageHeader (List.take 16 (reading 0 4000 [pageHeader 1 true 5 0 0 Verdict.none false false false 10] true).held) = some (true, 5) ∧
      ¬true = (s.line Line.A).fax.fine) :=
  ⟨⟨(faxing .sender .setup unread id), by decide +kernel⟩,
    ⟨(faxing .sender .setup (reading 0 4000 [hdr] true) id), by decide +kernel⟩,
    ⟨(faxing .sender .check unread fun f => { f with outstanding := some (awaited (.set .l96 false 10) 1), header := some (false, 1) }), by decide +kernel⟩,
    ⟨(faxing .sender .check unread fun f => { f with agreed := some .l48, outstanding := some (awaited (.set .l48 false 10) 1) }), by decide +kernel⟩,
    ⟨(faxing .sender .check unread fun f => { f with outstanding := some (awaited (.set .l96 false 10) 1) }), by decide +kernel⟩,
    ⟨(faxing .sender .page (reading 4000 4000 [] true) fun f => { f with txRecord := some ⟨[1#8], 0⟩, header := some (false, 5), recordNo := 4 }), by decide +kernel⟩,
    ⟨(vs true), by decide +kernel⟩,
    ⟨(vs false), by decide +kernel⟩,
    ⟨(vs false), by decide +kernel⟩,
    ⟨(faxing .sender .check unread fun f => { f with outstanding := some ⟨.set .l96 false 10, 1, none⟩ }), by decide +kernel⟩,
    ⟨(faxing .sender .page (reading 16 4000 [[0#8, 2#8, 7#8, 8#8, 9#8]] true) fun f => { f with txRecord := some ⟨[1#8], 0⟩, header := some (false, 5), recordNo := 0 }), by decide +kernel⟩,
    ⟨(faxing .sender .ended unread fun f => { f with taken := some .verdict, outstanding := some ⟨.bye .done, 1, some 3000⟩ }), by decide +kernel, by simp [rested]⟩,
    ⟨(faxing .sender .ended unread fun f => { f with taken := some .verdict, outstanding := some ⟨.bye .done, 1, none⟩ }), by decide +kernel, by simp [rested]⟩,
    ⟨(faxing .sender .check (reading 0 4000 [pageHeader 1 false 5 0 0 .none false false false 10] true) fun f => { f with outstanding := some (awaited (.set .l96 true 10) 1), fine := true }), by decide +kernel⟩,
    ⟨(faxing .sender .check (reading 0 4000 [pageHeader 1 true 5 0 0 .none false false false 10] true) fun f => { f with outstanding := some (awaited (.set .l96 false 10) 1), fine := false, capsFine := true }), by decide +kernel⟩,
    ⟨(faxing .sender .check (reading 0 4000 [pageHeader 1 true 5 0 0 .none false false false 10] true) fun f => { f with outstanding := some (awaited (.set .l96 false 10) 1), fine := false }), by decide +kernel⟩⟩

theorem witness_FaxReceiverChecksStoresAndJudges :
    (∃ s : State,
      s.requests = [] ∧ (s.line Line.A).fax.role = some FaxRole.receiver ∧ s.st Line.A = LineSt.fax ∧ ¬s.store.grant = none ∧
      (s.line Line.A).fax.phase = some FaxPhase.check ∧ Mode.ofCode (3#8).toNat = some Mode.l48 ∧ faxRungOf s Line.A Mode.l48 = some 2) ∧
    (∃ s : State,
      s.requests = [] ∧ (s.line Line.A).fax.role = some FaxRole.receiver ∧ s.st Line.A = LineSt.fax ∧ ¬s.store.grant = none ∧
      (s.line Line.A).fax.phase = some FaxPhase.check ∧ Mode.ofCode (8#8).toNat = none) ∧
    (∃ s : State,
      s.requests = [] ∧ (s.line Line.A).fax.role = some FaxRole.receiver ∧ s.st Line.A = LineSt.fax ∧ ¬s.store.grant = none ∧
      (s.line Line.A).fax.phase = some FaxPhase.check ∧ ¬(s.line Line.A).fax.agreed = none ∧ s.ladder[agreedRung s Line.A]? = some rg ∧
      (s.line Line.A).fax.failNext = false ∧ (s.line Line.A).fax.checkCount < 15) ∧
    (∃ s : State,
      s.requests = [] ∧ (s.line Line.A).fax.role = some FaxRole.receiver ∧ s.st Line.A = LineSt.fax ∧ ¬s.store.grant = none ∧
      (s.line Line.A).fax.phase = some FaxPhase.check ∧ ¬(s.line Line.A).fax.agreed = none ∧ s.ladder[agreedRung s Line.A]? = some rg ∧
      (s.line Line.A).fax.failNext = false ∧ 15 ≤ (s.line Line.A).fax.checkCount ∧ rg.d ≤ checkMean s Line.A) ∧
    (∃ s : State,
      s.requests = [] ∧ (s.line Line.A).fax.role = some FaxRole.receiver ∧ s.st Line.A = LineSt.fax ∧ ¬s.store.grant = none ∧
      (s.line Line.A).fax.phase = some FaxPhase.check ∧ ¬(s.line Line.A).fax.agreed = none ∧ s.ladder[agreedRung s Line.A]? = some rg ∧
      (s.line Line.A).fax.failNext = false ∧ 15 ≤ (s.line Line.A).fax.checkCount ∧ checkMean s Line.A < rg.d ∧
      ¬(s.line Line.A).fax.message = none) ∧
    (∃ s : State,
      s.requests = [] ∧ (s.line Line.A).fax.role = some FaxRole.receiver ∧ s.st Line.A = LineSt.fax ∧ ¬s.store.grant = none ∧
      (s.line Line.A).fax.phase = some FaxPhase.check ∧ ¬(s.line Line.A).fax.agreed = none ∧ s.ladder[agreedRung s Line.A]? = some rg ∧
      (s.line Line.A).fax.failNext = false ∧ 15 ≤ (s.line Line.A).fax.checkCount ∧ checkMean s Line.A < rg.d ∧
      (s.line Line.A).fax.message = none ∧ s.store.st = StoreSt.ready ∧ createRefused s = false) ∧
    (∃ s : State,
      s.requests = [] ∧ (s.line Line.A).fax.role = some FaxRole.receiver ∧ s.st Line.A = LineSt.fax ∧ ¬s.store.grant = none ∧
      (s.line Line.A).fax.phase = some FaxPhase.check ∧ ¬(s.line Line.A).fax.agreed = none ∧ s.ladder[agreedRung s Line.A]? = some rg ∧
      (s.line Line.A).fax.failNext = false ∧ 15 ≤ (s.line Line.A).fax.checkCount ∧ checkMean s Line.A < rg.d ∧
      (s.line Line.A).fax.message = none ∧ createRefused s = true) ∧
    (∃ s : State,
      s.requests = [] ∧ (s.line Line.A).fax.role = some FaxRole.receiver ∧ s.st Line.A = LineSt.fax ∧ ¬s.store.grant = none ∧
      (s.line Line.A).fax.phase = some FaxPhase.page ∧ (s.line Line.A).fax.outstanding = none ∧ (s.line Line.A).fax.pageStart = some 0 ∧
      (s.line Line.A).fax.message = some 8 ∧ findWriter s 8 = some fw ∧ fw.failed = false ∧ RecordInput.good goodRecord = true ∧
      BitVec.toNat goodRecord.length = goodRecord.data.length ∧ goodRecord.data.length ≤ 512 ∧
      BitVec.toNat goodRecord.number = (s.line Line.A).fax.expected ∧ fw.fits (roomFor s fw) (goodRecord.data.length + 2) = true) ∧
    (∃ s : State,
      s.requests = [] ∧ (s.line Line.A).fax.role = some FaxRole.receiver ∧ s.st Line.A = LineSt.fax ∧ ¬s.store.grant = none ∧
      (s.line Line.A).fax.phase = some FaxPhase.page ∧ (s.line Line.A).fax.outstanding = none ∧ (s.line Line.A).fax.pageStart = some 0 ∧
      (s.line Line.A).fax.message = some 8 ∧ findWriter s 8 = some fw ∧ fw.failed = false ∧
      RecordInput.good { goodRecord with check := 0#16 } = false ∧
      fw.fits (roomFor s fw) (((s.line Line.A).fax.prevGood.getD []).length + 2) = true) ∧
    (∃ s : State,
      s.requests = [] ∧ (s.line Line.A).fax.role = some FaxRole.receiver ∧ s.st Line.A = LineSt.fax ∧ ¬s.store.grant = none ∧
      (s.line Line.A).fax.phase = some FaxPhase.page ∧ (s.line Line.A).fax.outstanding = none ∧ (s.line Line.A).fax.pageStart = some 0 ∧
      (s.line Line.A).fax.message = some 8 ∧ findWriter s 8 = some fw ∧ fw.id = 8 ∧ fw.failed = false ∧ (100#16).toNat = (s.line Line.A).fax.placed ∧
      (s.line Line.A).fax.bad * 1000 ≤ (s.line Line.A).fax.placed * (s.line Line.A).profile.goodPerMille ∧
      (s.line Line.A).fax.longest ≤ (s.line Line.A).profile.runLimit ∧ currentRung s Line.A = some rg ∧ (s.line Line.A).modem.q < rg.d) ∧
    (∃ s : State,
      s.requests = [] ∧ (s.line Line.A).fax.role = some FaxRole.receiver ∧ s.st Line.A = LineSt.fax ∧ ¬s.store.grant = none ∧
      (s.line Line.A).fax.phase = some FaxPhase.page ∧
      (s.line Line.A).fax.outstanding = some (awaited (FaxMsg.verdict Verdict.good 5 0) 1) ∧
      (awaited (FaxMsg.verdict Verdict.good 5 0) 1).msg.isVerdict = true ∧
      (s.line Line.A).fax.lastVerdict = some (FaxMsg.verdict Verdict.good 5 0) ∧
      (s.line Line.A).fax.lastPageEnd = some (false, (5#16).toNat)) ∧
    (∃ s : State,
      s.requests = [] ∧ (s.line Line.A).fax.role = some FaxRole.receiver ∧ s.st Line.A = LineSt.fax ∧ ¬s.store.grant = none ∧
      (s.line Line.A).fax.phase = some FaxPhase.check ∧ Mode.ofCode (3#8).toNat = some Mode.l48 ∧ (0#8).toNat ≤ 1 ∧
      faxRungOf s Line.A Mode.l48 = none) ∧
    (∃ s : State,
      s.requests = [] ∧ (s.line Line.A).fax.role = some FaxRole.receiver ∧ s.st Line.A = LineSt.fax ∧ ¬s.store.grant = none ∧
      (s.line Line.A).fax.phase = some FaxPhase.check ∧ Mode.ofCode (3#8).toNat = some Mode.l48 ∧ (s.line Line.A).profile.fine = false) ∧
    (∃ s : State,
      s.requests = [] ∧ (s.line Line.A).fax.role = some FaxRole.receiver ∧ s.st Line.A = LineSt.fax ∧ ¬s.store.grant = none ∧
      (s.line Line.A).fax.phase = some FaxPhase.check ∧ Mode.ofCode (3#8).toNat = some Mode.l48 ∧ faxRungOf s Line.A Mode.l48 = some 2 ∧
      (s.line Line.A).profile.fine = true) ∧
    (∃ s : State,
      s.requests = [] ∧ (s.line Line.A).fax.role = some FaxRole.receiver ∧ s.st Line.A = LineSt.fax ∧ ¬s.store.grant = none ∧
      (s.line Line.A).fax.phase = some FaxPhase.page ∧ (s.line Line.A).fax.outstanding = none ∧ (s.line Line.A).fax.pageStart = some 0 ∧
      (s.line Line.A).fax.message = some 8 ∧ findWriter s 8 = some fw ∧ fw.id = 8 ∧ fw.failed = false ∧ (100#16).toNat = (s.line Line.A).fax.placed ∧
      currentRung s Line.A = some rg ∧
      (¬((s.line Line.A).fax.bad * 1000 ≤ (s.line Line.A).fax.placed * (s.line Line.A).profile.goodPerMille ∧ (s.line Line.A).fax.longest ≤ (s.line Line.A).profile.runLimit) ∧ (s.line Line.A).fax.bad * 1000 ≤ (s.line Line.A).fax.placed * (s.line Line.A).profile.retrainPerMille ∧ (s.line Line.A).fax.longest ≤ 2 * (s.line Line.A).profile.runLimit)) ∧
    (∃ s : State,
      s.requests = [] ∧ (s.line Line.A).fax.role = some FaxRole.receiver ∧ s.st Line.A = LineSt.fax ∧ ¬s.store.grant = none ∧
      (s.line Line.A).fax.phase = some FaxPhase.page ∧ (s.line Line.A).fax.outstanding = none ∧ (s.line Line.A).fax.pageStart = some 0 ∧
      (s.line Line.A).fax.message = some 8 ∧ findWriter s 8 = some fw ∧ fw.id = 8 ∧ fw.failed = false ∧ (100#16).toNat = (s.line Line.A).fax.placed ∧
      currentRung s Line.A = some rg ∧
      (((s.line Line.A).fax.bad * 1000 ≤ (s.line Line.A).fax.placed * (s.line Line.A).profile.goodPerMille ∧ (s.line Line.A).fax.longest ≤ (s.line Line.A).profile.runLimit) ∧ rg.d ≤ (s.line Line.A).modem.q)) ∧
    (∃ s : State,
      s.requests = [] ∧ (s.line Line.A).fax.role = some FaxRole.receiver ∧ s.st Line.A = LineSt.fax ∧ ¬s.store.grant = none ∧
      (s.line Line.A).fax.phase = some FaxPhase.page ∧ (s.line Line.A).fax.outstanding = none ∧ (s.line Line.A).fax.pageStart = some 0 ∧
      (s.line Line.A).fax.message = some 8 ∧ findWriter s 8 = some fw ∧ fw.id = 8 ∧ fw.failed = false ∧ (100#16).toNat = (s.line Line.A).fax.placed ∧
      currentRung s Line.A = some rg ∧
      (¬((s.line Line.A).fax.bad * 1000 ≤ (s.line Line.A).fax.placed * (s.line Line.A).profile.goodPerMille ∧ (s.line Line.A).fax.longest ≤ (s.line Line.A).profile.runLimit)) ∧
      (¬((s.line Line.A).fax.bad * 1000 ≤ (s.line Line.A).fax.placed * (s.line Line.A).profile.retrainPerMille ∧ (s.line Line.A).fax.longest ≤ 2 * (s.line Line.A).profile.runLimit)) ∧
      findEntry s 8 = some (openMessage 8 16 (Owner.line Line.A) []) ∧ (openMessage 8 16 (Owner.line Line.A) []).id = 8 ∧
      fw.owner = Owner.line Line.A ∧ fw.active = true ∧ fw.granted = false ∧ fw.handed = none ∧ fw.seg = none ∧ fw.inStore = 0 ∧
      fw.cut = CutState.none ∧ fw.closing = none ∧ fw.base = segStart fw.seq ∧ fw.base ≤ 0 ∧ 0 < segStart (fw.seq + 1) ∧
      (∀ i < (openMessage 8 16 (Owner.line Line.A) []).chain.length, segStart i < 0)) ∧
    (∃ s : State,
      s.requests = [] ∧ (s.line Line.A).fax.role = some FaxRole.receiver ∧ s.st Line.A = LineSt.fax ∧ ¬s.store.grant = none ∧
      (s.line Line.A).fax.phase = some FaxPhase.page ∧
      (s.line Line.A).fax.outstanding = some (awaited (FaxMsg.verdict Verdict.good 5 0) 1) ∧
      (awaited (FaxMsg.verdict Verdict.good 5 0) 1).msg.isVerdict = true ∧ (s.line Line.A).fax.lastPageEnd ≠ some (true, (0#16).toNat) ∧
      (0#16).toNat = 0 ∧ (s.line Line.A).fax.placed = 0 ∧ (s.line Line.A).fax.bad = 0 ∧ (s.line Line.A).fax.longest = 0 ∧
      (s.line Line.A).fax.pageStart = none ∧ (s.line Line.A).fax.message = some 8 ∧ findWriter s 8 = some fw ∧ fw.id = 8 ∧
      fw.failed = false ∧ findEntry s 8 = some (openMessage 8 16 (Owner.line Line.A) []) ∧
      (openMessage 8 16 (Owner.line Line.A) []).id = 8 ∧ fw.mayFill (roomFor s fw) = true ∧
      fw.filling.length + 16 < fw.fillCapacity ∧ currentRung s Line.A = some rg) :=
  ⟨⟨(receiving .check id), by decide +kernel⟩,
    ⟨(receiving .check id), by decide +kernel⟩,
    ⟨(receiving .check fun f => { f with checkCount := 14 }), by decide +kernel⟩,
    ⟨(receiving .check fun f => { f with checkCount := 15, checkGood := 15, checkSum := 3000 }), by decide +kernel⟩,
    ⟨(receiving .check fun f => { f with checkCount := 15, checkGood := 15, checkSum := 2999 }), by decide +kernel⟩,
    ⟨(receiving .check fun f => { f with checkCount := 15, checkGood := 15, checkSum := 2999, message := none }), by decide +kernel⟩,
    ⟨fullR, by decide +kernel⟩,
    ⟨(receiving .page id), by decide +kernel⟩,
    ⟨(receiving .page fun f => { f with prevGood := some [1#8], run := 3, longest := 3 }), by decide +kernel⟩,
    ⟨(receiving .page fun f => { f with placed := 100, bad := 1, longest := 1 }), by decide +kernel⟩,
    ⟨(receiving .page fun f => { f with outstanding := some (awaited (.verdict .good 5 0) 1), lastVerdict := some (.verdict .good 5 0), lastPageEnd := some (false, 5) }), by decide +kernel⟩,
    ⟨(receiving .check fun f => { f with rungs := [3, 4] }), by decide +kernel⟩,
    ⟨(modProfile .A (fun p => { p with fine := false }) (receiving .check id)), by decide +kernel⟩,
    ⟨(receiving .check id), by decide +kernel⟩,
    ⟨(receiving .page fun f => { f with placed := 100, bad := 2, longest := 2 }), by decide +kernel⟩,
    ⟨(modModem .A (fun m => { m with q := 200 }) (receiving .page fun f => { f with placed := 100, bad := 1, longest := 1 })), by decide +kernel⟩,
    ⟨(receiving .page fun f => { f with placed := 100, bad := 6, longest := 2 }), by decide +kernel⟩,
    ⟨nextPageDue, by decide +kernel⟩⟩

theorem witness_FaxControlMessagesAreAnsweredOrRepeated :
    (∃ s : State,
      (s.requests = [] ∧ s.st Line.A = LineSt.fax ∧ ¬(s.line Line.A).fax.role = none ∧ (s.line Line.A).fax.outQueue = [FaxMsg.checkOk] ∧
       (s.line Line.A).fax.outstanding = some { msg := FaxMsg.checkOk, sends := 1, due := none : Outstanding } ∧
       { msg := FaxMsg.checkOk, sends := 1, due := none : Outstanding }.msg = FaxMsg.checkOk) ∧
      (∀ (v : Verdict) (n b : ℕ), FaxMsg.checkOk ≠ FaxMsg.verdict v n b) ∧ (∀ (b : ByeReason), FaxMsg.checkOk ≠ FaxMsg.bye b)) ∧
    (∃ s : State,
      s.requests = [] ∧ s.st Line.A = LineSt.fax ∧ ¬(s.line Line.A).fax.role = none ∧
      (s.line Line.A).fax.outQueue = [FaxMsg.verdict Verdict.good 5 0] ∧
      (s.line Line.A).fax.outstanding = some { msg := FaxMsg.verdict Verdict.good 5 0, sends := 1, due := none : Outstanding } ∧
      { msg := FaxMsg.verdict Verdict.good 5 0, sends := 1, due := none : Outstanding }.msg = FaxMsg.verdict Verdict.good 5 0 ∧
      (s.line Line.A).fax.phase = some FaxPhase.verdict ∧ (s.line Line.A).fax.afterCut = none) ∧
    (∃ s : State,
      s.requests = [] ∧ s.st Line.A = LineSt.fax ∧ ¬(s.line Line.A).fax.role = none ∧
      (s.line Line.A).fax.outstanding = some (awaited FaxMsg.checkOk 3) ∧ (awaited FaxMsg.checkOk 3).due = some 3000 ∧
      (awaited FaxMsg.checkOk 3).sends < 4) ∧
    (∃ s : State,
      s.requests = [] ∧ s.st Line.A = LineSt.fax ∧ ¬(s.line Line.A).fax.role = none ∧ ByeReason.ofCode (5#8).toNat = some ByeReason.failed ∧
      (s.line Line.A).fax.byeSent = none ∧ (s.line Line.A).fax.byeAnswer = none ∧ ¬ByeReason.failed = ByeReason.done) ∧
    (∃ s : State,
      s.requests = [] ∧ s.st Line.A = LineSt.fax ∧ ¬(s.line Line.A).fax.role = none ∧ readerOf s (Owner.line Line.A) = none ∧
      (∀ w ∈ s.store.writers, w.owner ≠ Owner.line Line.A) ∧ (s.line Line.A).iface.tone = none ∧ (s.line Line.A).voice.sub = none ∧
      (s.line Line.A).call.cr.job = none ∧ (s.line Line.A).call.refHeld = false ∧ (s.line Line.A).fax.capsDue ≠ none) ∧
    (∃ s : State,
      (s.requests = [] ∧ s.st Line.A = LineSt.fax ∧ ¬(s.line Line.A).fax.role = none ∧ readerOf s (Owner.line Line.A) = none ∧
       (∀ w ∈ s.store.writers, w.owner ≠ Owner.line Line.A) ∧ (s.line Line.A).iface.tone = none ∧ (s.line Line.A).voice.sub = none ∧
       (s.line Line.A).call.cr.job = none ∧ (s.line Line.A).call.refHeld = false) ∧
      (∃ (o : Outstanding) (due : ℕ), Instr.answerTimerExpiry Line.A = Instr.answerTimerExpiry Line.A ∧ (s.line Line.A).fax.outstanding = some o ∧ o.due = some due ∧ 4 ≤ o.sends ∧ (∀ (r : ByeReason), o.msg ≠ FaxMsg.bye r) ∧ ReleaseReason.faxFail = ReleaseReason.faxFail)) ∧
    (∃ s : State,
      (s.requests = [] ∧ s.st Line.A = LineSt.fax ∧ ¬(s.line Line.A).fax.role = none ∧ readerOf s (Owner.line Line.A) = none ∧
       (∀ w ∈ s.store.writers, w.owner ≠ Owner.line Line.A) ∧ (s.line Line.A).iface.tone = none ∧ (s.line Line.A).voice.sub = none ∧
       (s.line Line.A).call.cr.job = none ∧ (s.line Line.A).call.refHeld = false) ∧
      (∃ (b : Byte) (r : ByeReason) (own : ByeReason), Instr.bye Line.A 0#8 = Instr.bye Line.A b ∧ ByeReason.ofCode (BitVec.toNat b) = some r ∧ (s.line Line.A).fax.byeAnswer = none ∧ (s.line Line.A).fax.byeSent = some own ∧ ReleaseReason.faxDone = byeRelease own (s.line Line.A).fax.fullEnded)) ∧
    (∃ s : State,
      (s.requests = [] ∧ s.st Line.A = LineSt.fax ∧ ¬(s.line Line.A).fax.role = none ∧ readerOf s (Owner.line Line.A) = none ∧
       (∀ w ∈ s.store.writers, w.owner ≠ Owner.line Line.A) ∧ (s.line Line.A).iface.tone = none ∧ (s.line Line.A).voice.sub = none ∧
       (s.line Line.A).call.cr.job = none ∧ (s.line Line.A).call.refHeld = false) ∧
      (∃ (r : ByeReason) (rest : List FaxMsg), Instr.controlMessageSent Line.A = Instr.controlMessageSent Line.A ∧ (s.line Line.A).fax.outQueue = FaxMsg.bye r :: rest ∧ (s.line Line.A).fax.byeAnswer = some r ∧ ReleaseReason.faxDone = byeAnswerRelease r)) ∧
    (∃ s : State,
      s.requests = [] ∧ s.st Line.A = LineSt.fax ∧ ¬(s.line Line.A).fax.role = none ∧
      (s.line Line.A).fax.outQueue = FaxMsg.verdict .bad 5 2 :: [FaxMsg.checkFail] ∧ [FaxMsg.checkFail].any FaxMsg.isVerdict = false ∧
      (s.line Line.A).fax.outstanding = some ⟨FaxMsg.verdict .bad 5 2, 1, none⟩ ∧ (s.line Line.A).fax.phase = some .verdict ∧ (s.line Line.A).fax.afterCut = none) ∧
    (∃ s : State,
      s.requests = [] ∧ s.st Line.A = LineSt.fax ∧ ¬(s.line Line.A).fax.role = none ∧
      (s.line Line.A).fax.outQueue = FaxMsg.verdict .good 5 0 :: [FaxMsg.verdict .retrainGood 6 1] ∧ [FaxMsg.verdict .retrainGood 6 1].any FaxMsg.isVerdict = true ∧ (s.line Line.A).fax.phase = some .verdict) ∧
    (∃ s : State,
      s.requests = [] ∧ s.st Line.A = LineSt.fax ∧ ¬(s.line Line.A).fax.role = none ∧
      (s.line Line.A).fax.outQueue = FaxMsg.verdict .good 5 0 :: [] ∧ (s.line Line.A).fax.afterCut ≠ none ∧ (s.line Line.A).fax.phase = some .verdict ∧ (s.line Line.A).fax.outstanding = none) :=
  ⟨⟨(session .receiver fun f => { f with outQueue := [.checkOk], outstanding := some ⟨.checkOk, 1, none⟩ }), by decide +kernel, by intro b; simp, by intro l; cases l <;> decide +kernel⟩,
    ⟨(session .receiver fun f => { f with phase := some .verdict, outQueue := [.verdict .good 5 0], outstanding := some ⟨.verdict .good 5 0, 1, none⟩ }), by decide +kernel⟩,
    ⟨(session .receiver fun f => { f with outstanding := some (awaited .checkOk 3) }), by decide +kernel⟩,
    ⟨(session .receiver fun f => { f with outQueue := [.checkOk, .checkFail] }), by decide +kernel⟩,
    ⟨(session .sender fun f => { f with capsDue := some 13000 }), by decide +kernel⟩,
    ⟨(session .receiver fun f => { f with outstanding := some (awaited .checkOk 4) }), by decide +kernel, ⟨_, _, rfl, rfl, rfl, by decide, by simp [awaited], rfl⟩⟩,
    ⟨(session .sender fun f => { f with byeSent := some .done, outstanding := some (awaited (.bye .done) 1) }), by decide +kernel, ⟨0#8, .done, .done, rfl, rfl, rfl, rfl, rfl⟩⟩,
    ⟨(session .receiver fun f => { f with byeAnswer := some .done, outQueue := [.bye .done] }), by decide +kernel, ⟨.done, [], rfl, rfl, rfl, rfl⟩⟩,
    ⟨(session .receiver fun f => { f with phase := some .verdict, outQueue := [.verdict .bad 5 2, .checkFail], outstanding := some ⟨.verdict .bad 5 2, 1, none⟩ }), by decide +kernel⟩,
    ⟨(session .receiver fun f => { f with phase := some .verdict, outQueue := [.verdict .good 5 0, .verdict .retrainGood 6 1], outstanding := some ⟨.verdict .retrainGood 6 1, 1, none⟩ }), by decide +kernel⟩,
    ⟨(session .receiver fun f => { f with phase := some .verdict, outQueue := [.verdict .good 5 0], afterCut := some (.verdictBad 5 2) }), by decide +kernel⟩⟩

/-- A repeat of the last page's VERDICT (GOOD) that goes out while a BAD page is cut leaves the receiver in VERDICT, its cut going on
(R160, R169). -/
theorem test_earlier_verdict_keeps_the_phase : answers
    (exec (.controlMessageSent .A) (session .receiver fun f => { f with
      phase := some .verdict, outQueue := [.verdict .good 5 0], afterCut := some (.verdictBad 5 2) }))
    (fun t => t.lineA.fax.phase = some .verdict ∧ t.lineA.fax.afterCut = some (.verdictBad 5 2) ∧ t.lineA.fax.outQueue = []) = true := by
  decide +kernel

theorem witness_MailboxAndMailclearAct :
    (∃ s : State,
      s.requests = [] ∧ s.mailboxes.length = 8 ∧ 7 < (8#8).toNat) ∧
    (∃ s : State,
      s.requests = [] ∧ s.mailboxes.length = 8 ∧ s.mailboxes[(7#8).toNat]? = some (defaultMailbox 7) ∧ onOff (1#8).toNat = some true ∧
      1 ≤ [49#8].length ∧ [49#8].length ≤ 4 ∧ [49#8].all isDtmfChar = true ∧ ¬7#16 = 0#16 ∧ ¬s.store.st = StoreSt.ready) ∧
    (∃ s : State,
      s.requests = [] ∧ s.mailboxes.length = 8 ∧ s.mailboxes[(7#8).toNat]? = some (defaultMailbox 7) ∧ onOff (1#8).toNat = some true ∧
      1 ≤ [49#8].length ∧ [49#8].length ≤ 4 ∧ [49#8].all isDtmfChar = true ∧ ¬8#16 = 0#16 ∧ s.store.st = StoreSt.ready ∧
      findEntry s (8#16).toNat = none) ∧
    (∃ s : State,
      s.requests = [] ∧ s.mailboxes.length = 8 ∧ s.mailboxes[(7#8).toNat]? = some (defaultMailbox 7) ∧ onOff (0#8).toNat = some false ∧
      1 ≤ [49#8, 35#8, 42#8, 68#8].length ∧ [49#8, 35#8, 42#8, 68#8].length ≤ 4 ∧ [49#8, 35#8, 42#8, 68#8].all isDtmfChar = true ∧
      (defaultMailbox 7).greeting = none) ∧
    (∃ s : State,
      s.requests = [] ∧ s.mailboxes.length = 8) ∧
    (∃ s : State,
      (s.requests = [] ∧ s.mailboxes.length = 8 ∧ onOff (1#8).toNat = some true ∧ [49#8].all isDtmfChar = true ∧
       s.store.st = StoreSt.ready) ∧ (∃ e, findEntry s 7 = some e ∧ playable e = true ∧ e.erasePending = true)) ∧
    (∃ s : State,
      (s.requests = [] ∧ s.mailboxes.length = 8 ∧ onOff (1#8).toNat = some true ∧ [49#8].all isDtmfChar = true ∧
       s.store.st = StoreSt.ready) ∧ (∃ e, findEntry s 7 = some e ∧ playable e = true ∧ e.inUse = 255)) ∧
    (∃ s : State,
      (s.requests = [] ∧ s.mailboxes.length = 8 ∧ onOff (1#8).toNat = some true ∧ [49#8].all isDtmfChar = true ∧
       (s.mailboxes[7]?).map (·.greeting) = some (some 7) ∧ s.store.st = StoreSt.ready) ∧
      (∃ e, findEntry s 7 = some e ∧ playable e = true ∧ e.erasePending = false ∧ e.inUse < 255)) ∧
    (∃ s : State,
      (s.requests = [] ∧ s.mailboxes.length = 8 ∧ onOff (1#8).toNat = some true ∧ [49#8].all isDtmfChar = true ∧
       (s.mailboxes[7]?).map (·.greeting) = some none ∧ s.store.st = StoreSt.ready ∧ ¬s.store.grant = none) ∧
      (∃ e, findEntry s 7 = some e ∧ playable e = true ∧ e.erasePending = false ∧ e.inUse < 255)) ∧
    (∃ s : State,
      (s.requests = [] ∧ s.mailboxes.length = 8 ∧ onOff (1#8).toNat = some true ∧ [49#8].all isDtmfChar = true ∧
       (s.mailboxes[7]?).map (·.greeting) = some (some 7) ∧ s.store.st = StoreSt.ready ∧ ¬s.store.grant = none) ∧
      (∃ e, findEntry s 7 = some e ∧ 1 ≤ e.inUse ∧ e.erasePending = false) ∧
      (∃ e, findEntry s 9 = some e ∧ playable e = true ∧ e.erasePending = false ∧ e.inUse < 255)) ∧
    (∃ s : State,
      (s.requests = [] ∧ s.mailboxes.length = 8 ∧ onOff (1#8).toNat = some true ∧ [49#8].all isDtmfChar = true ∧
       (s.mailboxes[7]?).map (·.greeting) = some (some 7) ∧ ¬s.store.grant = none) ∧
      (∃ e, findEntry s 7 = some e ∧ 2 ≤ e.inUse ∧ e.erasePending = true)) :=
  ⟨⟨plain, by decide +kernel⟩,
    ⟨(storing fun t => { t with st := .scanning }), by decide +kernel⟩,
    ⟨stored, by decide +kernel⟩,
    ⟨stored, by decide +kernel⟩,
    ⟨{ stored with mailboxes := stored.mailboxes.map fun m => { m with isNew := true } }, by decide +kernel⟩,
    ⟨(greeted none fun t => { t with dir := [{ voiceMessage 7 with inUse := 1, erasePending := true }] }), by decide +kernel, _, rfl, by decide⟩,
    ⟨(greeted none fun t => { t with dir := [{ voiceMessage 7 with inUse := 255 }] }), by decide +kernel, _, rfl, by decide⟩,
    ⟨(greeted (some 7) fun t => { t with dir := [{ voiceMessage 7 with inUse := 1 }] }), by decide +kernel, _, rfl, by decide⟩,
    ⟨(greeted none id), by decide +kernel, _, rfl, by decide⟩,
    ⟨(greeted (some 7) fun t => { t with dir := [{ voiceMessage 7 with inUse := 1 }, voiceMessage 9] }), by decide +kernel, ⟨_, rfl, by decide⟩, _, rfl, by decide⟩,
    ⟨(greeted (some 7) fun t => { t with dir := [{ voiceMessage 7 with inUse := 2, erasePending := true }] }), by decide +kernel, _, rfl, by decide⟩⟩

theorem witness_PlaybackStartsAndEnds :
    (∃ s : State,
      s.requests = [] ∧ ¬s.store.grant = none ∧ (s.line Line.A).iface.expecting = false ∧
      ¬(s.line Line.A).voice.kind = some VoiceKind.delivery ∧ lineOf 3#8 = none) ∧
    (∃ s : State,
      s.requests = [] ∧ ¬s.store.grant = none ∧ (s.line Line.A).iface.expecting = false ∧
      ¬(s.line Line.A).voice.kind = some VoiceKind.delivery ∧ 1#8 = lineByte Line.A ∧ ¬s.st Line.A = LineSt.voice) ∧
    (∃ s : State,
      s.requests = [] ∧ ¬s.store.grant = none ∧ (s.line Line.A).iface.expecting = false ∧
      ¬(s.line Line.A).voice.kind = some VoiceKind.delivery ∧ 1#8 = lineByte Line.A ∧ s.st Line.A = LineSt.voice ∧
      ¬(s.line Line.A).voice.sub = some VoiceSub.waiting) ∧
    (∃ s : State,
      s.requests = [] ∧ ¬s.store.grant = none ∧ (s.line Line.A).iface.expecting = false ∧
      ¬(s.line Line.A).voice.kind = some VoiceKind.delivery ∧ 1#8 = lineByte Line.A ∧ s.st Line.A = LineSt.voice ∧
      (s.line Line.A).voice.sub = some VoiceSub.waiting ∧ ¬s.store.st = StoreSt.ready) ∧
    (∃ s : State,
      s.requests = [] ∧ ¬s.store.grant = none ∧ (s.line Line.A).iface.expecting = false ∧
      ¬(s.line Line.A).voice.kind = some VoiceKind.delivery ∧ 1#8 = lineByte Line.A ∧ s.st Line.A = LineSt.voice ∧
      (s.line Line.A).voice.sub = some VoiceSub.waiting ∧ s.store.st = StoreSt.ready ∧ findEntry s (6#16).toNat = none) ∧
    (∃ s : State,
      s.requests = [] ∧ ¬s.store.grant = none ∧ (s.line Line.A).iface.expecting = false ∧
      ¬(s.line Line.A).voice.kind = some VoiceKind.delivery ∧ 1#8 = lineByte Line.A ∧ s.st Line.A = LineSt.voice ∧
      (s.line Line.A).voice.sub = some VoiceSub.waiting ∧ s.store.st = StoreSt.ready ∧
      findEntry s (8#16).toNat = some { vm with id := 8, kind := MsgKind.fax } ∧
      { vm with id := 8, kind := MsgKind.fax }.id = (8#16).toNat ∧ playable { vm with id := 8, kind := MsgKind.fax } = false) ∧
    (∃ s : State,
      s.requests = [] ∧ ¬s.store.grant = none ∧ (s.line Line.A).iface.expecting = false ∧
      ¬(s.line Line.A).voice.kind = some VoiceKind.delivery ∧ 1#8 = lineByte Line.A ∧ s.st Line.A = LineSt.voice ∧
      (s.line Line.A).voice.sub = some VoiceSub.waiting ∧ s.store.st = StoreSt.ready ∧ findEntry s (7#16).toNat = some vm ∧
      vm.id = (7#16).toNat ∧ playable vm = true ∧ vm.inUse < 255 ∧ vm.erasePending = false ∧ vm.length < (4001#32).toNat) ∧
    (∃ s : State,
      s.requests = [] ∧ ¬s.store.grant = none ∧ (s.line Line.A).iface.expecting = false ∧
      ¬(s.line Line.A).voice.kind = some VoiceKind.delivery ∧ 1#8 = lineByte Line.A ∧ s.st Line.A = LineSt.voice ∧
      (s.line Line.A).voice.sub = some VoiceSub.waiting ∧ s.store.st = StoreSt.ready ∧ findEntry s (7#16).toNat = some vm ∧
      vm.id = (7#16).toNat ∧ playable vm = true ∧ vm.inUse < 255 ∧ vm.erasePending = false ∧ (3999#32).toNat < vm.length) ∧
    (∃ s : State,
      s.requests = [] ∧ ¬s.store.grant = none ∧ (s.line Line.A).iface.expecting = false ∧
      ¬(s.line Line.A).voice.kind = some VoiceKind.delivery ∧ 1#8 = lineByte Line.A ∧ (s.line Line.A).voice.sub = some VoiceSub.beep) ∧
    (∃ s : State,
      s.requests = [] ∧ ¬s.store.grant = none ∧ (s.line Line.A).iface.expecting = false ∧
      ¬(s.line Line.A).voice.kind = some VoiceKind.delivery ∧ 1#8 = lineByte Line.A ∧ (s.line Line.A).voice.sub = some VoiceSub.waiting) ∧
    (∃ s : State,
      s.requests = [] ∧ ¬s.store.grant = none ∧ (s.line Line.A).iface.expecting = false ∧
      ¬(s.line Line.A).voice.kind = some VoiceKind.delivery ∧ s.st Line.A = LineSt.voice ∧
      readerOf s (Owner.line Line.A) = some (reading 100 4000 [] true) ∧
      findEntry s (reading 100 4000 [] true).id = some { vm with inUse := 1 } ∧ { vm with inUse := 1 }.id = (reading 100 4000 [] true).id ∧
      { vm with inUse := 1 }.erasePending = false ∧ 1#8 = lineByte Line.A ∧ (s.line Line.A).voice.sub = some VoiceSub.paused) ∧
    (∃ s : State,
      s.requests = [] ∧ ¬s.store.grant = none ∧ (s.line Line.A).iface.expecting = false ∧
      ¬(s.line Line.A).voice.kind = some VoiceKind.delivery ∧ s.st Line.A = LineSt.voice ∧ readerOf s (Owner.line Line.A) = some lastR ∧
      findEntry s lastR.id = some { vm with inUse := 1 } ∧ { vm with inUse := 1 }.id = lastR.id ∧
      { vm with inUse := 1 }.erasePending = false ∧ (s.line Line.A).voice.sub = some VoiceSub.playing ∧ lastR.position < lastR.length ∧
      lastR.length - lastR.position ≤ blockBytes (s.line Line.A).voice.coding ∧ lastR.held.length = lastR.length - lastR.position) ∧
    (∃ s : State,
      ¬s.store.grant = none ∧ s.st Line.A = LineSt.voice ∧ (s.line Line.A).iface.expecting = false ∧
      readerOf s (Owner.line Line.A) = some (reading 100 60000 [] true) ∧
      findEntry s (reading 100 60000 [] true).id = some { vm with inUse := 1 } ∧
      { vm with inUse := 1 }.id = (reading 100 60000 [] true).id ∧ { vm with inUse := 1 }.erasePending = false ∧
      ¬(s.line Line.A).voice.sub = some VoiceSub.playing ∧ ¬(s.line Line.A).voice.sub = some VoiceSub.paused) ∧
    (∃ s : State,
      ¬s.store.grant = none ∧ s.st Line.A = LineSt.voice ∧ (s.line Line.A).iface.expecting = false ∧
      readerOf s (Owner.line Line.A) = some (reading 100 60000 [] true) ∧
      findEntry s (reading 100 60000 [] true).id = some { vm with inUse := 1 } ∧
      { vm with inUse := 1 }.id = (reading 100 60000 [] true).id ∧ { vm with inUse := 1 }.erasePending = false ∧
      (s.line Line.A).voice.sub = some VoiceSub.playing) ∧
    (∃ s : State,
      ¬s.store.grant = none ∧ s.st Line.A = LineSt.voice ∧ (s.line Line.A).iface.expecting = false ∧
      readerOf s (Owner.line Line.A) = some (reading 100 60000 [] true) ∧
      findEntry s (reading 100 60000 [] true).id = some { vm with inUse := 1 } ∧
      { vm with inUse := 1 }.id = (reading 100 60000 [] true).id ∧ { vm with inUse := 1 }.erasePending = false ∧
      (s.line Line.A).voice.sub = some VoiceSub.playing) ∧
    (∃ s : State,
      ¬s.store.grant = none ∧ s.st Line.A = LineSt.voice ∧ (s.line Line.A).iface.expecting = false ∧
      readerOf s (Owner.line Line.A) = some (reading 100 60000 [] true) ∧
      findEntry s (reading 100 60000 [] true).id = some { vm with inUse := 1 } ∧
      { vm with inUse := 1 }.id = (reading 100 60000 [] true).id ∧ { vm with inUse := 1 }.erasePending = false ∧
      (s.line Line.A).voice.sub = some VoiceSub.paused ∧
      (((s.line Line.A).voice.position + if (s.line Line.A).voice.coding = Coding.adc2 then 10000 else 20000) < (reading 100 60000 [] true).length)) ∧
    (∃ s : State,
      ¬s.store.grant = none ∧ s.st Line.A = LineSt.voice ∧ (s.line Line.A).iface.expecting = false ∧
      readerOf s (Owner.line Line.A) = some (reading 100 60000 [] true) ∧
      findEntry s (reading 100 60000 [] true).id = some { vm with inUse := 1 } ∧
      { vm with inUse := 1 }.id = (reading 100 60000 [] true).id ∧ { vm with inUse := 1 }.erasePending = false ∧
      (s.line Line.A).voice.sub = some VoiceSub.paused ∧
      ((reading 100 60000 [] true).length ≤ (s.line Line.A).voice.position + if (s.line Line.A).voice.coding = Coding.adc2 then 10000 else 20000)) ∧
    (∃ s : State,
      ¬s.store.grant = none ∧ s.st Line.A = LineSt.voice ∧ (s.line Line.A).iface.expecting = false ∧
      readerOf s (Owner.line Line.A) = some (reading 100 60000 [] true) ∧
      findEntry s (reading 100 60000 [] true).id = some { vm with inUse := 1 } ∧
      { vm with inUse := 1 }.id = (reading 100 60000 [] true).id ∧ { vm with inUse := 1 }.erasePending = false ∧
      (s.line Line.A).voice.sub = some VoiceSub.paused) :=
  ⟨⟨(voicing (some .waiting) id none), by decide +kernel⟩,
    ⟨busyPort, by decide +kernel⟩,
    ⟨(voicing (some .beep) id none), by decide +kernel⟩,
    ⟨(modStore (fun t => { t with st := .scanning }) (voicing (some .waiting) id none)), by decide +kernel⟩,
    ⟨(voicing (some .waiting) id none), by decide +kernel⟩,
    ⟨(modStore (fun t => { t with dir := [{ vm with id := 8, kind := .fax }] }) (voicing (some .waiting) id none)), by decide +kernel⟩,
    ⟨(voicing (some .waiting) id none), by decide +kernel⟩,
    ⟨(voicing (some .waiting) id none), by decide +kernel⟩,
    ⟨(voicing (some .beep) id none), by decide +kernel⟩,
    ⟨(voicing (some .waiting) id none), by decide +kernel⟩,
    ⟨(voicing (some .paused) (fun v => { v with kind := some .host, position := 100 }) (some (reading 100 4000 [] true))), by decide +kernel⟩,
    ⟨(voicing (some .playing) (fun v => { v with kind := some .host, coding := .adc4, position := 3960 }) (some lastR)), by decide +kernel⟩,
    ⟨(voicing (some .waiting) id (some (reading 100 60000 [] true))), by decide +kernel⟩,
    ⟨(playing .playing .delivery 100), by decide +kernel⟩,
    ⟨(playing .playing .host 100), by decide +kernel⟩,
    ⟨(playing .paused .host 39999), by decide +kernel⟩,
    ⟨(playing .paused .host 40000), by decide +kernel⟩,
    ⟨(playing .paused .host 100), by decide +kernel⟩⟩

theorem witness_RecordingBeginsWithItsMessage :
    (∃ s : State,
      s.requests = [] ∧ (s.line Line.A).iface.tone = none ∧ (s.line Line.A).iface.expecting = false ∧ (7 < (8#8).toNat ∧ 8#8 ≠ 255#8)) ∧
    (∃ s : State,
      s.requests = [] ∧ (s.line Line.A).iface.tone = none ∧ (s.line Line.A).iface.expecting = false ∧ 1#8 = lineByte Line.A ∧
      mailboxOf 7#8 = some (some 7) ∧ Coding.ofCode (0#8).toNat = some Coding.none ∧ onOff (0#8).toNat = some false ∧
      ¬s.st Line.A = LineSt.voice) ∧
    (∃ s : State,
      s.requests = [] ∧ (s.line Line.A).iface.tone = none ∧ (s.line Line.A).iface.expecting = false ∧ 1#8 = lineByte Line.A ∧
      mailboxOf 7#8 = some (some 7) ∧ Coding.ofCode (0#8).toNat = some Coding.none ∧ onOff (0#8).toNat = some false ∧
      s.st Line.A = LineSt.voice ∧ ¬(s.line Line.A).voice.sub = some VoiceSub.waiting) ∧
    (∃ s : State,
      s.requests = [] ∧ (s.line Line.A).iface.tone = none ∧ (s.line Line.A).iface.expecting = false ∧ 1#8 = lineByte Line.A ∧
      mailboxOf 7#8 = some (some 7) ∧ Coding.ofCode (0#8).toNat = some Coding.none ∧ onOff (0#8).toNat = some false ∧
      s.st Line.A = LineSt.voice ∧ (s.line Line.A).voice.sub = some VoiceSub.waiting ∧ ¬s.store.st = StoreSt.ready) ∧
    (∃ s : State,
      s.requests = [] ∧ (s.line Line.A).iface.tone = none ∧ (s.line Line.A).iface.expecting = false ∧ 1#8 = lineByte Line.A ∧
      mailboxOf 7#8 = some (some 7) ∧ Coding.ofCode (0#8).toNat = some Coding.none ∧ onOff (0#8).toNat = some false ∧
      s.st Line.A = LineSt.voice ∧ (s.line Line.A).voice.sub = some VoiceSub.waiting ∧ s.store.st = StoreSt.ready ∧
      mailboxEnabled s 7 = false) ∧
    (∃ s : State,
      s.requests = [] ∧ (s.line Line.A).iface.tone = none ∧ (s.line Line.A).iface.expecting = false ∧ 1#8 = lineByte Line.A ∧
      mailboxOf 255#8 = some none ∧ Coding.ofCode (0#8).toNat = some Coding.none ∧ onOff (0#8).toNat = some false ∧
      s.st Line.A = LineSt.voice ∧ (s.line Line.A).voice.sub = some VoiceSub.waiting ∧ s.store.st = StoreSt.ready ∧
      (∀ (i : ℕ), none = some i → mailboxEnabled s i = true) ∧ createRefused s = true) ∧
    (∃ s : State,
      s.requests = [] ∧ (s.line Line.A).iface.tone = none ∧ (s.line Line.A).iface.expecting = false ∧ 1#8 = lineByte Line.A ∧
      mailboxOf 255#8 = some none ∧ Coding.ofCode (2#8).toNat = some Coding.adc2 ∧ onOff (0#8).toNat = some false ∧
      s.st Line.A = LineSt.voice ∧ (s.line Line.A).voice.sub = some VoiceSub.waiting ∧ s.store.st = StoreSt.ready ∧
      (∀ (i : ℕ), none = some i → mailboxEnabled s i = true) ∧ createRefused s = false ∧ ¬(s.line Line.A).iface.blockDue = s.now + 10) ∧
    (∃ s : State,
      s.requests = [] ∧ (s.line Line.A).iface.tone = none ∧ (s.line Line.A).iface.expecting = false ∧ 1#8 = lineByte Line.A ∧
      mailboxOf 0#8 = some (some 0) ∧ Coding.ofCode (0#8).toNat = some Coding.none ∧ onOff (1#8).toNat = some true ∧
      s.st Line.A = LineSt.voice ∧ (s.line Line.A).voice.sub = some VoiceSub.waiting ∧ s.store.st = StoreSt.ready ∧
      (∀ (i : ℕ), some 0 = some i → mailboxEnabled s i = true) ∧ createRefused s = false ∧ ¬(s.line Line.A).iface.blockDue = s.now + 10) ∧
    (∃ s : State,
      s.requests = [] ∧ (s.line Line.A).iface.tone = none ∧ (s.line Line.A).iface.expecting = false ∧
      (s.line Line.A).voice.sub = some VoiceSub.greeting ∧ (s.line Line.A).voice.silentDue = some 5000 ∧ s.st Line.A = LineSt.classify ∧
      readerOf s (Owner.line Line.A) = none ∧ (s.line Line.A).call.cr.mailbox = none ∧
      (s.line Line.A).call.cr.dir = some Direction.incoming ∧ s.store.st = StoreSt.ready ∧ createRefused s = false) ∧
    (∃ s : State,
      (s.line Line.A).voice.sub = some VoiceSub.recording ∧ (s.line Line.A).voice.message = some 8 ∧ s.st Line.A = LineSt.voice ∧
      (s.line Line.A).iface.expecting = true ∧ s.store.writers = [recWriter 0 []] ∧ (recWriter 0 []).id = 8 ∧
      (recWriter 0 []).cut = CutState.none ∧ (recWriter 0 []).closing = none ∧ findEntry s 8 = some (recEntry 0 []) ∧
      (recEntry 0 []).id = 8 ∧ ¬s.store.grant = none ∧ (s.line Line.A).voice.coding = Coding.adc4 ∧ (s.line Line.A).voice.begun = false) ∧
    (∃ s : State,
      (s.line Line.A).voice.sub = some VoiceSub.recording ∧ (s.line Line.A).voice.message = some 8 ∧ s.st Line.A = LineSt.voice ∧
      (s.line Line.A).iface.expecting = true ∧ s.store.writers = [recWriter 4 [1#8]] ∧ (recWriter 4 [1#8]).id = 8 ∧
      (recWriter 4 [1#8]).cut = CutState.none ∧ (recWriter 4 [1#8]).closing = none ∧ findEntry s 8 = some (recEntry 4 [1#8]) ∧
      (recEntry 4 [1#8]).id = 8 ∧ ¬s.store.grant = none ∧ (s.line Line.A).voice.coding = Coding.adc4 ∧ (s.line Line.A).voice.begun = true ∧
      loud.length = 80) ∧
    (∃ s : State,
      (s.line Line.A).voice.sub = some VoiceSub.recording ∧ (s.line Line.A).voice.message = some 8 ∧ s.st Line.A = LineSt.voice ∧
      (s.line Line.A).iface.expecting = true ∧ s.store.writers = [recWriter 4 [1#8]] ∧ (recWriter 4 [1#8]).id = 8 ∧
      (recWriter 4 [1#8]).cut = CutState.none ∧ (recWriter 4 [1#8]).closing = none ∧ findEntry s 8 = some (recEntry 4 [1#8]) ∧
      (recEntry 4 [1#8]).id = 8 ∧ ¬s.store.grant = none ∧ (s.line Line.A).voice.coding = Coding.adc4 ∧ (s.line Line.A).voice.begun = true ∧
      loud.length = 80 ∧
      ((recWriter 4 [1#8]).filling.length + (packCodes (s.line Line.A).voice.coding ({ p := (s.line Line.A).voice.p, k := (s.line Line.A).voice.k : Coder }.encode (s.line Line.A).voice.coding (List.map (fun (y : ℤ) => y / 4) loud)).1).length < (recWriter 4 [1#8]).fillCapacity) ∧
      ((recWriter 4 [1#8]).accepted + (packCodes (s.line Line.A).voice.coding ({ p := (s.line Line.A).voice.p, k := (s.line Line.A).voice.k : Coder }.encode (s.line Line.A).voice.coding (List.map (fun (y : ℤ) => y / 4) loud)).1).length < (s.line Line.A).voice.limit) ∧
      ((if (List.map Int.natAbs (List.map (fun (y : ℤ) => y / 4) loud)).sum / 80 < (s.line Line.A).profile.silenceThreshold then (s.line Line.A).voice.silenceRun + 1 else 0) < (s.line Line.A).profile.silenceTime * 100)) ∧
    (∃ s : State,
      (s.line Line.A).voice.sub = some VoiceSub.recording ∧ (s.line Line.A).voice.message = some 8 ∧ s.st Line.A = LineSt.voice ∧
      (s.line Line.A).iface.expecting = true ∧ s.store.writers = [recWriter 4 [1#8]] ∧ (recWriter 4 [1#8]).id = 8 ∧
      (recWriter 4 [1#8]).cut = CutState.none ∧ (recWriter 4 [1#8]).closing = none ∧ findEntry s 8 = some (recEntry 4 [1#8]) ∧
      (recEntry 4 [1#8]).id = 8 ∧ ¬s.store.grant = none ∧ (s.line Line.A).voice.coding = Coding.adc4 ∧ (s.line Line.A).voice.begun = true ∧
      (List.replicate 80 0).length = 80 ∧
      ((recWriter 4 [1#8]).filling.length + (packCodes (s.line Line.A).voice.coding ({ p := (s.line Line.A).voice.p, k := (s.line Line.A).voice.k : Coder }.encode (s.line Line.A).voice.coding (List.map (fun (y : ℤ) => y / 4) (List.replicate 80 0))).1).length < (recWriter 4 [1#8]).fillCapacity) ∧
      ((recWriter 4 [1#8]).accepted + (packCodes (s.line Line.A).voice.coding ({ p := (s.line Line.A).voice.p, k := (s.line Line.A).voice.k : Coder }.encode (s.line Line.A).voice.coding (List.map (fun (y : ℤ) => y / 4) (List.replicate 80 0))).1).length < (s.line Line.A).voice.limit) ∧
      ((if (List.map Int.natAbs (List.map (fun (y : ℤ) => y / 4) (List.replicate 80 0))).sum / 80 < (s.line Line.A).profile.silenceThreshold then (s.line Line.A).voice.silenceRun + 1 else 0) < (s.line Line.A).profile.silenceTime * 100)) ∧
    (∃ s : State,
      (s.line Line.A).voice.sub = some VoiceSub.recording ∧ (s.line Line.A).voice.message = some 8 ∧ s.st Line.A = LineSt.voice ∧
      (s.line Line.A).iface.expecting = true ∧ s.store.writers = [recWriter 4 [1#8]] ∧ (recWriter 4 [1#8]).id = 8 ∧
      (recWriter 4 [1#8]).cut = CutState.none ∧ (recWriter 4 [1#8]).closing = none ∧ findEntry s 8 = some (recEntry 4 [1#8]) ∧
      (recEntry 4 [1#8]).id = 8 ∧ ¬s.store.grant = none ∧ (s.line Line.A).voice.coding = Coding.adc4 ∧ (s.line Line.A).voice.begun = true ∧
      loud.length = 80 ∧
      ((recWriter 4 [1#8]).filling.length + (packCodes (s.line Line.A).voice.coding ({ p := (s.line Line.A).voice.p, k := (s.line Line.A).voice.k : Coder }.encode (s.line Line.A).voice.coding (List.map (fun (y : ℤ) => y / 4) loud)).1).length < (recWriter 4 [1#8]).fillCapacity) ∧
      ((s.line Line.A).voice.limit ≤ (recWriter 4 [1#8]).accepted + (packCodes (s.line Line.A).voice.coding ({ p := (s.line Line.A).voice.p, k := (s.line Line.A).voice.k : Coder }.encode (s.line Line.A).voice.coding (List.map (fun (y : ℤ) => y / 4) loud)).1).length)) ∧
    (∃ s : State,
      (s.line Line.A).voice.sub = some VoiceSub.recording ∧ (s.line Line.A).voice.message = some 8 ∧ s.st Line.A = LineSt.voice ∧
      (s.line Line.A).iface.expecting = true ∧ s.store.writers = [recWriter 4 [1#8]] ∧ (recWriter 4 [1#8]).id = 8 ∧
      (recWriter 4 [1#8]).cut = CutState.none ∧ (recWriter 4 [1#8]).closing = none ∧ findEntry s 8 = some (recEntry 4 [1#8]) ∧
      (recEntry 4 [1#8]).id = 8 ∧ ¬s.store.grant = none ∧ (s.line Line.A).voice.coding = Coding.adc4 ∧ (s.line Line.A).voice.begun = true ∧
      (List.replicate 80 0).length = 80 ∧
      ((recWriter 4 [1#8]).filling.length + (packCodes (s.line Line.A).voice.coding ({ p := (s.line Line.A).voice.p, k := (s.line Line.A).voice.k : Coder }.encode (s.line Line.A).voice.coding (List.map (fun (y : ℤ) => y / 4) (List.replicate 80 0))).1).length < (recWriter 4 [1#8]).fillCapacity) ∧
      ((recWriter 4 [1#8]).accepted + (packCodes (s.line Line.A).voice.coding ({ p := (s.line Line.A).voice.p, k := (s.line Line.A).voice.k : Coder }.encode (s.line Line.A).voice.coding (List.map (fun (y : ℤ) => y / 4) (List.replicate 80 0))).1).length < (s.line Line.A).voice.limit) ∧
      ((s.line Line.A).profile.silenceTime * 100 ≤ if (List.map Int.natAbs (List.map (fun (y : ℤ) => y / 4) (List.replicate 80 0))).sum / 80 < (s.line Line.A).profile.silenceThreshold then (s.line Line.A).voice.silenceRun + 1 else 0)) ∧
    (∃ s : State,
      (s.line Line.A).voice.sub = some VoiceSub.recording ∧ (s.line Line.A).voice.message = some 8 ∧ s.st Line.A = LineSt.voice ∧
      (s.line Line.A).iface.expecting = true ∧ s.store.writers = [recWriter 4 [1#8]] ∧ (recWriter 4 [1#8]).id = 8 ∧
      (recWriter 4 [1#8]).cut = CutState.none ∧ (recWriter 4 [1#8]).closing = none ∧ findEntry s 8 = some (recEntry 4 [1#8]) ∧
      (recEntry 4 [1#8]).id = 8 ∧ ¬s.store.grant = none ∧ (s.line Line.A).voice.coding = Coding.adc4 ∧ s.requests = []) ∧
    (∃ s : State,
      (s.line Line.A).voice.sub = some VoiceSub.recording ∧ (s.line Line.A).voice.message = some 8 ∧ s.st Line.A = LineSt.voice ∧
      (s.line Line.A).iface.expecting = true ∧ s.store.writers = [recWriter 4 [1#8]] ∧ (recWriter 4 [1#8]).id = 8 ∧
      (recWriter 4 [1#8]).cut = CutState.none ∧ (recWriter 4 [1#8]).closing = none ∧ findEntry s 8 = some (recEntry 4 [1#8]) ∧
      (recEntry 4 [1#8]).id = 8 ∧ ¬s.store.grant = none ∧ (s.line Line.A).voice.coding = Coding.adc4 ∧
      (20, 40) ∈ (s.line Line.A).voice.offsets ∧ (List.Pairwise (fun (p q : ℕ × ℕ) => q.1 + 10 ≤ p.1) (s.line Line.A).voice.offsets) ∧
      20 ≤ 29 ∧ 29 < 20 + 10) ∧
    (∃ s : State,
      (s.line Line.A).voice.sub = some VoiceSub.recording ∧ (s.line Line.A).voice.message = some 8 ∧ s.st Line.A = LineSt.voice ∧
      (s.line Line.A).iface.expecting = true ∧ s.store.writers = [recWriter 4 [1#8]] ∧ (recWriter 4 [1#8]).id = 8 ∧
      (recWriter 4 [1#8]).cut = CutState.none ∧ (recWriter 4 [1#8]).closing = none ∧ findEntry s 8 = some (recEntry 4 [1#8]) ∧
      (recEntry 4 [1#8]).id = 8 ∧ ¬s.store.grant = none ∧ (s.line Line.A).voice.coding = Coding.adc4 ∧
      (∀ p ∈ (s.line Line.A).voice.offsets, 9 < p.1)) ∧
    (∃ s : State,
      (s.line Line.A).voice.sub = some VoiceSub.recording ∧ (s.line Line.A).voice.message = some 8 ∧ s.st Line.A = LineSt.voice ∧
      (s.line Line.A).iface.expecting = true ∧ s.store.writers = [recWriter 4 [1#8]] ∧ (recWriter 4 [1#8]).id = 8 ∧
      (recWriter 4 [1#8]).cut = CutState.none ∧ (recWriter 4 [1#8]).closing = none ∧ findEntry s 8 = some (recEntry 4 [1#8]) ∧
      (recEntry 4 [1#8]).id = 8 ∧ ¬s.store.grant = none ∧ (s.line Line.A).voice.coding = Coding.adc4 ∧ (recWriter 4 [1#8]).granted = false ∧
      (recWriter 4 [1#8]).handed = none ∧ (s.line Line.A).iface.current.get MonSource.levelLow = false) ∧
    (∃ s : State,
      ((s.line Line.A).voice.sub = some VoiceSub.recording ∧ (s.line Line.A).voice.message = some 8 ∧ s.st Line.A = LineSt.voice ∧
       (s.line Line.A).iface.expecting = true ∧ s.store.writers = [recWriter 0 [1#8]] ∧ (recWriter 0 [1#8]).id = 8 ∧
       (recWriter 0 [1#8]).cut = CutState.none ∧ (recWriter 0 [1#8]).closing = none ∧
       findEntry s 8 = some (openMessage 8 1 (Owner.line Line.A) [3]) ∧ (openMessage 8 1 (Owner.line Line.A) [3]).id = 8 ∧
       ¬s.store.grant = none ∧ (s.line Line.A).voice.coding = Coding.adc4 ∧ (recWriter 0 [1#8]).granted = false ∧
       (recWriter 0 [1#8]).handed = none ∧ (s.line Line.A).iface.current.get MonSource.levelLow = false ∧
       (min 3999 (recWriter 0 [1#8]).accepted < if (s.line Line.A).voice.coding = Coding.adc2 then 2000 else 4000) ∧ s.store.maint = [] ∧
       ¬(openMessage 8 1 (Owner.line Line.A) [3]).chain = [] ∧ (recWriter 0 [1#8]).accepted ≤ 3999) ∧
      (∀ (g : ℕ), s.store.grant ≠ some (Grant.maint (Maint.freeHeader g (FreeFor.cut 8))))) ∧
    (∃ s : State,
      ((s.line Line.A).voice.sub = some VoiceSub.recording ∧ (s.line Line.A).voice.message = some 8 ∧ s.st Line.A = LineSt.voice ∧
       (s.line Line.A).iface.expecting = true ∧ s.store.writers = [recWriter 1 (List.replicate 500 1#8)] ∧
       (recWriter 1 (List.replicate 500 1#8)).id = 8 ∧ (recWriter 1 (List.replicate 500 1#8)).cut = CutState.none ∧
       (recWriter 1 (List.replicate 500 1#8)).closing = none ∧ findEntry s 8 = some (openMessage 8 1460 (Owner.line Line.A) [3]) ∧
       (openMessage 8 1460 (Owner.line Line.A) [3]).id = 8 ∧ ¬s.store.grant = none ∧ (s.line Line.A).voice.coding = Coding.adc4 ∧
       (recWriter 1 (List.replicate 500 1#8)).granted = false ∧ (recWriter 1 (List.replicate 500 1#8)).handed = none ∧
       (s.line Line.A).iface.current.get MonSource.levelLow = false ∧
       (min 1000 (recWriter 1 (List.replicate 500 1#8)).accepted < if (s.line Line.A).voice.coding = Coding.adc2 then 2000 else 4000) ∧
       s.store.maint = [] ∧ ¬(openMessage 8 1460 (Owner.line Line.A) [3]).chain = [] ∧
       1000 < (recWriter 1 (List.replicate 500 1#8)).accepted ∧ (recWriter 1 (List.replicate 500 1#8)).seg = none ∧
       (recWriter 1 (List.replicate 500 1#8)).inStore = 0 ∧
       (recWriter 1 (List.replicate 500 1#8)).base = segStart (recWriter 1 (List.replicate 500 1#8)).seq ∧
       (recWriter 1 (List.replicate 500 1#8)).base ≤ min 1000 (recWriter 1 (List.replicate 500 1#8)).accepted ∧
       ((List.filter (fun (i : ℕ) => decide (segStart i < min 1000 (recWriter 1 (List.replicate 500 1#8)).accepted)) (List.range (openMessage 8 1460 (Owner.line Line.A) [3]).chain.length)).length = (openMessage 8 1460 (Owner.line Line.A) [3]).chain.length)) ∧
      (∀ (g : ℕ), s.store.grant ≠ some (Grant.maint (Maint.freeHeader g (FreeFor.cut 8))))) ∧
    (∃ s : State,
      ((s.line Line.A).voice.sub = some VoiceSub.recording ∧ (s.line Line.A).voice.message = some 8 ∧ s.st Line.A = LineSt.voice ∧
       (s.line Line.A).iface.expecting = true ∧ s.store.writers = [recWriter 4 [1#8]] ∧ (recWriter 4 [1#8]).id = 8 ∧
       (recWriter 4 [1#8]).cut = CutState.none ∧ (recWriter 4 [1#8]).closing = none ∧ findEntry s 8 = some (recEntry 4 [1#8]) ∧
       (recEntry 4 [1#8]).id = 8 ∧ ¬s.store.grant = none ∧ (s.line Line.A).voice.coding = Coding.adc4 ∧
       (recWriter 4 [1#8]).granted = false ∧ (recWriter 4 [1#8]).handed = none ∧
       (s.line Line.A).iface.current.get MonSource.levelLow = false ∧
       (min 961 (recWriter 4 [1#8]).accepted < if (s.line Line.A).voice.coding = Coding.adc2 then 2000 else 4000) ∧ s.store.maint = [] ∧
       ¬(recEntry 4 [1#8]).chain = [] ∧ 961 < (recWriter 4 [1#8]).accepted ∧
       ((List.filter (fun (i : ℕ) => decide (segStart i < min 961 (recWriter 4 [1#8]).accepted)) (List.range (recEntry 4 [1#8]).chain.length)).length < (recEntry 4 [1#8]).chain.length)) ∧
      (∀ (g : ℕ), s.store.grant ≠ some (Grant.maint (Maint.freeHeader g (FreeFor.cut 8))))) ∧
    (∃ s : State,
      ((s.line Line.A).voice.sub = some VoiceSub.recording ∧ (s.line Line.A).voice.message = some 8 ∧ s.st Line.A = LineSt.voice ∧
       (s.line Line.A).iface.expecting = true ∧ s.store.writers = [recWriter 1 [1#8]] ∧ (recWriter 1 [1#8]).id = 8 ∧
       (recWriter 1 [1#8]).cut = CutState.none ∧ (recWriter 1 [1#8]).closing = none ∧
       findEntry s 8 = some (openMessage 8 961 (Owner.line Line.A) [3]) ∧ (openMessage 8 961 (Owner.line Line.A) [3]).id = 8 ∧
       ¬s.store.grant = none ∧ (s.line Line.A).voice.coding = Coding.adc4 ∧ (recWriter 1 [1#8]).granted = false ∧
       (recWriter 1 [1#8]).handed = none ∧ (s.line Line.A).iface.current.get MonSource.levelLow = false ∧
       (min 900 (recWriter 1 [1#8]).accepted < if (s.line Line.A).voice.coding = Coding.adc2 then 2000 else 4000) ∧ s.store.maint = [] ∧
       ¬(openMessage 8 961 (Owner.line Line.A) [3]).chain = [] ∧ 900 < (recWriter 1 [1#8]).accepted ∧
       (min 900 (recWriter 1 [1#8]).accepted < (recWriter 1 [1#8]).base ∧ min 900 (recWriter 1 [1#8]).accepted ≠ segStart (seqOf (min 900 (recWriter 1 [1#8]).accepted)))) ∧
      (∀ (g : ℕ), s.store.grant ≠ some (Grant.maint (Maint.freeHeader g (FreeFor.cut 8))))) ∧
    (∃ s : State,
      (s.line Line.A).voice.sub = some VoiceSub.recording ∧ (s.line Line.A).voice.message = some 8 ∧ s.st Line.A = LineSt.voice ∧
      (s.line Line.A).iface.expecting = true ∧ s.store.writers = [recWriter 4 [1#8]] ∧ (recWriter 4 [1#8]).id = 8 ∧
      (recWriter 4 [1#8]).cut = CutState.none ∧ (recWriter 4 [1#8]).closing = none ∧ findEntry s 8 = some (recEntry 4 [1#8]) ∧
      (recEntry 4 [1#8]).id = 8 ∧ ¬s.store.grant = none ∧ (s.line Line.A).voice.coding = Coding.adc4 ∧ (recWriter 4 [1#8]).granted = false ∧
      (recWriter 4 [1#8]).handed = none ∧ (s.line Line.A).iface.current.get MonSource.levelLow = false ∧
      ((if (s.line Line.A).voice.coding = Coding.adc2 then 2000 else 4000) ≤ min 99999 (recWriter 4 [1#8]).accepted) ∧
      ¬(recWriter 4 [1#8]).filling = [] ∧ (recWriter 4 [1#8]).accepted ≤ 99999) ∧
    (∃ s : State,
      (s.line Line.A).voice.sub = some VoiceSub.recording ∧ (s.line Line.A).voice.message = some 8 ∧ s.st Line.A = LineSt.voice ∧
      (s.line Line.A).iface.expecting = true ∧ s.store.writers = [recWriter 4 [1#8, 2#8]] ∧ (recWriter 4 [1#8, 2#8]).id = 8 ∧
      (recWriter 4 [1#8, 2#8]).cut = CutState.none ∧ (recWriter 4 [1#8, 2#8]).closing = none ∧
      findEntry s 8 = some (recEntry 4 [1#8, 2#8]) ∧ (recEntry 4 [1#8, 2#8]).id = 8 ∧ ¬s.store.grant = none ∧
      (s.line Line.A).voice.coding = Coding.adc4 ∧ (recWriter 4 [1#8, 2#8]).granted = false ∧ (recWriter 4 [1#8, 2#8]).handed = none ∧
      (s.line Line.A).iface.current.get MonSource.levelLow = false ∧
      ((if (s.line Line.A).voice.coding = Coding.adc2 then 2000 else 4000) ≤ min 4009 (recWriter 4 [1#8, 2#8]).accepted) ∧
      (recWriter 4 [1#8, 2#8]).seg = none ∧ (recWriter 4 [1#8, 2#8]).inStore = 0 ∧
      (recWriter 4 [1#8, 2#8]).base = segStart (recWriter 4 [1#8, 2#8]).seq ∧
      (recWriter 4 [1#8, 2#8]).base < min 4009 (recWriter 4 [1#8, 2#8]).accepted ∧ 4009 < (recWriter 4 [1#8, 2#8]).accepted ∧
      (∀ i < (recEntry 4 [1#8, 2#8]).chain.length, segStart i < min 4009 (recWriter 4 [1#8, 2#8]).accepted)) :=
  ⟨⟨(voicing (some .waiting) id none), by decide +kernel⟩,
    ⟨plain, by decide +kernel⟩,
    ⟨(voicing none id none), by decide +kernel⟩,
    ⟨(modStore (fun t => { t with st := .scanning }) (voicing (some .waiting) id none)), by decide +kernel⟩,
    ⟨{ voicing (some .waiting) id none with mailboxes := [] }, by decide +kernel⟩,
    ⟨(modStore (fun t => { t with free := [] }) rw1), by decide +kernel⟩,
    ⟨(modIface .A (fun i => { i with blockDue := 5 }) rw1), by decide +kernel⟩,
    ⟨(modIface .A (fun i => { i with blockDue := 5 }) rw1), by decide +kernel⟩,
    ⟨greeting, by decide +kernel⟩,
    ⟨(recording 0 [] (fun v => { v with begun := false })), by decide +kernel⟩,
    ⟨(recording 4 [1#8] id), by decide +kernel⟩,
    ⟨(recording 4 [1#8] id), by decide +kernel⟩,
    ⟨(recording 4 [1#8] id), by decide +kernel⟩,
    ⟨(recording 4 [1#8] (fun v => { v with limit := 44 })), by decide +kernel⟩,
    ⟨(recording 4 [1#8] (fun v => { v with silenceRun := 100000, silenceStart := 3 })), by decide +kernel⟩,
    ⟨(recording 4 [1#8] id), by decide +kernel⟩,
    ⟨(recording 4 [1#8] (fun v => { v with offsets := [(30, 80), (20, 40), (10, 0)] })), by decide +kernel⟩,
    ⟨(recording 4 [1#8] (fun v => { v with offsets := [(20, 40), (10, 0)] })), by decide +kernel⟩,
    ⟨(recording 4 [1#8] id), by decide +kernel⟩,
    ⟨(recordingWith (recWriter 0 [1#8]) (openMessage 8 1 (.line .A) [3])), by decide +kernel, by intro x hx; cases hx⟩,
    ⟨(recordingWith (recWriter 1 (List.replicate 500 1#8)) (openMessage 8 1460 (.line .A) [3])), by decide +kernel, by intro x hx; cases hx⟩,
    ⟨(recordingWith (recWriter 4 [1#8]) (recEntry 4 [1#8])), by decide +kernel, by intro x hx; cases hx⟩,
    ⟨(recordingWith (recWriter 1 [1#8]) (openMessage 8 961 (.line .A) [3])), by decide +kernel, by intro x hx; cases hx⟩,
    ⟨(recording 4 [1#8] id), by decide +kernel⟩,
    ⟨(recording 4 [1#8, 2#8] id), by decide +kernel⟩⟩

theorem witness_DecoderFollowsTheCoder :
    ((¬Coding.adc4 = Coding.none ∧ (([53, 40].length % if Coding.adc4 = Coding.adc2 then 4 else 2) = 0)) ∧
    (¬Coding.adc2 = Coding.none ∧ (([-20, -15, 8191, -8192].length % if Coding.adc2 = Coding.adc2 then 4 else 2) = 0))) :=
  by and_intros <;> decide +kernel

/-- R160, R168: a PAGE_END that differs from the one judged last begins, and ends, a next page, here of no lines. -/
theorem test_page_end_of_a_next_page :
    (answers (exec (.pageEnd .A true 0#16) nextPageDue) fun u =>
      (u.line .A).fax.page = 2 ∧ (u.line .A).fax.lastVerdict = some (.verdict .good 0 0)) = true := by decide +kernel

/-- R145, R173: a PAGE_END whose tail line meets a full store gets no VERDICT; BYE (STORE_FULL) goes out. -/
theorem test_page_end_meets_a_full_store :
    (answers (exec (.pageEnd .A false 1#16) lastLineFull) fun u =>
      (u.line .A).fax.outQueue = [.bye .storeFull] ∧ (u.line .A).fax.outstanding = some ⟨.bye .storeFull, 1, none⟩ ∧
        (u.line .A).fax.lastVerdict = none) = true := by decide +kernel

/-- R32, R146: an underrun stays in its block although the stream is opened again at another offset. -/
theorem test_underrun_before_a_skip :
    ((slipBlock .A (voiceControl .A .skipBack (noteUnderrun .A
      (voicing (some .playing) id (some (reading 0 4000 [] true)))))).line .A).iface.current.streamSlip = true := by decide +kernel

end Sys2Proof.Tests
end

section
/-! PROOFS. The terminal link: targets and LHOLD (R7, R9), and the TARGET directive. -/

namespace Sys2Proof.Machine

/-! ### The codes of the targets (R7) -/

/-- The table of R7 lists each code with the target it names. -/
theorem target_ofCode_of_mem {code : Byte} {g : Target}
    (h : (code, g) ∈ [(0#8, Target.none), (1#8, .lineA), (2#8, .lineB), (3#8, .store)]) :
    Target.ofCode code.toNat = some g := by
  simp only [List.mem_cons, Prod.mk.injEq, List.not_mem_nil, or_false] at h
  obtain ⟨rfl, rfl⟩ | ⟨rfl, rfl⟩ | ⟨rfl, rfl⟩ | ⟨rfl, rfl⟩ := h <;> rfl

theorem target_ofCode_of_gt {n : Nat} (h : 3 < n) : Target.ofCode n = none := by
  match n, h with
  | n + 4, _ => rfl

/-! ### The free space of a target (R9) -/

/-- The free space of a target does not depend on the terminal link's own state. -/
theorem targetFree_withLink (k : Link) (s : State) (g : Target) : targetFree { s with link := k } g = targetFree s g := by
  cases g <;> rfl

/-- A DONE leaves the free space of every target. -/
@[simp] theorem targetFree_done (c : Byte) (r : Result) (vs : List Byte) (s : State) (g : Target) :
    targetFree (done c r vs s) g = targetFree s g := by
  obtain ⟨k, hk⟩ := queueReport_link s (.done c r vs)
  rw [done, hk, targetFree_withLink]

@[simp] theorem lholdAfresh_requests (s : State) : (lholdAfresh s).requests = s.requests := rfl

/-- LHOLD evaluated afresh: asserted where the free space of the target is limited and below 64 (R9). -/
theorem lholdAfresh_eq (s : State) :
    lholdAfresh s = { s with link := { s.link with lhold := (targetFree s s.link.target).any (· < 64) } } := by
  simp only [lholdAfresh, modLink]
  cases targetFree s s.link.target <;> rfl

/-! ### TARGET (R7) -/

theorem exec_target (code : Byte) (s : State) : exec (.target code) s = .next (finish (opTarget code s)) := rfl

/-- TARGET of a code that names no target: BAD_PARAM, and nothing else. -/
theorem opTarget_of_none {code : Byte} (h : Target.ofCode code.toNat = none) (s : State) :
    opTarget code s = done 0x54#8 .badParam [] s := by
  rw [opTarget, h]

/-- TARGET of a code that names a target: the target is selected behind the DONE, and LHOLD follows its free space, which the
DONE leaves as it was. -/
theorem opTarget_of_some {code : Byte} {g : Target} (h : Target.ofCode code.toNat = some g) (s : State) :
    opTarget code s = { done 0x54#8 .ok [] s with
      link := { (done 0x54#8 .ok [] s).link with target := g, lhold := (targetFree s g).any (· < 64) } } := by
  have hfree (k : Link) : targetFree { done 0x54#8 .ok [] s with link := k } g = targetFree s g := by
    rw [targetFree_withLink, targetFree_done]
  simp only [opTarget, h, lholdAfresh_eq, modLink, hfree]

/-- TARGET makes no request between blocks. -/
theorem opTarget_requests (code : Byte) (s : State) : (opTarget code s).requests = s.requests := by
  unfold opTarget
  split
  · exact done_requests ..
  · exact done_requests ..

/-- With no request waiting, TARGET does what its operation does. -/
theorem exec_target_of_no_requests (code : Byte) {s : State} (hs : s.requests = []) :
    exec (.target code) s = .next (opTarget code s) := by
  rw [exec_target, finish_of_none _ ((opTarget_requests code s).trans hs)]

/-- Settles O13: by whether the code names a target, with LHOLD read off the free space of each. -/
theorem targetSelectsTheTarget : Obligations.TargetSelectsTheTarget := by
  intro code s hs
  rw [exec_target_of_no_requests code hs]
  constructor
  · intro g hg
    rw [opTarget_of_some (target_ofCode_of_mem hg)]
    cases g <;> rfl
  · intro hcode
    rw [opTarget_of_none (target_ofCode_of_gt hcode)]

end Sys2Proof.Machine
end

section
/-! PROOFS. The flags and the output pins of the line interface: reported states (R31), ALARM (R34), MSG (R180) and the levels
the output pins show (R29). -/

namespace Sys2Proof.Machine

/-! ### Reported states (R31) -/

theorem mem_monSources (src : MonSource) : src ∈ monSources := by cases src <;> decide

/-- A source has its reported state set exactly where it is enabled and the state its latch-enable chooses is set. -/
theorem reportedState_eq_true_iff (s : State) (l : Line) (src : MonSource) :
    reportedState s l src = true ↔ ((s.line l).profile.monitors.get src).enable = true ∧
      (if ((s.line l).profile.monitors.get src).latchEnable then (s.line l).iface.latched.get src
        else (s.line l).iface.current.get src) = true :=
  Bool.and_eq_true_iff

/-! ### ALARM (R34) -/

theorem lineAlarm_eq_true_iff (s : State) (l : Line) :
    lineAlarm s l = true ↔
      ∃ src, ((s.line l).profile.monitors.get src).cls = .error ∧ reportedState s l src = true := by
  simp only [lineAlarm, List.any_eq_true, mem_monSources, true_and, Bool.and_eq_true, decide_eq_true_eq]

theorem alarm_eq_true_iff (s : State) : alarm s = true ↔ ∃ l, lineAlarm s l = true := by
  rw [alarm, Bool.or_eq_true]
  constructor
  · rintro (hA | hB)
    · exact ⟨.A, hA⟩
    · exact ⟨.B, hB⟩
  · rintro ⟨l, hl⟩
    cases l with
    | A => exact .inl hl
    | B => exact .inr hl

/-- The sources that assert ALARM, on either line: enabled, of class ERROR, and with the state set that they report. -/
theorem alarm_iff_error_source (s : State) :
    alarm s = true ↔ ∃ (l : Line) (src : MonSource), ((s.line l).profile.monitors.get src).enable = true ∧
      ((s.line l).profile.monitors.get src).cls = .error ∧
      (if ((s.line l).profile.monitors.get src).latchEnable then (s.line l).iface.latched.get src
        else (s.line l).iface.current.get src) = true := by
  simp only [alarm_eq_true_iff, lineAlarm_eq_true_iff, reportedState_eq_true_iff, and_left_comm]

/-! ### MSG (R180) -/

theorem msgCondition_eq_true_iff (s : State) :
    msgCondition s = true ↔ ∃ m ∈ s.mailboxes, m.enabled = true ∧ m.isNew = true := by
  simp only [msgCondition, List.any_eq_true, Bool.and_eq_true]

/-! ### The levels of the output pins (R29) -/

section
variable {s : State} {p : PinCfg}

theorem pinOutput_of_alarm (h : p.fn = .alarm) : pinOutput s p = some (alarm s) := by rw [pinOutput, h]
theorem pinOutput_of_msg (h : p.fn = .msg) : pinOutput s p = some (msgCondition s) := by rw [pinOutput, h]
theorem pinOutput_of_hookA (h : p.fn = .hookA) : pinOutput s p = some s.lineA.iface.hook := by rw [pinOutput, h]
theorem pinOutput_of_hookB (h : p.fn = .hookB) : pinOutput s p = some s.lineB.iface.hook := by rw [pinOutput, h]
theorem pinOutput_of_out (h : p.fn = .out) : pinOutput s p = some p.level := by rw [pinOutput, h]

end

/-- Settles O27: the sources of ALARM, those of MSG, and the pin of each output function. -/
theorem alarmAndMsgFollowTheirSources : Obligations.AlarmAndMsgFollowTheirSources := fun s =>
  ⟨alarm_iff_error_source s, msgCondition_eq_true_iff s, fun _ =>
    ⟨pinOutput_of_alarm, pinOutput_of_msg, pinOutput_of_hookA, pinOutput_of_hookB, pinOutput_of_out⟩⟩

end Sys2Proof.Machine
end

section
/-! PROOFS. Steps and commands: every command is one operation followed by the end of the command, and the limits that every step keeps. -/

namespace Sys2Proof.Machine

/-! ### Commands as operations -/

/-- The operation of a command: what it does before the requests between blocks are taken. -/
def opOf : Instr → State → State
  | .powerOn straps => opPowerOn straps
  | .downstreamByte b => opDownstreamByte b
  | .stallTimerExpiry => opStallTimerExpiry
  | .target code => opTarget code
  | .linkrate code => opLinkrate code
  | .query subject index => opQuery subject index
  | .resetLine line => opResetLine line
  | .resetTables => opResetTables
  | .resetPart => opResetPart
  | .clock year month day hour minute => opClock year month day hour minute
  | .minuteTick => opMinuteTick
  | .secondsTick => opSecondsTick
  | .reportSent => opReportSent
  | .payloadByteSent => opPayloadByteSent
  | .hholdChange asserted => opHholdChange asserted
  | .blockEnd line samples => opBlockEnd line samples
  | .ringPulse line => opRingPulse line
  | .ringOn line => opRingOn line
  | .ringEndTimerExpiry line => opRingEndTimerExpiry line
  | .ringTimerExpiry line => opRingTimerExpiry line
  | .callerMessage line rest => opCallerMessage line rest
  | .callerAbandon line => opCallerAbandon line
  | .loopInputChange line asserted => opLoopInputChange line asserted
  | .loopEstablished line => opLoopEstablished line
  | .noLoop line => opNoLoop line
  | .loopLost line => opLoopLost line
  | .extInputChange line asserted => opExtInputChange line asserted
  | .extensionPickup line => opExtensionPickup line
  | .extensionHangup line => opExtensionHangup line
  | .toneGeneratorCompletion line => opToneGeneratorCompletion line
  | .callingToneToggle line => opCallingToneToggle line
  | .pins assignment => opPins assignment
  | .profile line pairs => opProfile line pairs
  | .monclear line sources => opMonclear line sources
  | .toneWrite index fields => opToneWrite index fields
  | .toneDelete index => opToneDelete index
  | .cadenceWrite index fields => opCadenceWrite index fields
  | .cadenceDelete index => opCadenceDelete index
  | .markread line => opMarkread line
  | .screenWrite index fields => opScreenWrite index fields
  | .screenDelete index => opScreenDelete index
  | .dial line mode message symbols => opDial line mode message symbols
  | .answer line mode mailbox => opAnswer line mode mailbox
  | .release line kind => opRelease line kind
  | .cleardownTimerExpiry line => opCleardownTimerExpiry line
  | .classifyWindowExpiry line => opClassifyWindowExpiry line
  | .digitTimerExpiry line => opDigitTimerExpiry line
  | .dialToneWaitExpiry line => opDialToneWaitExpiry line
  | .blindDialDelay line => opBlindDialDelay line
  | .pulseBreakEnd line => opPulseBreakEnd line
  | .pulseMakeEnd line => opPulseMakeEnd line
  | .interdigitTimeEnd line => opInterdigitTimeEnd line
  | .commaPauseEnd line => opCommaPauseEnd line
  | .flashTimeEnd line => opFlashTimeEnd line
  | .progressTimerExpiry line => opProgressTimerExpiry line
  | .answerWatchArm line => opAnswerWatchArm line
  | .jobadd kind message priority preference maxTries symbols => opJobadd kind message priority preference maxTries symbols
  | .jobclear id => opJobclear id
  | .attemptclear => opAttemptclear
  | .ladder rungs => opLadder rungs
  | .windowEnd line symbols offset => opWindowEnd line symbols offset
  | .probeSent line => opProbeSent line
  | .propose line proposal modes => opPropose line proposal modes
  | .confirm line mode window payload => opConfirm line mode window payload
  | .trainingMessageRepeat line => opTrainingMessageRepeat line
  | .trainingTimerExpiry line => opTrainingTimerExpiry line
  | .farProbeStart line => opFarProbeStart line
  | .rateRequest line mode => opRateRequest line mode
  | .rateRefused line mode => opRateRefused line mode
  | .rateOk line mode => opRateOk line mode
  | .rateAnswerTimerExpiry line => opRateAnswerTimerExpiry line
  | .frameSent line => opFrameSent line
  | .formingDelayEnd line => opFormingDelayEnd line
  | .info line sequence ack payload => opInfo line sequence ack payload
  | .rr line ack poll => opRr line ack poll
  | .rnr line ack poll => opRnr line ack poll
  | .rej line expected => opRej line expected
  | .clearFrame line => opClear line
  | .badFrame line bytes => opBadFrame line bytes
  | .retransmitTimerExpiry line => opRetransmitTimerExpiry line
  | .clearTimerExpiry line => opClearTimerExpiry line
  | .caps line modes resolutions lineTime => opCaps line modes resolutions lineTime
  | .setMessage line mode resolution lineTime => opSet line mode resolution lineTime
  | .checkPatternEnd line => opCheckPatternEnd line
  | .checkOk line => opCheckOk line
  | .checkFail line => opCheckFail line
  | .lineRecord line record => opLineRecord line record
  | .lineRecordSent line => opLineRecordSent line
  | .pageEnd line last lineCount => opPageEnd line last lineCount
  | .verdict line verdict total bad => opVerdict line verdict total bad
  | .bye line reason => opBye line reason
  | .controlMessageSent line => opControlMessageSent line
  | .answerTimerExpiry line => opAnswerTimerExpiry line
  | .capsWaitExpiry line => opCapsWaitExpiry line
  | .format regions => opFormat regions
  | .storeset reserve policy watermark orderMode => opStoreset reserve policy watermark orderMode
  | .openMessage kind coding => opOpen kind coding
  | .closeMessage => opClose
  | .readMessage message offset => opRead message offset
  | .newsack message => opNewsack message
  | .erase message => opErase message
  | .segmentWriteComplete => opSegmentWriteComplete
  | .segmentReadComplete => opSegmentReadComplete
  | .freeHeaderWriteComplete => opFreeHeaderWriteComplete
  | .cutComplete => opCutComplete
  | .copyRewriteComplete => opCopyRewriteComplete
  | .headerRewriteComplete => opHeaderRewriteComplete
  | .scanReadComplete => opScanReadComplete
  | .labelWriteComplete => opLabelWriteComplete
  | .mailbox index enabled greeting maxLength coding digits => opMailbox index enabled greeting maxLength coding digits
  | .mailclear set => opMailclear set
  | .play line message offset => opPlay line message offset
  | .record line mailbox coding limit beep => opRecord line mailbox coding limit beep
  | .stop line => opStop line
  | .greetingEnd line => opGreetingEnd line
  | .playbackComplete line => opPlaybackComplete line
  | .dtmfOnTimeEnd line => opDtmfOnTimeEnd line
  | .callerBurstByte line b => opCallerBurstByte line b

/-- Every command is its operation, followed by the end of the command; none faults and none is refused. -/
theorem exec_eq (c : Instr) (s : State) : exec c s = .next (finish (opOf c s)) := by
  cases c <;> rfl

/-- A command does what its operation does, and then takes the requests between blocks. -/
theorem exec_finish {c : Instr} {s t : State} (h : opOf c s = t) : exec c s = .next (finish t) := by
  rw [exec_eq, h]

/-- A command whose operation leaves no request between blocks does what its operation does. -/
theorem exec_of_op {c : Instr} {s t : State} (h : opOf c s = t) (ht : t.requests = []) : exec c s = .next t := by
  rw [exec_eq, h, finish_of_none t ht]

/-- The operation of every command keeps the limits. -/
theorem opOf_sound {q : List Instr} {s : State} (h : Sound q s) : ∀ c : Instr, Sound q (opOf c s)
  | .powerOn _ => opPowerOn_sound _ h
  | .downstreamByte _ => opDownstreamByte_sound _ h
  | .stallTimerExpiry => opStallTimerExpiry_sound h
  | .target _ => opTarget_sound _ h
  | .linkrate _ => opLinkrate_sound _ h
  | .query _ _ => opQuery_sound _ _ h
  | .resetLine _ => opResetLine_sound _ h
  | .resetTables => opResetTables_sound h
  | .resetPart => opResetPart_sound h
  | .clock _ _ _ _ _ => opClock_sound _ _ _ _ _ h
  | .minuteTick => opMinuteTick_sound h
  | .secondsTick => opSecondsTick_sound h
  | .reportSent => opReportSent_sound h
  | .payloadByteSent => opPayloadByteSent_sound h
  | .hholdChange _ => opHholdChange_sound _ h
  | .blockEnd _ _ => opBlockEnd_sound _ _ h
  | .ringPulse _ => opRingPulse_sound _ h
  | .ringOn _ => opRingOn_sound _ h
  | .ringEndTimerExpiry _ => opRingEndTimerExpiry_sound _ h
  | .ringTimerExpiry _ => opRingTimerExpiry_sound _ h
  | .callerMessage _ _ => opCallerMessage_sound _ _ h
  | .callerAbandon _ => opCallerAbandon_sound _ h
  | .loopInputChange _ _ => opLoopInputChange_sound _ _ h
  | .loopEstablished _ => opLoopEstablished_sound _ h
  | .noLoop _ => opNoLoop_sound _ h
  | .loopLost _ => opLoopLost_sound _ h
  | .extInputChange _ _ => opExtInputChange_sound _ _ h
  | .extensionPickup _ => opExtensionPickup_sound _ h
  | .extensionHangup _ => opExtensionHangup_sound _ h
  | .toneGeneratorCompletion _ => opToneGeneratorCompletion_sound _ h
  | .callingToneToggle _ => opCallingToneToggle_sound _ h
  | .pins _ => opPins_sound _ h
  | .profile _ _ => opProfile_sound _ _ h
  | .monclear _ _ => opMonclear_sound _ _ h
  | .toneWrite _ _ => opToneWrite_sound _ _ h
  | .toneDelete _ => opToneDelete_sound _ h
  | .cadenceWrite _ _ => opCadenceWrite_sound _ _ h
  | .cadenceDelete _ => opCadenceDelete_sound _ h
  | .markread _ => opMarkread_sound _ h
  | .screenWrite _ _ => opScreenWrite_sound _ _ h
  | .screenDelete _ => opScreenDelete_sound _ h
  | .dial _ _ _ _ => opDial_sound _ _ _ _ h
  | .answer _ _ _ => opAnswer_sound _ _ _ h
  | .release _ _ => opRelease_sound _ _ h
  | .cleardownTimerExpiry _ => opCleardownTimerExpiry_sound _ h
  | .classifyWindowExpiry _ => opClassifyWindowExpiry_sound _ h
  | .digitTimerExpiry _ => opDigitTimerExpiry_sound _ h
  | .dialToneWaitExpiry _ => opDialToneWaitExpiry_sound _ h
  | .blindDialDelay _ => opBlindDialDelay_sound _ h
  | .pulseBreakEnd _ => opPulseBreakEnd_sound _ h
  | .pulseMakeEnd _ => opPulseMakeEnd_sound _ h
  | .interdigitTimeEnd _ => opInterdigitTimeEnd_sound _ h
  | .commaPauseEnd _ => opCommaPauseEnd_sound _ h
  | .flashTimeEnd _ => opFlashTimeEnd_sound _ h
  | .progressTimerExpiry _ => opProgressTimerExpiry_sound _ h
  | .answerWatchArm _ => opAnswerWatchArm_sound _ h
  | .jobadd _ _ _ _ _ _ => opJobadd_sound _ _ _ _ _ _ h
  | .jobclear _ => opJobclear_sound _ h
  | .attemptclear => opAttemptclear_sound h
  | .ladder _ => opLadder_sound _ h
  | .windowEnd _ _ _ => opWindowEnd_sound _ _ _ h
  | .probeSent _ => opProbeSent_sound _ h
  | .propose _ _ _ => opPropose_sound _ _ _ h
  | .confirm _ _ _ _ => opConfirm_sound _ _ _ _ h
  | .trainingMessageRepeat _ => opTrainingMessageRepeat_sound _ h
  | .trainingTimerExpiry _ => opTrainingTimerExpiry_sound _ h
  | .farProbeStart _ => opFarProbeStart_sound _ h
  | .rateRequest _ _ => opRateRequest_sound _ _ h
  | .rateRefused l mode => opRateRefused_sound l mode h
  | .rateOk _ _ => opRateOk_sound _ _ h
  | .rateAnswerTimerExpiry _ => opRateAnswerTimerExpiry_sound _ h
  | .frameSent _ => opFrameSent_sound _ h
  | .formingDelayEnd _ => opFormingDelayEnd_sound _ h
  | .info _ _ _ _ => opInfo_sound _ _ _ _ h
  | .rr _ _ _ => opRr_sound _ _ _ h
  | .rnr _ _ _ => opRnr_sound _ _ _ h
  | .rej _ _ => opRej_sound _ _ h
  | .clearFrame _ => opClear_sound _ h
  | .badFrame _ _ => opBadFrame_sound _ _ h
  | .retransmitTimerExpiry _ => opRetransmitTimerExpiry_sound _ h
  | .clearTimerExpiry _ => opClearTimerExpiry_sound _ h
  | .caps _ _ _ _ => opCaps_sound _ _ _ _ h
  | .setMessage _ _ _ _ => opSet_sound _ _ _ _ h
  | .checkPatternEnd _ => opCheckPatternEnd_sound _ h
  | .checkOk _ => opCheckOk_sound _ h
  | .checkFail _ => opCheckFail_sound _ h
  | .lineRecord _ _ => opLineRecord_sound _ _ h
  | .lineRecordSent _ => opLineRecordSent_sound _ h
  | .pageEnd _ _ _ => opPageEnd_sound _ _ _ h
  | .verdict _ _ _ _ => opVerdict_sound _ _ _ _ h
  | .bye _ _ => opBye_sound _ _ h
  | .controlMessageSent _ => opControlMessageSent_sound _ h
  | .answerTimerExpiry _ => opAnswerTimerExpiry_sound _ h
  | .capsWaitExpiry _ => opCapsWaitExpiry_sound _ h
  | .format _ => opFormat_sound _ h
  | .storeset _ _ _ _ => opStoreset_sound _ _ _ _ h
  | .openMessage _ _ => opOpen_sound _ _ h
  | .closeMessage => opClose_sound h
  | .readMessage _ _ => opRead_sound _ _ h
  | .newsack _ => opNewsack_sound _ h
  | .erase _ => opErase_sound _ h
  | .segmentWriteComplete => opSegmentWriteComplete_sound h
  | .segmentReadComplete => opSegmentReadComplete_sound h
  | .freeHeaderWriteComplete => opFreeHeaderWriteComplete_sound h
  | .cutComplete => opCutComplete_sound h
  | .copyRewriteComplete => opCopyRewriteComplete_sound h
  | .headerRewriteComplete => opHeaderRewriteComplete_sound h
  | .scanReadComplete => opScanReadComplete_sound h
  | .labelWriteComplete => opLabelWriteComplete_sound h
  | .mailbox _ _ _ _ _ _ => opMailbox_sound _ _ _ _ _ _ h
  | .mailclear _ => opMailclear_sound _ h
  | .play _ _ _ => opPlay_sound _ _ _ h
  | .record _ _ _ _ _ => opRecord_sound _ _ _ _ _ h
  | .stop _ => opStop_sound _ h
  | .greetingEnd _ => opGreetingEnd_sound _ h
  | .playbackComplete _ => opPlaybackComplete_sound _ h
  | .dtmfOnTimeEnd _ => opDtmfOnTimeEnd_sound _ h
  | .callerBurstByte _ _ => opCallerBurstByte_sound _ _ h

/-! ### The invariant -/

/-- The limits make the invariant of a state without requests: the unheard list is no longer than the directory. -/
theorem Sound.inv {q : List Instr} {s : State} (h : Sound q s) (hr : s.requests = []) : Inv s :=
  ⟨h.pending.symm ▸ h, h.store.unheard_length, hr⟩

/-- Every command answers a next state with the limits and the same waiting commands. -/
theorem exec_sound {q : List Instr} (c : Instr) {s : State} (h : Sound q s) : ∃ t, exec c s = .next t ∧ Inv t ∧ t.pending = q :=
  have hf := finish_sound (opOf_sound h c)
  ⟨_, exec_eq c s, hf.inv (finish_requests _), hf.pending⟩

/-- A state whose waiting commands are replaced has the limits with the others. -/
theorem Sound.with_pending {q rest : List Instr} {s : State} (h : Sound q s) : Sound rest { s with pending := rest } :=
  { h with pending := rfl }

/-- Settles O2: a step idles, or runs the command at the front, which keeps the limits. -/
theorem everyStepKeepsTheLimits : Obligations.EveryStepKeepsTheLimits := by
  intro s t hs ht
  unfold step at ht
  split at ht
  · obtain rfl : s = t := by simpa using ht
    exact hs
  next c rest _ =>
    obtain ⟨u, hu, hinv, -⟩ := exec_sound c (hs.1.with_pending (rest := rest))
    obtain rfl : u = t := by simpa [hu] using ht
    exact hinv

/-- Settles O4: each command is one operation that keeps the limits, and the requests it leaves are taken. -/
theorem everyCommandCompletes : Obligations.EveryCommandCompletes :=
  fun c _ hs => exec_sound c hs.1

/-- Settles O1: the two cases of a step. -/
theorem stepRunsTheFrontCommand : Obligations.StepRunsTheFrontCommand := by
  constructor
  · intro c rest s h
    rw [step, h]
  · intro s h
    rw [step, h]

/-- Settles O3: the tables after reset, counted. -/
theorem resetHasTheLimits : Obligations.ResetHasTheLimits := by
  have hlink : LinkSound initialDataLink := ⟨Nat.zero_le _, Nat.zero_le _, Nat.zero_le _, Nat.le_refl _⟩
  have hreset : Sound [] State.reset :=
    { pending := rfl, pins := rfl, tones := rfl, cadences := rfl, screen := rfl, attempts := rfl, mailboxes := rfl
      reports := by decide
      store := ⟨rfl, Nat.zero_le _, List.nodup_nil, fun _ hid => nomatch hid⟩
      jobs := Nat.zero_le _
      ladder := by decide
      linkA := hlink, linkB := hlink }
  exact hreset.inv rfl

end Sys2Proof.Machine
end

section
/-! PROOFS. Directives and their bytes (10.2): the words and lists of a layout read back, and so does every directive. -/

namespace Sys2Proof

open Machine

/-! ### Words and lists of a layout -/

@[simp] theorem word16_bytes (w : Word16) : word16 (BitVec.ofNat 8 (w.toNat / 256)) (w.setWidth 8) = w := by
  apply BitVec.eq_of_toNat_eq
  simp only [word16, BitVec.toNat_ofNat, BitVec.toNat_setWidth]
  omega

@[simp] theorem word32_bytes (w : Word32) : word32 (BitVec.ofNat 8 (w.toNat / 16777216)) (BitVec.ofNat 8 (w.toNat / 65536))
    (BitVec.ofNat 8 (w.toNat / 256)) (w.setWidth 8) = w := by
  apply BitVec.eq_of_toNat_eq
  simp only [word32, BitVec.toNat_ofNat, BitVec.toNat_setWidth]
  omega

theorem pairsOf_flatMap (l : List (Byte × Byte)) : pairsOf (l.flatMap fun p => [p.1, p.2]) = some l := by
  induction l with
  | nil => rfl
  | cons p rest ih => simp [pairsOf, ih]

theorem profilePairs_flatMap (l : List (Byte × Word16)) :
    profilePairs (l.flatMap fun p => p.1 :: wordBytes p.2) = some l := by
  induction l with
  | nil => rfl
  | cons p rest ih =>
    simp only [wordBytes, BitVec.ofNat_toNat] at ih
    simp [wordBytes, profilePairs, ih]

theorem cadencePairs_flatMap (l : List (Word16 × Word16)) :
    cadencePairs (l.flatMap fun p => wordBytes p.1 ++ wordBytes p.2) = some l := by
  induction l with
  | nil => rfl
  | cons p rest ih =>
    simp only [wordBytes, BitVec.ofNat_toNat, List.cons_append, List.nil_append] at ih
    simp [wordBytes, cadencePairs, ih]

theorem ladderRungs_flatMap (l : List RungParams) :
    ladderRungs (l.flatMap fun r => r.mode :: (wordBytes r.u ++ wordBytes r.d ++ wordBytes r.x)) = some l := by
  induction l with
  | nil => rfl
  | cons p rest ih =>
    simp only [wordBytes, BitVec.ofNat_toNat, List.cons_append, List.nil_append] at ih
    simp [wordBytes, ladderRungs, ih]

theorem formatRegions_flatMap (l : List RegionParams) :
    formatRegions (l.flatMap fun r => [r.present, r.sizeCode, r.width, r.waitStates]) = some l := by
  induction l with
  | nil => rfl
  | cons p rest ih => simp [formatRegions, ih]

/-- A count of less than 256 survives its byte. -/
theorem toNat_countByte {n : Nat} (h : n < 256) : (BitVec.ofNat 8 n).toNat = n := by
  rw [BitVec.toNat_ofNat, Nat.mod_eq_of_lt h]

/-! ### The layouts with a length that varies -/

theorem decodeQuery_params {s : Byte} {i : Word16} (h : (querySubjectIndexed s || decide (i = 0#16)) = true) :
    decodeQuery (if querySubjectIndexed s then s :: wordBytes i else [s]) = .directive (.query s i) := by
  cases hs : querySubjectIndexed s with
  | true => simp [hs, wordBytes, decodeQuery, takenIf]
  | false =>
    obtain rfl : i = 0#16 := by simpa [hs] using h
    simp [hs, decodeQuery, takenIf]

theorem decodeProfile_params (line : Byte) {ps : List (Byte × Word16)} (h : decide (1 ≤ ps.length ∧ ps.length ≤ 66) = true) :
    decodeProfile (line :: ps.flatMap fun p => p.1 :: wordBytes p.2) = .directive (.profile line ps) := by
  simp only [decodeProfile, profilePairs_flatMap, takenIf, h, if_true]

theorem decodeTone_params (i : Byte) (f : ToneParams) :
    decodeTone ([1#8, i, f.kind] ++ wordBytes f.f1 ++ wordBytes f.f2 ++ [f.minLevel, f.twist] ++ wordBytes f.onTime ++
      wordBytes f.offTime ++ [f.action, f.controlOp, f.priorityMark, f.meaning] ++ wordBytes f.liveStates) =
      .directive (.toneWrite i f) := by
  simp [wordBytes, decodeTone, takenIf]

theorem decodeCadence_params (i : Byte) {f : CadenceParams} (h : decide (1 ≤ f.pairs.length ∧ f.pairs.length ≤ 4) = true) :
    decodeCadence ([1#8, i, f.source, BitVec.ofNat 8 f.pairs.length, f.tolerance, f.repeats, f.meaning, f.reportFlag] ++
      f.pairs.flatMap fun p => wordBytes p.1 ++ wordBytes p.2) = .directive (.cadenceWrite i f) := by
  obtain ⟨hlo, hhi⟩ := of_decide_eq_true h
  simp only [List.cons_append, List.nil_append, decodeCadence, cadencePairs_flatMap]
  simp [takenIf, Nat.mod_eq_of_lt (show f.pairs.length < 256 by omega), hlo, hhi]

theorem decodeScreen_params (i : Byte) {f : ScreenParams} (h : screenPatternAgrees f = true) :
    decodeScreen ([1#8, i, f.direction, f.action, f.argument, f.patternLength] ++ f.pattern) = .directive (.screenWrite i f) := by
  simp [decodeScreen, takenIf, h]

theorem decodeDial_params (l m : Byte) (msg : Word16) {str : List Byte} (h : decide (str.length ≤ 40) = true) :
    decodeDial ([l, m] ++ wordBytes msg ++ str) = .directive (.dial l m msg str) := by
  have hlen := of_decide_eq_true h
  simp [wordBytes, decodeDial, takenIf, hlen]

theorem decodeJobadd_params (k p pref t : Byte) (msg : Word16) {str : List Byte} (h : decide (str.length ≤ 40) = true) :
    decodeJobadd (k :: wordBytes msg ++ [p, pref, t] ++ str) = .directive (.jobadd k msg p pref t str) := by
  have hlen := of_decide_eq_true h
  simp [wordBytes, decodeJobadd, takenIf, hlen]

theorem decodeLadder_params {rs : List RungParams} (h : decide (1 ≤ rs.length ∧ rs.length ≤ 8) = true) :
    decodeLadder (BitVec.ofNat 8 rs.length ::
      rs.flatMap fun r => r.mode :: (wordBytes r.u ++ wordBytes r.d ++ wordBytes r.x)) = .directive (.ladder rs) := by
  obtain ⟨hlo, hhi⟩ := of_decide_eq_true h
  simp only [decodeLadder, ladderRungs_flatMap]
  simp [takenIf, Nat.mod_eq_of_lt (show rs.length < 256 by omega), hlo, hhi]

theorem decodeMailbox_params (i en c : Byte) (g ml : Word16) {ds : List Byte} (h : decide (1 ≤ ds.length ∧ ds.length ≤ 4) = true) :
    decodeMailbox ([i, en] ++ wordBytes g ++ wordBytes ml ++ [c, BitVec.ofNat 8 ds.length] ++ ds) =
      .directive (.mailbox i en g ml c ds) := by
  obtain ⟨hlo, hhi⟩ := of_decide_eq_true h
  simp [wordBytes, decodeMailbox, takenIf, Nat.mod_eq_of_lt (show ds.length < 256 by omega), hlo, hhi]

theorem decodePins_params {l : List (Byte × Byte)} (h : decide (l.length = 12) = true) :
    decodePins (l.flatMap fun p => [p.1, p.2]) = .directive (.pins l) := by
  simp only [decodePins, pairsOf_flatMap, takenIf, h, if_true]

theorem decodeFormat_params {l : List RegionParams} (h : decide (l.length = 4) = true) :
    decodeFormat (l.flatMap fun r => [r.present, r.sizeCode, r.width, r.waitStates]) = .directive (.format l) := by
  simp only [decodeFormat, formatRegions_flatMap, takenIf, h, if_true]

/-! ### The layouts of a fixed length that carry words -/

theorem decodeFixed_read (m : Word16) (o : Word32) :
    decodeFixed 0x52 (wordBytes m ++ dwordBytes o) = .directive (.readMessage m o) := by
  change Taken.directive (.readMessage (word16 _ _) (word32 _ _ _ _)) = _
  simp

theorem decodeFixed_newsack (m : Word16) : decodeFixed 0x4E (wordBytes m) = .directive (.newsack m) := by
  change Taken.directive (.newsack (word16 _ _)) = _
  simp

theorem decodeFixed_erase (m : Word16) : decodeFixed 0x55 (wordBytes m) = .directive (.erase m) := by
  change Taken.directive (.erase (word16 _ _)) = _
  simp

theorem decodeFixed_play (l : Byte) (m : Word16) (o : Word32) :
    decodeFixed 0x56 (l :: (wordBytes m ++ dwordBytes o)) = .directive (.play l m o) := by
  change Taken.directive (.play l (word16 _ _) (word32 _ _ _ _)) = _
  simp

theorem decodeFixed_record (l m c bp : Byte) (lim : Word16) :
    decodeFixed 0x42 ([l, m, c] ++ wordBytes lim ++ [bp]) = .directive (.record l m c lim bp) := by
  change Taken.directive (.record l m c (word16 _ _) bp) = _
  simp

/-- Settles O6: by the layout of each directive; those of a fixed length without words compute. -/
theorem directiveBytesReadBack : Obligations.DirectiveBytesReadBack := by
  intro i code h hc
  cases i with
  | query s i => cases hc; exact decodeQuery_params h
  | resetLine l => cases hc; cases l <;> rfl
  | pins l => cases hc; exact decodePins_params h
  | profile l ps => cases hc; exact decodeProfile_params l h
  | toneWrite i f => cases hc; exact decodeTone_params i f
  | cadenceWrite i f => cases hc; exact decodeCadence_params i h
  | screenWrite i f => cases hc; exact decodeScreen_params i h
  | dial l m msg str => cases hc; exact decodeDial_params l m msg h
  | jobadd k msg p pref t str => cases hc; exact decodeJobadd_params k p pref t msg h
  | ladder rs => cases hc; exact decodeLadder_params h
  | format l => cases hc; exact decodeFormat_params h
  | mailbox i en g ml c ds => cases hc; exact decodeMailbox_params i en c g ml h
  | readMessage m o => cases hc; exact decodeFixed_read m o
  | newsack m => cases hc; exact decodeFixed_newsack m
  | erase m => cases hc; exact decodeFixed_erase m
  | play l m o => cases hc; exact decodeFixed_play l m o
  | record l m c lim bp => cases hc; exact decodeFixed_record l m c bp lim
  | _ => cases hc <;> rfl

end Sys2Proof
end

section
/-! PROOFS. The terminal link (Chapter 1): the report queue and the arbiter as functions of the link alone, the parser, and the clocks. -/

namespace Sys2Proof.Machine

/-! ### The report queue as a function of the link (R10 to R12) -/

/-- What a queued report makes of the terminal link. -/
def Link.push (r : Report) (k : Link) : Link :=
  if k.reports.length < 32 then
    if k.sending = .idle ∧ k.hhold = false then
      match k.reports ++ [r] with
      | h :: rest => { k with reports := if k.loss then rest ++ [.loss] else rest, loss := false, sending := .report h }
      | [] => k
    else { k with reports := k.reports ++ [r] }
  else { k with loss := true }

/-- A queued report changes the link alone, by what the link alone holds: its queue is not empty as the arbiter chooses. -/
theorem queueReport_eq (r : Report) (s : State) : queueReport r s = { s with link := s.link.push r } := by
  unfold queueReport reportFits arbiterKick arbiterChoose takeReport Link.push
  cases h : s.link.reports <;> simp only [modLink, h, decide_eq_true_eq, List.nil_append, List.cons_append] <;>
    (repeat' split) <;> simp_all

theorem done_eq (c : Byte) (r : Result) (vs : List Byte) (s : State) :
    done c r vs s = { s with link := s.link.push (.done c r vs) } := queueReport_eq _ s

theorem queueReports_eq (rs : List Report) (s : State) :
    queueReports rs s = { s with link := rs.foldl (fun k r => k.push r) s.link } := by
  induction rs generalizing s with
  | nil => rfl
  | cons r rest ih => rw [List.foldl_cons, ← ih { s with link := s.link.push r }, ← queueReport_eq]; rfl

@[simp] theorem queueReports_nil (s : State) : queueReports [] s = s := rfl
@[simp] theorem queueReports_cons (r : Report) (rs : List Report) (s : State) :
    queueReports (r :: rs) s = queueReports rs (queueReport r s) := rfl
theorem queueReports_append (rs qs : List Report) (s : State) :
    queueReports (rs ++ qs) s = queueReports qs (queueReports rs s) := List.foldl_append

/-- The fields of the link that the report queue does not touch. -/
theorem Link.push_frame (r : Report) (k : Link) : (k.push r) =
    { k with reports := (k.push r).reports, loss := (k.push r).loss, sending := (k.push r).sending } := by
  unfold Link.push
  repeat' split
  all_goals rfl

section
variable (r : Report) (k : Link)
@[simp] theorem Link.push_parser : (k.push r).parser = k.parser := by rw [Link.push_frame]
@[simp] theorem Link.push_stallDue : (k.push r).stallDue = k.stallDue := by rw [Link.push_frame]
@[simp] theorem Link.push_target : (k.push r).target = k.target := by rw [Link.push_frame]
@[simp] theorem Link.push_discard : (k.push r).discard = k.discard := by rw [Link.push_frame]
@[simp] theorem Link.push_announced : (k.push r).announced = k.announced := by rw [Link.push_frame]
@[simp] theorem Link.push_roundRobin : (k.push r).roundRobin = k.roundRobin := by rw [Link.push_frame]
@[simp] theorem Link.push_rate : (k.push r).rate = k.rate := by rw [Link.push_frame]
@[simp] theorem Link.push_pendingRate : (k.push r).pendingRate = k.pendingRate := by rw [Link.push_frame]
@[simp] theorem Link.push_lhold : (k.push r).lhold = k.lhold := by rw [Link.push_frame]
@[simp] theorem Link.push_hhold : (k.push r).hhold = k.hhold := by rw [Link.push_frame]
@[simp] theorem Link.push_dayClock : (k.push r).dayClock = k.dayClock := by rw [Link.push_frame]
@[simp] theorem Link.push_seconds : (k.push r).seconds = k.seconds := by rw [Link.push_frame]
end

/-! ### The arbiter (R11 to R13) -/

section
variable {s : State}

theorem arbiterKick_busy (h : s.link.sending ≠ .idle ∨ s.link.hhold = true) : arbiterKick s = s := by
  refine if_neg fun ⟨hidle, hfree⟩ => ?_
  rcases h with h | h
  · exact h hidle
  · simp [hfree] at h

theorem arbiterKick_idle (hidle : s.link.sending = .idle) (hfree : s.link.hhold = false) : arbiterKick s = arbiterChoose s :=
  if_pos ⟨hidle, hfree⟩

theorem arbiterChoose_report {r : Report} {rest : List Report} (h : s.link.reports = r :: rest) :
    arbiterChoose s = { s with link := { s.link with
      reports := if s.link.loss then rest ++ [.loss] else rest, loss := false, sending := .report r } } := by
  rw [arbiterChoose, h]; rfl

theorem arbiterChoose_ready {src : Source} (h : s.link.reports = []) (hsrc : firstReady s s.link.roundRobin = some src) :
    arbiterChoose s = if s.link.announced = some src
      then { s with link := { s.link with sending := .payload src 0 false true } }
      else { s with link := { s.link with sending := .source src, announced := some src } } := by
  rw [arbiterChoose, h]; simp only [hsrc]; rfl

theorem arbiterChoose_none (h : s.link.reports = []) (hsrc : firstReady s s.link.roundRobin = none) : arbiterChoose s = s := by
  rw [arbiterChoose, h]; simp only [hsrc]

/-- The first ready source is the first of the three in round-robin order before which none is ready. -/
theorem firstReady_of {src p : Source}
    (h : src = p ∨ src = p.next ∧ sourceReady s p = false ∨
      src = p.next.next ∧ sourceReady s p = false ∧ sourceReady s p.next = false)
    (hready : sourceReady s src = true) : firstReady s p = some src := by
  rcases h with rfl | ⟨rfl, h1⟩ | ⟨rfl, h1, h2⟩ <;> simp_all [firstReady]

end

/-- Settles O10: the report queue at its three states, and the arbiter's choice case by case. -/
theorem reportsQueueAndTheArbiterChooses : Obligations.ReportsQueueAndTheArbiterChooses := by
  refine ⟨fun r s => ⟨queueReport_tail s r, ?_, queueReport_full s r, fun _ _ _ => rfl⟩, fun s hidle => ⟨?_, ?_, ?_, ?_⟩⟩
  · intro hnil hidle hfree
    rw [queueReport_eq]
    simp [Link.push, hnil, hidle, hfree]
  · exact fun hheld => arbiterKick_busy (.inr hheld)
  · intro r rest hfree hreports
    rw [arbiterKick_idle hidle hfree, arbiterChoose_report hreports]
  · intro src hfree hnil hfirst hready
    rw [arbiterKick_idle hidle hfree, arbiterChoose_ready hnil (firstReady_of hfirst hready)]
    exact ⟨fun h => if_pos h, fun h => if_neg h⟩
  · intro hfree hnil hnone
    rw [arbiterKick_idle hidle hfree, arbiterChoose_none hnil]
    simp [firstReady, hnone]

/-! ### REPORT_SENT and HHOLD_CHANGE -/

theorem arbiterKick_link (s : State) : ∃ k, arbiterKick s = { s with link := k } := by
  unfold arbiterKick arbiterChoose takeReport modLink
  repeat' split
  all_goals exact ⟨_, rfl⟩

@[simp] theorem arbiterKick_requests (s : State) : (arbiterKick s).requests = s.requests := by
  obtain ⟨k, h⟩ := arbiterKick_link s; rw [h]

/-- Only the end of a DISCARD and of LINKRATE's DONE (OK) bring anything. -/
theorem reportGone_other {r : Report} (k : Link) (hd : ∀ g, r ≠ .discard g) (hl : ∀ vs, r ≠ .done 0x4B#8 .ok vs) :
    reportGone r k = k := by
  unfold reportGone
  split
  · exact absurd rfl (hd _)
  · exact absurd rfl (hl _)
  · rfl

/-- The end of a report: the arbiter, engaged until then, chooses again. -/
theorem opReportSent_report {s : State} {r : Report} (h : s.link.sending = .report r) :
    opReportSent s = arbiterKick { s with link := reportGone r { s.link with sending := .idle } } := by
  simp only [opReportSent, arbiterKick_busy (s := s) (.inl (by simp [h])), h]
  rfl

theorem opReportSent_source {s : State} {src : Source} (h : s.link.sending = .source src) :
    opReportSent s = arbiterKick { s with link := { s.link with sending := .idle } } := by
  simp only [opReportSent, arbiterKick_busy (s := s) (.inl (by simp [h])), h]
  rfl

/-- Settles O11: the ends of a unit by what was sent, then HHOLD by its level. -/
theorem reportSentEndsTheUnitAndHholdHolds : Obligations.ReportSentEndsTheUnitAndHholdHolds := by
  refine ⟨fun s hs => ⟨?_, ?_, ?_, ?_⟩, fun s hs hbusy => ?_⟩
  · intro src h
    exact exec_of_op (opReportSent_source h) (by simp [hs])
  · intro g h
    exact exec_of_op (opReportSent_report h) (by simp [hs])
  · intro vs rate h hrate
    refine exec_of_op ((opReportSent_report h).trans ?_) (by simp [hs])
    simp [reportGone, hrate]
  · intro r h hd hl
    refine exec_of_op ((opReportSent_report h).trans ?_) (by simp [hs])
    rw [reportGone_other _ hd hl]
  have hop (b : Bool) : opHholdChange b s =
      if b then { s with link := { s.link with hhold := true, sending := s.link.sending.hold } }
      else arbiterKick { s with link := { s.link with hhold := false } } := by
    simp only [opHholdChange, arbiterKick_busy hbusy]; rfl
  refine ⟨?_, ?_, ?_⟩
  · intro src n c v h
    refine exec_of_op ((hop true).trans ?_) (by simp [hs])
    simp [h, Sending.hold]
  · intro hnot
    refine exec_of_op ((hop true).trans ?_) (by simp [hs])
    have hhold : s.link.sending.hold = s.link.sending := by
      cases h : s.link.sending with
      | payload src n c v => exact absurd h (hnot src n c v)
      | _ => rfl
    simp [hhold]
  · exact exec_of_op (hop false) (by simp [hs])

/-! ### LINKRATE and the clocks -/

/-- Settles O14: the checks of LINKRATE in their order, then whether its DONE finds room. -/
theorem linkrateAwaitsItsAnswer : Obligations.LinkrateAwaitsItsAnswer := by
  intro code s hs
  have hop : opOf (.linkrate code) s = opLinkrate code s := rfl
  refine ⟨fun hc => ?_, fun hc hp => ?_, fun hc hp hroom => ?_, fun hc hp hfull => ?_⟩
  · exact exec_of_op (by rw [hop, opLinkrate, if_pos hc]) (by simp [hs])
  · refine exec_of_op ?_ (by simp [hs])
    rw [hop, opLinkrate, if_neg (by omega), if_pos (Option.isSome_iff_ne_none.mpr hp)]
  · refine exec_of_op ?_ (by simp [hs])
    rw [hop, opLinkrate, if_neg (by omega), if_neg (by simp [hp])]
    simp only [reportFits, decide_eq_true hroom, if_true, modLink]
    congr 5
  · refine exec_of_op ?_ hs
    rw [hop, opLinkrate, if_neg (by omega), if_neg (by simp [hp])]
    simp [reportFits, Nat.not_lt.mpr hfull, modLink, done, queueReport_full, hfull, hp]

/-! ### The requests of a command, taken one by one -/

theorem takeRequests_of_none {n : Nat} {s : State} (h : s.requests = []) : takeRequests n s = s := by
  cases n with
  | zero => rw [takeRequests, ← h]
  | succ n => rw [takeRequests, h]

theorem takeRequests_cons {n : Nat} {r : Request} {rest : List Request} {s : State} (h : s.requests = r :: rest) :
    takeRequests (n + 1) s = takeRequests n (takeRequest r { s with requests := rest }) := by
  rw [takeRequests, h]

/-- A line that cannot take a job is not dispatched. -/
theorem dispatchLine_of_not {s : State} {l : Line} (h : canTakeJob s l = false) : dispatchLine l s = s := by
  rw [dispatchLine, h]; rfl

/-- With no job on the list nothing is dispatched. -/
theorem dispatchLine_of_no_jobs {s : State} (l : Line) (h : s.jobs = []) : dispatchLine l s = s := by
  have hnone : (listOrder s.store.settings.order s.jobs).filter (fun j => decide (j.state = .waiting)) = [] := by
    rw [h]; cases s.store.settings.order <;> rfl
  rw [dispatchLine, hnone, examineJobs, ite_self]

/-- The dispatch asked for by a command that leaves no other request, where it takes no job. -/
theorem finish_askDispatch {s : State} (hs : s.requests = [])
    (h : ∀ l rs, dispatchLine l { s with requests := rs } = { s with requests := rs }) : finish (askDispatch s) = s := by
  have hreq : (askDispatch s).requests = [.dispatch .A, .dispatch .B] := by simp [askDispatch, hs]
  have hA : takeRequest (.dispatch .A) { askDispatch s with requests := [.dispatch .B] } =
      { s with requests := [.dispatch .B] } := h .A _
  have hB : takeRequest (.dispatch .B) { s with requests := [] } = s := (h .B []).trans (by rw [← hs])
  rw [finish, takeRequests_cons hreq, hA, takeRequests_cons rfl]
  exact (congrArg _ hB).trans (takeRequests_of_none hs)

/-- Settles O15: CLOCK by its range check, MINUTE_TICK by its carries, SECONDS_TICK without a job to dispatch. -/
theorem clocksAreSetAndCount : Obligations.ClocksAreSetAndCount := by
  refine ⟨fun y mo d h mi len s hs hlen => ?_, fun s hs => ⟨fun due c hdue hc => ?_, fun hdue => ?_⟩, fun s hs hj => ?_⟩
  · obtain rfl : len = monthLength y.toNat mo.toNat := hlen
    have hop : opOf (.clock y mo d h mi) s = opClock y mo d h mi s := rfl
    have hrange : (DayClock.mk y.toNat mo.toNat d.toNat h.toNat mi.toNat).inRange = decide (y.toNat ≤ 99 ∧ 1 ≤ mo.toNat ∧
      mo.toNat ≤ 12 ∧ 1 ≤ d.toNat ∧ d.toNat ≤ monthLength y.toNat mo.toNat ∧ h.toNat ≤ 23 ∧ mi.toNat ≤ 59) := rfl
    constructor
    · intro hok
      refine exec_of_op ?_ (by simp [hs])
      rw [hop, opClock, if_neg (by rw [hrange, decide_eq_true hok]; decide)]
      rfl
    · intro hbad
      refine exec_of_op ?_ (by simp [hs])
      rw [hop, opClock, if_pos (by rw [hrange, decide_eq_false hbad])]
  · refine ⟨c.nextMinute, exec_of_op ?_ hs, ?_⟩
    · show opMinuteTick s = _
      simp only [opMinuteTick, hdue, modLink, elapse, hc, Option.map_some]
    refine ⟨fun h => ?_, fun h h' => ?_, fun h h' h'' => ?_, fun h h' h'' h3 => ?_, fun h h' h'' h3 => ?_⟩ <;>
      simp [DayClock.nextMinute, *]
  · refine exec_of_op ?_ hs
    show opMinuteTick s = s
    simp only [opMinuteTick, hdue]
  · have hfin := finish_askDispatch (s := modLink (fun k => { k with
        seconds := min secondsMax (k.seconds + 1), secondDue := k.secondDue + 1000 }) (elapse s.link.secondDue s)) hs
      fun l _ => dispatchLine_of_no_jobs l hj
    rw [exec_eq]
    refine congrArg Host.Outcome.next (hfin.trans ?_)
    simp only [modLink, elapse, secondsMax]
    congr 2
    split <;> omega

/-! ### Power-on and the state after reset -/

/-- Settles O16: both leave the initial state, with no request between blocks. -/
theorem powerOnAndResetPartLeaveTheTable : Obligations.PowerOnAndResetPartLeaveTheTable := by
  intro c byDirective straps s h
  have hop : opOf c s = restart byDirective straps s := by
    rcases h with ⟨rfl, rfl⟩ | ⟨rfl, rfl, rfl⟩ <;> rfl
  refine ⟨_, exec_of_op hop rfl, rfl, rfl, rfl, rfl, rfl, rfl, rfl, rfl, rfl, rfl, rfl, rfl, fun l => ?_⟩
  cases l <;> exact ⟨rfl, rfl, rfl, rfl, rfl, rfl, rfl, rfl, _, _, rfl⟩

/-- Settles O5: the initial values and default tables, read off. -/
theorem resetLeavesInitialValues : Obligations.ResetLeavesInitialValues := by
  refine ⟨by decide, by decide, by decide, ?_, by decide, by decide, by decide, by decide, fun l => ?_⟩
  · refine ⟨by decide, by decide, ?_, ⟨_, rfl, by decide⟩, ⟨_, rfl, by decide⟩, ⟨_, rfl, by decide⟩, ⟨_, rfl, by decide⟩,
      ⟨_, rfl, by decide⟩, ⟨_, rfl, by decide⟩⟩
    have htake : ∀ o ∈ State.reset.tones.take 6, (o.any fun e => decide (e.twist = 6 ∧ e.priorityMark = false)) = true := by
      decide
    intro o ho
    have hsome := htake o ho
    cases o with
    | none => exact absurd hsome (by decide)
    | some e => exact ⟨e, rfl, of_decide_eq_true hsome⟩
  · have hline : State.reset.line l = initialLine false false := by cases l <;> rfl
    rw [hline]
    exact ⟨⟨rfl, rfl, rfl, rfl, rfl, rfl, rfl, rfl, rfl, rfl, rfl, rfl, rfl, rfl, rfl, rfl, rfl, rfl, rfl, rfl, rfl, rfl, rfl, rfl, rfl, rfl, rfl, rfl, rfl,
      rfl, rfl, rfl, rfl, rfl, rfl, rfl, rfl, rfl, rfl, rfl, rfl, 
      fun src => by cases src <;> rfl⟩, ⟨rfl, rfl, rfl, rfl, rfl, rfl, rfl, rfl, rfl, rfl, fun src => by cases src <;> exact ⟨rfl, rfl⟩⟩,
      by decide, by decide, by decide, by decide, by decide⟩

end Sys2Proof.Machine
end

section
/-! PROOFS. The downstream parser (R1 to R6), payload delivery (R8, R9), and the payload units sent upstream (R11, R13, R151). -/

namespace Sys2Proof.Machine

/-! ### The parser -/

theorem setParser_payload (s : State) :
    setParser .payload s = { s with link := { s.link with parser := .payload, stallDue := none } } := rfl

theorem setParser_other {p : Parser} (h : p ≠ .payload) (s : State) :
    setParser p s = { s with link := { s.link with parser := p, stallDue := some (s.now + 500) } } := by
  simp only [setParser, modLink, if_neg h]

section
variable {b : Byte} {s : State}

theorem opDownstreamByte_payload (h : s.link.parser = .payload) :
    opDownstreamByte b s = if b = 0xC5#8 then setParser .shifted s else deliverPayload b s := by
  rw [opDownstreamByte, h]

theorem opDownstreamByte_shifted (h : s.link.parser = .shifted) :
    opDownstreamByte b s = if b = 0xC5#8 then deliverPayload b (setParser .payload s)
      else if isDirectiveCode b then setParser (.count b) s else queueReport (.fault .badCode b) (setParser .payload s) := by
  rw [opDownstreamByte, h]; rfl

theorem opDownstreamByte_count {code : Byte} (h : s.link.parser = .count code) :
    opDownstreamByte b s = if b = 0#8 then takeDirective code [] (setParser .payload s) else setParser (.params code b []) s := by
  rw [opDownstreamByte, h]

theorem opDownstreamByte_params_more {code n : Byte} {g : List Byte} (h : s.link.parser = .params code n g)
    (hn : g.length + 1 < n.toNat) : opDownstreamByte b s = setParser (.params code n (g ++ [b])) s := by
  rw [opDownstreamByte, h]
  simp only [List.length_append, List.length_cons, List.length_nil]
  rw [if_neg (by omega)]

theorem opDownstreamByte_params_last {code n : Byte} {g : List Byte} (h : s.link.parser = .params code n g)
    (hn : n.toNat = g.length + 1) : opDownstreamByte b s = endParams code n (g ++ [b]) (setParser .payload s) := by
  rw [opDownstreamByte, h]
  simp only [List.length_append, List.length_cons, List.length_nil]
  rw [if_pos (by omega)]

theorem opStallTimerExpiry_running {due : Nat} (h : s.link.stallDue = some due) :
    opStallTimerExpiry s = queueReport (.fault .timeout s.link.parser.stallDetail)
      { s with link := { s.link with parser := .payload, stallDue := none }, now := max s.now due } := by
  rw [opStallTimerExpiry, h]; rfl

end

/-- A directive of a code that is none, or of parameters that are none, is refused (R5). -/
theorem takeDirective_unknown {code : Byte} (h : code.toNat ∉ directiveCodes) (ps : List Byte) (s : State) :
    takeDirective code ps s = done code .unknown [] s := by
  rw [takeDirective, decodeDirective, if_neg h]

theorem takenIf_ne_unknown (ok : Bool) (i : Instr) : takenIf ok i ≠ .unknown := by
  cases ok <;> exact Taken.noConfusion

/-- A fixed layout is looked up by the code and the number of bytes. -/
theorem decodeFixed_ne_unknown : ∀ c ∈ directiveCodes, ∀ ps, decodeFixed c ps ≠ .unknown := by
  simp only [directiveCodes, List.forall_mem_cons, List.not_mem_nil, false_imp_iff, implies_true, and_true]
  refine ⟨?_, ?_, ?_, ?_, ?_, ?_, ?_, ?_, ?_, ?_, ?_, ?_, ?_, ?_, ?_, ?_, ?_, ?_, ?_, ?_, ?_, ?_, ?_, ?_, ?_, ?_, ?_, ?_, ?_, ?_, ?_⟩
  all_goals
    intro ps
    match ps with
    | [] | [_] | [_, _] | [_, _, _] | [_, _, _, _] | [_, _, _, _, _] | [_, _, _, _, _, _] | [_, _, _, _, _, _, _]
    | _ :: _ :: _ :: _ :: _ :: _ :: _ :: _ :: _ => exact Taken.noConfusion

theorem decodeDirective_ne_unknown {code : Byte} {ps : List Byte} (h : code.toNat ∈ directiveCodes) :
    decodeDirective code ps ≠ .unknown := by
  rw [decodeDirective, if_pos h]
  split
  case h_13 => exact decodeFixed_ne_unknown _ h _
  case h_1 => unfold decodeQuery; split <;> first | exact takenIf_ne_unknown _ _ | exact Taken.noConfusion
  case h_2 => unfold decodeReset; (repeat' split) <;> exact Taken.noConfusion
  case h_3 => unfold decodePins; split <;> first | exact takenIf_ne_unknown _ _ | exact Taken.noConfusion
  case h_4 => unfold decodeProfile; (repeat' split) <;> first | exact takenIf_ne_unknown _ _ | exact Taken.noConfusion
  case h_5 => unfold decodeTone; split <;> first | exact takenIf_ne_unknown _ _ | exact Taken.noConfusion
  case h_6 => unfold decodeCadence; (repeat' split) <;> first | exact takenIf_ne_unknown _ _ | exact Taken.noConfusion
  case h_7 => unfold decodeScreen; split <;> first | exact takenIf_ne_unknown _ _ | exact Taken.noConfusion
  case h_8 => unfold decodeDial; split <;> first | exact takenIf_ne_unknown _ _ | exact Taken.noConfusion
  case h_9 => unfold decodeJobadd; split <;> first | exact takenIf_ne_unknown _ _ | exact Taken.noConfusion
  case h_10 => unfold decodeLadder; (repeat' split) <;> first | exact takenIf_ne_unknown _ _ | exact Taken.noConfusion
  case h_11 => unfold decodeFormat; split <;> first | exact takenIf_ne_unknown _ _ | exact Taken.noConfusion
  case h_12 => unfold decodeMailbox; split <;> first | exact takenIf_ne_unknown _ _ | exact Taken.noConfusion

/-- Settles O8: the parser state by state, the refusals of a complete directive, and the stall timer. -/
theorem parserFollowsItsStates : Obligations.ParserFollowsItsStates := by
  refine ⟨fun b s hs => ⟨?_, ?_, ?_, ?_, ?_, ?_, ?_, ?_, ?_, ?_⟩, fun b code n g s hs hp hn hle => ⟨fun hc => ?_, fun hc hbad => ?_⟩,
    fun s hs => ⟨fun due d hdue hd => ?_, fun hdue => ?_⟩⟩
  · rintro hp rfl
    exact exec_of_op ((opDownstreamByte_payload hp).trans (setParser_other (by simp) s)) hs
  · intro hp hlo hhi
    have hcode : isDirectiveCode b = true := decide_eq_true ⟨hlo, hhi⟩
    have hne : b ≠ 0xC5#8 := by rintro rfl; revert hhi; decide
    refine exec_of_op ?_ hs
    exact (opDownstreamByte_shifted hp).trans (by rw [if_neg hne, if_pos hcode, setParser_other (by simp)])
  · intro hp hne hout
    have hcode : isDirectiveCode b = false := decide_eq_false (by omega)
    refine exec_of_op ?_ (by simp [hs])
    exact (opDownstreamByte_shifted hp).trans (by rw [if_neg hne, hcode, setParser_payload]; rfl)
  · intro code hp hne
    refine exec_of_op ?_ hs
    exact (opDownstreamByte_count hp).trans (by rw [if_neg hne, setParser_other (by simp)])
  · intro code n g hp hn
    exact exec_of_op ((opDownstreamByte_params_more hp hn).trans (setParser_other (by simp) s)) hs
  · intro code n g hp hn hbig
    refine exec_of_op ?_ (by simp [hs])
    exact (opDownstreamByte_params_last hp hn).trans (by rw [endParams, if_pos hbig, setParser_payload]; rfl)
  · intro hp hne
    exact exec_finish ((opDownstreamByte_payload hp).trans (if_neg hne))
  · intro hp heq
    exact exec_finish ((opDownstreamByte_shifted hp).trans (if_pos heq))
  · intro code hp heq
    exact exec_finish ((opDownstreamByte_count hp).trans (if_pos heq))
  · intro code n g hp hn hle
    exact exec_finish ((opDownstreamByte_params_last hp hn).trans (if_neg (by omega)))
  · refine exec_of_op ?_ (by simp [hs])
    refine (opDownstreamByte_params_last hp hn).trans ?_
    rw [endParams, if_neg (by omega), takeDirective_unknown hc, setParser_payload]
  · refine exec_of_op ?_ (by simp [hs])
    refine (opDownstreamByte_params_last hp hn).trans ?_
    rw [endParams, if_neg (by omega), takeDirective, setParser_payload]
    cases hdec : decodeDirective code (g ++ [b]) with
    | unknown => exact absurd hdec (decodeDirective_ne_unknown hc)
    | badParam => rfl
    | directive i => exact absurd hdec (hbad i)
  · have hdetail : s.link.parser.stallDetail = d := by
      rcases hd with ⟨hp, rfl⟩ | ⟨⟨c, hp⟩, rfl⟩ | ⟨⟨c, n, g, hp⟩, rfl⟩ <;> rw [hp] <;> rfl
    exact exec_of_op ((opStallTimerExpiry_running hdue).trans (by rw [hdetail])) (by simp [hs])
  · refine exec_of_op ?_ hs
    show opStallTimerExpiry s = s
    rw [opStallTimerExpiry, hdue]

/-! ### A directive in bytes -/

/-- A directive's operation is what its command does; an event has no code. -/
theorem directiveOp_eq {i : Instr} (h : (directiveCode i).isSome = true) (s : State) : directiveOp i s = opOf i s := by
  cases i <;> first | rfl | cases h

/-- What a well-formed directive sends has at most 200 parameter bytes (R2). -/
theorem directiveParams_length {i : Instr} (h : i.wellFormed = true) : (directiveParams i).length ≤ 200 := by
  have flat {α : Type} (f : α → List Byte) (k : Nat) (hf : ∀ x, (f x).length = k) (l : List α) :
      (l.flatMap f).length = k * l.length := by
    induction l with
    | nil => rfl
    | cons x rest ih => simp only [List.flatMap_cons, List.length_append, hf, ih, List.length_cons]; ring
  cases i with
  | query s i => change (if _ then s :: wordBytes i else [s]).length ≤ 200; split <;> exact of_decide_eq_true rfl
  | resetLine l => cases l <;> decide
  | pins l =>
    have hn : l.length = 12 := of_decide_eq_true h
    exact (flat _ 2 (fun _ => rfl) l).trans_le (by omega)
  | profile l ps =>
    have hn : 1 ≤ ps.length ∧ ps.length ≤ 66 := of_decide_eq_true h
    have := flat (fun p : Byte × Word16 => p.1 :: wordBytes p.2) 3 (fun _ => rfl) ps
    change (l :: ps.flatMap fun p => p.1 :: wordBytes p.2).length ≤ 200
    rw [List.length_cons]; omega
  | cadenceWrite i f =>
    have hn : 1 ≤ f.pairs.length ∧ f.pairs.length ≤ 4 := of_decide_eq_true h
    have := flat (fun p : Word16 × Word16 => wordBytes p.1 ++ wordBytes p.2) 4 (fun _ => rfl) f.pairs
    change (_ ++ f.pairs.flatMap fun p => wordBytes p.1 ++ wordBytes p.2).length ≤ 200
    rw [List.length_append, this]; simp only [List.length_cons, List.length_nil]; omega
  | screenWrite i f =>
    have hn : f.pattern.length ≤ 20 := by
      have h : screenPatternAgrees f = true := h
      simp only [screenPatternAgrees] at h
      split at h <;> have := of_decide_eq_true h <;> omega
    change (_ ++ f.pattern).length ≤ 200
    rw [List.length_append]; simp only [List.length_cons, List.length_nil]; omega
  | dial l m msg str =>
    have hn : str.length ≤ 40 := of_decide_eq_true h
    change ([l, m] ++ wordBytes msg ++ str).length ≤ 200
    simp only [List.length_append, wordBytes, List.length_cons, List.length_nil]; omega
  | jobadd k msg p pref t str =>
    have hn : str.length ≤ 40 := of_decide_eq_true h
    change (k :: wordBytes msg ++ [p, pref, t] ++ str).length ≤ 200
    simp only [List.length_append, wordBytes, List.length_cons, List.length_nil]; omega
  | ladder rs =>
    have hn : 1 ≤ rs.length ∧ rs.length ≤ 8 := of_decide_eq_true h
    have := flat (fun r : RungParams => r.mode :: (wordBytes r.u ++ wordBytes r.d ++ wordBytes r.x)) 7 (fun _ => rfl) rs
    change (_ :: rs.flatMap fun r => r.mode :: (wordBytes r.u ++ wordBytes r.d ++ wordBytes r.x)).length ≤ 200
    rw [List.length_cons]; omega
  | format l =>
    have hn : l.length = 4 := of_decide_eq_true h
    exact (flat _ 4 (fun _ => rfl) l).trans_le (by omega)
  | mailbox i en g ml c ds =>
    have hn : 1 ≤ ds.length ∧ ds.length ≤ 4 := of_decide_eq_true h
    change ([i, en] ++ wordBytes g ++ wordBytes ml ++ [c, BitVec.ofNat 8 ds.length] ++ ds).length ≤ 200
    simp only [List.length_append, wordBytes, List.length_cons, List.length_nil]; omega
  | _ => exact of_decide_eq_true rfl

/-- A byte sent downstream to a part; no byte faults. -/
def sendByte (u : State) (b : Byte) : Option State := some (finish (opDownstreamByte b u))

/-- A byte that changes the parser alone. -/
theorem sendByte_parser {u : State} {b : Byte} {p : Parser} (hu : u.requests = []) (h : opDownstreamByte b u = setParser p u) :
    sendByte u b = some (setParser p u) := by
  rw [sendByte, h, finish_of_none _ (by rw [setParser, modLink_requests, hu])]

/-- The bytes sent after one that is taken. -/
theorem foldlM_sendByte {u v : State} {b : Byte} {bs : List Byte} (h : sendByte u b = some v) :
    (b :: bs).foldlM sendByte u = bs.foldlM sendByte v := by
  rw [List.foldlM_cons, h]; rfl

/-- The bytes of a sequence before its last one are gathered. -/
theorem gather_params (code n : Byte) (bs : List Byte) : ∀ (g : List Byte) (s : State), s.requests = [] →
    s.link.parser = .params code n g → s.link.stallDue = some (s.now + 500) → g.length + bs.length < n.toNat →
    bs.foldlM sendByte s = some (setParser (.params code n (g ++ bs)) s) := by
  induction bs with
  | nil =>
    intro g s _ hp hdue _
    rw [setParser_other (by simp), List.append_nil, ← hp, ← hdue]
    rfl
  | cons b rest ih =>
    intro g s hs hp hdue hlen
    rw [List.length_cons] at hlen
    rw [foldlM_sendByte (sendByte_parser hs (opDownstreamByte_params_more hp (by omega))),
      ih (g ++ [b]) (setParser _ s) hs rfl rfl (by simp only [List.length_append, List.length_cons, List.length_nil]; omega), List.append_assoc]
    rfl

/-- A parser that stands in PAYLOAD is back there after a sequence. -/
theorem setParser_back {s : State} (hp : s.link.parser = .payload) (hdue : s.link.stallDue = none) (p : Parser) :
    setParser .payload (setParser p s) = s := by
  simp only [setParser, modLink, if_true, ← hp, ← hdue]

/-- The last byte of a sequence carries its directive out. -/
theorem sendByte_directive {i : Instr} {u s : State} {b code : Byte} (hw : i.wellFormed = true) (hc : directiveCode i = some code)
    (h : opDownstreamByte b u = takeDirective code (directiveParams i) s) : sendByte u b = some (finish (opOf i s)) := by
  rw [sendByte, h, takeDirective, directiveBytesReadBack i code hw hc]
  exact congrArg (fun t => some (finish t)) (directiveOp_eq (by rw [hc]; rfl) s)

/-- The code of a directive lies in the range of the codes (R1). -/
theorem isDirectiveCode_of {i : Instr} {code : Byte} (h : directiveCode i = some code) :
    isDirectiveCode code = true ∧ code ≠ 0xC5#8 := by
  cases i <;> first | cases h; decide | cases h

/-- Settles O7: the bytes that begin a sequence and those it gathers change the parser; the last one carries the directive out. -/
theorem directiveSentInBytesIsTheCommand : Obligations.DirectiveSentInBytesIsTheCommand := by
  intro i s hw hcode hs hp hdue
  obtain ⟨code, hc⟩ := Option.isSome_iff_exists.mp hcode
  obtain ⟨hrange, hne⟩ := isDirectiveCode_of hc
  have hlen := directiveParams_length hw
  have hbytes : directiveBytes i = 0xC5#8 :: code :: BitVec.ofNat 8 (directiveParams i).length :: directiveParams i := by
    rw [directiveBytes, hc]; rfl
  have hshift : sendByte s 0xC5#8 = some (setParser .shifted s) :=
    sendByte_parser hs ((opDownstreamByte_payload hp).trans (if_pos rfl))
  have hcount : sendByte (setParser .shifted s) code = some (setParser (.count code) (setParser .shifted s)) :=
    sendByte_parser hs ((opDownstreamByte_shifted rfl).trans (by rw [if_neg hne, if_pos hrange]))
  rw [exec_eq i s]
  change (directiveBytes i).foldlM sendByte s = some (finish (opOf i s))
  rw [hbytes, foldlM_sendByte hshift, foldlM_sendByte hcount]
  rcases List.eq_nil_or_concat (directiveParams i) with hnil | ⟨init, last, hlast⟩
  · have hlastByte : sendByte (setParser (.count code) (setParser .shifted s)) 0#8 = some (finish (opOf i s)) := by
      refine sendByte_directive hw hc ?_
      rw [opDownstreamByte_count rfl, if_pos rfl, hnil]
      exact congrArg _ (setParser_back hp hdue _)
    rw [hnil]
    exact foldlM_sendByte hlastByte
  · have hinit : (directiveParams i).length = init.length + 1 := by simp [hlast]
    have hn : (BitVec.ofNat 8 (directiveParams i).length).toNat = init.length + 1 := by
      rw [hinit, BitVec.toNat_ofNat]
      omega
    generalize hnum : BitVec.ofNat 8 (directiveParams i).length = n at hn
    have hzero : n ≠ 0#8 := by rintro rfl; simp at hn
    have hnumber := sendByte_parser (u := setParser (.count code) (setParser .shifted s)) hs
      ((opDownstreamByte_count rfl).trans (if_neg hzero))
    have hgather := gather_params code n init [] (setParser (.params code n []) (setParser (.count code) (setParser .shifted s)))
      hs rfl rfl (by simp only [List.length_nil]; omega)
    rw [foldlM_sendByte hnumber, hlast, List.concat_eq_append, List.foldlM_append, hgather]
    refine foldlM_sendByte (v := finish (opOf i s)) (sendByte_directive hw hc ?_)
    rw [opDownstreamByte_params_last rfl hn, endParams, if_neg (by omega), hlast, List.concat_eq_append]
    exact congrArg _ (setParser_back hp hdue _)

/-! ### Payload delivery (R8, R9) -/

/-- No frame is chosen outside DATA, while one is on the line, or after a received CLEAR. -/
theorem chooseFrame_of_not {l : Line} {s : State}
    (h : s.st l ≠ .data ∨ (s.line l).dl.sending ≠ none ∨ (s.line l).dl.clear = .received) : chooseFrame l s = s :=
  if_pos h

theorem targetFree_targetOf (s : State) (l : Line) : targetFree s (targetOf l) = some (2048 - (s.line l).dl.tx.length) := by
  cases l <;> rfl

theorem deliverPayload_line {s : State} {l : Line} (b : Byte) (h : s.link.target = targetOf l) :
    deliverPayload b s = if lineAccepts s l then acceptLineByte l b s else discardByte (targetOf l) s := by
  cases l <;> rw [deliverPayload, h] <;> rfl

/-- A byte joins the transmit queue of a line on which no frame can begin. -/
theorem acceptLineByte_eq {s : State} {l : Line} (b : Byte) (ht : s.link.target = targetOf l)
    (hbusy : s.st l ≠ .data ∨ (s.line l).dl.sending ≠ none) :
    acceptLineByte l b s = { s.setLine l { s.line l with
        dl := { (s.line l).dl with tx := (s.line l).dl.tx ++ [b], formDue := some (s.now + 20) } } with
      link := { s.link with lhold := s.link.lhold || decide (2048 - ((s.line l).dl.tx.length + 1) < 64) } } := by
  have hjoined : lholdJoined (targetOf l) (modDl l (fun d => { d with tx := d.tx ++ [b], formDue := some (s.now + 20) }) s) =
      { s.setLine l { s.line l with
          dl := { (s.line l).dl with tx := (s.line l).dl.tx ++ [b], formDue := some (s.now + 20) } } with
        link := { s.link with lhold := s.link.lhold || decide (2048 - ((s.line l).dl.tx.length + 1) < 64) } } := by
    simp only [lholdJoined, targetFree_targetOf, modDl_line, modDl_link, List.length_append, List.length_cons,
      List.length_nil, Nat.zero_add]
    by_cases hlow : 2048 - ((s.line l).dl.tx.length + 1) < 64
    · rw [if_pos ⟨ht, hlow⟩, decide_eq_true hlow, Bool.or_true]; cases l <;> rfl
    · rw [if_neg fun hc => hlow hc.2, decide_eq_false hlow, Bool.or_false]; cases l <;> rfl
  rw [acceptLineByte, hjoined, chooseFrame_of_not]
  cases l <;> exact hbusy.imp id .inl

/-- A target that does not take a byte discards it. -/
theorem deliverPayload_discard {s : State} (b : Byte)
    (h : s.link.target = .none ∨
      (∃ l, s.link.target = targetOf l ∧ (s.st l = .idle ∨ s.st l = .ringing ∨ 2048 ≤ (s.line l).dl.tx.length)) ∨
      s.link.target = .store ∧ (hostWriteOpen s = false ∨ hostWriteRoom s = 0)) :
    deliverPayload b s = discardByte s.link.target s := by
  rcases h with h | ⟨l, h, hl⟩ | ⟨h, hstore⟩
  · rw [deliverPayload, h]
  · have hno : lineAccepts s l = false := decide_eq_false (by
      rintro ⟨hi, hr, hlen⟩
      rcases hl with hl | hl | hl
      · exact hi hl
      · exact hr hl
      · omega)
    rw [deliverPayload_line b h, hno, h]
    rfl
  · have hno : ¬(hostWriteOpen s = true ∧ hostWriteRoom s ≠ 0) := by
      rintro ⟨ho, hr⟩
      rcases hstore with hs | hs
      · rw [hs] at ho; exact Bool.noConfusion ho
      · exact hr hs
    rw [deliverPayload, h]
    exact if_neg hno

/-- Settles O9: the byte reaches the target in PAYLOAD or as the second of a doubled shift; a line takes it, or it is discarded. -/
theorem payloadByteJoinsOrIsDiscarded : Obligations.PayloadByteJoinsOrIsDiscarded := by
  refine ⟨fun l b s u hs hpos ht hidle hring hroom hbusy => ?_, fun b s hs hp hne htarget => ⟨?_, ?_, ?_⟩⟩
  · have hop : opDownstreamByte b s = deliverPayload b u := by
      rcases hpos with ⟨hp, hne, rfl⟩ | ⟨hp, rfl, rfl⟩
      · exact (opDownstreamByte_payload hp).trans (if_neg hne)
      · exact (opDownstreamByte_shifted hp).trans (if_pos rfl)
    have hu : u.line l = s.line l ∧ u.link.target = s.link.target ∧ u.now = s.now ∧ u.requests = s.requests := by
      rcases hpos with ⟨-, -, rfl⟩ | ⟨-, -, rfl⟩
      · exact ⟨rfl, rfl, rfl, rfl⟩
      · cases l <;> exact ⟨rfl, rfl, rfl, rfl⟩
    obtain ⟨hline, htu, hnow, hreq⟩ := hu
    have haccepts : lineAccepts u l = true := decide_eq_true (by
      unfold State.st at hidle hring ⊢
      rw [hline]; exact ⟨hidle, hring, hroom⟩)
    have hbusy' : u.st l ≠ .data ∨ (u.line l).dl.sending ≠ none := by
      unfold State.st at hbusy ⊢
      rw [hline]; exact hbusy
    refine exec_of_op ?_ ?_
    · refine hop.trans ?_
      rw [deliverPayload_line b (htu.trans ht), haccepts, if_pos rfl, acceptLineByte_eq b (htu.trans ht) hbusy', hline, hnow]
    · cases l <;> exact hreq.trans hs
  all_goals
    have hop : opDownstreamByte b s = discardByte s.link.target s :=
      (opDownstreamByte_payload hp).trans ((if_neg hne).trans (deliverPayload_discard b htarget))
  · intro hflag hroom
    refine exec_of_op (hop.trans ?_) (by simp [hs])
    simp only [discardByte, hflag, reportFits, decide_eq_true hroom]
    rfl
  · intro hflag hfull
    refine exec_of_op (hop.trans ?_) hs
    simp only [discardByte, hflag, reportFits, decide_eq_false (Nat.not_lt.mpr hfull)]
    exact queueReport_full _ _ hfull
  · intro hflag
    exact exec_of_op (hop.trans (if_pos hflag)) hs

end Sys2Proof.Machine
end

section
/-! PROOFS. The tables of the message store, and the payload units of the upstream path that read from it (R13, R151). -/

namespace Sys2Proof.Machine

/-! ### The directory, the streams and the port -/

/-- While a transfer is under way the port grants nothing. -/
theorem storeKick_of_grant {s : State} (h : s.store.grant ≠ none) : storeKick s = s := by
  rw [storeKick, storeKickFuel, if_pos (Option.isSome_iff_ne_none.mpr h)]

theorem find?_updateWhere {α : Type} (p : α → Bool) (f : α → α) (hp : ∀ x, p (f x) = p x) (xs : List α) :
    (updateWhere p f xs).find? p = (xs.find? p).map f := by
  induction xs with
  | nil => rfl
  | cons x rest ih =>
    rw [updateWhere, List.map_cons, ← updateWhere]
    cases hx : p x <;> simp [hx, hp, ih]

theorem find?_updateWhere_other {α : Type} (p q : α → Bool) (f : α → α) (hq : ∀ x, q (f x) = q x)
    (hpq : ∀ x, q x = true → p x = false) (xs : List α) : (updateWhere p f xs).find? q = xs.find? q := by
  induction xs with
  | nil => rfl
  | cons x rest ih =>
    rw [updateWhere, List.map_cons, ← updateWhere]
    cases hx : q x
    · cases hpx : p x <;> simp [hx, hq, ih]
    · simp [hx, hpq x hx]

/-- Two changes of the same members in turn. -/
theorem updateWhere_updateWhere {α : Type} (p : α → Bool) (f g : α → α) (hp : ∀ x, p (f x) = p x) (xs : List α) :
    updateWhere p g (updateWhere p f xs) = updateWhere p (fun x => g (f x)) xs := by
  simp only [updateWhere, List.map_map]
  refine List.map_congr_left fun x _ => ?_
  simp only [Function.comp]
  cases h : p x <;> simp [h, hp]

/-- A changed entry is found as it was changed. -/
theorem findEntry_modEntry (id : Nat) {f : Entry → Entry} (hf : ∀ e, (f e).id = e.id) (s : State) :
    findEntry (modEntry id f s) id = (findEntry s id).map f :=
  find?_updateWhere _ _ (fun e => by rw [hf]) _

theorem findEntry_modEntry_other {id id' : Nat} (hid : id' ≠ id) {f : Entry → Entry} (hf : ∀ e, (f e).id = e.id) (s : State) :
    findEntry (modEntry id f s) id' = findEntry s id' :=
  find?_updateWhere_other _ _ _ (fun e => by rw [hf]) (fun e he => by simp at he ⊢; omega) _

/-- The entry found is one of its id. -/
theorem findEntry_id {s : State} {id : Nat} {e : Entry} (h : findEntry s id = some e) : e.id = id := by
  simpa using List.find?_some (show List.find? _ s.store.dir = some e from h)

theorem findWriter_id {s : State} {id : Nat} {w : WStream} (h : findWriter s id = some w) : w.id = id := by
  simpa using List.find?_some (show List.find? _ s.store.writers = some w from h)

@[simp] theorem modEntry_grant (id : Nat) (f : Entry → Entry) (s : State) : (modEntry id f s).store.grant = s.store.grant := rfl
@[simp] theorem setReader_grant (o : Owner) (r : Option RStream) (s : State) : (setReader o r s).store.grant = s.store.grant := by
  rcases o with (_ | _) | _ <;> rfl
@[simp] theorem setReader_dir (o : Owner) (r : Option RStream) (s : State) : (setReader o r s).store.dir = s.store.dir := by
  rcases o with (_ | _) | _ <;> rfl
@[simp] theorem findEntry_setReader (o : Owner) (r : Option RStream) (s : State) (id : Nat) :
    findEntry (setReader o r s) id = findEntry s id := by
  rw [findEntry, setReader_dir]; rfl

/-- A reference is returned that is not the last one of a withdrawn message: the count falls by one. -/
theorem returnRef_of_kept {s : State} {id : Nat} {e : Entry} (he : findEntry s id = some e)
    (hkept : e.erasePending = false ∨ 2 ≤ e.inUse) :
    returnRef id s = modEntry id (fun e => { e with inUse := e.inUse - 1 }) s := by
  have hfind := findEntry_modEntry id (f := fun e => { e with inUse := e.inUse - 1 }) (fun _ => rfl) s
  rw [he, Option.map_some] at hfind
  simp only [returnRef, hfind]
  refine if_neg fun ⟨hzero, hpending, _⟩ => ?_
  rcases hkept with h | h
  · rw [h] at hpending; exact Bool.noConfusion hpending
  · have : e.inUse - 1 = 0 := hzero
    omega

/-- A reading stream is closed while the port is busy, its reference not the last one of a withdrawn message. -/
theorem closeReader_of_kept {s : State} {o : Owner} {r : RStream} {e : Entry} (hr : readerOf s o = some r)
    (hgrant : s.store.grant ≠ none) (he : findEntry s r.id = some e) (hkept : e.erasePending = false ∨ 2 ≤ e.inUse) :
    closeReader o s = modEntry r.id (fun e => { e with inUse := e.inUse - 1 }) (setReader o none s) := by
  have hret := returnRef_of_kept (s := setReader o none s) ((findEntry_setReader o none s r.id).trans he) hkept
  rw [closeReader, hr]
  dsimp only
  rw [hret, storeKick_of_grant (by simpa using hgrant)]

/-! ### A byte sent upstream -/

/-- A byte of a line's receive queue has been sent, where the link has nothing to tell the far end. -/
theorem lineByteSent_eq {s : State} {l : Line} (hlocal : (s.line l).dl.localBusy = false) (hclear : (s.line l).dl.clear ≠ .received)
    (hbusy : s.st l ≠ .data ∨ (s.line l).dl.sending ≠ none) :
    lineByteSent l s = modDl l (fun d => { d with rx := d.rx.drop 1 }) s := by
  simp only [lineByteSent, modDl_line, hlocal, hclear]
  exact chooseFrame_of_not (by simpa using hbusy.imp id .inl)

theorem sourceByteSent_line (s : State) (l : Line) : sourceByteSent (sourceOf l) s = lineByteSent l s := by cases l <;> rfl

theorem sourceReady_line (s : State) (l : Line) : sourceReady s (sourceOf l) = !(s.line l).dl.rx.isEmpty := by cases l <;> rfl

/-- A byte sent in a payload unit, which ends; the arbiter chooses again. -/
theorem opPayloadByteSent_ends {s t : State} {src : Source} {n : Nat} {closing : Bool} (h : s.link.sending = .payload src n closing true)
    (ht : sourceByteSent src s = t) (hend : closing = true ∨ 63 ≤ n ∨ sourceReady t src = false) :
    opPayloadByteSent s = arbiterKick (modLink (fun k => { k with sending := .idle, roundRobin := src.next }) t) := by
  simp only [opPayloadByteSent, arbiterKick_busy (s := s) (.inl (by simp [h])), h, if_true, ht]
  exact if_pos hend

/-- A byte sent in a payload unit, which goes on. -/
theorem opPayloadByteSent_goes_on {s t : State} {src : Source} {n : Nat} (h : s.link.sending = .payload src n false true)
    (ht : sourceByteSent src s = t) (hn : n < 63) (hready : sourceReady t src = true) :
    opPayloadByteSent s = modLink (fun k => { k with sending := .payload src (n + 1) false true }) t := by
  simp only [opPayloadByteSent, arbiterKick_busy (s := s) (.inl (by simp [h])), h, if_true, ht]
  exact if_neg (by simp [hready]; omega)

/-- A byte of the host read stream has been sent: the stream moves on, or the read ends with the message's last byte. -/
theorem hostReadSent_more {s : State} {r : RStream} (hr : s.store.readHost = some r) (hgrant : s.store.grant ≠ none)
    (hmore : r.position + 1 < r.length) :
    hostReadSent s = { s with store := { s.store with readHost := some (r.advance 1) } } := by
  simp only [hostReadSent, hr]
  rw [if_neg (by simp only [RStream.advance]; omega), storeKick_of_grant (by simpa using hgrant)]
  rfl

theorem hostReadSent_last {s : State} {r : RStream} {e : Entry} (hr : s.store.readHost = some r) (hgrant : s.store.grant ≠ none)
    (hlast : r.length ≤ r.position + 1) (he : findEntry s r.id = some e) (hkept : e.erasePending = false ∨ 2 ≤ e.inUse) :
    hostReadSent s = { s with store := { s.store with
      readHost := none
      dir := updateWhere (fun e => decide (e.id = r.id)) (fun e => { e with inUse := e.inUse - 1 }) s.store.dir } } := by
  simp only [hostReadSent, hr]
  rw [if_pos (by simpa only [RStream.advance] using hlast), closeReader_of_kept (o := .host) (show readerOf s .host = some r from hr) hgrant he hkept]
  rfl

/-- Of the last bytes read, one has been sent. -/
theorem advance_one_of_held {r : RStream} {b : Byte} {rest : List Byte} (h : r.buffers = [b :: rest]) :
    r.advance 1 = { r with position := r.position + 1, buffers := if rest = [] then [] else [rest] } := by
  cases rest <;> simp [RStream.advance, h, dropHeld]

theorem sourceReady_line_of_length {s : State} {l : Line} : sourceReady s (sourceOf l) = false ↔ (s.line l).dl.rx.length = 0 := by
  rw [sourceReady_line, List.length_eq_zero_iff]
  cases (s.line l).dl.rx <;> simp

/-- The receive queue of the line whose byte has been sent is one byte shorter. -/
theorem rx_length_after_byte (l : Line) (s : State) :
    ((modDl l (fun d => { d with rx := d.rx.drop 1 }) s).line l).dl.rx.length = (s.line l).dl.rx.length - 1 := by
  rw [modDl_line]; exact List.length_drop

/-- Settles O12: a unit of a line, then a unit of the host read stream; each goes on or ends. -/
theorem payloadByteSentLeavesReceiveQueue : Obligations.PayloadByteSentLeavesReceiveQueue := by
  refine ⟨fun l n closing s hs hsend hlocal hclear hbusy => ?_,
    fun n closing r b rest s hs hsend hr hbuf hgrant => ⟨fun hmore => ?_, fun e hlast he _ hkept => ?_⟩⟩
  · have hsent := (sourceByteSent_line s l).trans (lineByteSent_eq hlocal hclear hbusy)
    refine ⟨fun hc hn hlen => ?_, fun hend => ?_⟩
    · have hready : sourceReady (modDl l (fun d => { d with rx := d.rx.drop 1 }) s) (sourceOf l) = true := by
        rw [← Bool.not_eq_false, sourceReady_line_of_length, rx_length_after_byte]; omega
      exact exec_of_op ((opPayloadByteSent_goes_on (hc ▸ hsend) hsent hn hready).trans (by cases l <;> rfl)) (by simp [hs])
    · have hready := fun h : (s.line l).dl.rx.length ≤ 1 => (sourceReady_line_of_length (l := l)).mpr
        ((rx_length_after_byte l s).trans (Nat.sub_eq_zero_of_le h))
      exact exec_of_op ((opPayloadByteSent_ends hsend hsent (hend.imp id (.imp id hready))).trans (by cases l <;> rfl)) (by simp [hs])
  · have hsent := (hostReadSent_more hr hgrant hmore).trans (by rw [advance_one_of_held hbuf])
    refine ⟨fun hc hn hrest => ?_, fun hend => ?_⟩
    · exact exec_of_op (opPayloadByteSent_goes_on (src := .hostRead) (hc ▸ hsend) hsent hn
        (by simp [sourceReady, RStream.held, hrest])) hs
    · exact exec_of_op (opPayloadByteSent_ends (src := .hostRead) hsend hsent (hend.imp id (.imp id fun h => by
        simp [h, sourceReady, RStream.held]))) (by simp [hs])
  · exact exec_of_op (opPayloadByteSent_ends (src := .hostRead) hsend (hostReadSent_last hr hgrant hlast he hkept)
      (.inr (.inr rfl))) (by simp [hs])

end Sys2Proof.Machine
end

section
/-! PROOFS. Commands that act on one table or on one line: MARKREAD (R59), RELEASE (R66), the screen list and the attempt records
(R82, R86), LADDER (R96). -/

namespace Sys2Proof.Machine

/-! ### Bytes and lines -/

@[simp] theorem lineOf_lineByte (l : Line) : lineOf (lineByte l) = some l := by cases l <;> rfl

theorem lineOf_eq_none {b : Byte} (h : b.toNat = 0 ∨ 2 < b.toNat) : lineOf b = none := by
  rw [lineOf, if_neg (by omega), if_neg (by omega)]

/-- A number below 256 in one byte. -/
theorem oneByte_of_lt {n : Nat} (h : n < 256) : oneByte n = [BitVec.ofNat 8 n] := by
  simp [oneByte, numBytes, h]

/-! ### MARKREAD -/

theorem opMarkread_capture {l : Line} {s : State} {c : Capture} (h : (s.line l).det.oldest = some c) :
    opMarkread (lineByte l) s = queueReport (.mark l false (s.line l).det.overflow (some c.entry) c.digit c.position c.lineTime)
      ((done 0x6D#8 .ok (oneByte ((s.line l).det.occupied - 1)) s).setLine l
        { s.line l with det := (s.line l).det.freeOldest }) := by
  simp only [opMarkread, lineOf_lineByte, h, modDet, done_line]

/-- Settles O31, by which of the two slots is occupied and the older. -/
theorem markreadReadsTheOldestCapture : Obligations.MarkreadReadsTheOldestCapture := by
  refine fun line l s hs => ⟨fun hl => exec_of_op (?_ : opMarkread line s = _) (by simp [hs]), ?_⟩
  · rw [opMarkread, lineOf_eq_none hl]
  · rintro rfl
    have answer {t : State} (h : opMarkread (lineByte l) s = t) (ht : t.requests = []) :
        exec (.markread (lineByte l)) s = .next t := exec_of_op h ht
    refine ⟨fun c h0 h1 => ?_, fun c h0 h1 => ?_, fun a b h0 h1 hold => ?_, fun a b h0 h1 hold => ?_, fun h0 h1 => ?_⟩
    · refine answer ((opMarkread_capture (c := c) ?_).trans ?_) (by simp [hs]) <;>
        simp [Detector.oldest, Detector.oldestIsSlot1, Detector.freeOldest, Detector.occupied, h0, h1, oneByte_of_lt]
    · refine answer ((opMarkread_capture (c := c) ?_).trans ?_) (by simp [hs]) <;>
        simp [Detector.oldest, Detector.oldestIsSlot1, Detector.freeOldest, Detector.occupied, h0, h1, oneByte_of_lt]
    · refine answer ((opMarkread_capture (c := a) ?_).trans ?_) (by simp [hs]) <;>
        simp [Detector.oldest, Detector.oldestIsSlot1, Detector.freeOldest, Detector.occupied, h0, h1, hold, oneByte_of_lt]
    · refine answer ((opMarkread_capture (c := b) ?_).trans ?_) (by simp [hs]) <;>
        simp [Detector.oldest, Detector.oldestIsSlot1, Detector.freeOldest, Detector.occupied, h0, h1, hold, oneByte_of_lt]
    · refine answer ?_ (by simp [hs])
      simp [opMarkread, Detector.oldest, Detector.oldestIsSlot1, h0, h1, oneByte_of_lt]

/-! ### RELEASE -/

/-- Settles O34, check by check. -/
theorem releaseChecksAndGraceful : Obligations.ReleaseChecksAndGraceful := by
  refine fun line kind l s hs => ⟨fun h => exec_of_op (?_ : opRelease line kind s = _) (by simp [hs]), ?_, ?_, ?_⟩
  · rw [opRelease]
    cases hline : lineOf line with
    | none => rfl
    | some l =>
      refine if_pos ?_
      rw [hline] at h
      rintro (rfl | rfl) <;> simp at h
  · rintro rfl hk hst
    refine exec_of_op (?_ : opRelease (lineByte l) kind s = _) (by simp [hs])
    simp only [opRelease, lineOf_lineByte, if_neg (not_not_intro hk)]
    exact if_pos (by rcases hst with h | h | h <;> rw [h] <;> rfl)
  · rintro rfl rfl hst hclear
    refine exec_of_op (?_ : opRelease (lineByte l) 1#8 s = _) (by simp [hs])
    simp only [opRelease, lineOf_lineByte, hst]
    exact if_pos hclear
  · rintro rfl rfl hst hclear hsend
    refine exec_of_op (?_ : opRelease (lineByte l) 1#8 s = _) (by simp [hs])
    simp only [opRelease, lineOf_lineByte, hst, hclear]
    exact (chooseFrame_of_not (.inr (.inl (by simpa using hsend)))).trans (by simp [modDl])

/-! ### The screen list and the attempt records -/

/-- What an entry that passes the checks of R82 is made of. -/
theorem screenEntryOf_eq_some {f : ScreenParams} {e : ScreenEntry} (h : screenEntryOf f = some e) :
    ∃ p d a, patternOf f.patternLength f.pattern = some p ∧ ScreenDir.ofCode f.direction.toNat = some d ∧
      ScreenAction.ofCode f.action.toNat f.argument.toNat = some a ∧ a.allowed d = true ∧
      ((p = .withheld ∨ p = .none) → d ≠ .outgoing) ∧ (∀ m, a = .route m → m ≤ 7) := by
  unfold screenEntryOf at h
  split at h
  case h_2 => cases h
  case h_1 p d a hp hd ha =>
    split_ifs at h with hall hpat
    refine ⟨p, d, a, hp, hd, ha, by simpa using hall, fun hw hout => hpat ⟨hw, hout⟩, ?_⟩
    rintro m rfl
    exact Nat.not_lt.mp fun hm => by simp [hm] at h

/-- What the checks of R82 refuse. -/
theorem opScreenWrite_badParam {index : Byte} {f : ScreenParams} {s : State}
    (h : ∀ e, screenEntryOf f = some e → 31 < index.toNat) : opScreenWrite index f s = done 0x53#8 .badParam [] s := by
  cases he : screenEntryOf f with
  | none => rw [opScreenWrite, he]
  | some e => rw [opScreenWrite, he]; exact if_pos (h e he)

theorem screenDir_le_of_ofCode {n : Nat} {d : ScreenDir} (h : ScreenDir.ofCode n = some d) : n ≤ 2 := by
  by_contra hn
  obtain ⟨k, rfl⟩ : ∃ k, n = k + 3 := ⟨n - 3, by omega⟩
  cases h

theorem screenAction_le_of_ofCode {n x : Nat} {a : ScreenAction} (h : ScreenAction.ofCode n x = some a) : n ≤ 6 := by
  by_contra hn
  obtain ⟨k, rfl⟩ : ∃ k, n = k + 7 := ⟨n - 7, by omega⟩
  cases h

/-- A pattern of digits is a pattern. -/
theorem patternOf_digits {length : Byte} {bytes : List Byte} (hd : bytes.all isDigitChar = true) (h1 : 1 ≤ bytes.length)
    (h20 : bytes.length ≤ 20) (hlen : length.toNat = bytes.length) :
    patternOf length bytes = some (.digits (bytes.map .digit) false) := by
  have hsyms : ∀ bs : List Byte, bs.all isDigitChar = true → bs.mapM patSym = some (bs.map .digit) := by
    intro bs
    induction bs with
    | nil => intro _; rfl
    | cons b rest ih =>
      intro hb
      simp only [List.all_cons, Bool.and_eq_true] at hb
      simp [List.mapM_cons, patSym, hb.1, ih hb.2]
  have hstar : bytes.getLast? ≠ some 0x2A#8 := fun hl => by
    have := List.all_eq_true.mp hd _ (List.mem_of_getLast? hl)
    simp [isDigitChar] at this
  have hfe : length ≠ 0xFE#8 := by rintro rfl; simp at hlen; omega
  have hff : length ≠ 0xFF#8 := by rintro rfl; simp at hlen; omega
  rw [patternOf, if_neg hfe, if_neg hff, if_neg (by omega)]
  simp [hstar, hsyms bytes hd]

/-- Settles O39: the refusals and the acceptance of SCREEN WRITE, then SCREEN DELETE and ATTEMPTCLEAR. -/
theorem screenAndAttemptTablesAct : Obligations.ScreenAndAttemptTablesAct := by
  refine ⟨fun index f s hs => ⟨fun hbad => ?_, fun d hi hd h1 h20 hlen hdir hne hact => ?_, fun hi => ?_, fun hi he => ?_,
    fun e hi he => ?_⟩, fun s hs hlen => ?_⟩
  · refine exec_of_op (opScreenWrite_badParam fun e he => ?_) (by simp [hs])
    obtain ⟨p, d, a, hp, hd, ha, hall, hpat, hroute⟩ := screenEntryOf_eq_some he
    have hd2 := screenDir_le_of_ofCode hd
    have ha6 := screenAction_le_of_ofCode ha
    rcases hbad with h | h | h | ⟨h4, h7⟩ | ⟨h1, h0⟩ | ⟨h2, h0⟩ | ⟨h254, h1⟩
    · exact h
    · omega
    · omega
    · rw [h4] at ha
      have := hroute _ (Option.some_injective _ ha).symm
      omega
    · rw [h0] at hd
      obtain rfl : ScreenDir.incoming = d := Option.some_injective _ hd
      obtain hc | hc : f.action.toNat = 0 ∨ f.action.toNat = 1 := by omega
      all_goals
        rw [hc] at ha
        obtain rfl := Option.some_injective _ ha
        cases hall
    · have hin : d = .incoming := by
        obtain hc | hc | hc | hc | hc : f.action.toNat = 2 ∨ f.action.toNat = 3 ∨ f.action.toNat = 4 ∨ f.action.toNat = 5 ∨
          f.action.toNat = 6 := by omega
        all_goals
          rw [hc] at ha
          obtain rfl := Option.some_injective _ ha
          exact of_decide_eq_true hall
      subst hin
      have hzero : f.direction.toNat = 0 := by
        obtain hc | hc | hc : f.direction.toNat = 0 ∨ f.direction.toNat = 1 ∨ f.direction.toNat = 2 := by omega
        · exact hc
        all_goals rw [hc] at hd; cases hd
      exact absurd (BitVec.eq_of_toNat_eq hzero) h0
    · rw [h1] at hd
      obtain rfl : ScreenDir.outgoing = d := Option.some_injective _ hd
      refine absurd rfl (hpat ?_)
      obtain hc | hc : f.patternLength = 0xFE#8 ∨ f.patternLength = 0xFF#8 := by bv_omega
      · rw [hc] at hp; exact .inl (Option.some_injective _ hp).symm
      · rw [hc] at hp; exact .inr (Option.some_injective _ hp).symm
  · refine exec_of_op (?_ : opScreenWrite index f s = _) (by simp [hs])
    have he : screenEntryOf f = some ⟨.digits (f.pattern.map .digit) false, d, .bar⟩ := by
      simp [screenEntryOf, patternOf_digits hd h1 h20 hlen, hdir, hact, ScreenAction.ofCode, ScreenAction.allowed, hne]
    simp only [opScreenWrite, he]
    rw [if_neg (by omega)]
    simp only [done_eq]
  · exact exec_of_op (if_pos hi) (by simp [hs])
  · refine exec_of_op (?_ : opScreenDelete index s = _) (by simp [hs])
    simp only [opScreenDelete, he]
    exact if_neg (by omega)
  · refine exec_of_op (?_ : opScreenDelete index s = _) (by simp [hs])
    simp only [opScreenDelete, he, done_eq]
    exact if_neg (by omega)
  · refine exec_of_op (?_ : opAttemptclear s = _) (by simp [hs])
    have hcount : (s.attempts.filter Option.isSome).length < 256 := by
      have := List.length_filter_le Option.isSome s.attempts
      omega
    simp [opAttemptclear, oneByte_of_lt hcount, done_eq, List.map_const', hlen]

/-! ### LADDER -/

/-- A rung as carried, for a mode that is named. -/
def namedRung (p : RungParams) : Rung :=
  ⟨Mode.all.getD p.mode.toNat .l3, p.u.toNat, p.d.toNat, p.x.toNat⟩

theorem rungOf_eq (p : RungParams) : rungOf p = if p.mode.toNat ≤ 7 then some (namedRung p) else none := by
  have hlen : Mode.all.length = 8 := rfl
  split <;> rename_i h
  · rw [rungOf, namedRung, Mode.ofCode, List.getElem?_eq_getElem (by omega), List.getD_eq_getElem _ _ (by omega)]; rfl
  · rw [rungOf, Mode.ofCode, List.getElem?_eq_none (by omega)]; rfl

theorem mapM_rungOf (raw : List RungParams) :
    raw.mapM rungOf = if ∀ p ∈ raw, p.mode.toNat ≤ 7 then some (raw.map namedRung) else none := by
  induction raw with
  | nil => rfl
  | cons p rest ih =>
    rw [List.mapM_cons, ih, rungOf_eq]
    simp only [List.forall_mem_cons]
    by_cases hp : p.mode.toNat ≤ 7
    · by_cases hrest : ∀ p ∈ rest, p.mode.toNat ≤ 7
      · rw [if_pos hp, if_pos hrest, if_pos ⟨hp, hrest⟩]; rfl
      · rw [if_pos hp, if_neg hrest, if_neg (not_and_of_not_right _ hrest)]; rfl
    · rw [if_neg hp, if_neg (not_and_of_not_left _ hp)]; rfl

/-- The index of a named mode is its place in the catalogue. -/
theorem rung_mode_code {p : RungParams} (h : p.mode.toNat ≤ 7) : (namedRung p).mode.code = p.mode.toNat := by
  have hall : ∀ n ≤ 7, (Mode.all.getD n .l3).code = n := by decide
  exact hall _ h

theorem ascendingModes_iff (ms : List Mode) : ascendingModes ms = true ↔ ms.IsChain (fun a b => a.code < b.code) := by
  induction ms with
  | nil => simp [ascendingModes]
  | cons a rest ih =>
    cases rest with
    | nil => simp [ascendingModes]
    | cons b rest => simp [ascendingModes, ih, Mode.below]

theorem ascendingModes_rungs {raw : List RungParams} (h : ∀ p ∈ raw, p.mode.toNat ≤ 7) :
    ascendingModes ((raw.map namedRung).map (·.mode)) = true ↔
      ∀ (i : Nat) (a b : RungParams), raw[i]? = some a → raw[i + 1]? = some b → a.mode.toNat < b.mode.toNat := by
  rw [ascendingModes_iff, List.isChain_iff_getElem]
  simp only [List.length_map, List.getElem_map]
  constructor
  · intro hc i a b ha hb
    obtain ⟨hi, rfl⟩ := List.getElem?_eq_some_iff.mp hb
    obtain ⟨hj, rfl⟩ := List.getElem?_eq_some_iff.mp ha
    have := hc i hi
    rwa [rung_mode_code (h _ (List.getElem_mem hj)), rung_mode_code (h _ (List.getElem_mem hi))] at this
  · intro hc i hi
    have := hc i raw[i] raw[i + 1] (List.getElem?_eq_getElem _) (List.getElem?_eq_getElem _)
    rwa [rung_mode_code (h _ (List.getElem_mem _)), rung_mode_code (h _ (List.getElem_mem _))]

/-- The checks of values of R96. -/
def LadderValid (raw : List RungParams) : Prop :=
  raw ≠ [] ∧ raw.length ≤ 8 ∧ (∀ r ∈ raw, r.mode.toNat ≤ 7 ∧ r.u.toNat < r.d.toNat ∧ r.d.toNat < r.x.toNat) ∧
    ∀ (i : Nat) (a b : RungParams), raw[i]? = some a → raw[i + 1]? = some b → a.mode.toNat < b.mode.toNat

theorem ladderOf_of_valid {raw : List RungParams} (h : LadderValid raw) : ladderOf raw = some (raw.map namedRung) := by
  obtain ⟨hne, hlen, hvals, hasc⟩ := h
  have hmodes : ∀ p ∈ raw, p.mode.toNat ≤ 7 := fun p hp => (hvals p hp).1
  rw [ladderOf, mapM_rungOf, if_pos hmodes]
  refine if_pos ⟨?_, ?_, (ascendingModes_rungs hmodes).mpr hasc, ?_⟩
  · rw [List.length_map]; exact List.length_pos_iff.mpr hne
  · rwa [List.length_map]
  · rw [List.all_map, List.all_eq_true]
    exact fun p hp => decide_eq_true (hvals p hp).2

theorem ladderValid_of_ladderOf {raw : List RungParams} {rungs : List Rung} (h : ladderOf raw = some rungs) : LadderValid raw := by
  rw [ladderOf, mapM_rungOf] at h
  by_cases hmodes : ∀ p ∈ raw, p.mode.toNat ≤ 7
  · rw [if_pos hmodes] at h
    obtain ⟨⟨h1, h8, hasc, hvals⟩, -⟩ := Option.ite_none_right_eq_some.mp h
    rw [List.length_map] at h1 h8
    rw [List.all_map, List.all_eq_true] at hvals
    exact ⟨List.length_pos_iff.mp h1, h8, fun p hp => ⟨hmodes p hp, of_decide_eq_true (hvals p hp)⟩,
      (ascendingModes_rungs hmodes).mp hasc⟩
  · rw [if_neg hmodes] at h; cases h

theorem faxRungs_length_le (rungs : List Rung) : (faxRungs rungs).length ≤ rungs.length := by
  simpa [faxRungs] using List.length_filter_le _ (List.range rungs.length)

/-- Settles O42: the checks of values, and the ladder they pass. -/
theorem ladderChecksThenLoads : Obligations.LadderChecksThenLoads := by
  refine fun raw s hs => ⟨fun hbad => ?_, fun hne hlen hvals hasc =>
    ⟨raw.map namedRung, List.length_map .., fun i p hp => ?_, fun ⟨l, hl⟩ => ?_, fun hfree => ?_⟩⟩
  · refine exec_of_op (?_ : opLadder raw s = _) (by simp [hs])
    suffices hnone : ladderOf raw = none by rw [opLadder, hnone]
    refine Option.eq_none_iff_forall_ne_some.mpr fun rungs hr => ?_
    obtain ⟨hne, hlen, hvals, hasc⟩ := ladderValid_of_ladderOf hr
    rcases hbad with ⟨r, hr, h⟩ | h | h | ⟨i, a, b, ha, hb, h⟩
    · have := hvals r hr; omega
    · exact hne h
    · omega
    · have := hasc i a b ha hb; omega
  · have hm := (hvals p (List.mem_of_getElem? hp)).1
    refine ⟨namedRung p, by simp [hp], ?_, rfl, rfl, rfl⟩
    exact (List.getElem?_eq_getElem (by simp; omega)).trans (congrArg some (List.getD_eq_getElem _ _ (by simp; omega)).symm)
  · refine exec_of_op (?_ : opLadder raw s = _) (by simp [hs])
    simp only [opLadder, ladderOf_of_valid ⟨hne, hlen, hvals, hasc⟩]
    refine if_pos ?_
    cases l <;> simp [lineCarries, hl]
  · refine exec_of_op (?_ : opLadder raw s = _) (by simp [hs])
    have hrungs : (raw.map namedRung).length < 256 := by rw [List.length_map]; omega
    simp only [opLadder, ladderOf_of_valid ⟨hne, hlen, hvals, hasc⟩, done_eq, oneByte_of_lt hrungs,
      oneByte_of_lt ((faxRungs_length_le _).trans_lt hrungs)]
    exact if_neg (by simp [lineCarries, hfree])

end Sys2Proof.Machine
end

section
/-! PROOFS. The data link (Chapter 6): received frames, acknowledgements, the choice of the next frame and the timers. -/

namespace Sys2Proof.Machine

/-! ### The data link of a line -/

theorem modDl_modDl (l : Line) (f g : DataLink → DataLink) (s : State) : modDl l g (modDl l f s) = modDl l (fun d => g (f d)) s := by
  cases l <;> rfl

/-- Two changes of a data link that agree on the link as it stands. -/
theorem modDl_congr {l : Line} {f g : DataLink → DataLink} {s : State} (h : f (s.line l).dl = g (s.line l).dl) :
    modDl l f s = modDl l g s := by rw [modDl, h, ← modDl]

theorem modDl_eq_of {l : Line} {f : DataLink → DataLink} {s : State} {d : DataLink} (h : f (s.line l).dl = d) :
    modDl l f s = s.setLine l { s.line l with dl := d } := by rw [modDl, h]

@[simp] theorem currentRate_modDl (l : Line) (f : DataLink → DataLink) (s : State) : currentRate (modDl l f s) l = currentRate s l := by
  simp [currentRate]

@[simp] theorem currentRate_elapse (l : Line) (due : Nat) (s : State) : currentRate (elapse due s) l = currentRate s l := by
  simp [currentRate]

/-- The count forward over up to 63 numbers. -/
theorem seqDist_of_mod {a b n : Nat} (ha : a < 64) (hn : n < 64) (hb : b = (a + n) % 64) : seqDist a b = n := by
  unfold seqDist; omega

theorem startTimer_eq (l : Line) (s : State) :
    startTimer l s = modDl l (fun d => { d with timer := .running (s.now + timerPeriod d.payloadMax (currentRate s l)) }) s := rfl

/-! ### INFO (R127) -/

theorem linkListens_data {s : State} {l : Line} (hst : s.st l = .data) (hclear : (s.line l).dl.clear ≠ .received) :
    linkListens s l = true := decide_eq_true ⟨hst, hclear⟩

/-- With nothing on the retransmit list an acknowledgement number removes nothing. -/
theorem acknowledgeFrames_of_nil {s : State} {l : Line} (n : Nat) (h : (s.line l).dl.list = []) : acknowledgeFrames l n s = s := by
  refine if_neg fun ⟨_, hcount⟩ => ?_
  simp [DataLink.ackCount, h] at hcount

section
variable {s : State} {l : Line} {seq ack : Byte} {payload : List Byte}

theorem opInfo_eq (h1 : 1 ≤ payload.length) (h256 : payload.length ≤ 256) (hst : s.st l = .data)
    (hclear : (s.line l).dl.clear ≠ .received) (hlist : (s.line l).dl.list = []) :
    opInfo l seq ack payload s = chooseFrame l (receiveInfo l seq.toNat payload s) := by
  rw [opInfo, if_neg (by omega), if_pos (linkListens_data hst hclear), acknowledgeFrames_of_nil _ hlist]

theorem acceptPayload_eq (hbusy : s.link.sending ≠ .idle ∨ s.link.hhold = true) :
    acceptPayload l payload s =
      if (s.line l).dl.localBusy = false ∧ 4096 - ((s.line l).dl.rx.length + payload.length) < (s.line l).dl.payloadMax then
        modDl l (fun d => { d with rx := d.rx ++ payload, expected := seqNext d.expected, ackDue := true, rejSent := false,
                                   localBusy := true, rrDue := true }) s
      else modDl l (fun d => { d with rx := d.rx ++ payload, expected := seqNext d.expected, ackDue := true, rejSent := false }) s := by
  by_cases h : (s.line l).dl.localBusy = false ∧ 4096 - ((s.line l).dl.rx.length + payload.length) < (s.line l).dl.payloadMax
  · rw [if_pos h, acceptPayload]
    rw [if_pos (by simpa [DataLink.payloadMax] using h), arbiterKick_busy (by simpa using hbusy), modDl_modDl]
  · rw [if_neg h, acceptPayload]
    rw [if_neg (by simpa [DataLink.payloadMax] using h), arbiterKick_busy (by simpa using hbusy)]

/-- A frame on the line: none begins behind a change of the link that leaves the frame there. -/
theorem chooseFrame_modDl_busy {f : DataLink → DataLink} (hsend : (s.line l).dl.sending ≠ none)
    (hf : (f (s.line l).dl).sending = (s.line l).dl.sending) : chooseFrame l (modDl l f s) = modDl l f s :=
  chooseFrame_of_not (.inr (.inl (by rw [modDl_line]; exact hf ▸ hsend)))

end

theorem badFrameTaken_eq {s : State} {l : Line} (h : (s.line l).dl.clear ≠ .received) : badFrameTaken l s = s.setLine l { s.line l with
    modem := { (s.line l).modem with q := min 65535 ((s.line l).modem.q + (s.line l).profile.linkPenalty) } } := if_neg h

/-- Settles O47: an INFO by its number against the expected one, then the bad frames. -/
theorem infoIsAcceptedOrRejected : Obligations.InfoIsAcceptedOrRejected := by
  refine ⟨fun l seq ack payload s hs hst hclear hsend hlist hbusy => ⟨fun h1 h256 hseq hlt hroom => ?_, fun n h1 h256 hn1 hn8 hseq hexp => ?_⟩,
    fun l seq ack payload bytes s hs => ⟨fun hclear => ⟨fun h => ?_, fun h => ?_⟩, fun hclear => ⟨?_, ?_⟩, fun h => ?_⟩⟩
  · have hop : opInfo l seq ack payload s = chooseFrame l (acceptPayload l payload s) := by
      rw [opInfo_eq h1 h256 hst hclear hlist, receiveInfo, if_neg (by omega), if_pos hseq, if_pos hroom]
    rw [acceptPayload_eq hbusy] at hop
    refine ⟨fun hfit => exec_of_op (hop.trans ?_) (by simp [hs]), fun hfull hfree => exec_of_op (hop.trans ?_) (by simp [hs])⟩
    · rw [if_neg (fun ⟨hl, hr⟩ => by rcases hfit with h | h; omega; simp [hl] at h)]
      exact chooseFrame_modDl_busy hsend rfl
    · rw [if_pos ⟨hfree, hfull⟩]
      exact chooseFrame_modDl_busy hsend rfl
  · have hop := opInfo_eq (seq := seq) (ack := ack) h1 h256 hst hclear hlist
    rw [receiveInfo, if_neg (by omega)] at hop
    refine ⟨fun hbefore => exec_of_op (hop.trans ?_) (by simp [hs]), fun hafter hrej => exec_of_op (hop.trans ?_) (by simp [hs]),
      fun hafter hrej => exec_of_op (hop.trans ?_) hs⟩
    · have hdist : seqDist seq.toNat (s.line l).dl.expected = n := seqDist_of_mod hseq (by omega) hbefore.symm
      rw [if_neg (by omega), if_pos (by omega)]
      exact chooseFrame_modDl_busy hsend rfl
    all_goals
      have hdist : seqDist (s.line l).dl.expected seq.toNat = n := seqDist_of_mod hexp (by omega) hafter.symm
      have hback : seqDist seq.toNat (s.line l).dl.expected = 64 - n := seqDist_of_mod hseq (by omega) (by omega)
      rw [if_neg (by omega), if_neg (by omega), if_pos (by omega)]
    · rw [if_neg (by simp [hrej])]
      exact chooseFrame_modDl_busy hsend rfl
    · rw [if_pos hrej]
      exact chooseFrame_of_not (.inr (.inl hsend))
  · exact exec_of_op ((if_pos h).trans (badFrameTaken_eq hclear)) (by simp [hs])
  · exact exec_of_op ((if_neg (by simp [h])).trans (badFrameTaken_eq hclear)) (by simp [hs])
  · refine exec_of_op (?_ : opInfo l seq ack payload s = s) hs
    rw [opInfo, badFrameTaken, if_pos hclear, linkListens, if_neg (c := decide _ = true) (by simp [hclear]), ite_self]
  · refine exec_of_op (?_ : opBadFrame l bytes s = s) hs
    rw [opBadFrame, badFrameTaken, if_pos hclear, ite_self]
  · exact exec_of_op (if_pos h) hs

/-! ### Acknowledgements (R123, R124, R126) -/

section
variable {s : State} {l : Line} {f : InfoFrame} {rest : List InfoFrame} {n ack : Nat}

theorem drop_isEmpty_eq_false {α : Type} (x : α) {xs : List α} {n : Nat} (h : n ≤ xs.length) : ((x :: xs).drop n).isEmpty = false := by
  rw [List.isEmpty_eq_false_iff_exists_mem]
  exact ⟨_, List.getElem_mem (n := 0) (by rw [List.length_drop, List.length_cons]; omega)⟩

/-- An acknowledgement that leaves frames on the list: the first n go, and retry count and timer start again. -/
theorem acknowledgeFrames_eq (hlist : (s.line l).dl.list = f :: rest) (hresend : (s.line l).dl.resend = none) (hf : f.sequence < 64)
    (hsend : (s.line l).dl.send = (f.sequence + rest.length + 1) % 64) (hlen : rest.length < 8) (hn : n ≤ rest.length) (h1 : 1 ≤ n)
    (hack : ack = (f.sequence + n) % 64) :
    (s.line l).dl.ackValid ack = true ∧
    acknowledgeFrames l ack s = modDl l (fun d => { d with
      list := (f :: rest).drop n, retries := 0
      timer := .running (s.now + timerPeriod d.payloadMax (currentRate s l)) }) s := by
  have hdist : seqDist f.sequence ack = n := seqDist_of_mod hf (by omega) hack
  have hall : seqDist f.sequence (s.line l).dl.send = rest.length + 1 := seqDist_of_mod hf (by omega) hsend
  have hvalid : (s.line l).dl.ackValid ack = true := by
    simp only [DataLink.ackValid, hlist, List.head?_cons, hdist, hall]
    exact decide_eq_true ⟨by omega, by omega⟩
  have hcount : (s.line l).dl.ackCount ack = n := by
    simp only [DataLink.ackCount, hlist, List.head?_cons, hdist, List.length_cons]
    omega
  refine ⟨hvalid, ?_⟩
  have hleft := drop_isEmpty_eq_false f hn
  rw [acknowledgeFrames, if_pos ⟨hvalid, by omega⟩, hcount, hlist, restartTimer, if_pos]
  · rw [startTimer_eq, modDl_modDl]
    exact modDl_congr (by simp [hresend, DataLink.resendAfter, DataLink.payloadMax])
  · simp [DataLink.timerRuns, hleft]

end

/-- Settles O48: the acknowledgement, then what RR, RNR and REJ each add to it. -/
theorem acknowledgementsMoveTheList : Obligations.AcknowledgementsMoveTheList := by
  intro l ack poll f rest n s hs hst hclear hsend hlist hremote hresend hf hnext hlen hn h1 hack
  obtain ⟨hvalid, hacked⟩ := acknowledgeFrames_eq hlist hresend hf hnext hlen hn h1 hack
  have hlisten := linkListens_data hst hclear
  have hleft := drop_isEmpty_eq_false f hn
  refine ⟨?_, fun _ => ?_, ?_⟩
  · refine exec_of_op (?_ : opRr l ack poll s = _) (by simp [hs])
    rw [opRr, if_pos hlisten, hacked, remoteReady, if_neg (by simp [hremote]), pollReceived, modDl_modDl]
    exact chooseFrame_modDl_busy hsend rfl
  · refine exec_of_op (?_ : opRnr l ack poll s = _) (by simp [hs])
    rw [opRnr, if_pos hlisten, hacked]
    dsimp only
    rw [modDl_modDl, settleTimer]
    dsimp only
    rw [if_pos (by simp [DataLink.timerRuns]), if_neg (by simp), pollReceived, modDl_modDl]
    exact chooseFrame_modDl_busy hsend rfl
  · refine exec_of_op (?_ : opRej l ack s = _) (by simp [hs])
    rw [opRej, if_pos ⟨hlisten, hvalid⟩, hacked]
    dsimp only
    rw [modDl_modDl, restartTimer, if_pos (by simp [DataLink.timerRuns, hleft]), startTimer_eq, modDl_modDl]
    refine (chooseFrame_modDl_busy hsend rfl).trans (modDl_eq_of ?_)
    simp [hleft, hremote, DataLink.payloadMax]

/-! ### The choice of the next frame (R121, R122) -/

/-- The transmitter is free: in DATA, with no frame on the line and no CLEAR received. -/
def LinkFree (s : State) (l : Line) : Prop := s.st l = .data ∧ (s.line l).dl.sending = none ∧ (s.line l).dl.clear ≠ .received

section
variable {s : State} {l : Line}

/-- The choice of a free transmitter with no RATE frame, REJ, RR or RNR due. -/
theorem chooseFrame_free (h : LinkFree s l) (hrate : (s.line l).dl.rateQueue = []) (hrej : (s.line l).dl.rejDue = false)
    (hrr : (s.line l).dl.rrDue = false) (hpoll : (s.line l).dl.pollDue = false) : chooseFrame l s =
      match (s.line l).dl.resendFrame with
      | some f => beginResend l f s
      | none =>
        if mayForm s l then beginNew l s
        else if (s.line l).dl.ackDue then beginAck l s
        else if (s.line l).dl.clearReady then modDl l (fun d => { d with sending := some .clear, clearSent := true }) s
        else s := by
  obtain ⟨hst, hsend, hclear⟩ := h
  simp only [chooseFrame, hst, hsend, hclear, hrate, hrej, hrr, hpoll, ne_eq, not_true_eq_false, or_self, if_false, Bool.or_self,
    Bool.false_eq_true] <;> rfl

theorem chooseFrame_rate {g : Frame} {rest : List Frame} (h : LinkFree s l) (hrate : (s.line l).dl.rateQueue = g :: rest) :
    chooseFrame l s = modDl l (fun d => { d with sending := some g, rateQueue := rest }) s := by
  obtain ⟨hst, hsend, hclear⟩ := h
  simp only [chooseFrame, hst, hsend, hclear, hrate, ne_eq, not_true_eq_false, or_self, if_false]

theorem chooseFrame_rej (h : LinkFree s l) (hrate : (s.line l).dl.rateQueue = []) (hrej : (s.line l).dl.rejDue = true) :
    chooseFrame l s = modDl l (fun d => { d with sending := some (.rej d.expected), rejDue := false, ackDue := false }) s := by
  obtain ⟨hst, hsend, hclear⟩ := h
  simp only [chooseFrame, hst, hsend, hclear, hrate, hrej, ne_eq, not_true_eq_false, or_self, if_false, if_true]

theorem chooseFrame_rr (h : LinkFree s l) (hrate : (s.line l).dl.rateQueue = []) (hrej : (s.line l).dl.rejDue = false)
    (hdue : (s.line l).dl.rrDue = true ∨ (s.line l).dl.pollDue = true) : chooseFrame l s = beginAck l s := by
  obtain ⟨hst, hsend, hclear⟩ := h
  have hor : ((s.line l).dl.rrDue || (s.line l).dl.pollDue) = true := by simpa using hdue
  simp only [chooseFrame, hst, hsend, hclear, hrate, hrej, hor, ne_eq, not_true_eq_false, or_self, if_false, if_true,
    Bool.false_eq_true]

/-- The frame at the resend point is the first of its number. -/
theorem resendFrame_of {d : DataLink} {before after : List InfoFrame} {g : InfoFrame} (hremote : d.remoteBusy = false)
    (hlist : d.list = before ++ g :: after) (hresend : d.resend = some g.sequence) (hfirst : ∀ h ∈ before, h.sequence ≠ g.sequence) :
    d.resendFrame = some g := by
  have hnone : before.find? (fun f => decide (f.sequence = g.sequence)) = none :=
    List.find?_eq_none.mpr fun h hh => by simpa using hfirst h hh
  rw [DataLink.resendFrame, hremote, if_neg Bool.false_ne_true, hresend, hlist]
  simp [List.find?_append, hnone]

/-- Neither is there a frame to resend nor may a new one be formed. -/
theorem not_mayForm_of (h : (s.line l).dl.remoteBusy = true ∨ (s.line l).dl.resend = none ∧
      ((s.line l).dl.windowSize ≤ (s.line l).dl.list.length ∨ (s.line l).dl.clearForced = true ∨
        (s.line l).dl.tx.length < (s.line l).dl.payloadMax ∧
          ((s.line l).dl.tx = [] ∨ ∃ wait, (s.line l).dl.formDue = some wait ∧ s.now < wait))) :
    (s.line l).dl.resendFrame = none ∧ mayForm s l = false := by
  rcases h with h | ⟨hr, h | h | ⟨hlen, h | ⟨wait, hw, h⟩⟩⟩
  · exact ⟨if_pos h, by simp [mayForm, h]⟩
  all_goals refine ⟨by simp [DataLink.resendFrame, hr], ?_⟩
  · simp [mayForm, Nat.not_lt.mpr h]
  · simp [mayForm, h]
  · have hpos : (s.line l).dl.payloadMax ≠ 0 := by omega
    simp [mayForm, h, hpos]
  · simp [mayForm, formingOver, hw, Nat.not_le.mpr h, Nat.not_le.mpr hlen]

/-- A new INFO frame begins, the line not being the target. -/
theorem beginNew_eq (ht : s.link.target ≠ targetOf l) : beginNew l s = modDl l (fun d => { d with
      tx := d.tx.drop d.payloadMax, list := d.list ++ [⟨d.send, d.tx.take d.payloadMax⟩], send := (d.send + 1) % 64
      sending := some (.info d.send d.expected (d.tx.take d.payloadMax)), ackDue := false
      timer := if d.list = [] then .running (s.now + timerPeriod d.payloadMax (currentRate s l)) else d.timer }) s := by
  have hdrop : (s.line l).dl.tx.drop (min (s.line l).dl.payloadMax (s.line l).dl.tx.length) = (s.line l).dl.tx.drop (s.line l).dl.payloadMax := by
    rcases Nat.le_total (s.line l).dl.payloadMax (s.line l).dl.tx.length with h | h
    · rw [Nat.min_eq_left h]
    · rw [Nat.min_eq_right h, List.drop_length, List.drop_eq_nil_of_le h]
  have hleft {t : State} (ht' : t.link = s.link) : lholdLeft (targetOf l) t = t := by
    rw [lholdLeft, targetFree_targetOf]
    exact if_neg fun ⟨h, _⟩ => ht (ht' ▸ h)
  rw [beginNew]
  by_cases hlist : (s.line l).dl.list = []
  · rw [if_pos (by simp [hlist]), hleft (by simp [startTimer]), startTimer_eq, modDl_modDl]
    refine modDl_congr ?_
    simp [hlist, seqNext, DataLink.payloadMax]
  · rw [if_neg (by simpa using hlist), hleft (by simp)]
    refine modDl_congr ?_
    simp [hlist, hdrop, seqNext]

theorem mayForm_of (hclear : (s.line l).dl.clear ≠ .received) (hremote : (s.line l).dl.remoteBusy = false) (hresend : (s.line l).dl.resend = none)
    (hlen : (s.line l).dl.list.length < (s.line l).dl.windowSize) (hforced : (s.line l).dl.clearForced = false)
    (htx : (s.line l).dl.payloadMax ≤ (s.line l).dl.tx.length ∨
      (s.line l).dl.tx ≠ [] ∧ (∀ wait, (s.line l).dl.formDue = some wait → wait ≤ s.now)) : mayForm s l = true := by
  have hover : (∀ wait, (s.line l).dl.formDue = some wait → wait ≤ s.now) → formingOver s l = true := by
    intro h
    cases hw : (s.line l).dl.formDue with
    | none => simp [formingOver, hw]
    | some wait => simp [formingOver, hw, h wait hw]
  simp only [mayForm, hlen, hremote, hresend, hclear, hforced, decide_true, Bool.not_false, Bool.and_self, Option.isNone_none, ne_eq,
    not_false_eq_true, Bool.true_and]
  rcases htx with h | ⟨h, hw⟩
  · simp [h]
  · simp [h, hover hw]

end

/-- FRAME_SENT of a frame that is not CLEAR: the transmitter is free and chooses. -/
theorem opFrameSent_eq {s : State} {l : Line} {f : Frame} (hsend : (s.line l).dl.sending = some f) (hf : f ≠ .clear) :
    opFrameSent l s = chooseFrame l (modDl l (fun d => { d with sending := none }) s) := by
  rw [opFrameSent, hsend]
  exact if_neg fun h => hf h.1

theorem modDl_elapse_of {l : Line} {due : Nat} {f : DataLink → DataLink} {s : State} {d : DataLink} (h : f (s.line l).dl = d) :
    modDl l f (elapse due s) = { s.setLine l { s.line l with dl := d } with now := max s.now due } := by
  rw [modDl, elapse_line, h]; cases l <;> rfl

/-- The retransmit timer runs out below the retry limit: a retry is counted, the timer restarts, and the transmitter chooses. -/
theorem opRetransmitTimerExpiry_retry {s : State} {l : Line} {due : Nat} (h : (s.line l).dl.timer = .running due)
    (hretries : (s.line l).dl.retries < 10) : opRetransmitTimerExpiry l s = chooseFrame l (modDl l (fun d => { d with
      retries := d.retries + 1
      resend := if d.remoteBusy then d.resend else d.list.head?.map (·.sequence)
      pollDue := d.pollDue || d.remoteBusy
      timer := .running (max s.now due + timerPeriod d.payloadMax (currentRate s l)) }) (elapse due s)) := by
  simp only [opRetransmitTimerExpiry, h]
  rw [if_neg (by rw [elapse_line]; omega), retry]
  rw [startTimer_eq, modDl_modDl]
  exact congrArg (chooseFrame l) (modDl_congr (by simp [DataLink.payloadMax, currentRate]))

/-- Settles O49: the choice at the end of a frame in its order, then the timers. -/
theorem transmitterChoosesTheNextFrame : Obligations.TransmitterChoosesTheNextFrame := by
  intro l due s hs hst hclear
  refine ⟨fun f hf hne => ?_, ?_, ?_, ?_, ?_⟩
  · have begins {d : DataLink} (h : chooseFrame l (modDl l (fun d => { d with sending := none }) s) =
        s.setLine l { s.line l with dl := d }) : exec (.frameSent l) s = .next (s.setLine l { s.line l with dl := d }) :=
      exec_of_op ((opFrameSent_eq hf hne).trans h) (by simp [hs])
    have hfree : LinkFree (modDl l (fun d => { d with sending := none }) s) l := ⟨by simpa using hst, by simp, by simpa using hclear⟩
    refine ⟨fun g rest hrate => begins ?_, fun hrate => ⟨fun hrej => begins ?_, fun hrej hdue => begins ?_, fun hrej hrr hpoll => ?_⟩⟩
    · exact (chooseFrame_rate hfree (by simpa using hrate)).trans ((modDl_modDl ..).trans (modDl_eq_of rfl))
    · exact (chooseFrame_rej hfree (by simpa using hrate) (by simpa using hrej)).trans ((modDl_modDl ..).trans (modDl_eq_of rfl))
    · exact (chooseFrame_rr hfree (by simpa using hrate) (by simpa using hrej) (by simpa using hdue)).trans
        ((modDl_modDl ..).trans (modDl_eq_of rfl))
    have hchoice := chooseFrame_free hfree (by simpa using hrate) (by simpa using hrej) (by simpa using hrr) (by simpa using hpoll)
    refine ⟨fun before g after hremote hlist hresend hfirst => begins ?_, fun hremote hresend hlen hforced htx ht => begins ?_, fun hno => ?_⟩
    · rw [hchoice, resendFrame_of (g := g) (before := before) (after := after) (by simpa using hremote) (by simpa using hlist)
        (by simpa using hresend) hfirst]
      exact (modDl_modDl ..).trans (modDl_eq_of rfl)
    · have hnone : ((modDl l (fun d => { d with sending := none }) s).line l).dl.resendFrame = none := by
        simp [DataLink.resendFrame, hresend]
      rw [hchoice, hnone]
      dsimp only
      rw [if_pos (mayForm_of (by simpa using hclear) (by simpa using hremote) (by simpa using hresend)
        (by rw [modDl_line]; exact hlen) (by simpa using hforced) (by rw [modDl_line, modDl_now]; exact htx)), beginNew_eq (by simpa using ht), modDl_modDl]
      exact modDl_eq_of (by simp [DataLink.payloadMax])
    · obtain ⟨hnone, hmay⟩ := not_mayForm_of (s := modDl l (fun d => { d with sending := none }) s) (l := l)
        (by rw [modDl_line, modDl_now]; exact hno)
      rw [hnone, hmay, if_neg Bool.false_ne_true] at hchoice
      refine ⟨fun hack => begins ?_, fun hack hgraceful hsent hempty => begins ?_, fun hack hnot => begins ?_⟩
      · rw [hchoice, if_pos (by simpa using hack)]
        exact (modDl_modDl ..).trans (modDl_eq_of (by simp [hrr, hpoll, DataLink.ackFrame]))
      · rw [hchoice, if_neg (by simp [hack]), if_pos]
        · exact (modDl_modDl ..).trans (modDl_eq_of rfl)
        · simpa [DataLink.clearReady, hgraceful, hsent] using hempty
      · rw [hchoice, if_neg (by simp [hack]), if_neg]
        · exact modDl_eq_of rfl
        · rw [modDl_line]
          rcases hnot with h | h | ⟨h, ht | ht⟩ <;> simp_all [DataLink.clearReady]
  · intro hdue hsend hrate hrej hrr hpoll hresend hremote hforced hlist hwindow htx hlen ht
    refine exec_of_op (?_ : opFormingDelayEnd l s = _) (by simp [hs])
    have hmay : mayForm (modDl l (fun d => { d with formDue := none }) (elapse due s)) l = true := by
      refine mayForm_of ?_ ?_ ?_ ?_ ?_ ?_ <;> rw [modDl_line, elapse_line]
      · exact hclear
      · exact hremote
      · exact hresend
      · rw [hlist]; exact hwindow
      · exact hforced
      · exact .inr ⟨htx, fun _ h => nomatch h⟩
    have hnone : ((modDl l (fun d => { d with formDue := none }) (elapse due s)).line l).dl.resendFrame = none := by
      simp [DataLink.resendFrame, hresend]
    simp only [opFormingDelayEnd, hdue]
    rw [chooseFrame_free ⟨by simpa using hst, by simpa using hsend, by simpa using hclear⟩ (by simpa using hrate) (by simpa using hrej)
      (by simpa using hrr) (by simpa using hpoll), hnone]
    dsimp only
    rw [if_pos hmay, beginNew_eq (by simpa using ht), modDl_modDl]
    refine modDl_elapse_of ?_
    have hdrop := List.drop_eq_nil_of_le hlen
    have htake := List.take_of_length_le hlen
    simp only [DataLink.payloadMax] at hdrop htake
    simp [hlist, DataLink.payloadMax, hdrop, htake]
  · intro htimer hretries hsend hremote
    refine exec_of_op ((opRetransmitTimerExpiry_retry htimer hretries).trans ?_) (by simp [hs])
    refine (chooseFrame_modDl_busy (by simpa using hsend) rfl).trans (modDl_elapse_of ?_)
    simp [hremote, DataLink.payloadMax]
  · intro htimer hretries hremote
    refine ⟨fun hsend => ?_, fun hsend hrate hrej => ?_⟩ <;>
      refine exec_of_op ((opRetransmitTimerExpiry_retry htimer hretries).trans ?_) (by simp [hs])
    · refine (chooseFrame_modDl_busy (by simpa using hsend) rfl).trans (modDl_elapse_of ?_)
      simp [hremote, DataLink.payloadMax]
    · refine (chooseFrame_rr ⟨by simpa using hst, by simpa using hsend, by simpa using hclear⟩ (by simpa using hrate)
        (by simpa using hrej) (.inr (by simp [hremote]))).trans ((modDl_modDl ..).trans (modDl_elapse_of ?_))
      simp [hremote, DataLink.payloadMax, DataLink.ackFrame]
  · intro hdue hsend
    refine exec_of_op (?_ : opClearTimerExpiry l s = _) (by simp [hs])
    simp only [opClearTimerExpiry, hdue]
    rw [if_pos (by simpa using hst), modDl_modDl]
    exact (chooseFrame_modDl_busy (by simpa using hsend) rfl).trans (modDl_elapse_of rfl)

end Sys2Proof.Machine
end

section
/-! PROOFS. The modem (Chapter 5): rate changes, training, retrains and windows. -/

namespace Sys2Proof.Machine

/-! ### Rate frames (R103 to R106) -/

section
variable {s : State} {l : Line}

theorem handFrame_busy (f : Frame) (hsend : (s.line l).dl.sending ≠ none) :
    handFrame l f s = modDl l (fun d => { d with rateQueue := d.rateQueue ++ [f] }) s := chooseFrame_modDl_busy hsend rfl

theorem reportRate_eq {i : Nat} {r : Rung} (cause : RateCause) (h : s.ladder[i]? = some r) :
    reportRate l i cause s = queueReport (.rate l i r.mode cause) s := by
  rw [reportRate, h]

theorem switchRung_eq {i : Nat} {r : Rung} (cause : RateCause) (h : s.ladder[i]? = some r) :
    switchRung l i cause s = queueReport (.rate l i r.mode cause) (modModem l (fun m => { m with
      window := some (s.line l).profile.freshWindow, rung := some i, holdOff := 10, upCount := 0, burstRun := 0, request := none }) s) :=
  reportRate_eq cause (by simpa using h)

/-- A request for a mode of the call's rungs, the current rung known. -/
theorem opRateRequest_eq {b : Byte} {want : Mode} {cur target : Rung} {i : Nat} (hb : Mode.ofCode b.toNat = some want)
    (hcur : currentRung s l = some cur) (hlisten : linkListens s l = true) (htarget : s.ladder[i]? = some target)
    (hfind : ((s.line l).modem.rungSet.getD []).find? (fun k => decide ((s.ladder[k]?).map (·.mode) = some want)) = some i) :
    opRateRequest l b s =
      if want.below cur.mode then switchRung l i .down (handFrame l (.rateOk want) s)
      else if cur.mode.below want ∧ upshiftAllowed s l cur target then switchRung l i .up (handFrame l (.rateOk want) s)
      else handFrame l (.rate true cur.mode) s := by
  simp only [opRateRequest, hb, hcur, hlisten, hfind, htarget, Bool.true_eq_false, if_false]

theorem not_below_self (m : Mode) : m.below m = false := decide_eq_false (Nat.lt_irrefl _)

theorem not_below_of_below {a b : Mode} (h : a.below b = true) : b.below a = false :=
  decide_eq_false (Nat.not_lt_of_lt (of_decide_eq_true h))

/-- RATE_OK, and the switch that follows it. -/
theorem switchRung_handFrame {f : Frame} {i : Nat} {r : Rung} (cause : RateCause) (hsend : (s.line l).dl.sending ≠ none)
    (h : s.ladder[i]? = some r) : switchRung l i cause (handFrame l f s) = queueReport (.rate l i r.mode cause) (s.setLine l { s.line l with
      dl := { (s.line l).dl with rateQueue := (s.line l).dl.rateQueue ++ [f] }
      modem := { (s.line l).modem with
        window := some (s.line l).profile.freshWindow, rung := some i, holdOff := 10, upCount := 0, burstRun := 0, request := none } }) := by
  rw [handFrame_busy f hsend, switchRung_eq cause (r := r) (by simpa using h)]
  simp [modModem, modDl]

end

/-- Settles O45: refusal, RATE_OK, then the requests by where the mode wanted lies. -/
theorem rateFramesChangeTheRung : Obligations.RateFramesChangeTheRung := by
  intro l b cur target i s hs hst hclear hsend hcur htarget
  have hlisten := linkListens_data hst hclear
  have requested {t : State} (h : opRateRequest l b s = t) (ht : t.requests = []) : exec (.rateRequest l b) s = .next t := exec_of_op h ht
  refine ⟨?_, fun q hq hi hcode => ?_, fun want hb hmode hbelow hfind => ?_, fun want hb hmode hbelow hfind => ⟨fun hnone hlt => ?_, fun hno => ?_⟩,
    fun want hb hno => ?_⟩
  · exact exec_of_op (if_pos hlisten) (by simp [hs])
  · refine exec_of_op (?_ : opRateOk l b s = _) (by simp [hs])
    simp only [opRateOk, hq, hlisten, hcode, hi, Bool.true_eq_false, if_false, if_true]
    exact switchRung_eq _ htarget
  · refine requested ?_ (by simp [hs])
    rw [opRateRequest_eq hb hcur hlisten htarget hfind, if_pos hbelow]
    exact switchRung_handFrame .down hsend htarget
  · refine requested ?_ (by simp [hs])
    rw [opRateRequest_eq hb hcur hlisten htarget hfind, if_neg (by simp [not_below_of_below hbelow]), if_pos]
    · exact switchRung_handFrame .up hsend htarget
    · exact ⟨hbelow, by simp [upshiftAllowed, hnone, hmode, hlt]⟩
  · refine requested ?_ (by simp [hs])
    rw [opRateRequest_eq hb hcur hlisten htarget hfind, if_neg (by simp [not_below_of_below hbelow]), if_neg]
    · exact handFrame_busy _ hsend
    · rintro ⟨-, h⟩
      simp only [upshiftAllowed, hmode, Bool.and_eq_true, Option.isNone_iff_eq_none, decide_eq_true_eq] at h
      exact hno.elim (· h.1) (Nat.not_le.mpr h.2)
  · refine requested ?_ (by simp [hs])
    cases hfind : ((s.line l).modem.rungSet.getD []).find? (fun k => decide ((s.ladder[k]?).map (·.mode) = some want)) with
    | none =>
      simp only [opRateRequest, hb, hcur, hlisten, hfind, Bool.true_eq_false, if_false]
      exact handFrame_busy _ hsend
    | some k =>
      obtain rfl : want = cur.mode := hno.resolve_right fun h => Option.some_ne_none k (hfind.symm.trans h)
      have hk := List.find?_some hfind
      obtain ⟨r, hr, -⟩ := Option.map_eq_some_iff.mp (of_decide_eq_true hk)
      rw [opRateRequest_eq hb hcur hlisten hr hfind, if_neg (by simp [not_below_self]), if_neg (by simp [not_below_self])]
      exact handFrame_busy _ hsend

end Sys2Proof.Machine
end

section
/-! PROOFS. Operations that change one line and the terminal link alone, as functions of the line and the link: monitor conditions (R31,
R33), the expectation of a far-end signal (R32), changes of line state (R63), and the entry to CLEARDOWN of a line without work (R65). -/

namespace Sys2Proof.Machine

/-- The state with a line and the terminal link replaced. -/
def State.put (s : State) (l : Line) (x : LineState) (k : Link) : State := { s.setLine l x with link := k }

section
variable (s : State) (l m : Line) (x y : LineState) (k k' : Link)

@[simp] theorem put_line : (s.put l x k).line l = x := by cases l <;> rfl
@[simp] theorem put_line_other (h : m ≠ l) : (s.put l x k).line m = s.line m := line_setLine_other s l m x h
@[simp] theorem put_st : (s.put l x k).st l = x.call.st := by cases l <;> rfl
@[simp] theorem put_link : (s.put l x k).link = k := rfl
@[simp] theorem put_pins : (s.put l x k).pins = s.pins := setLine_pins s l x
@[simp] theorem put_tones : (s.put l x k).tones = s.tones := setLine_tones s l x
@[simp] theorem put_cadences : (s.put l x k).cadences = s.cadences := setLine_cadences s l x
@[simp] theorem put_screen : (s.put l x k).screen = s.screen := setLine_screen s l x
@[simp] theorem put_attempts : (s.put l x k).attempts = s.attempts := setLine_attempts s l x
@[simp] theorem put_jobs : (s.put l x k).jobs = s.jobs := setLine_jobs s l x
@[simp] theorem put_lastJob : (s.put l x k).lastJob = s.lastJob := setLine_lastJob s l x
@[simp] theorem put_ladder : (s.put l x k).ladder = s.ladder := setLine_ladder s l x
@[simp] theorem put_mailboxes : (s.put l x k).mailboxes = s.mailboxes := setLine_mailboxes s l x
@[simp] theorem put_store : (s.put l x k).store = s.store := setLine_store s l x
@[simp] theorem put_now : (s.put l x k).now = s.now := setLine_now s l x
@[simp] theorem put_samples : (s.put l x k).samples = s.samples := setLine_samples s l x
@[simp] theorem put_requests : (s.put l x k).requests = s.requests := setLine_requests s l x
@[simp] theorem put_pending : (s.put l x k).pending = s.pending := setLine_pending s l x

theorem put_self : s.put l (s.line l) s.link = s := by cases l <;> rfl
@[simp] theorem put_put : (s.put l x k).put l y k' = s.put l y k' := by cases l <;> rfl
@[simp] theorem setLine_put : (s.put l x k).setLine l y = s.put l y k := by cases l <;> rfl

@[simp] theorem modProfile_put (f : Profile → Profile) : modProfile l f (s.put l x k) = s.put l { x with profile := f x.profile } k := by
  cases l <;> rfl
@[simp] theorem modIface_put (f : Iface → Iface) : modIface l f (s.put l x k) = s.put l { x with iface := f x.iface } k := by cases l <;> rfl
@[simp] theorem modDet_put (f : Detector → Detector) : modDet l f (s.put l x k) = s.put l { x with det := f x.det } k := by cases l <;> rfl
@[simp] theorem modCall_put (f : Call → Call) : modCall l f (s.put l x k) = s.put l { x with call := f x.call } k := by cases l <;> rfl
@[simp] theorem modModem_put (f : Modem → Modem) : modModem l f (s.put l x k) = s.put l { x with modem := f x.modem } k := by cases l <;> rfl
@[simp] theorem modDl_put (f : DataLink → DataLink) : modDl l f (s.put l x k) = s.put l { x with dl := f x.dl } k := by cases l <;> rfl
@[simp] theorem modFax_put (f : Fax → Fax) : modFax l f (s.put l x k) = s.put l { x with fax := f x.fax } k := by cases l <;> rfl
@[simp] theorem modVoice_put (f : Voice → Voice) : modVoice l f (s.put l x k) = s.put l { x with voice := f x.voice } k := by cases l <;> rfl
@[simp] theorem modLink_put (f : Link → Link) : modLink f (s.put l x k) = s.put l x (f k) := rfl
@[simp] theorem elapse_put (due : Nat) : elapse due (s.put l x k) = (elapse due s).put l x k := by cases l <;> rfl
@[simp] theorem post_put (r : Request) : post r (s.put l x k) = (post r s).put l x k := by cases l <;> rfl
@[simp] theorem queueReport_put (r : Report) : queueReport r (s.put l x k) = s.put l x (k.push r) := by rw [queueReport_eq]; rfl
@[simp] theorem done_put (c : Byte) (r : Result) (vs : List Byte) : done c r vs (s.put l x k) = s.put l x (k.push (.done c r vs)) :=
  queueReport_put ..
end

/-! ### Monitor conditions (R31, R33) -/

/-- A value put where it stands. -/
theorem PerSource.set_get {α : Type} (p : PerSource α) (src : MonSource) : p.set src (p.get src) = p := by cases src <;> rfl

theorem PerSource.get_all {α : Type} (v : α) (src : MonSource) : (PerSource.all v).get src = v := by cases src <;> rfl

/-- The reported state of a source of a line (R31). -/
def LineState.reported (x : LineState) (src : MonSource) : Bool :=
  (x.profile.monitors.get src).enable &&
    (if (x.profile.monitors.get src).latchEnable then x.iface.latched.get src else x.iface.current.get src)

theorem reportedState_put (s : State) (l : Line) (x : LineState) (k : Link) (src : MonSource) :
    reportedState (s.put l x k) l src = x.reported src := by
  rw [reportedState, put_line]; rfl

/-- The line behind a delivery of a condition. -/
def LineState.deliver (src : MonSource) (v : Bool) (x : LineState) : LineState :=
  { x with iface := { x.iface with
    current := x.iface.current.set src v
    latched := if v = true ∧ x.iface.current.get src = false then x.iface.latched.set src true else x.iface.latched } }

/-- The terminal link behind a delivery of a condition. -/
def Link.deliver (l : Line) (src : MonSource) (v : Bool) (x : LineState) (k : Link) : Link :=
  if (x.deliver src v).reported src = x.reported src then k
  else k.push (.monitor l src (x.profile.monitors.get src).cls ((x.deliver src v).reported src))

/-- A condition delivered as it stands. -/
theorem LineState.deliver_of_get {x : LineState} {src : MonSource} {v : Bool} (h : x.iface.current.get src = v) : x.deliver src v = x := by
  subst h
  rw [LineState.deliver, PerSource.set_get, if_neg (by rintro ⟨h1, h2⟩; rw [h1] at h2; cases h2)]

theorem Link.deliver_of_get {l : Line} {x : LineState} {src : MonSource} {v : Bool} (h : x.iface.current.get src = v) (k : Link) :
    k.deliver l src v x = k := by
  rw [Link.deliver, LineState.deliver_of_get h, if_pos rfl]

theorem setCondition_put (s : State) (l : Line) (x : LineState) (k : Link) (src : MonSource) (v : Bool) :
    setCondition l src v (s.put l x k) = s.put l (x.deliver src v) (k.deliver l src v x) := by
  rw [setCondition, put_line]
  by_cases h : x.iface.current.get src = v
  · rw [if_pos h, LineState.deliver_of_get h, Link.deliver_of_get h]
  · have hline : ({ x with iface := { x.iface with
        current := x.iface.current.set src v
        latched := if v then x.iface.latched.set src true else x.iface.latched } } : LineState) = x.deliver src v := by
      cases v <;> simp_all [LineState.deliver]
    rw [if_neg h, modIface_put, reportedState_put, hline, monitorChange, reportedState_put, Link.deliver]
    by_cases hr : (x.deliver src v).reported src = x.reported src
    · rw [if_pos hr, if_pos hr]
    · rw [if_neg hr, if_neg hr, queueReport_put, monitorReport, reportedState_put, put_line]; rfl

/-! ### The expectation of a far-end signal (R32) -/

/-- A far-end signal is expected on a line. -/
def LineState.expects (x : LineState) : Bool :=
  decide (x.call.st = .train ∨ x.call.st = .data ∨ x.call.st = .fax ∨ x.voice.sub = some .recording)

/-- The line with its expectation, the counts of LEVEL_LOW started again. -/
def LineState.setExpecting (e : Bool) (x : LineState) : LineState :=
  { x with iface := { x.iface with expecting := e, lowRun := 0, highRun := 0 } }

/-- The line behind a judgement of its expectation. -/
def LineState.judge (x : LineState) : LineState :=
  if x.iface.expecting = x.expects then x
  else if x.expects then x.setExpecting true else (x.setExpecting false).deliver .levelLow false

/-- The terminal link behind a judgement of the expectation. -/
def Link.judge (l : Line) (x : LineState) (k : Link) : Link :=
  if x.iface.expecting = x.expects ∨ x.expects = true then k else k.deliver l .levelLow false (x.setExpecting false)

theorem judgeExpectation_put (s : State) (l : Line) (x : LineState) (k : Link) :
    judgeExpectation l (s.put l x k) = s.put l x.judge (k.judge l x) := by
  have he : farEndExpected (s.put l x k) l = x.expects := by rw [farEndExpected, put_st, put_line]; rfl
  simp only [judgeExpectation, he, put_line, modIface_put]
  by_cases h : x.iface.expecting = x.expects
  · rw [if_pos h, LineState.judge, if_pos h, Link.judge, if_pos (.inl h)]
  · rw [if_neg h, LineState.judge, if_neg h]
    cases hx : x.expects
    · rw [if_neg Bool.false_ne_true, if_neg Bool.false_ne_true, Link.judge, if_neg (by simp [hx] at h ⊢; exact h)]
      exact setCondition_put ..
    · rw [if_pos rfl, if_pos rfl, Link.judge, if_pos (.inr hx)]; rfl

/-! ### Changes of line state (R63) -/

/-- The line in a state, with a reason and the line time. -/
def LineState.setSt (st : LineSt) (reason : LineReason) (now : Nat) (x : LineState) : LineState :=
  { x with call := { x.call with
    st := st, reason := some reason, leftAt := if x.call.st = .idle then now else x.call.leftAt } }

/-- The line behind a change of its state. -/
def LineState.enter (st : LineSt) (reason : LineReason) (now : Nat) (x : LineState) : LineState :=
  if x.call.st.carries ∧ st.carries = false then (x.setSt st reason now).judge.deliver .freqLimit false
  else (x.setSt st reason now).judge

/-- The terminal link behind a change of line state. -/
def Link.enter (l : Line) (st : LineSt) (reason : LineReason) (missed : Option (Nat × Option CallerRecord)) (now : Nat) (x : LineState)
    (k : Link) : Link :=
  let judged := (k.push (.line l st reason missed)).judge l (x.setSt st reason now)
  if x.call.st.carries ∧ st.carries = false then judged.deliver l .freqLimit false (x.setSt st reason now).judge else judged

theorem changeStateWith_put (s : State) (l : Line) (x : LineState) (k : Link) (st : LineSt) (reason : LineReason)
    (missed : Option (Nat × Option CallerRecord)) :
    changeStateWith l st reason missed (s.put l x k) = s.put l (x.enter st reason s.now) (k.enter l st reason missed s.now x) := by
  have hset : ({ x with call := { x.call with
      st := st, reason := some reason, leftAt := if x.call.st = .idle then s.now else x.call.leftAt } } : LineState) =
    x.setSt st reason s.now := rfl
  simp only [changeStateWith, put_st, put_now, modCall_put, queueReport_put, hset, judgeExpectation_put, setCondition_put]
  by_cases h : x.call.st.carries = true ∧ st.carries = false
  · rw [if_pos h, LineState.enter, if_pos h, Link.enter, if_pos h]
  · rw [if_neg h, LineState.enter, if_neg h, Link.enter, if_neg h]

theorem changeState_put (s : State) (l : Line) (x : LineState) (k : Link) (st : LineSt) (reason : LineReason) :
    changeState l st reason (s.put l x k) = s.put l (x.enter st reason s.now) (k.enter l st reason none s.now x) :=
  changeStateWith_put ..

/-! ### What these changes leave of a line -/

/-- A judgement of the expectation moves the expectation, the counts and the monitor states alone. -/
theorem LineState.judge_frame (x : LineState) : x.judge = { x with iface := { x.iface with
    expecting := x.judge.iface.expecting, lowRun := x.judge.iface.lowRun, highRun := x.judge.iface.highRun
    current := x.judge.iface.current, latched := x.judge.iface.latched } } := by
  unfold LineState.judge
  split_ifs <;> rfl

/-- A change of line state moves, besides the call's state, reason and line time, what a judgement moves. -/
theorem LineState.enter_frame (x : LineState) (st : LineSt) (reason : LineReason) (now : Nat) : x.enter st reason now = { x with
    call := (x.setSt st reason now).call
    iface := { x.iface with
      expecting := (x.enter st reason now).iface.expecting, lowRun := (x.enter st reason now).iface.lowRun
      highRun := (x.enter st reason now).iface.highRun, current := (x.enter st reason now).iface.current
      latched := (x.enter st reason now).iface.latched } } := by
  unfold LineState.enter
  split_ifs <;> (rw [LineState.judge_frame (x.setSt st reason now)]; rfl)

theorem PerSource.get_set_other {α : Type} (p : PerSource α) {a b : MonSource} (h : a ≠ b) (v : α) : (p.set b v).get a = p.get a := by
  cases a <;> cases b <;> first | rfl | exact absurd rfl h

theorem PerSource.get_set_self {α : Type} (p : PerSource α) (a : MonSource) (v : α) : (p.set a v).get a = v := by cases a <;> rfl

theorem LineState.judge_current {x : LineState} {src : MonSource} (h : src ≠ .levelLow) :
    x.judge.iface.current.get src = x.iface.current.get src := by
  unfold LineState.judge
  split_ifs
  · rfl
  · rfl
  · exact PerSource.get_set_other _ h _

theorem LineState.enter_current {x : LineState} {src : MonSource} (st : LineSt) (reason : LineReason) (now : Nat) (h : src ≠ .levelLow)
    (h' : src ≠ .freqLimit) : (x.enter st reason now).iface.current.get src = x.iface.current.get src := by
  unfold LineState.enter
  split_ifs
  · exact (PerSource.get_set_other _ h' _).trans (LineState.judge_current h)
  · exact LineState.judge_current h

/-- No monitor condition of the line is set. -/
def LineState.Quiet (x : LineState) : Prop := x.iface.current = .all false

theorem LineState.Quiet.get {x : LineState} (h : x.Quiet) (src : MonSource) : x.iface.current.get src = false := by
  rw [h, PerSource.get_all]

theorem LineState.Quiet.judge {x : LineState} (h : x.Quiet) : x.judge.Quiet := by
  unfold LineState.judge
  split_ifs
  · exact h
  · exact h
  · exact (congrArg (fun y : LineState => y.iface.current) (LineState.deliver_of_get (x := x.setExpecting false) (h.get _))).trans h

theorem Link.judge_of_quiet {x : LineState} (h : x.Quiet) (l : Line) (k : Link) : k.judge l x = k := by
  unfold Link.judge
  split_ifs
  · rfl
  · exact Link.deliver_of_get (x := x.setExpecting false) (h.get _) k

theorem LineState.Quiet.enter {x : LineState} (h : x.Quiet) (st : LineSt) (reason : LineReason) (now : Nat) :
    (x.enter st reason now).Quiet := by
  have hj : (x.setSt st reason now).judge.Quiet := LineState.Quiet.judge (x := x.setSt st reason now) h
  unfold LineState.enter
  split_ifs
  · rwa [LineState.deliver_of_get (hj.get _)]
  · exact hj

/-- With no condition set a change of line state queues its LINE report alone. -/
theorem Link.enter_of_quiet {x : LineState} (h : x.Quiet) (l : Line) (st : LineSt) (reason : LineReason)
    (missed : Option (Nat × Option CallerRecord)) (now : Nat) (k : Link) :
    k.enter l st reason missed now x = k.push (.line l st reason missed) := by
  have hset : (x.setSt st reason now).Quiet := h
  unfold Link.enter
  rw [Link.judge_of_quiet hset]
  split_ifs
  · exact Link.deliver_of_get (hset.judge.get _) _
  · rfl

/-! ### The entry to CLEARDOWN (R65) -/

/-- The line on-hook. -/
def LineState.onHook (x : LineState) : LineState :=
  { x with iface := { x.iface with hook := false, loop := .onHook, loopSuspended := false } }

theorem releaseHook_put (s : State) (l : Line) (x : LineState) (k : Link) :
    releaseHook l (s.put l x k) = s.put l (x.onHook.deliver .loopLoss false) (k.deliver l .loopLoss false x.onHook) := by
  rw [releaseHook, modIface_put]; exact setCondition_put ..

/-- No tone sounds, and no fax session, voice operation or reference of the call is there. -/
structure LineState.Workless (x : LineState) : Prop where
  tone : x.iface.tone = none
  role : x.fax.role = none
  sub : x.voice.sub = none
  refHeld : x.call.refHeld = false

/-- The call as it stands in CLEARDOWN, before its 2 s timer. -/
def Call.released (r : ReleaseReason) (c : Call) : Call :=
  { c with
    cr := { c.cr with release := some r }
    ringDue := none, dialToneDue := none, blindDue := none, progressDue := none, watchDue := none, classifyDue := none
    digitDue := none, step := .none, stepDue := none, firstRing := false, watchArmed := false }

/-- The line as its blocks have ended their work. -/
def LineState.ended (x : LineState) : LineState :=
  { x with
    modem := { x.modem with window := none, request := none, phase := none, trainDue := none, probeDue := none, repeatDue := none }
    dl := { x.dl with
      sending := none, timer := .stopped, clearDue := none, formDue := none, rateQueue := []
      rejDue := false, rrDue := false, pollDue := false, clearForced := false
      clear := if x.dl.clear = .graceful then .none else x.dl.clear }
    voice := initialVoice }

/-- The line on-hook in CLEARDOWN, its blocks having ended their work. -/
def LineState.released (r : ReleaseReason) (now : Nat) (x : LineState) : LineState :=
  let x := (x.enter .cleardown (.release r) now).onHook.deliver .loopLoss false
  { x with call := x.call.released r }.ended

/-- The terminal link with the reports of the entry to CLEARDOWN. -/
def Link.released (l : Line) (r : ReleaseReason) (now : Nat) (x : LineState) (k : Link) : Link :=
  ((k.enter l .cleardown (.release r) none now x).deliver l .loopLoss false (x.enter .cleardown (.release r) now).onHook).judge l
    (x.released r now)

/-- The line in CLEARDOWN with its 2 s timer. -/
def LineState.cleardown (r : ReleaseReason) (now : Nat) (x : LineState) : LineState :=
  { (x.released r now).judge with call := { (x.released r now).call with cleardownDue := some (now + 2000) } }

theorem clearTimers_modRecord_put (s : State) (l : Line) (x : LineState) (k : Link) (r : ReleaseReason) :
    clearTimers l (modRecord l (fun cr => { cr with release := some r }) (s.put l x k)) = s.put l { x with call := x.call.released r } k := by
  rw [modRecord, modCall_put, clearTimers, modCall_put]; rfl

theorem endWork_put (s : State) (l : Line) {x : LineState} (k : Link) (r : ReleaseReason) (ht : x.iface.tone = none)
    (hr : x.fax.role = none) (hv : x.voice.sub = none) :
    endWork l r (s.put l x k) = s.put l x.ended.judge (k.judge l x.ended) := by
  have htone : silenceTone l (s.put l x k) = s.put l x k := by rw [silenceTone, put_line, ht]
  have hfax {y : LineState} (hy : y.fax.role = none) : endFax l r (s.put l y k) = s.put l y k := by rw [endFax, put_line, hy]
  have hvoice {y : LineState} (hy : y.voice.sub = none) :
      endVoice l r (s.put l y k) = judgeExpectation l (s.put l { y with voice := initialVoice } k) := by
    rw [endVoice]
    simp only [put_line, hy, modVoice_put]
  rw [endWork, htone, stopModem, modModem_put, stopLink, modDl_put, hfax (by exact hr), hvoice (by exact hv), judgeExpectation_put]
  rfl

/-- The work of a line is not touched by what changes call state and interface. -/
theorem LineState.enter_onHook_deliver_frame (x : LineState) (st : LineSt) (reason : LineReason) (now : Nat) :
    let y := (x.enter st reason now).onHook.deliver .loopLoss false
    y.iface.tone = x.iface.tone ∧ y.fax = x.fax ∧ y.voice = x.voice ∧ y.call = (x.setSt st reason now).call := by
  intro y
  change (x.enter st reason now).iface.tone = _ ∧ (x.enter st reason now).fax = _ ∧ (x.enter st reason now).voice = _ ∧
    (x.enter st reason now).call = _
  rw [LineState.enter_frame]
  exact ⟨rfl, rfl, rfl, rfl⟩

/-- With no reference held by the call nothing is returned. -/
theorem returnCallRef_put {x : LineState} (s : State) (l : Line) (k : Link) (h : x.call.refHeld = false) :
    returnCallRef l (s.put l x k) = s.put l x k := by
  rw [returnCallRef, put_line, h]; rfl

/-- The entry to CLEARDOWN of a line without work: what is left is to settle job and attempt record. -/
theorem enterCleardown_put (s : State) (l : Line) {x : LineState} (k : Link) (r : ReleaseReason) (h : x.Workless) :
    enterCleardown l r (s.put l x k) =
      let u := s.put l (x.released r s.now).judge (k.released l r s.now x)
      let v := if x.call.st = .cleardown then u else settleAttempt l r (settleJob l r u)
      modCall l (fun c => { c with cleardownDue := some (v.now + 2000) }) v := by
  obtain ⟨ht, hf, hv, hc⟩ := x.enter_onHook_deliver_frame .cleardown (.release r) s.now
  have href : (x.released r s.now).judge.call.refHeld = false := by
    rw [LineState.judge_frame]
    exact (congrArg Call.refHeld hc).trans h.refHeld
  have hu : returnCallRef l (endWork l r (clearTimers l (modRecord l (fun cr => { cr with release := some r })
      (releaseHook l (changeState l .cleardown (.release r) (s.put l x k)))))) =
      s.put l (x.released r s.now).judge (k.released l r s.now x) := by
    rw [changeState_put, releaseHook_put, clearTimers_modRecord_put, endWork_put _ _ _ _ (by exact ht.trans h.tone)
      (by exact (congrArg Fax.role hf).trans h.role) (by exact (congrArg Voice.sub hv).trans h.sub)]
    exact returnCallRef_put _ _ _ href
  rw [enterCleardown]
  dsimp only
  rw [hu, put_st]

/-- The records of a call that has failed change the attempt records alone. -/
theorem settleFailure_eq (number : List Byte) (s : State) : settleFailure number s = { s with attempts := (settleFailure number s).attempts } := by
  have hp : prepareAttempt number s = { s with attempts := (prepareAttempt number s).attempts } := by
    unfold prepareAttempt
    dsimp only
    repeat' split
    all_goals rfl
  unfold settleFailure
  by_cases hi : (attemptIndex s number).isSome = true
  · simp only [if_pos hi]
    split <;> rfl
  · simp only [if_neg hi]
    rw [hp]
    split <;> rfl

theorem settleAttempt_eq (l : Line) (r : ReleaseReason) (s : State) :
    settleAttempt l r s = { s with attempts := (settleAttempt l r s).attempts } := by
  unfold settleAttempt
  dsimp only
  split_ifs
  · exact settleFailure_eq _ _
  · rfl

/-- The entry to CLEARDOWN of a line without work and without a job. -/
theorem enterCleardown_put_of_no_job (s : State) (l : Line) {x : LineState} (k : Link) (r : ReleaseReason) (h : x.Workless)
    (hjob : x.call.cr.job = none) : enterCleardown l r (s.put l x k) =
      let u := s.put l (x.released r s.now).judge (k.released l r s.now x)
      { s.put l (x.cleardown r s.now) (k.released l r s.now x) with
        attempts := if x.call.st = .cleardown then s.attempts else (settleAttempt l r u).attempts } := by
  have hcall : (x.released r s.now).judge.call.cr.job = none := by
    rw [LineState.judge_frame]
    exact (congrArg (fun c : Call => c.cr.job) (x.enter_onHook_deliver_frame .cleardown (.release r) s.now).2.2.2).trans hjob
  have hsettle (k' : Link) : settleJob l r (s.put l (x.released r s.now).judge k') = s.put l (x.released r s.now).judge k' := by
    rw [settleJob, put_line, hcall]; rfl
  have hjc : (x.released r s.now).judge.call = (x.released r s.now).call := by rw [LineState.judge_frame]
  rw [enterCleardown_put s l k r h]
  dsimp only
  rw [hsettle]
  split_ifs
  · rw [modCall_put, put_now, hjc, LineState.cleardown]
    cases l <;> rfl
  · rw [settleAttempt_eq]
    have hm (a : List (Option AttemptRecord)) (f : Call → Call) (t : State) :
      modCall l f { t with attempts := a } = { modCall l f t with attempts := a } := by cases l <;> rfl
    rw [hm, modCall_put, put_now, hjc]; rfl

end Sys2Proof.Machine
end

section
/-! PROOFS. The ways a call ends: into CLEARDOWN (R65, R66) and into IDLE (R65, R67, R71). -/

namespace Sys2Proof.Machine

/-- The state with its clock at another time. -/
def State.at (s : State) (now : Nat) : State := { s with now := now }

theorem elapse_eq_at (due : Nat) (s : State) : elapse due s = s.at (max s.now due) := rfl

/-- A request of a release, the only one, is taken at the end of the command. -/
theorem finish_askRelease {u : State} {l : Line} {r : ReleaseReason} (hu : u.requests = []) (hrel : (u.st l).releasable = true)
    (ht : (enterCleardown l r u).requests = []) : finish (askRelease l r u) = enterCleardown l r u := by
  have hpost : (askRelease l r u).requests = [.release l r] := by rw [askRelease, post_requests, hu]; rfl
  have hback : { askRelease l r u with requests := [] } = u := by rw [← hu]; rfl
  rw [finish, takeRequests_cons hpost, hback, takeRequest, releaseLine, if_pos hrel, takeRequests_of_none ht]

/-- What the entry to CLEARDOWN leaves of a line without work. -/
theorem LineState.cleardown_frame (r : ReleaseReason) (now : Nat) (x : LineState) : ∃ e lo hi cur lat,
    x.cleardown r now = { x.ended with
      call := { (x.setSt .cleardown (.release r) now).call.released r with cleardownDue := some (now + 2000) }
      iface := { x.onHook.iface with expecting := e, lowRun := lo, highRun := hi, current := cur, latched := lat } } := by
  refine ⟨(x.cleardown r now).iface.expecting, (x.cleardown r now).iface.lowRun, (x.cleardown r now).iface.highRun,
    (x.cleardown r now).iface.current, (x.cleardown r now).iface.latched, ?_⟩
  unfold LineState.cleardown LineState.released
  rw [LineState.judge_frame]
  simp only [LineState.ended, LineState.deliver, LineState.onHook]
  rw [LineState.enter_frame]
  rfl

/-- A line in a call that can be released, without work and without a job. -/
structure LineState.Released (x : LineState) : Prop extends x.Workless where
  releasable : x.call.st.releasable = true
  job : x.call.cr.job = none

/-- What O33 says of a line that has been released. -/
def EntersCleardown (l : Line) (r : ReleaseReason) (s t : State) : Prop :=
  t.st l = .cleardown ∧ (t.line l).call.reason = some (.release r) ∧
    (t.line l).call.cr.release = some r ∧ (t.line l).call.cleardownDue = some (t.now + 2000) ∧
    (t.line l).iface.hook = false ∧ (t.line l).iface.loop = .onHook ∧ (t.line l).modem.phase = none ∧
    (t.line l).modem.request = none ∧ (t.line l).dl.sending = none ∧ (t.line l).dl.timer = .stopped ∧
    (t.line l).dl.tx = (s.line l).dl.tx ∧ (t.line l).dl.rx = (s.line l).dl.rx ∧
    (t.line l).profile = (s.line l).profile ∧ (t.line l).det = (s.line l).det ∧
    t = { s.setLine l (t.line l) with link := t.link, now := t.now, attempts := t.attempts }

/-- A state in which the line of a call and the terminal link have changed, and time has passed. -/
theorem entersCleardown_put {s : State} {l : Line} {x : LineState} {k : Link} {now : Nat} (r : ReleaseReason) (h : x.Released)
    (hq : x.dl.tx = (s.line l).dl.tx ∧ x.dl.rx = (s.line l).dl.rx) (hp : x.profile = (s.line l).profile) (hd : x.det = (s.line l).det) :
    EntersCleardown l r s (enterCleardown l r ((s.at now).put l x k)) ∧
      (enterCleardown l r ((s.at now).put l x k)).requests = s.requests ∧ (enterCleardown l r ((s.at now).put l x k)).now = now := by
  obtain ⟨e, lo, hi, cur, lat, hx⟩ := x.cleardown_frame r (s.at now).now
  rw [enterCleardown_put_of_no_job _ _ _ _ h.toWorkless h.job]
  dsimp only
  rw [hx]
  refine ⟨?_, put_requests .., put_now ..⟩
  cases l <;> exact ⟨rfl, rfl, rfl, rfl, rfl, rfl, rfl, rfl, rfl, rfl, hq.1, hq.2, hp, hd, rfl⟩

/-- A command whose operation releases such a line at once. -/
theorem ends_call {c : Instr} {s : State} {l : Line} {x : LineState} {k : Link} {now : Nat} {r : ReleaseReason} (hs : s.requests = [])
    (h : x.Released) (hop : opOf c s = enterCleardown l r ((s.at now).put l x k))
    (hq : x.dl.tx = (s.line l).dl.tx ∧ x.dl.rx = (s.line l).dl.rx) (hp : x.profile = (s.line l).profile) (hd : x.det = (s.line l).det) :
    ∃ t, exec c s = .next t ∧ EntersCleardown l r s t :=
  have ⟨ht, hreq, _⟩ := entersCleardown_put (k := k) (now := now) r h hq hp hd
  ⟨_, exec_of_op hop (hreq.trans hs), ht⟩

/-- A command whose operation asks for the release of such a line. -/
theorem ends_call_by_request {c : Instr} {s : State} {l : Line} {x : LineState} {k : Link} {now : Nat} {r : ReleaseReason}
    (hs : s.requests = []) (h : x.Released) (hop : opOf c s = askRelease l r ((s.at now).put l x k))
    (hq : x.dl.tx = (s.line l).dl.tx ∧ x.dl.rx = (s.line l).dl.rx) (hp : x.profile = (s.line l).profile) (hd : x.det = (s.line l).det) :
    ∃ t, exec c s = .next t ∧ EntersCleardown l r s t :=
  have ⟨ht, hreq, _⟩ := entersCleardown_put (k := k) (now := now) r h hq hp hd
  ⟨_, (exec_finish hop).trans (congrArg _ (finish_askRelease ((put_requests ..).trans hs) (by rw [put_st]; exact h.releasable)
    (hreq.trans hs))), ht⟩

/-- A change of a line outside the fields that a release looks at. -/
theorem LineState.Released.congr {x y : LineState} (h : x.Released) (ht : y.iface.tone = x.iface.tone) (hf : y.fax.role = x.fax.role)
    (hv : y.voice.sub = x.voice.sub) (hr : y.call.refHeld = x.call.refHeld) (hst : y.call.st = x.call.st)
    (hj : y.call.cr.job = x.call.cr.job) : y.Released :=
  ⟨⟨ht.trans h.tone, hf.trans h.role, hv.trans h.sub, hr.trans h.refHeld⟩, by rw [hst]; exact h.releasable, hj.trans h.job⟩

theorem releaseLine_put {s : State} {l : Line} {x : LineState} {k : Link} (r : ReleaseReason) (h : x.Released) :
    releaseLine l r (s.put l x k) = enterCleardown l r (s.put l x k) := if_pos (by rw [put_st]; exact h.releasable)

/-- The line with its loop lost. -/
def LineState.loopLost (x : LineState) : LineState :=
  ({ x with iface := { x.iface with loop := .lost } } : LineState).deliver .loopLoss true

/-- The terminal link with the loop of a line lost. -/
def Link.loopLost (l : Line) (x : LineState) (k : Link) : Link :=
  k.deliver l .loopLoss true { x with iface := { x.iface with loop := .lost } }

theorem loseLoop_eq (l : Line) (due : Nat) (s : State) : loseLoop l due s = (s.at (max s.now due)).put l (s.line l).loopLost
    (s.link.loopLost l (s.line l)) := by
  have hstart : modIface l (fun i => { i with loop := .lost }) (elapse due s) =
      (s.at (max s.now due)).put l { s.line l with iface := { (s.line l).iface with loop := .lost } } s.link := by cases l <;> rfl
  rw [loseLoop, hstart, setCondition_put]; rfl

theorem LineState.Released.loopLost {x : LineState} (h : x.Released) : x.loopLost.Released := h.congr rfl rfl rfl rfl rfl rfl

/-- Settles O33, command by command. -/
theorem listedReleasesEnterCleardown : Obligations.ListedReleasesEnterCleardown := by
  intro l c r s hs hrel htone hrole hsub hjob href
  dsimp only
  have h : (s.line l).Released := ⟨⟨htone, hrole, hsub, href⟩, hrel, hjob⟩
  rintro (⟨rfl, rfl⟩ | ⟨rfl, hdue, rfl⟩ | ⟨rfl, hdue, rfl⟩ | ⟨rfl, hst, ⟨due, e, hloop⟩, rfl⟩ | ⟨rfl, hst, ⟨due, e, hloop⟩, rfl⟩ |
    ⟨rfl, ⟨due, hloop⟩, hsusp, rfl⟩ | ⟨rfl, hdue, hin, hoff, hpol, rfl⟩ | ⟨rfl, hdue, rfl⟩ | ⟨rfl, ⟨due, htimer⟩, hmax, rfl⟩ |
    ⟨rfl, hst, hclear, hrx, rfl⟩ | ⟨rfl, hsend, hclear, rfl⟩)
  · refine ends_call (x := s.line l) (k := s.link.push (.done 0x48#8 .ok [])) (now := s.now) hs h ?_ ⟨rfl, rfl⟩ rfl rfl
    change opRelease (lineByte l) 2#8 s = _
    simp only [opRelease, lineOf_lineByte, hrel]
    exact congrArg (enterCleardown l .host) (by rw [done_eq]; cases l <;> rfl)
  · obtain ⟨due, hdue⟩ := Option.ne_none_iff_exists'.mp hdue
    have hx : ({ s.line l with call := { (s.line l).call with dialToneDue := none } } : LineState).Released := h.congr rfl rfl rfl rfl rfl rfl
    refine ends_call (k := s.link) (now := max s.now due) hs hx ?_ ⟨rfl, rfl⟩ rfl rfl
    change opDialToneWaitExpiry l s = _
    rw [← releaseLine_put _ hx, opDialToneWaitExpiry, hdue]
    exact congrArg (releaseLine l .noDialtone) (by cases l <;> rfl)
  · obtain ⟨due, hdue⟩ := Option.ne_none_iff_exists'.mp hdue
    have hx : ({ s.line l with call := { (s.line l).call with progressDue := none } } : LineState).Released := h.congr rfl rfl rfl rfl rfl rfl
    refine ends_call (k := s.link) (now := max s.now due) hs hx ?_ ⟨rfl, rfl⟩ rfl rfl
    change opProgressTimerExpiry l s = _
    rw [← releaseLine_put _ hx, opProgressTimerExpiry, hdue]
    exact congrArg (releaseLine l .noAnswer) (by cases l <;> rfl)
  · refine ends_call (k := s.link.loopLost l (s.line l)) (now := max s.now due) hs h.loopLost (?_ : opNoLoop l s = _) ⟨rfl, rfl⟩ rfl rfl
    rw [← releaseLine_put _ h.loopLost, ← loseLoop_eq l due, opNoLoop, hloop]
    exact congrArg (releaseLine l · _) (if_pos hst)
  · refine ends_call (k := s.link.loopLost l (s.line l)) (now := max s.now due) hs h.loopLost (?_ : opNoLoop l s = _) ⟨rfl, rfl⟩ rfl rfl
    rw [← releaseLine_put _ h.loopLost, ← loseLoop_eq l due, opNoLoop, hloop]
    exact congrArg (releaseLine l · _) (if_neg hst)
  · refine ends_call (k := s.link.loopLost l (s.line l)) (now := max s.now due) hs h.loopLost ?_ ⟨rfl, rfl⟩ rfl rfl
    change opLoopLost l s = _
    rw [← releaseLine_put _ h.loopLost, ← loseLoop_eq l due, opLoopLost, hloop]
    exact if_neg (by simp [hsusp])
  · obtain ⟨due, hdue⟩ := Option.ne_none_iff_exists'.mp hdue
    have hx : ({ s.line l with iface := { (s.line l).iface with extState := true, extDue := none } } : LineState).Released :=
      h.congr rfl rfl rfl rfl rfl rfl
    refine ends_call (k := s.link) (now := max s.now due) hs hx ?_ ⟨rfl, rfl⟩ rfl rfl
    change opExtensionPickup l s = _
    have hstart : modIface l (fun i => { i with extState := true, extDue := none }) (elapse due s) = (s.at (max s.now due)).put l
        { s.line l with iface := { (s.line l).iface with extState := true, extDue := none } } s.link := by cases l <;> rfl
    simp only [opExtensionPickup, hdue, hin, hoff, and_self, if_true, hstart, callPickup, put_st, put_line, hpol]
    rw [if_neg (fun hr => by rw [State.st, hr] at hrel; cases hrel)]
    exact if_pos hrel
  · obtain ⟨due, hdue⟩ := Option.ne_none_iff_exists'.mp hdue
    refine ends_call_by_request (k := s.link) (now := max s.now due) hs (h.congr (y := { s.line l with modem := { (s.line l).modem with
      sent := [], phase := none, trainDue := none, probeDue := none, repeatDue := none } }) rfl rfl rfl rfl rfl rfl) ?_ ⟨rfl, rfl⟩ rfl rfl
    change opTrainingTimerExpiry l s = _
    rw [opTrainingTimerExpiry, hdue]
    exact congrArg (askRelease l .noCarrier) (by cases l <;> rfl)
  · refine ends_call_by_request (k := s.link) (now := max s.now due) hs (h.congr (y := { s.line l with dl := { (s.line l).dl with
      timer := .stopped } }) rfl rfl rfl rfl rfl rfl) ?_ ⟨rfl, rfl⟩ rfl rfl
    change opRetransmitTimerExpiry l s = _
    rw [opRetransmitTimerExpiry, htimer]
    exact (if_pos (by simpa using hmax)).trans (congrArg (askRelease l .linkFail) (by cases l <;> rfl))
  · refine ends_call_by_request (k := s.link) (now := s.now) hs (h.congr (y := { s.line l with dl := { (s.line l).dl with
      clear := .received, timer := .stopped, clearDue := none, clearForced := false } }) rfl rfl rfl rfl rfl rfl) ?_ ⟨rfl, rfl⟩ rfl rfl
    change opClear l s = _
    rw [opClear, if_pos (linkListens_data hst hclear)]
    exact (if_pos (by simp [hrx])).trans (congrArg (askRelease l .farEnd) (by cases l <;> rfl))
  · refine ends_call_by_request (k := s.link) (now := s.now) hs (h.congr (y := { s.line l with dl := { (s.line l).dl with
      sending := none } }) rfl rfl rfl rfl rfl rfl) ?_ ⟨rfl, rfl⟩ rfl rfl
    change opFrameSent l s = _
    rw [opFrameSent, hsend]
    exact (if_pos ⟨rfl, by simpa using hclear⟩).trans (congrArg (askRelease l .host) (by cases l <;> rfl))

/-! ### The entry to IDLE (R65) -/

theorem LineState.deliver_false (src : MonSource) (x : LineState) :
    x.deliver src false = { x with iface := { x.iface with current := x.iface.current.set src false } } := by
  rw [LineState.deliver, if_neg (by rintro ⟨h, -⟩; cases h)]

/-- Conditions cleared one after the other. -/
theorem clear_put (s : State) (l : Line) (srcs : List MonSource) : ∀ (x : LineState) (k : Link), ∃ k',
    srcs.foldl (fun s src => setCondition l src false s) (s.put l x k) = s.put l { x with iface := { x.iface with
      current := srcs.foldl (fun c src => c.set src false) x.iface.current } } k' := by
  induction srcs with
  | nil => exact fun x k => ⟨k, rfl⟩
  | cons src rest ih =>
    intro x k
    obtain ⟨k', h⟩ := ih (x.deliver src false) (k.deliver l src false x)
    refine ⟨k', ?_⟩
    rw [List.foldl_cons, setCondition_put, h, LineState.deliver_false]
    rfl

/-- The monitor states of a line entering IDLE are cleared. -/
theorem clearCurrents_put (s : State) (l : Line) (x : LineState) (k : Link) : ∃ k',
    clearCurrents l (s.put l x k) = s.put l { x with iface := { x.iface with current := .all false } } k' :=
  clear_put s l monSources x k

/-- The data link emptied: of the terminal link the byte under way and LHOLD may change. -/
theorem emptyLink_put (s : State) (l : Line) (x : LineState) (k : Link) : ∃ sending lhold,
    emptyLink l (s.put l x k) = s.put l { x with dl := initialDataLink } { k with sending := sending, lhold := lhold } := by
  rw [emptyLink, modDl_put, staleSource, modLink_put]
  by_cases h : k.target = targetOf l
  · exact ⟨_, _, if_pos h⟩
  · exact ⟨_, _, if_neg h⟩

/-- The line interface at the entry to IDLE. -/
def Iface.idled (i : Iface) : Iface :=
  { i with
    gain := 24, gainRun := 0, hook := false, loop := .onHook, loopSuspended := false, caller := none, window := .closed
    current := .all false }

theorem ifaceIdle_put (s : State) (l : Line) (x : LineState) (k : Link) (ht : x.iface.tone = none) : ∃ k',
    ifaceIdle l (s.put l x k) = s.put l { x with iface := x.iface.idled } k' := by
  have htone : silenceTone l (s.put l x k) = s.put l x k := by rw [silenceTone, put_line, ht]
  choose cleared hcleared using clearCurrents_put s l
  rw [ifaceIdle, htone, resetGain, modIface_put, releaseHook_put]
  rw [modIface_put, hcleared, LineState.deliver_false]
  exact ⟨_, rfl⟩

/-- A line, its state changed to IDLE, with its blocks cleared. -/
def LineState.idled (now : Nat) (x : LineState) : LineState :=
  { x with
    call := { initialCall with reason := x.call.reason }
    iface := x.iface.idled
    det := { x.det with aligns := x.det.aligns.map fun _ => emptyAlign now }
    modem := initialModem, dl := initialDataLink, voice := initialVoice, fax := initialFax x.fax.endCause }

/-- The entry to IDLE of a line on which no tone sounds. -/
theorem enterIdle_put (s : State) (l : Line) (x : LineState) (k : Link) (reason : LineReason) (missed : Option (Nat × Option CallerRecord))
    (ht : x.iface.tone = none) :
    ∃ k', enterIdle l reason missed (s.put l x k) = post (.dispatch l) (s.put l ((x.enter .idle reason s.now).idled s.now) k') := by
  have hi : (x.enter .idle reason s.now).iface.tone = none := by rw [LineState.enter_frame]; exact ht
  rw [enterIdle]
  dsimp only
  rw [changeStateWith_put]
  generalize x.enter .idle reason s.now = y at hi ⊢
  choose idle hidle using ifaceIdle_put s l
  choose sending lhold hempty using emptyLink_put s l
  rw [modCall_put, hidle _ _ (by exact hi), put_now, modDet_put, clearModem, modModem_put, hempty, modVoice_put, modFax_put]
  exact ⟨_, rfl⟩

/-- What O35 says of a line that has returned to IDLE. -/
def ReturnsToIdle (l : Line) (reason : LineReason) (s t : State) : Prop :=
  (t.line l).call = { initialCall with reason := some reason } ∧
    (t.line l).modem = initialModem ∧ (t.line l).dl = initialDataLink ∧ (t.line l).voice = initialVoice ∧
    (t.line l).fax = initialFax (s.line l).fax.endCause ∧ (t.line l).iface.gain = 24 ∧ (t.line l).iface.hook = false ∧
    (t.line l).iface.loop = .onHook ∧ (t.line l).iface.caller = none ∧ (t.line l).iface.current = .all false ∧
    (t.line l).profile = (s.line l).profile ∧
    t = { s.setLine l (t.line l) with link := t.link, now := t.now }

/-- A command whose operation takes a line to IDLE, where it takes no job. -/
theorem returns_to_idle {c : Instr} {s : State} {l : Line} {x : LineState} {k : Link} {now : Nat} {reason : LineReason}
    {missed : Option (Nat × Option CallerRecord)} (hs : s.requests = []) (ht : x.iface.tone = none) (hauto : x.profile.autoCallout = false)
    (hop : opOf c s = enterIdle l reason missed ((s.at now).put l x k)) (hp : x.profile = (s.line l).profile)
    (hf : x.fax.endCause = (s.line l).fax.endCause) : ∃ t, exec c s = .next t ∧ ReturnsToIdle l reason s t := by
  obtain ⟨k', hidle⟩ := enterIdle_put (s.at now) l x k reason missed ht
  have hu : ((s.at now).put l ((x.enter .idle reason now).idled now) k').requests = [] := (put_requests ..).trans hs
  have hfinish : finish (post (.dispatch l) ((s.at now).put l ((x.enter .idle reason now).idled now) k')) =
      (s.at now).put l ((x.enter .idle reason now).idled now) k' := by
    generalize hu' : (s.at now).put l ((x.enter .idle reason now).idled now) k' = u at hu
    have hnot : dispatchLine l u = u := dispatchLine_of_not (by
      subst hu'
      rw [canTakeJob, put_line, LineState.idled, LineState.enter_frame]
      simp [hauto])
    rw [finish, takeRequests_cons (r := .dispatch l) (rest := []) (by rw [post_requests, hu]; rfl)]
    have hback : { post (.dispatch l) u with requests := [] } = u := by rw [← hu]; rfl
    rw [hback, takeRequest, hnot, takeRequests_of_none hu]
  refine ⟨_, (exec_finish (hop.trans hidle)).trans (congrArg _ hfinish), ?_⟩
  rw [LineState.enter_frame]
  cases l <;> exact ⟨rfl, rfl, rfl, rfl, congrArg _ hf, rfl, rfl, rfl, rfl, rfl, hp, rfl⟩

/-- The caller window closes with no message under way. -/
theorem closeWindow_put {s : State} {l : Line} {x : LineState} {k : Link} (h : ∀ bs, x.iface.window ≠ .gathering bs) :
    closeWindow l (s.put l x k) = s.put l { x with iface := { x.iface with window := .closed } } k := by
  rw [closeWindow, put_line]
  split
  · next bs hbs => exact absurd hbs (h bs)
  · exact modIface_put ..

/-- Settles O35, by the three ways into IDLE. -/
theorem lineReturnsToIdle : Obligations.LineReturnsToIdle := by
  intro l c reason s hs htone hauto hwin
  dsimp only
  have hstart (now : Nat) : (s.at now).put l (s.line l) s.link = s.at now := by cases l <;> rfl
  rintro (⟨rfl, hst, hdue, r, hr, rfl⟩ | ⟨rfl, hst, hdue, rfl⟩ | ⟨rfl, hst, hdue, hin, hoff, rfl⟩)
  · obtain ⟨due, hdue⟩ := Option.ne_none_iff_exists'.mp hdue
    refine returns_to_idle (k := s.link) (now := max s.now due) (missed := none) hs htone hauto (?_ : opCleardownTimerExpiry l s = _) rfl rfl
    simp only [opCleardownTimerExpiry, hdue, hr, hstart]
    exact if_pos hst
  · obtain ⟨due, hdue⟩ := Option.ne_none_iff_exists'.mp hdue
    refine returns_to_idle (x := { s.line l with iface := { (s.line l).iface with window := .closed } }) (k := s.link)
      (now := max s.now due) (missed := some ((s.line l).call.cr.rings, (s.line l).iface.caller)) hs htone hauto
      (?_ : opRingTimerExpiry l s = _) rfl rfl
    have hclose := closeWindow_put (s := s.at (max s.now due)) (l := l) (k := s.link) hwin
    rw [hstart] at hclose
    simp only [opRingTimerExpiry, hdue, hst, if_true, elapse_eq_at, hclose, put_line]
  · obtain ⟨due, hdue⟩ := Option.ne_none_iff_exists'.mp hdue
    refine returns_to_idle (x := { s.line l with iface := { (s.line l).iface with extState := true, extDue := none, window := .closed } })
      (k := s.link) (now := max s.now due) (missed := none) hs htone hauto (?_ : opExtensionPickup l s = _) rfl rfl
    have hpick : modIface l (fun i => { i with extState := true, extDue := none }) (elapse due s) = (s.at (max s.now due)).put l
        { s.line l with iface := { (s.line l).iface with extState := true, extDue := none } } s.link := by cases l <;> rfl
    simp only [opExtensionPickup, hdue, hin, hoff, and_self, if_true, hpick]
    exact (if_pos (by rw [put_st]; exact hst)).trans (congrArg (enterIdle l _ _) (closeWindow_put hwin))

/-! ### RESET LINE (R19, R40, R94) -/

/-- The reports of RESET LINE change the terminal link alone. -/
theorem resetMonitorReports_put (s : State) (l : Line) (before : State) (x : LineState) (k : Link) : ∃ rs : List Report,
    resetMonitorReports l before (s.put l x k) = s.put l x (rs.foldl (fun k r => k.push r) k) := by
  suffices h : ∀ (srcs : List MonSource) (k : Link), ∃ rs : List Report, srcs.foldl (fun s src =>
      if reportedState before l src then queueReport (.monitor l src ((before.line l).profile.monitors.get src).cls false) s else s)
      (s.put l x k) = s.put l x (rs.foldl (fun k r => k.push r) k) from h monSources k
  intro srcs
  induction srcs with
  | nil => exact fun k => ⟨[], rfl⟩
  | cons src rest ih =>
    intro k
    by_cases hr : reportedState before l src = true
    · obtain ⟨rs, h⟩ := ih (k.push (.monitor l src ((before.line l).profile.monitors.get src).cls false))
      exact ⟨_ :: rs, by rw [List.foldl_cons, if_pos hr, queueReport_put, h]; rfl⟩
    · obtain ⟨rs, h⟩ := ih k
      exact ⟨rs, by rw [List.foldl_cons, if_neg hr, h]⟩

/-- No close of a stream of the line takes bytes that are not written. -/
theorem dropClosing_of_none {l : Line} {s : State} (h : ∀ w ∈ s.store.writers, closingCut l w (findEntry s w.id) = false) :
    dropClosing l s = s := by
  suffices hall : ∀ ws : List WStream, (∀ w ∈ ws, closingCut l w (findEntry s w.id) = false) →
      ws.foldl (fun s w => if closingCut l w (findEntry s w.id) then storeKick (shortenClose w.id s) else s) s = s from hall _ h
  intro ws
  induction ws with
  | nil => exact fun _ => rfl
  | cons w rest ih =>
    intro hw
    rw [List.foldl_cons, hw w List.mem_cons_self, if_neg Bool.false_ne_true]
    exact ih fun w' hw' => hw w' (List.mem_cons_of_mem _ hw')

/-- A terminal link in which some reports have been queued. -/
def Link.Pushed (k k' : Link) : Prop := ∃ rs : List Report, k' = rs.foldl (fun k r => k.push r) k

theorem Link.Pushed.refl (k : Link) : k.Pushed k := ⟨[], rfl⟩

theorem Link.Pushed.push {k k' : Link} (h : k.Pushed k') (r : Report) : k.Pushed (k'.push r) := by
  obtain ⟨rs, rfl⟩ := h
  exact ⟨rs ++ [r], by rw [List.foldl_append]; rfl⟩

theorem Link.Pushed.deliver {k k' : Link} (h : k.Pushed k') (l : Line) (src : MonSource) (v : Bool) (x : LineState) :
    k.Pushed (k'.deliver l src v x) := by
  unfold Link.deliver
  split
  · exact h
  · exact h.push _

theorem Link.Pushed.judge {k k' : Link} (h : k.Pushed k') (l : Line) (x : LineState) : k.Pushed (k'.judge l x) := by
  unfold Link.judge
  split
  · exact h
  · exact h.deliver ..

theorem Link.Pushed.enter {k k' : Link} (h : k.Pushed k') (l : Line) (st : LineSt) (reason : LineReason)
    (missed : Option (Nat × Option CallerRecord)) (now : Nat) (x : LineState) : k.Pushed (k'.enter l st reason missed now x) := by
  unfold Link.enter
  dsimp only
  split
  · exact ((h.push _).judge _ _).deliver ..
  · exact (h.push _).judge _ _

theorem Link.Pushed.released {k k' : Link} (h : k.Pushed k') (l : Line) (r : ReleaseReason) (now : Nat) (x : LineState) :
    k.Pushed (k'.released l r now x) := ((h.enter ..).deliver ..).judge ..

/-- The fields of the terminal link that no report touches. -/
theorem Link.Pushed.frame {k k' : Link} (h : k.Pushed k') :
    k'.target = k.target ∧ k'.discard = k.discard ∧ k'.dayClock = k.dayClock ∧ k'.seconds = k.seconds := by
  obtain ⟨rs, rfl⟩ := h
  induction rs generalizing k with
  | nil => exact ⟨rfl, rfl, rfl, rfl⟩
  | cons r rest ih =>
    obtain ⟨ht, hd, hc, hs⟩ := ih (k := k.push r)
    exact ⟨ht.trans (by simp), hd.trans (by simp), hc.trans (by simp), hs.trans (by simp)⟩

theorem LineState.Quiet.judge_latched {x : LineState} (h : x.Quiet) : x.judge.iface.latched = x.iface.latched := by
  unfold LineState.judge
  split_ifs
  · rfl
  · rfl
  · rw [LineState.deliver_of_get (x := x.setExpecting false) (h.get _)]; rfl

theorem LineState.Quiet.enter_latched {x : LineState} (h : x.Quiet) (st : LineSt) (reason : LineReason) (now : Nat) :
    (x.enter st reason now).iface.latched = x.iface.latched := by
  have hset : (x.setSt st reason now).Quiet := h
  unfold LineState.enter
  split_ifs
  · rw [LineState.deliver_of_get (hset.judge.get _)]; exact hset.judge_latched
  · exact hset.judge_latched

/-- On a line with no condition set the entry to CLEARDOWN leaves the monitor states. -/
theorem LineState.Quiet.cleardown {x : LineState} (h : x.Quiet) (r : ReleaseReason) (now : Nat) :
    (x.cleardown r now).iface.current = .all false ∧ (x.cleardown r now).iface.latched = x.iface.latched := by
  have hhook : ((x.enter .cleardown (.release r) now).onHook).Quiet := h.enter ..
  have hdeliver : (x.enter .cleardown (.release r) now).onHook.deliver .loopLoss false = (x.enter .cleardown (.release r) now).onHook :=
    LineState.deliver_of_get (hhook.get _)
  have hrel : (x.released r now).iface = (x.enter .cleardown (.release r) now).onHook.iface := by
    rw [LineState.released, hdeliver]; rfl
  have hquiet : (x.released r now).Quiet := (congrArg Iface.current hrel).trans hhook
  exact ⟨hquiet.judge, hquiet.judge_latched.trans ((congrArg Iface.latched hrel).trans (h.enter_latched ..))⟩

/-- A release by any other reason is no failure of the number called (R86). -/
theorem settleAttempt_of_other {l : Line} {r : ReleaseReason} {s : State} (h1 : r ≠ .busy) (h2 : r ≠ .noAnswer) (h3 : r ≠ .noCarrier) :
    settleAttempt l r s = s := if_neg fun h => h.2.2.elim h1 (·.elim h2 h3)

/-- The line interface behind RESET LINE. -/
def Iface.reset (i : Iface) : Iface :=
  { i with
    current := .all false, latched := .all false, gain := 24, gainRun := 0, ring := .quiet, hook := false, loop := .onHook
    loopSuspended := false, caller := none, window := .closed, tone := none, lowRun := 0, highRun := 0 }

/-- The line behind RESET LINE, before a release. -/
def LineState.resetInterface (now : Nat) (x : LineState) : LineState :=
  { x with iface := x.iface.reset, det := { initialDetector with aligns := List.replicate 8 (emptyAlign now) } }

/-- The line behind RESET LINE. -/
def LineState.resetWork (x : LineState) : LineState :=
  { x with modem := initialModem, dl := initialDataLink, fax := initialFax (some (.release .reset)) }

theorem opResetLine_eq {l : Line} {s : State} (hw : (s.line l).fax.role = none) (hv : (s.line l).voice.sub = none)
    (hj : (s.line l).call.cr.job = none) (hr : (s.line l).call.refHeld = false)
    (hclose : ∀ w ∈ s.store.writers, closingCut l w (findEntry s w.id) = false) :
    ∃ k sending lhold, s.link.Pushed k ∧ opResetLine l s = s.put l (if s.st l = .idle then (s.line l).resetInterface s.now
      else ((s.line l).resetInterface s.now).cleardown .reset s.now).resetWork { k with sending := sending, lhold := lhold } := by
  have hx : ((s.line l).resetInterface s.now).Workless := ⟨rfl, hw, hv, hr⟩
  have hstart : ifaceReset l (clearMonitors l (done 0x5A#8 .ok [] s)) =
      s.put l { s.line l with iface := (s.line l).iface.reset } (s.link.push (.done 0x5A#8 .ok [])) := by
    rw [done_eq]; cases l <;> rfl
  obtain ⟨rs, hmon⟩ := resetMonitorReports_put s l s { s.line l with iface := (s.line l).iface.reset } (s.link.push (.done 0x5A#8 .ok []))
  obtain ⟨k1, hk1, hpushed⟩ : ∃ k1, k1 = rs.foldl (fun k r => k.push r) (s.link.push (.done 0x5A#8 .ok [])) ∧ s.link.Pushed k1 :=
    ⟨_, rfl, .done 0x5A#8 .ok [] :: rs, rfl⟩
  have hdet : detectorReset l (resetMonitorReports l s (ifaceReset l (clearMonitors l (done 0x5A#8 .ok [] s)))) =
      s.put l ((s.line l).resetInterface s.now) k1 := by
    rw [hstart, hmon, ← hk1, detectorReset, modDet_put, put_now]; rfl
  have hdrop (y : LineState) (k : Link) : dropClosing l (s.put l y k) = s.put l y k :=
    dropClosing_of_none fun w hmem => by
      rw [put_store] at hmem
      rw [findEntry, put_store]; exact hclose w hmem
  choose sending lhold hempty using emptyLink_put s l
  rw [opResetLine]
  rw [hdet, hdrop, put_st]
  by_cases hst : s.st l = .idle
  · rw [if_pos hst, if_pos (show ((s.line l).resetInterface s.now).call.st = .idle from hst), clearModem, modModem_put, hempty, modFax_put]
    exact ⟨_, _, _, hpushed, rfl⟩
  · have hcall : ¬((s.line l).resetInterface s.now).call.st = .idle := hst
    have hdown : enterCleardown l .reset (s.put l ((s.line l).resetInterface s.now) k1) =
        s.put l (((s.line l).resetInterface s.now).cleardown .reset s.now) (k1.released l .reset s.now ((s.line l).resetInterface s.now)) := by
      rw [enterCleardown_put_of_no_job _ _ _ _ hx hj]
      dsimp only
      rw [settleAttempt_of_other (by decide) (by decide) (by decide), put_attempts, ite_self]
      cases l <;> rfl
    rw [if_neg hst, if_neg hcall, hdown, clearModem, modModem_put, hempty, modFax_put]
    exact ⟨_, _, _, hpushed.released .., rfl⟩

/-- Settles O18: an IDLE line and one that is released. -/
theorem resetLineResetsTheLine : Obligations.ResetLineResetsTheLine := by
  intro l s hs hrole hsub hjob href hclose
  obtain ⟨k, sending, lhold, hpushed, hop⟩ := opResetLine_eq hrole hsub hjob href hclose
  obtain ⟨htarget, hdiscard, hclock, hseconds⟩ := hpushed.frame
  refine ⟨_, exec_of_op hop ((put_requests ..).trans hs), ?_⟩
  have hquiet : ((s.line l).resetInterface s.now).Quiet := rfl
  by_cases hst : s.st l = .idle
  · rw [if_pos hst, put_line, put_st]
    refine ⟨fun _ => ⟨hst, rfl⟩, fun h => absurd hst h, rfl, rfl, rfl, rfl, rfl, rfl, rfl, rfl, rfl, rfl, rfl, rfl, htarget, hdiscard, hclock,
      hseconds, ?_⟩
    cases l <;> rfl
  · obtain ⟨e, lo, hi, cur, lat, hx⟩ := LineState.cleardown_frame .reset s.now ((s.line l).resetInterface s.now)
    obtain ⟨hcur, hlat⟩ := hquiet.cleardown .reset s.now
    rw [hx] at hcur hlat
    rw [if_neg hst, put_line, put_st, hx]
    refine ⟨fun h => absurd h hst, fun _ => ⟨rfl, rfl, rfl⟩, rfl, rfl, rfl, rfl, rfl, rfl, rfl, rfl, rfl, hcur, hlat, rfl, htarget, hdiscard,
      hclock, hseconds, ?_⟩
    cases l <;> rfl

end Sys2Proof.Machine
end

section
/-! PROOFS. Training and retrains (5.5 to 5.7, 6.7). -/

namespace Sys2Proof.Machine

/-! ### A training begins (R107) -/

/-- The modem as training begins. -/
def Modem.training (p : Profile) (now : Nat) (m : Modem) : Modem :=
  { m with
    window := some p.freshWindow, phase := some .probe
    trainDue := some (now + 10000), probeDue := some (now + 1000), probeSent := false
    probeCount := 0, probeGood := 0, probeSum := 0, proposal := none, farPropose := none, farConfirm := none, chosen := none
    repeatDue := none, sent := [] }

theorem startTraining_put (s : State) (l : Line) (x : LineState) (k : Link) :
    startTraining l (s.put l x k) = s.put l { x with modem := x.modem.training x.profile s.now } k := by
  rw [startTraining, modModem_put, put_line, put_now]; rfl

/-! ### A retrain from DATA (R110, R130) -/

/-- The link frozen for a retrain. -/
def DataLink.frozen (now : Nat) (d : DataLink) : DataLink :=
  { d with sending := none, timer := d.timer.freeze now, formDue := none, resend := none, rateQueue := [], clearSent := false }

/-- The line in TRAIN for a retrain. -/
def LineState.retraining (now : Nat) (x : LineState) : LineState :=
  { x.enter .train (.change .retrain) now with dl := x.dl.frozen now, modem := x.modem.training x.profile now }

theorem retrainRequest_put (s : State) (l : Line) (x : LineState) (k : Link) (hst : x.call.st = .data) :
    retrainRequest l (s.put l x k) = s.put l (x.retraining s.now) (k.enter l .train (.change .retrain) none s.now x) := by
  rw [retrainRequest, put_st, hst]
  dsimp only
  rw [changeState_put, freezeLink, modDl_put, startTraining_put, LineState.retraining, put_now]
  rw [LineState.enter_frame]
  rfl

/-- The modem that has asked for a retrain from DATA. -/
def Modem.askedRetrain (history : List Nat) (m : Modem) : Modem :=
  { m with history := history, request := none, retrainFrom := some .data }

theorem requestRetrain_put (s : State) (l : Line) (x : LineState) (k : Link) (hst : x.call.st = .data) :
    requestRetrain l (s.put l x k) =
      if historyFull (addHistory x.modem.history (s.now - x.call.leftAt)) then
        askRelease l .lineQuality (s.put l { x with modem := { x.modem with
          history := addHistory x.modem.history (s.now - x.call.leftAt) } } k)
      else post (.retrain l) (s.put l { x with modem := x.modem.askedRetrain (addHistory x.modem.history (s.now - x.call.leftAt)) } k) := by
  have htime : lineTime (s.put l x k) l = s.now - x.call.leftAt := by
    rw [lineTime, lineTimeAt, put_st, hst, put_line, put_now]; rfl
  rw [requestRetrain, put_st, if_pos (by rw [hst]; rfl), htime, modModem_put]
  simp only [put_line, modModem_put, put_st, hst]
  rfl

/-- A retrain asked for from DATA, the history not full, is begun at the end of the command. -/
theorem finish_requestRetrain {s : State} {l : Line} {x : LineState} {k : Link} (hs : s.requests = []) (hst : x.call.st = .data)
    (hfull : historyFull (addHistory x.modem.history (s.now - x.call.leftAt)) = false) :
    ∃ k', finish (requestRetrain l (s.put l x k)) =
      s.put l (({ x with modem := x.modem.askedRetrain (addHistory x.modem.history (s.now - x.call.leftAt)) } : LineState).retraining
        s.now) k' := by
  rw [requestRetrain_put s l x k hst, hfull, if_neg Bool.false_ne_true]
  generalize hy : ({ x with modem := x.modem.askedRetrain (addHistory x.modem.history (s.now - x.call.leftAt)) } : LineState) = y
  have hyst : y.call.st = .data := by rw [← hy]; exact hst
  have hu : (s.put l y k).requests = [] := (put_requests ..).trans hs
  have hpost : (post (.retrain l) (s.put l y k)).requests = [.retrain l] := by rw [post_requests, hu]; rfl
  have hback : { post (.retrain l) (s.put l y k) with requests := [] } = s.put l y k := by rw [← hu]; rfl
  rw [finish, takeRequests_cons hpost, hback, takeRequest, retrainRequest_put s l y k hyst, takeRequests_of_none ((put_requests ..).trans hs)]
  exact ⟨_, rfl⟩

/-- Settles O46, by the three events. -/
theorem retrainTakesDataToTrain : Obligations.RetrainTakesDataToTrain := by
  intro l c now s hs hst hclear hc hfull
  obtain ⟨x, hop, hx⟩ : ∃ x : LineState, opOf c s = requestRetrain l ((s.at now).put l x s.link) ∧
      x = { s.line l with modem := { (s.line l).modem with request := x.modem.request } } := by
    rcases hc with ⟨rfl, rfl⟩ | ⟨q, rfl, hq, rfl⟩ | ⟨q, b, rfl, hq, hcode, rfl⟩
    · refine ⟨s.line l, (?_ : opFarProbeStart l s = _), rfl⟩
      exact (if_pos hst).trans (congrArg (requestRetrain l) (put_self s l).symm)
    · refine ⟨{ s.line l with modem := { (s.line l).modem with request := none } }, (?_ : opRateAnswerTimerExpiry l s = _), rfl⟩
      rw [opRateAnswerTimerExpiry, hq]
      exact congrArg (requestRetrain l) (by cases l <;> rfl)
    · refine ⟨{ s.line l with modem := { (s.line l).modem with request := none } }, (?_ : opRateOk l b s = _), rfl⟩
      rw [opRateOk, hq]
      dsimp only
      rw [if_neg (by simp [linkListens_data hst hclear]), if_neg hcode]
      exact congrArg (requestRetrain l) (by cases l <;> rfl)
  have hxst : x.call.st = .data := by rw [hx]; exact hst
  have hxfull : historyFull (addHistory x.modem.history ((s.at now).now - x.call.leftAt)) = false := by rw [hx]; exact hfull
  obtain ⟨k', hfin⟩ := finish_requestRetrain (s := s.at now) (k := s.link) hs hxst hxfull
  refine ⟨_, (exec_finish hop).trans (congrArg _ hfin), ?_⟩
  rw [put_st, put_line, LineState.retraining, LineState.enter_frame, hx]
  refine ⟨rfl, rfl, rfl, rfl, rfl, rfl, rfl, rfl, rfl, rfl, ?_⟩
  cases l <;> rfl

/-! ### The completion of a training (R109) -/

/-- Line A of a part just reset, in CONFIRM of the training of an incoming call, but with a payload maximum of 0 in its profile. -/
def trainingWithoutPayload : State :=
  { State.reset with lineA := { State.reset.lineA with
    profile := { defaultProfile with payloadMax := 0 }
    call := { initialCall with st := .train, cr := { emptyCallRecord with dir := some .incoming } }
    modem := { initialModem with phase := some .confirm, chosen := some .l24 } } }

/-- The retransmit list of line A in the state a command answers. -/
def listAfter : Host.Outcome State Fault Refusal → List InfoFrame
  | .next t => t.lineA.dl.list
  | _ => []

/-- Refutes O44: nothing in it holds the profile to the range of R135, and under a payload maximum of 0 the empty transmit queue holds a
full payload, so that the entry to DATA forms a frame at once and the retransmit list is not empty. -/
theorem not_trainingProposesConfirmsCompletes : ¬ Obligations.TrainingProposesConfirmsCompletes := by
  intro h
  obtain ⟨-, -, -, -, -, -, complete⟩ := h .A trainingWithoutPayload rfl rfl
  obtain ⟨t, hexec, -, -, -, -, -, -, -, -, -, -, -, hlist, -⟩ := complete 2#8 8#8 128#16 .l24 1 ⟨.l24, 60, 200, 600⟩ rfl rfl rfl
    (by decide) (by decide) rfl rfl rfl rfl rfl rfl rfl rfl
  have hnot : listAfter (exec (.confirm .A 2#8 8#8 128#16) trainingWithoutPayload) = [⟨0, []⟩] := by decide
  rw [hexec] at hnot
  exact List.cons_ne_nil _ _ (hnot.symm.trans hlist)

end Sys2Proof.Machine
end

section
/-! PROOFS. WINDOW_END in DATA (R97 to R102). -/

namespace Sys2Proof.Machine

/-! ### The window in progress (R99) -/

theorem Window.gather_eq (symbols : List SymbolReading) : ∀ w : Window, w.gather symbols = { w with
    sum := w.sum + (symbols.map fun y => min (symbolError y) w.threshold).sum
    impulses := w.impulses + (symbols.filter fun y => decide (w.threshold < symbolError y)).length
    count := w.count + symbols.length } := by
  induction symbols with
  | nil => intro w; rfl
  | cons y rest ih =>
    intro w
    change (w.add (symbolError y)).gather rest = _
    rw [ih]
    by_cases h : w.threshold < symbolError y <;> simp [Window.add, h] <;> omega

/-! ### The decisions of R102 -/

section
variable {s : State} {l : Line} {x : LineState} {k : Link}

theorem currentRung_put : currentRung (s.put l x k) l = x.modem.rung.bind fun r => s.ladder[r]? := by
  rw [currentRung, put_line, put_ladder]

/-- The carrier within its limit changes nothing. -/
theorem offsetWindow_put {offset : Int} (hf : x.iface.current.freqLimit = false) (ho : offset.natAbs ≤ x.profile.freqLimit * 10) :
    offsetWindow l offset (s.put l x k) = s.put l x k := by
  rw [offsetWindow, put_line, decide_eq_false (Nat.not_lt.mpr ho), setCondition_put,
    LineState.deliver_of_get (src := .freqLimit) hf, Link.deliver_of_get (src := .freqLimit) hf, ite_self]

/-- A request for a rung, a frame being on the line. -/
theorem requestRate_put {i : Nat} {target : Rung} (hst : x.call.st ≠ .idle) (hsend : x.dl.sending ≠ none) (h : s.ladder[i]? = some target) :
    requestRate l i (s.put l x k) = s.put l { x with
      modem := { x.modem with request := some ⟨i, target.mode, s.now - x.call.leftAt, s.now + 2000⟩, upCount := 0 }
      dl := { x.dl with rateQueue := x.dl.rateQueue ++ [.rate false target.mode] } } k := by
  have htime : lineTime (s.put l x k) l = s.now - x.call.leftAt := by
    rw [lineTime, lineTimeAt, put_st, if_neg hst, put_line, put_now]
  simp only [requestRate, put_ladder, h, htime, modModem_put, put_now]
  rw [handFrame_busy _ (by rw [put_line]; exact hsend), modDl_put]

theorem windowDecision_held (h : 0 < x.modem.holdOff) : windowDecision l (s.put l x k) =
    s.put l { x with modem := { x.modem with holdOff := x.modem.holdOff - 1 } } k := by
  rw [windowDecision, put_line, if_pos h, modModem_put]

theorem windowDecision_retrain {r : Rung} (h : x.modem.holdOff = 0) (hr : (x.modem.rung.bind fun r => s.ladder[r]?) = some r)
    (hx : r.x ≤ x.modem.q) : windowDecision l (s.put l x k) =
      requestRetrain l (s.put l (x.deliver .quality true) (k.deliver l .quality true x)) := by
  simp only [windowDecision, put_line, h, Nat.lt_irrefl, if_false, currentRung_put, hr, hx, if_true, setCondition_put]

theorem windowDecision_shift {r : Rung} (h : x.modem.holdOff = 0) (hr : (x.modem.rung.bind fun r => s.ladder[r]?) = some r)
    (hx : x.modem.q < r.x) (hst : x.call.st = .data) : windowDecision l (s.put l x k) = shiftDecision l r (s.put l x k) := by
  simp only [windowDecision, put_line, h, Nat.lt_irrefl, if_false, currentRung_put, hr, Nat.not_le.mpr hx, put_st, hst, if_true]

theorem lowerRung_put : lowerRung (s.put l x k) l = ((x.modem.rungSet.getD []).filter fun i => decide (i < x.modem.rung.getD 0)).getLast? := by
  rw [lowerRung, put_line]

theorem higherRung_put : higherRung (s.put l x k) l = (x.modem.rungSet.getD []).find? fun i => decide (x.modem.rung.getD 0 < i) := by
  rw [higherRung, put_line]

theorem shiftDecision_outstanding {r : Rung} (h : x.modem.request ≠ none) : shiftDecision l r (s.put l x k) = s.put l x k := by
  rw [shiftDecision, put_line, if_pos (Option.isSome_iff_ne_none.mpr h)]

theorem shiftDecision_down {r : Rung} {i : Nat} (h : x.modem.request = none) (hd : r.d ≤ x.modem.q)
    (hi : ((x.modem.rungSet.getD []).filter fun i => decide (i < x.modem.rung.getD 0)).getLast? = some i) :
    shiftDecision l r (s.put l x k) = requestRate l i (s.put l x k) := by
  simp only [shiftDecision, put_line, h, Option.isSome_none, Bool.false_eq_true, if_false, lowerRung_put, hi, hd, Option.isSome_some,
    and_self, if_true, Option.getD_some]

/-- No shift down: the up-count, and the shift up where it reaches 30. -/
theorem shiftDecision_up {r : Rung} (h : x.modem.request = none)
    (hd : x.modem.q < r.d ∨ ∀ i ∈ x.modem.rungSet.getD [], x.modem.rung.getD 0 ≤ i) : shiftDecision l r (s.put l x k) =
      let up := if x.modem.q < r.u then min 30 (x.modem.upCount + 1) else 0
      match (x.modem.rungSet.getD []).find? fun i => decide (x.modem.rung.getD 0 < i) with
      | some i => if up = 30 then requestRate l i (s.put l { x with modem := { x.modem with upCount := up } } k)
          else s.put l { x with modem := { x.modem with upCount := up } } k
      | none => s.put l { x with modem := { x.modem with upCount := up } } k := by
  have hno : ¬(r.d ≤ x.modem.q ∧ (lowerRung (s.put l x k) l).isSome = true) := by
    rintro ⟨hle, hsome⟩
    rcases hd with hlt | hall
    · omega
    · have hnil : (x.modem.rungSet.getD []).filter (fun i => decide (i < x.modem.rung.getD 0)) = [] :=
        List.filter_eq_nil_iff.mpr fun i hi => by simpa using hall i hi
      rw [lowerRung_put, hnil] at hsome; cases hsome
  simp only [shiftDecision, put_line, h, Option.isSome_none, Bool.false_eq_true, if_false, if_neg hno, modModem_put, higherRung_put] <;> rfl

/-- The up-count behind a window. -/
def Modem.nextUp (r : Rung) (m : Modem) : Nat := if m.q < r.u then min 30 (m.upCount + 1) else 0

theorem shiftDecision_count {r : Rung} (h : x.modem.request = none)
    (hd : x.modem.q < r.d ∨ ∀ i ∈ x.modem.rungSet.getD [], x.modem.rung.getD 0 ≤ i)
    (hup : x.modem.nextUp r < 30 ∨ ∀ i ∈ x.modem.rungSet.getD [], i ≤ x.modem.rung.getD 0) :
    shiftDecision l r (s.put l x k) = s.put l { x with modem := { x.modem with upCount := x.modem.nextUp r } } k := by
  rw [shiftDecision_up h hd]
  dsimp only
  split
  · next i hi =>
    refine if_neg fun h30 => ?_
    rcases hup with hlt | hall
    · exact absurd h30 (Nat.ne_of_lt hlt)
    · have hlow := hall i (List.mem_of_find?_eq_some hi)
      have hhigh : x.modem.rung.getD 0 < i := by simpa using List.find?_some hi
      omega
  · rfl

theorem shiftDecision_higher {r : Rung} {i : Nat} (h : x.modem.request = none)
    (hd : x.modem.q < r.d ∨ ∀ i ∈ x.modem.rungSet.getD [], x.modem.rung.getD 0 ≤ i) (hup : x.modem.nextUp r = 30)
    (hi : ((x.modem.rungSet.getD []).find? fun i => decide (x.modem.rung.getD 0 < i)) = some i) :
    shiftDecision l r (s.put l x k) =
      requestRate l i (s.put l { x with modem := { x.modem with upCount := x.modem.nextUp r } } k) := by
  rw [shiftDecision_up h hd]
  dsimp only
  rw [hi]
  exact if_pos hup

/-- A retrain asked for leaves the carrier within its limit. -/
theorem offsetWindow_requestRetrain {offset : Int} (hst : x.call.st = .data) (hf : x.iface.current.freqLimit = false)
    (ho : offset.natAbs ≤ x.profile.freqLimit * 10) :
    offsetWindow l offset (requestRetrain l (s.put l x k)) = requestRetrain l (s.put l x k) := by
  rw [requestRetrain_put s l x k hst, askRelease, post_put, post_put]
  split
  · exact offsetWindow_put hf ho
  · exact offsetWindow_put hf ho

end

/-! ### The end of a window -/

/-- The result of a window with the symbols that complete it. -/
def windowResultOf (w : Window) (symbols : List SymbolReading) (W : Nat) : WindowResult :=
  ⟨(w.sum + (symbols.map fun y => min (symbolError y) w.threshold).sum) / W,
    w.impulses + (symbols.filter fun y => decide (w.threshold < symbolError y)).length,
    decide (W / w.divisor < w.impulses + (symbols.filter fun y => decide (w.threshold < symbolError y)).length)⟩

/-- The line with IMPULSE delivered, and with a modem. -/
def LineState.impulse (b : Bool) (m : Modem) (x : LineState) : LineState := { x.deliver .impulse b with modem := m }

/-- The modem with the window complete. -/
def Modem.windowEnded (p : Profile) (r : WindowResult) (offset : Int) (m : Modem) : Modem :=
  { m with window := some p.freshWindow, lastWindow := some r, offset := some offset }

section
variable {s : State} {l : Line} {symbols : List SymbolReading} {offset : Int} {r : Rung} {w : Window}

theorem opWindowEnd_eq (hst : s.st l = .data) (hcur : currentRung s l = some r) (hw : (s.line l).modem.window = some w)
    (hphase : (s.line l).modem.phase = none) (hrole : (s.line l).fax.role = none) : opWindowEnd l symbols offset s =
      let result := windowResultOf w symbols r.mode.windowLength
      offsetWindow l offset (qualityWindow l result (s.put l { s.line l with
        modem := (s.line l).modem.windowEnded (s.line l).profile result offset } s.link)) := by
  have hcheck : inCheck s l = false := by simp [inCheck, faxIs, hrole]
  have hmode : windowMode s l = r.mode := by rw [windowMode, hcur]; rfl
  have hcomplete (result : WindowResult) : completeWindow l result offset s = s.put l { s.line l with
      modem := (s.line l).modem.windowEnded (s.line l).profile result offset } s.link := by
    have hcarries : (s.st l).carries = true := by rw [hst]; rfl
    rw [completeWindow, hcarries]; cases l <;> rfl
  rw [opWindowEnd, hw]
  dsimp only
  rw [if_neg (by simp [hst]), hcheck, if_neg Bool.false_ne_true, if_pos (.inl hst), hmode, hcomplete, Window.gather_eq]
  rfl

/-- A window that is a burst. -/
theorem opWindowEnd_burst (hst : s.st l = .data) (hcur : currentRung s l = some r) (hw : (s.line l).modem.window = some w)
    (hphase : (s.line l).modem.phase = none) (hrole : (s.line l).fax.role = none) (hf : (s.line l).iface.current.freqLimit = false)
    (ho : offset.natAbs ≤ (s.line l).profile.freqLimit * 10)
    (hb : (windowResultOf w symbols r.mode.windowLength).burst = true) : opWindowEnd l symbols offset s =
      let m := (s.line l).modem.windowEnded (s.line l).profile (windowResultOf w symbols r.mode.windowLength) offset
      let t := s.put l ((s.line l).impulse true { m with burstRun := m.burstRun + 1, upCount := 0, holdOff := m.holdOff - 1 })
        (s.link.deliver l .impulse true (s.line l))
      if 3 ≤ (s.line l).modem.burstRun + 1 then requestRetrain l t else t := by
  rw [opWindowEnd_eq hst hcur hw hphase hrole]
  dsimp only
  rw [qualityWindow, impulseWindow, hb, setCondition_put]
  simp only [modModem_put, put_line, if_true]
  generalize hm : (s.line l).modem.windowEnded (s.line l).profile (windowResultOf w symbols r.mode.windowLength) offset = m
  have hrun : m.burstRun = (s.line l).modem.burstRun := by rw [← hm]; rfl
  rw [← hrun]
  by_cases h3 : 3 ≤ m.burstRun + 1
  · rw [if_pos h3]
    refine (congrArg (offsetWindow l offset) (if_pos h3)).trans ?_
    exact offsetWindow_requestRetrain (x := (s.line l).impulse true _) hst hf ho
  · rw [if_neg h3]
    refine (congrArg (offsetWindow l offset) (if_neg h3)).trans ?_
    exact offsetWindow_put (x := (s.line l).impulse true _) hf ho

/-- A window that is none. -/
theorem opWindowEnd_calm (hst : s.st l = .data) (hcur : currentRung s l = some r) (hw : (s.line l).modem.window = some w)
    (hphase : (s.line l).modem.phase = none) (hrole : (s.line l).fax.role = none)
    (hb : (windowResultOf w symbols r.mode.windowLength).burst = false) : opWindowEnd l symbols offset s =
      let m := (s.line l).modem.windowEnded (s.line l).profile (windowResultOf w symbols r.mode.windowLength) offset
      offsetWindow l offset (windowDecision l (s.put l ((s.line l).impulse false { m with
        q := (3 * m.q + (windowResultOf w symbols r.mode.windowLength).mean + 2) / 4, burstRun := 0 })
        (s.link.deliver l .impulse false (s.line l)))) := by
  rw [opWindowEnd_eq hst hcur hw hphase hrole]
  dsimp only
  rw [qualityWindow, impulseWindow, hb, setCondition_put, if_neg Bool.false_ne_true, modModem_put]
  rfl

end

/-- What O43 says of a line whose window asked for a retrain. -/
def RetrainedFrom (l : Line) (impulse : Bool) (history : List Nat) (s t : State) : Prop :=
  t.st l = .train ∧ (t.line l).call.reason = some (.change .retrain) ∧
    (t.line l).modem.history = history ∧ (t.line l).modem.retrainFrom = some .data ∧ (t.line l).modem.phase = some .probe ∧
    (t.line l).modem.request = none ∧ (t.line l).modem.trainDue = some (s.now + 10000) ∧
    (t.line l).iface.current.impulse = impulse ∧ t = { s.setLine l (t.line l) with link := t.link }

section
variable {s : State} {l : Line} {x : LineState} {k : Link} {c : Instr}

/-- A command whose operation asks for a retrain that the history allows. -/
theorem window_retrains (hs : s.requests = []) (hop : opOf c s = requestRetrain l (s.put l x k)) (hst : x.call.st = .data)
    (hfull : historyFull (addHistory x.modem.history (s.now - x.call.leftAt)) = false) :
    ∃ t, exec c s = .next t ∧ RetrainedFrom l x.iface.current.impulse (addHistory x.modem.history (s.now - x.call.leftAt)) s t ∧
      (t.line l).modem.q = x.modem.q ∧ (t.line l).iface.current.quality = x.iface.current.quality := by
  obtain ⟨k', hfin⟩ := finish_requestRetrain (k := k) hs hst hfull
  refine ⟨_, (exec_finish hop).trans (congrArg _ hfin), ?_⟩
  have hkept (src : MonSource) (h : src ≠ .levelLow) (h' : src ≠ .freqLimit) := LineState.enter_current (x := { x with
    modem := x.modem.askedRetrain (addHistory x.modem.history (s.now - x.call.leftAt)) }) .train (.change .retrain) s.now h h'
  unfold RetrainedFrom
  rw [put_st, put_line, LineState.retraining]
  refine ⟨⟨?_, ?_, rfl, rfl, rfl, rfl, rfl, hkept .impulse (by decide) (by decide), ?_⟩, rfl, hkept .quality (by decide) (by decide)⟩
  · rw [LineState.enter_frame]; rfl
  · rw [LineState.enter_frame]; rfl
  · cases l <;> rfl

/-- A command whose operation asks for a retrain that the history does not allow, on a line without work. -/
theorem window_releases (hs : s.requests = []) (hop : opOf c s = requestRetrain l (s.put l x k)) (hst : x.call.st = .data)
    (hfull : historyFull (addHistory x.modem.history (s.now - x.call.leftAt)) = true) (hx : x.Workless) (hjob : x.call.cr.job = none) :
    ∃ t, exec c s = .next t ∧ t.st l = .cleardown ∧ (t.line l).call.reason = some (.release .lineQuality) ∧
      t = { s.setLine l (t.line l) with link := t.link, attempts := t.attempts } := by
  rw [requestRetrain_put s l x k hst, if_pos hfull] at hop
  have hrel : ({ x with modem := { x.modem with history := addHistory x.modem.history (s.now - x.call.leftAt) } } : LineState).Released :=
    ⟨⟨hx.tone, hx.role, hx.sub, hx.refHeld⟩, by rw [show _ = LineSt.data from hst]; rfl, hjob⟩
  obtain ⟨e, lo, hi, cur, lat, hframe⟩ := LineState.cleardown_frame .lineQuality s.now
    { x with modem := { x.modem with history := addHistory x.modem.history (s.now - x.call.leftAt) } }
  have hdown := enterCleardown_put_of_no_job s l k .lineQuality hrel.toWorkless hrel.job
  dsimp only at hdown
  rw [hframe] at hdown
  refine ⟨_, (exec_finish hop).trans (congrArg _ ((finish_askRelease ((put_requests ..).trans hs) (by rw [put_st]; exact hrel.releasable)
    (by rw [hdown]; simp [hs])).trans hdown)), ?_⟩
  cases l <;> exact ⟨rfl, rfl, rfl⟩

end

theorem windowDecision_blend {s : State} {l : Line} {x : LineState} {k : Link} {r : Rung} {offset : Int} (h : x.modem.holdOff = 0)
    (hr : (x.modem.rung.bind fun r => s.ladder[r]?) = some r) (hx : r.x ≤ x.modem.q) (hst : x.call.st = .data)
    (hf : x.iface.current.freqLimit = false) (ho : offset.natAbs ≤ x.profile.freqLimit * 10) :
    offsetWindow l offset (windowDecision l (s.put l x k)) =
      requestRetrain l (s.put l (x.deliver .quality true) (k.deliver l .quality true x)) := by
  rw [windowDecision_retrain h hr hx]
  exact offsetWindow_requestRetrain (x := x.deliver .quality true) hst hf ho

/-- Settles O43: a window that is no burst by its hold-off and its Q, a burst by the bursts before it. -/
theorem windowEndBlendsQuality : Obligations.WindowEndBlendsQuality := by
  intro l symbols offset r w s hs hst hcur hw hphase hrole hf ho hsend hclear
  have htold (b : Bool) : setCondition l .impulse b s = s.put l ((s.line l).deliver .impulse b) (s.link.deliver l .impulse b (s.line l)) := by
    rw [← setCondition_put, put_self]
  dsimp only
  rw [htold, put_line]
  simp only [setLine_put]
  refine ⟨PerSource.get_set_self _ .impulse _, fun hcalm => ?_, fun hburst => ?_, fun u hu hureq => ?_⟩
  · have hb : (windowResultOf w symbols r.mode.windowLength).burst = false := decide_eq_false (Nat.not_lt.mpr hcalm)
    rw [decide_eq_false (Nat.not_lt.mpr hcalm)]
    have hop := opWindowEnd_calm (offset := offset) hst hcur hw hphase hrole hb
    have hres : windowResultOf w symbols r.mode.windowLength = ⟨_, _, false⟩ := congrArg (WindowResult.mk _ _) hb
    dsimp only at hop
    rw [hres] at hop
    have hidle : s.st l ≠ .idle := by rw [hst]; decide
    have ended {t : State} (h : opWindowEnd l symbols offset s = t) (ht : t.requests = []) :
      exec (.windowEnd l symbols offset) s = .next t := exec_of_op h ht
    refine ⟨fun hhold => ?_, fun hhold hx hfull => ?_, fun hhold hx hfull ⟨htone, hsub, hjob, href⟩ => ?_, fun hhold hx hreq => ?_,
      fun i target hhold hx hreq hd hi htarget => ?_, fun hhold hx hreq hd => ⟨fun hup => ?_, fun i target hup hi htarget => ?_⟩⟩
    · rw [windowDecision_held (by exact hhold)] at hop
      rw [offsetWindow_put (by exact hf) (by exact ho)] at hop
      exact ended hop (by simp [hs])
    · rw [windowDecision_blend (by exact hhold) (by exact hcur) (by exact hx) (by exact hst) (by exact hf) (by exact ho)] at hop
      obtain ⟨t, ht, hret, hq, hqual⟩ := window_retrains (c := .windowEnd l symbols offset) hs hop (by exact hst) (by exact hfull)
      exact ⟨t, ht, hret, hq, hqual⟩
    · rw [windowDecision_blend (by exact hhold) (by exact hcur) (by exact hx) (by exact hst) (by exact hf) (by exact ho)] at hop
      exact window_releases (c := .windowEnd l symbols offset) hs hop (by exact hst) (by exact hfull)
        (by exact ⟨htone, hrole, hsub, href⟩) (by exact hjob)
    all_goals rw [windowDecision_shift (by exact hhold) (by exact hcur) (by exact hx) (by exact hst)] at hop
    · rw [shiftDecision_outstanding (by exact hreq)] at hop
      rw [offsetWindow_put (by exact hf) (by exact ho)] at hop
      exact ended hop (by simp [hs])
    · rw [shiftDecision_down (by exact hreq) (by exact hd) (by exact hi), requestRate_put (by exact hidle)
        (by exact hsend) htarget] at hop
      rw [offsetWindow_put (by exact hf) (by exact ho)] at hop
      exact ended hop (by simp [hs])
    · rw [shiftDecision_count (by exact hreq) (by exact hd) (by exact hup), offsetWindow_put (by exact hf) (by exact ho)] at hop
      exact ended hop (by simp [hs])
    · rw [shiftDecision_higher (by exact hreq) (by exact hd) (by exact hup) (by exact hi), requestRate_put (by exact hidle)
        (by exact hsend) htarget, offsetWindow_put (by exact hf) (by exact ho)] at hop
      exact ended hop (by simp [hs])
  · have hb : (windowResultOf w symbols r.mode.windowLength).burst = true := decide_eq_true hburst
    rw [decide_eq_true hburst]
    have hop := opWindowEnd_burst (offset := offset) hst hcur hw hphase hrole hf ho hb
    have hres : windowResultOf w symbols r.mode.windowLength = ⟨_, _, true⟩ := congrArg (WindowResult.mk _ _) hb
    dsimp only at hop
    rw [hres] at hop
    refine ⟨fun hrun => ?_, fun hrun hfull => ?_, fun hrun hfull ⟨htone, hsub, hjob, href⟩ => ?_⟩
    · rw [if_neg (by omega)] at hop
      exact exec_of_op hop (by simp [hs])
    · rw [if_pos (by omega)] at hop
      obtain ⟨t, ht, hret, hq, -⟩ := window_retrains (c := .windowEnd l symbols offset) hs hop (by exact hst) (by exact hfull)
      exact ⟨t, ht, hret, hq⟩
    · rw [if_pos (by omega)] at hop
      exact window_releases (c := .windowEnd l symbols offset) hs hop (by exact hst) (by exact hfull)
        (by exact ⟨htone, hrole, hsub, href⟩) (by exact hjob)
  · refine exec_of_op (?_ : opWindowEnd l symbols offset u = u) hureq
    rw [opWindowEnd, hu]

end Sys2Proof.Machine
end

section
/-! PROOFS. The voice codes (R177, R178, 10.7). -/

namespace Sys2Proof.Machine

/-! ### Coder and decoder -/

@[simp] theorem encode_cons_codes (c : Coder) (coding : Coding) (x : Int) (rest : List Int) :
    (c.encode coding (x :: rest)).1 = c.code coding x :: ((c.apply coding (c.code coding x)).encode coding rest).1 := rfl

@[simp] theorem encode_cons_coder (c : Coder) (coding : Coding) (x : Int) (rest : List Int) :
    (c.encode coding (x :: rest)).2 = ((c.apply coding (c.code coding x)).encode coding rest).2 := rfl

theorem encode_length (coding : Coding) (xs : List Int) : ∀ c : Coder, (c.encode coding xs).1.length = xs.length := by
  induction xs with
  | nil => exact fun _ => rfl
  | cons x rest ih => intro c; simp [ih]

/-- The decoder has the coder's state after each code. -/
theorem decode_encode (coding : Coding) (xs : List Int) : ∀ c : Coder, (c.decode coding (c.encode coding xs).1).2 = (c.encode coding xs).2 ∧
    (c.decode coding (c.encode coding xs).1).1 = (List.range xs.length).map fun i => 4 * (c.encode coding (xs.take (i + 1))).2.p := by
  induction xs with
  | nil => exact fun _ => ⟨rfl, rfl⟩
  | cons x rest ih =>
    intro c
    obtain ⟨hstate, hsamples⟩ := ih (c.apply coding (c.code coding x))
    refine ⟨hstate, ?_⟩
    rw [List.length_cons, List.range_succ_eq_map, List.map_cons, List.map_map, encode_cons_codes, Coder.decode]
    exact congrArg _ hsamples

theorem clampInt_range (n : Int) : -8192 ≤ clampInt (-8192) 8191 n ∧ clampInt (-8192) 8191 n ≤ 8191 := by
  unfold clampInt; omega

/-- After one code and more the predictor is within its range. -/
theorem encode_predictor_range (coding : Coding) (rest : List Int) : ∀ (c : Coder) (x : Int),
    -8192 ≤ (c.encode coding (x :: rest)).2.p ∧ (c.encode coding (x :: rest)).2.p ≤ 8191 := by
  induction rest with
  | nil => exact fun c x => clampInt_range _
  | cons y rest ih => exact fun c x => ih (c.apply coding (c.code coding x)) y

/-! ### Codes in bytes -/

/-- The codes of a coding: below 4 in ADC2, below 16 in ADC4. -/
theorem code_lt (c : Coder) (x : Int) : c.code .adc2 x < 4 ∧ c.code .adc4 x < 16 := by
  have h2 : magnitude .adc2 (x - c.p) (voiceStep c.k) ≤ 1 := Nat.min_le_left ..
  have h4 : magnitude .adc4 (x - c.p) (voiceStep c.k) ≤ 7 := Nat.min_le_left ..
  have w2 : signWeight .adc2 = 2 := rfl
  have w4 : signWeight .adc4 = 8 := rfl
  simp only [Coder.code, w2, w4]
  constructor <;> split <;> omega

theorem encode_codes_lt (xs : List Int) : ∀ c : Coder,
    (∀ a ∈ (c.encode .adc2 xs).1, a < 4) ∧ (∀ a ∈ (c.encode .adc4 xs).1, a < 16) := by
  induction xs with
  | nil => exact fun _ => ⟨fun _ h => (nomatch h), fun _ h => (nomatch h)⟩
  | cons x rest ih =>
    intro c
    simp only [encode_cons_codes, List.forall_mem_cons]
    exact ⟨⟨(code_lt c x).1, (ih _).1⟩, (code_lt c x).2, (ih _).2⟩

/-- Four codes of two bits in a byte. -/
theorem unpackByte_adc2 {a b c d : Nat} (ha : a < 4) (hb : b < 4) (hc : c < 4) (hd : d < 4) :
    unpackByte .adc2 (BitVec.ofNat 8 (a + 4 * b + 16 * c + 64 * d)) = [a, b, c, d] := by
  have h : (a + 4 * b + 16 * c + 64 * d) % 2 ^ 8 = a + 4 * b + 16 * c + 64 * d := Nat.mod_eq_of_lt (by omega)
  simp only [unpackByte, BitVec.toNat_ofNat, h, List.cons.injEq, and_true]
  omega

/-- Two codes of four bits in a byte. -/
theorem unpackByte_adc4 {a b : Nat} (ha : a < 16) (hb : b < 16) : unpackByte .adc4 (BitVec.ofNat 8 (a + 16 * b)) = [a, b] := by
  have h : (a + 16 * b) % 2 ^ 8 = a + 16 * b := Nat.mod_eq_of_lt (by omega)
  simp only [unpackByte, BitVec.toNat_ofNat, h, List.cons.injEq, and_true]
  omega

theorem packCodes_adc2 : ∀ codes : List Nat, codes.length % 4 = 0 → (∀ a ∈ codes, a < 4) →
    (packCodes .adc2 codes).flatMap (unpackByte .adc2) = codes ∧ (packCodes .adc2 codes).length = codes.length / 4
  | [], _, _ => ⟨rfl, rfl⟩
  | [_], h, _ | [_, _], h, _ | [_, _, _], h, _ => by simp at h
  | a :: b :: c :: d :: more, h, hlt => by
    simp only [List.forall_mem_cons] at hlt
    obtain ⟨ha, hb, hc, hd, hmore⟩ := hlt
    obtain ⟨hflat, hlen⟩ := packCodes_adc2 more (by simp only [List.length_cons] at h; omega) hmore
    rw [packCodes, List.flatMap_cons, unpackByte_adc2 ha hb hc hd, hflat]
    refine ⟨rfl, ?_⟩
    simp only [List.length_cons, hlen]
    omega

theorem packCodes_adc4 : ∀ codes : List Nat, codes.length % 2 = 0 → (∀ a ∈ codes, a < 16) →
    (packCodes .adc4 codes).flatMap (unpackByte .adc4) = codes ∧ (packCodes .adc4 codes).length = codes.length / 2
  | [], _, _ => ⟨rfl, rfl⟩
  | [_], h, _ => by simp at h
  | a :: b :: more, h, hlt => by
    simp only [List.forall_mem_cons] at hlt
    obtain ⟨ha, hb, hmore⟩ := hlt
    obtain ⟨hflat, hlen⟩ := packCodes_adc4 more (by simp only [List.length_cons] at h; omega) hmore
    rw [packCodes, List.flatMap_cons, unpackByte_adc4 ha hb, hflat]
    · refine ⟨rfl, ?_⟩
      simp only [List.length_cons, hlen]
      omega
    · nofun
    · nofun

/-- Settles O60. -/
theorem decoderFollowsTheCoder : Obligations.DecoderFollowsTheCoder := by
  intro coding start xs hcoding hlen
  have hpack : (packCodes coding (start.encode coding xs).1).flatMap (unpackByte coding) = (start.encode coding xs).1 ∧
      (packCodes coding (start.encode coding xs).1).length = xs.length / (if coding = .adc2 then 4 else 2) := by
    rw [← encode_length coding xs start] at hlen ⊢
    cases coding with
    | none => exact absurd rfl hcoding
    | adc2 => exact packCodes_adc2 _ hlen (encode_codes_lt xs start).1
    | adc4 => exact packCodes_adc4 _ hlen (encode_codes_lt xs start).2
  refine ⟨hpack.1, hpack.2, (decode_encode coding xs start).1, (decode_encode coding xs start).2, fun i hi => ?_⟩
  cases xs with
  | nil => exact absurd hi (Nat.not_lt_zero i)
  | cons x rest => exact encode_predictor_range coding (rest.take i) start x

end Sys2Proof.Machine
end

section
/-! PROOFS. The debouncers of ring, loop and extension, the caller window and the tone generator (Chapter 2), and a ring-on at the call
controller (Chapter 4). -/

namespace Sys2Proof.Machine

theorem setLine_eq_put (s : State) (l : Line) (x : LineState) : s.setLine l x = s.put l x s.link := by cases l <;> rfl

/-- A state as its line's part and the terminal link's, at a time. -/
theorem at_eq_put (s : State) (l : Line) (now : Nat) : s.at now = (s.at now).put l (s.line l) s.link := by cases l <;> rfl

@[simp] theorem at_now (s : State) (now : Nat) : (s.at now).now = now := rfl
@[simp] theorem at_cadences (s : State) (now : Nat) : (s.at now).cadences = s.cadences := rfl
@[simp] theorem at_requests (s : State) (now : Nat) : (s.at now).requests = s.requests := rfl

/-! ### The ring source at the matcher (R54) -/

/-- No cadence entry watches a source. -/
def Unwatched (src : CadSource) (s : State) : Prop := ∀ e, some e ∈ s.cadences → e.source ≠ src

theorem eachCadence_of_unwatched {src : CadSource} {s : State} (h : Unwatched src s) (f : Nat → CadEntry → State → State) :
    eachCadence src f s = s := by
  unfold eachCadence
  suffices hx : ∀ (entries : List (Option CadEntry × Nat)), (∀ x ∈ entries, ∀ e, x.1 = some e → e.source ≠ src) → ∀ t,
      entries.foldl (fun s x => match x.1 with
        | some e => if e.source = src then f x.2 e s else s
        | none => s) t = t by
    refine hx _ (fun x hx e he => h e ?_) s
    exact he ▸ List.fst_mem_of_mem_zipIdx hx
  intro entries
  induction entries with
  | nil => exact fun _ _ => rfl
  | cons x rest ih =>
    intro hall t
    have hrest := ih (fun y hy => hall y (List.mem_cons_of_mem _ hy)) t
    rw [List.foldl_cons]
    rcases x with ⟨- | e, k⟩
    · exact hrest
    · exact (congrArg (List.foldl _ · rest) (if_neg (hall (some e, k) List.mem_cons_self e rfl))).trans hrest

theorem judgeRing_of_unwatched {l : Line} {s : State} (h : Unwatched .ring s) : judgeRing l s = s := by
  unfold judgeRing runningOn runningOff
  dsimp only
  split <;> first | rfl | exact eachCadence_of_unwatched h _

theorem Unwatched.put {src : CadSource} {s : State} (h : Unwatched src s) (l : Line) (x : LineState) (k : Link) :
    Unwatched src (s.put l x k) := fun e he => h e (by rwa [put_cadences] at he)

/-! ### Ring (R24, R27) -/

/-- A ring pulse at the debouncer. -/
def RingDeb.pulsed (now : Nat) : RingDeb → RingDeb
  | .quiet => .pending now (now + 150)
  | .pending start _ => .pending start (now + 150)
  | .on start _ => .on start (now + 150)

theorem opRingPulse_of_closed {l : Line} {s : State} {x : LineState} {k : Link} (hpin : hasPin s (ringFn l) = true)
    (hring : Unwatched .ring s) (hclose : closeWindow l s = s.put l x k) :
    opRingPulse l s = s.put l { x with iface := { x.iface with ring := x.iface.ring.pulsed s.now } } k := by
  rw [opRingPulse, if_pos hpin]
  dsimp only
  rw [hclose, modIface_put, judgeRing_of_unwatched (hring.put _ _ _), put_now]
  rfl

theorem closeWindow_gathering {s : State} {l : Line} {x : LineState} {k : Link} {bs : List Byte} {r : CallerRecord}
    (h : x.iface.window = .gathering bs) (hr : formCaller bs = some r) : closeWindow l (s.put l x k) =
    s.put l { x with iface := { x.iface with window := .closed, caller := some r } } (k.push (.caller l r)) := by
  simp only [closeWindow, put_line, h, formRecord, hr, modIface_put, queueReport_put]

theorem ringOffNow_put {s : State} {l : Line} {x : LineState} {k : Link} (start : Nat) (hring : Unwatched .ring s) :
    ringOffNow l start (s.put l x k) = s.put l { x with
      iface := { x.iface with
        ring := .quiet, ringOff := some s.now
        window := if x.call.firstRing = true ∧ x.call.st = .ringing then .listening else x.iface.window }
      call := { x.call with firstRing := false } } k := by
  have hon : cadenceOn l .ring (s.now - start) start (s.put l { x with iface := { x.iface with ring := .quiet, ringOff := some s.now } } k) =
      s.put l { x with iface := { x.iface with ring := .quiet, ringOff := some s.now } } k :=
    eachCadence_of_unwatched (hring.put _ _ _) _
  simp only [ringOffNow, modIface_put, put_now, hon, callRingOff, put_line, modCall_put]
  by_cases hf : x.call.firstRing = true
  · by_cases hst : x.call.st = .ringing
    · simp only [hf, hst, if_true, and_self, openWindow, modIface_put]
    · simp only [hf, hst, if_true, and_false, if_false]
  · have : x.call = { x.call with firstRing := false } := by rw [← Bool.eq_false_iff.mpr hf]
    simp only [hf, false_and, if_false, Bool.false_eq_true]
    rw [← this]

/-- Settles O20. -/
theorem ringDebouncerTakesPulsesAndEnds : Obligations.RingDebouncerTakesPulsesAndEnds := by
  intro l s hs hring
  have hself : s.put l (s.line l) s.link = s := put_self s l
  have hat (now : Nat) : Unwatched .ring (s.at now) := hring
  dsimp only
  refine ⟨fun hpin => ⟨fun hwin => ?_, fun bs r hwin hr => ?_⟩, fun hpin => ?_, fun start due hon => ?_, fun start due hon => ?_⟩
  · have hclose := closeWindow_put (s := s) (l := l) (k := s.link) hwin
    rw [hself] at hclose
    refine exec_of_op ((opRingPulse_of_closed hpin hring hclose).trans ?_) (by rw [setLine_requests, hs])
    rw [setLine_eq_put]; rfl
  · have hclose := closeWindow_gathering (s := s) (l := l) (k := s.link) hwin hr
    rw [hself] at hclose
    refine exec_of_op ((opRingPulse_of_closed hpin hring hclose).trans ?_) (by simp [hs])
    rw [setLine_eq_put, queueReport_put]; rfl
  · exact exec_of_op (by change opRingPulse l s = s; rw [opRingPulse, hpin]; rfl) hs
  · refine exec_of_op (t := (s.at (max s.now due)).put l
        { s.line l with iface := { (s.line l).iface with ring := .quiet } } s.link) ?_ (by simp [hs]) |>.trans ?_
    · change opRingEndTimerExpiry l s = _
      simp only [opRingEndTimerExpiry, hon, elapse_eq_at]
      rw [at_eq_put s l, modIface_put, judgeRing_of_unwatched ((hat _).put _ _ _), put_put]
    · cases l <;> rfl
  · refine exec_of_op (t := ringOffNow l start ((s.at (max s.now due)).put l (s.line l) s.link)) ?_ ?_ |>.trans ?_
    · change opRingEndTimerExpiry l s = _
      simp only [opRingEndTimerExpiry, hon, elapse_eq_at]
      rw [← at_eq_put]
    · rw [ringOffNow_put _ (hat _), put_requests]; exact hs
    · rw [ringOffNow_put _ (hat _)]; cases l <;> rfl

/-! ### A ring-on at the call controller (R67, R68) -/

theorem LineState.judge_of_agreeing {x : LineState} (h : x.iface.expecting = x.expects) : x.judge = x := if_pos h

theorem Link.judge_of_agreeing {x : LineState} (h : x.iface.expecting = x.expects) (l : Line) (k : Link) : k.judge l x = k :=
  if_pos (.inl h)

/-- With the answer mode OFF, no ring class and no screen entry the plan does not answer. -/
theorem evaluatePlan_of_off {s : State} {l : Line} (hmode : (s.line l).profile.answerMode = .off)
    (hclass : (s.line l).call.cr.ringClass = none) (hscreen : ∀ e ∈ s.screen, e = none) : evaluatePlan l s = s := by
  have hconsult : consult s true (callerSubject (s.line l).iface.caller) = none := by
    rw [consult, List.findSome?_eq_none_iff.mpr fun e he => by rw [hscreen e he]; rfl]
    rfl
  have hplan : ∃ rings, answerPlan s l = some ⟨.off, some (s.line l).profile.mailbox, rings⟩ := by
    refine ⟨(s.line l).call.ringsToAnswer.getD (s.line l).profile.rings, ?_⟩
    simp only [answerPlan, hconsult, basePlan, hclass, hmode, ite_self]
  obtain ⟨rings, hplan⟩ := hplan
  simp only [evaluatePlan, hplan, planAnswers, ne_eq, not_true, decide_false, Bool.false_and, if_false, Bool.false_eq_true]

theorem callRingOn_idle {s : State} {l : Line} (h : s.st l = .idle) : callRingOn l s = startRinging l s := by rw [callRingOn, h]

theorem callRingOn_ringing {s : State} {l : Line} (h : s.st l = .ringing) : callRingOn l s = countRing l s := by rw [callRingOn, h]

/-- RING_ON with no cadence entry on the ring. -/
theorem opRingOn_of_pending {s : State} {l : Line} {start due : Nat} (h : (s.line l).iface.ring = .pending start due)
    (hring : Unwatched .ring s) : opRingOn l s = callRingOn l ((s.at (max s.now (start + 200))).put l
      { s.line l with iface := { (s.line l).iface with ring := .on start due } } s.link) := by
  have hstart : modIface l (fun i => { i with ring := .on start due }) (elapse (start + 200) s) = (s.at (max s.now (start + 200))).put l
      { s.line l with iface := { (s.line l).iface with ring := .on start due } } s.link := by cases l <;> rfl
  have hon : Unwatched .ring ((s.at (max s.now (start + 200))).put l
      { s.line l with iface := { (s.line l).iface with ring := .on start due } } s.link) :=
    Unwatched.put (s := s.at (max s.now (start + 200))) hring _ _ _
  simp only [opRingOn, h, hstart]
  generalize (s.at (max s.now (start + 200))).put l _ s.link = t at hon
  cases (s.line l).iface.ringOff with
  | none => exact congrArg _ (judgeRing_of_unwatched hon)
  | some off =>
    have hoff : cadenceOff l .ring (start - off) t = t := eachCadence_of_unwatched hon _
    exact congrArg (callRingOn l) ((congrArg _ hoff).trans (judgeRing_of_unwatched hon))

/-- Settles O21. -/
theorem ringOnStartsOrCountsRinging : Obligations.RingOnStartsOrCountsRinging := by
  intro l start due s hs hpending hring hscreen hmode hexp hsub
  have hop := opRingOn_of_pending hpending hring
  dsimp only
  generalize hnow : max s.now (start + 200) = now at hop ⊢
  refine ⟨fun hst hext => ?_, fun hst hclass => ?_⟩
  · have hset : ∀ y : LineState, y.iface.expecting = false → y.voice.sub = none → y.call.st = .idle →
        y.enter .ringing (.change .ring) now = y.setSt .ringing (.change .ring) now ∧ ∀ k : Link,
          k.enter l .ringing (.change .ring) none now y = k.push (.line l .ringing (.change .ring) none) := by
      intro y he hv hy
      have hagree : (y.setSt .ringing (.change .ring) now).iface.expecting = (y.setSt .ringing (.change .ring) now).expects := by
        simp only [LineState.setSt, LineState.expects, he, hv]; rfl
      have hidle : ¬(y.call.st.carries = true ∧ LineSt.ringing.carries = false) := by rw [hy]; nofun
      exact ⟨(if_neg hidle).trans (LineState.judge_of_agreeing hagree), fun k => (if_neg hidle).trans (Link.judge_of_agreeing hagree l _)⟩
    have hrun : opRingOn l s = (s.at now).put l { s.line l with
        iface := { (s.line l).iface with ring := .on start due }
        call := { (s.line l).call with
          st := .ringing, reason := some (.change .ring), leftAt := now
          cr := { emptyCallRecord with dir := some .incoming, rings := 1 }, ringDue := some (now + 8000), firstRing := true
          ringsToAnswer := some (s.line l).profile.rings } } (s.link.push (.line l .ringing (.change .ring) none)) := by
      have hy := hset { s.line l with iface := { (s.line l).iface with ring := .on start due } } hexp hsub hst
      rw [hop, callRingOn_idle (by rw [put_st]; exact hst)]
      simp only [startRinging, put_line]
      rw [if_neg hext, changeState_put, at_now, hy.1, hy.2, modCall_put, put_now, evaluatePlan_of_off]
      · have hidle : (s.line l).call.st = .idle := hst
        simp only [LineState.setSt, hidle, if_true, put_line]; rfl
      · rw [put_line]; exact hmode
      · rw [put_line]; rfl
      · rw [put_screen]; exact hscreen
    refine ⟨_, exec_of_op (c := .ringOn l) hrun (by simp [hs]), ?_⟩
    cases l <;> exact ⟨rfl, rfl, rfl, rfl, rfl, rfl, rfl, rfl⟩
  · have hrun : opRingOn l s = (s.at now).put l { s.line l with
        iface := { (s.line l).iface with ring := .on start due }
        call := { (s.line l).call with
          cr := { (s.line l).call.cr with rings := min 255 ((s.line l).call.cr.rings + 1) }
          ringDue := some (now + 8000), firstRing := false } } s.link := by
      rw [hop, callRingOn_ringing (by rw [put_st]; exact hst)]
      simp only [countRing]
      rw [modCall_put, put_now, evaluatePlan_of_off]
      · rfl
      · rw [put_line]; exact hmode
      · rw [put_line]; exact hclass
      · rw [put_screen]; exact hscreen
    refine (exec_of_op (c := .ringOn l) hrun (by simp [hs])).trans ?_
    cases l <;> rfl

/-! ### Loop and extension (R25, R26) -/

/-- A request made by a command that leaves no other is taken at its end. -/
theorem finish_post {r : Request} {u t : State} (hu : u.requests = []) (h : takeRequest r u = t) (ht : t.requests = []) :
    finish (post r u) = t := by
  have hback : { post r u with requests := [] } = u := by rw [← hu]; rfl
  rw [finish, takeRequests_cons (r := r) (rest := []) (by rw [post_requests, hu]; rfl), hback, h, takeRequests_of_none ht]

/-- A change of one line's interface at a moment. -/
theorem modIface_elapse (l : Line) (f : Iface → Iface) (due : Nat) (s : State) : modIface l f (elapse due s) =
    { s.setLine l { s.line l with iface := f (s.line l).iface } with now := max s.now due } := by cases l <;> rfl

/-- Settles O23. -/
theorem loopAndExtensionAreDebounced : Obligations.LoopAndExtensionAreDebounced := by
  intro l v s hs hloop hext
  dsimp only
  refine ⟨fun hin hsus => ?_, fun n due hwait hst => ?_, fun hne hin => ?_, fun heq => ?_, fun due hdue hin hon hauto => ?_⟩
  · refine exec_of_op ((if_pos hloop).trans ?_) (by rw [setLine_requests, hs])
    have hgo : ¬((s.line l).iface.loopSuspended = true ∨ (s.line l).iface.loopIn = v) := by simp [hsus, hin]
    rw [modIface, if_neg hgo]
    cases h : (s.line l).iface.loop <;> rfl
  · refine exec_of_op (?_ : opLoopEstablished l s = _) (by simp [hs])
    have hne : ¬(modIface l (fun i => { i with loop := .present }) (elapse due s)).st l = .seize := by
      rw [modIface_elapse]; cases l <;> exact hst
    simp only [opLoopEstablished, hwait]
    exact (if_neg hne).trans (modIface_elapse ..)
  · refine exec_of_op ((if_pos hext).trans ?_) (by rw [setLine_requests, hs])
    rw [modIface, if_neg hne, if_neg hin]
  · refine exec_of_op ((if_pos hext).trans ?_) (by rw [setLine_requests, hs])
    rw [modIface, if_pos heq]
  · have hop : opExtensionHangup l s = post (.extHangup l)
        (modIface l (fun i => { i with extState := false, extDue := none }) (elapse due s)) := by
      simp only [opExtensionHangup, hdue, hin, hon, and_self, if_true]
    rw [modIface_elapse] at hop
    have hoff (t : State) (h : (t.line l).profile.autoCallout = false) : takeRequest (.extHangup l) t = t :=
      dispatchLine_of_not (by simp [canTakeJob, h])
    refine (exec_finish (c := .extensionHangup l) hop).trans (congrArg _ (finish_post ?_ (hoff _ ?_) ?_))
    · exact (setLine_requests ..).trans hs
    · cases l <;> exact hauto
    · exact (setLine_requests ..).trans hs

/-! ### The tone generator (R36) -/

theorem opToneGeneratorCompletion_eq {s : State} {l : Line} {sig : ToneSignal} {v : Bool} {due : Nat}
    (h : (s.line l).iface.tone = some ⟨sig, v, due⟩) (htimed : toneTimed ⟨sig, v, due⟩ = true) :
    opToneGeneratorCompletion l s = toneOver l sig
      { s.setLine l { s.line l with iface := { (s.line l).iface with tone := none } } with now := max s.now due } := by
  rw [opToneGeneratorCompletion, h]
  exact (if_pos htimed).trans (congrArg _ (modIface_elapse ..))

/-- The generator is the source of a line's samples exactly while it sounds and nothing of R21 goes before it. -/
theorem txSource_toneGenerator {s : State} {l : Line} {g : ToneGen} (h : (s.line l).iface.tone = some g) :
    txSource s l = .toneGenerator ↔ ¬(s.st l = .idle ∨ s.st l = .ringing ∨ s.st l = .cleardown) ∧ squelched s l = false ∧
      g.sounding = true := by
  unfold txSource State.st
  simp only [h, Option.map_some, Option.getD_some]
  split_ifs <;> simp_all

theorem toneOutput_of_sounding {s : State} {l : Line} {g : ToneGen} (h : (s.line l).iface.tone = some g) :
    toneOutput s l = if ¬(s.st l = .idle ∨ s.st l = .ringing ∨ s.st l = .cleardown) ∧ squelched s l = false ∧ g.sounding = true
      then g.signal.components else [] := by
  simp only [toneOutput, txSource_toneGenerator h, h, Option.map_some, Option.getD_some]

/-- The sines of a DTMF digit, by its row and column. -/
theorem dtmf_components {r k on off row col : Nat} {ds : List Byte} {d : Byte} (hr : [697, 770, 852, 941][r]? = some row)
    (hk : [1209, 1336, 1477, 1633][k]? = some col)
    (hds : [[0x31#8, 0x32#8, 0x33#8, 0x41#8], [0x34#8, 0x35#8, 0x36#8, 0x42#8], [0x37#8, 0x38#8, 0x39#8, 0x43#8],
      [0x2A#8, 0x30#8, 0x23#8, 0x44#8]][r]? = some ds) (hd : ds[k]? = some d) :
    (ToneSignal.dtmf d on off).components = [⟨row, -11, 0⟩, ⟨col, -9, 0⟩] := by
  have hr4 : r < 4 := (List.getElem?_eq_some_iff.mp hr).1
  have hk4 : k < 4 := (List.getElem?_eq_some_iff.mp hk).1
  interval_cases r <;> cases hr <;> cases hds <;> interval_cases k <;> cases hk <;> cases hd <;> rfl

/-- Settles O24. -/
theorem toneGeneratorKeepsItsTimes : Obligations.ToneGeneratorKeepsItsTimes := by
  refine ⟨fun l due s hs => ?_, fun l due s hs htone hst hphase hret => ?_, fun r k on off row col ds d => dtmf_components, rfl, rfl, rfl,
    fun _ _ => rfl, fun l s g hg => ⟨fun h1 h2 h3 hsq hsound => ?_, fun h => ?_⟩⟩
  · have hst (x : Iface) : (({ s.setLine l { s.line l with iface := x } with now := max s.now due } : State).line l) =
        { s.line l with iface := x } := by cases l <;> rfl
    dsimp only
    refine ⟨fun d on off h => ?_, fun v h => ?_, fun v h => ?_, fun f d h hsub => ?_, fun h htrain hfax => ?_, fun d on off h hdial => ?_⟩
    · exact exec_of_op (by change opDtmfOnTimeEnd l s = _; rw [opDtmfOnTimeEnd, h]; exact modIface_elapse ..) (by simp [hs])
    · exact exec_of_op (by change opCallingToneToggle l s = _; rw [opCallingToneToggle, h]; exact modIface_elapse ..) (by simp [hs])
    · exact exec_of_op (by change opCallingToneToggle l s = _; rw [opCallingToneToggle, h]; exact modIface_elapse ..) (by simp [hs])
    · exact exec_of_op ((opToneGeneratorCompletion_eq h rfl).trans (if_neg (by rw [hst]; exact hsub))) (by simp [hs])
    · refine exec_of_op ((opToneGeneratorCompletion_eq h rfl).trans ?_) (by simp [hs])
      rw [toneOver, answerToneOver, if_neg (by rw [State.st, hst]; exact fun h => htrain h.1),
        if_neg (by rw [State.st, hst]; exact fun h => hfax h.1)]
    · exact exec_of_op ((opToneGeneratorCompletion_eq h rfl).trans (if_neg (by rw [State.st, hst]; exact fun h => hdial h.1))) (by simp [hs])
  · have hop : opToneGeneratorCompletion l s = (s.at (max s.now due)).put l
        { s.line l with
          iface := { (s.line l).iface with tone := none }
          modem := (s.line l).modem.training (s.line l).profile (max s.now due) } s.link := by
      have hstart : ({ s.setLine l { s.line l with iface := { (s.line l).iface with tone := none } } with now := max s.now due } : State) =
          (s.at (max s.now due)).put l { s.line l with iface := { (s.line l).iface with tone := none } } s.link := by cases l <;> rfl
      rw [opToneGeneratorCompletion_eq htone rfl, hstart, toneOver, answerToneOver, put_st, put_line, if_pos ⟨hst, hphase, hret⟩,
        startTraining_put]
      rfl
    refine ⟨_, exec_of_op hop (by simp [hs]), ?_⟩
    cases l <;> exact ⟨rfl, rfl, rfl, rfl, rfl, rfl⟩
  · rw [toneOutput_of_sounding hg, if_pos ⟨by simp [h1, h2, h3], hsq, hsound⟩]
  · refine (toneOutput_of_sounding hg).trans (if_neg ?_)
    rintro ⟨-, hsq, hsound⟩
    rcases h with h | h
    · rw [h] at hsound; cases hsound
    · rw [h] at hsq; cases hsq

end Sys2Proof.Machine
end

section
/-! PROOFS. The caller burst receiver and the record it forms (R27, R28). -/

namespace Sys2Proof.Machine

/-! ### The fields of a message (R28) -/

/-- A field as it stands in a message: its code, its length and its content. -/
def fieldBytes (f : Byte × List Byte) : List Byte := f.1 :: BitVec.ofNat 8 f.2.length :: f.2

/-- What is left of a message at which the decoding ends: less than a field's code and length, or less than its content. -/
def EndsFields (rest : List Byte) : Prop := rest.length ≤ 1 ∨ ∃ code len c, rest = code :: len :: c ∧ c.length < len.toNat

theorem burstFields_of_end {fuel room : Nat} {rest : List Byte} (h : EndsFields rest) : burstFields fuel rest room = [] := by
  cases fuel with
  | zero => rfl
  | succ fuel =>
    match rest, h with
    | [], _ => rfl
    | [_], _ => rfl
    | code :: len :: c, .inl h => simp at h
    | _ :: _ :: _, .inr ⟨_, _, _, rfl, hlt⟩ => exact if_neg fun h => absurd h.2 (Nat.not_le.mpr hlt)

/-- The fields of a message read back. -/
theorem burstFields_fields {rest : List Byte} (hrest : EndsFields rest) : ∀ (fs : List (Byte × List Byte)) (fuel room : Nat),
    (∀ f ∈ fs, f.2.length < 256) → fs.length ≤ fuel → (fs.flatMap fieldBytes).length ≤ room →
    burstFields fuel (fs.flatMap fieldBytes ++ rest) room = fs
  | [], fuel, room, _, _, _ => burstFields_of_end hrest
  | f :: fs, 0, _, _, hfuel, _ => absurd hfuel (Nat.not_succ_le_zero _)
  | f :: fs, fuel + 1, room, hlt, hfuel, hroom => by
    obtain ⟨hf, hfs⟩ := List.forall_mem_cons.mp hlt
    have hlen : (BitVec.ofNat 8 f.2.length).toNat = f.2.length := Nat.mod_eq_of_lt hf
    simp only [List.flatMap_cons, fieldBytes, List.length_append, List.length_cons] at hroom
    have hfits : f.2.length + 2 ≤ room ∧ f.2.length ≤ (f.2 ++ (fs.flatMap fieldBytes ++ rest)).length := by
      constructor
      · omega
      · simp
    have ih := burstFields_fields hrest fs fuel (room - (f.2.length + 2)) hfs (Nat.le_of_succ_le_succ hfuel)
      (by have : (fs.flatMap fieldBytes).length = (fs.flatMap fun f => f.1 :: BitVec.ofNat 8 f.2.length :: f.2).length := rfl
          omega)
    simp only [List.flatMap_cons, fieldBytes, List.cons_append, List.append_assoc]
    rw [burstFields, hlen, if_pos hfits, List.take_left, List.drop_left]
    exact congrArg _ ih

theorem length_le_flatMap_fieldBytes (fs : List (Byte × List Byte)) : fs.length ≤ (fs.flatMap fieldBytes).length := by
  induction fs with
  | nil => exact Nat.le_refl _
  | cons f fs ih => simp only [List.flatMap_cons, List.length_append, List.length_cons, fieldBytes]; omega

/-! ### The record (R28) -/

/-- The last content a field code gives. -/
def lastContent (fs : List (Byte × List Byte)) (code : Byte) : Option (List Byte) :=
  ((fs.filter fun f => decide (f.1 = code)).getLast?).map (·.2)

/-- What a part of the record, written by one field code alone, holds behind a list of fields. -/
theorem foldl_callerField {α : Type} {get : CallerRecord → α} {code : Byte} {val : List Byte → α}
    (hget : ∀ r f, get (callerField r f) = if f.1 = code then val f.2 else get r) (fs : List (Byte × List Byte)) (r : CallerRecord) :
    get (fs.foldl callerField r) = (lastContent fs code).elim (get r) val := by
  induction fs using List.reverseRecOn with
  | nil => rfl
  | append_singleton fs f ih =>
    rw [List.foldl_append, List.foldl_cons, List.foldl_nil, hget, lastContent, List.filter_append]
    by_cases h : f.1 = code
    · rw [if_pos h, List.filter_cons_of_pos (by simpa using h), List.filter_nil, List.getLast?_concat]; rfl
    · rw [if_neg h, List.filter_cons_of_neg (by simpa using h), List.filter_nil, List.append_nil]; exact ih

theorem callerField_dateTime (r : CallerRecord) (f : Byte × List Byte) :
    (callerField r f).dateTime = if f.1 = 0x11#8 then callerDateTime f.2 else r.dateTime := by
  unfold callerField; split_ifs <;> rfl

theorem callerField_number (r : CallerRecord) (f : Byte × List Byte) :
    (callerField r f).number = if f.1 = 0x12#8 then callerNumber f.2 else r.number := by
  unfold callerField; split_ifs <;> simp_all

theorem callerField_name (r : CallerRecord) (f : Byte × List Byte) :
    (callerField r f).name = if f.1 = 0x13#8 then callerName f.2 else r.name := by
  unfold callerField; split_ifs <;> simp_all

theorem callerField_withheld (r : CallerRecord) (f : Byte × List Byte) :
    (callerField r f).withheld = if f.1 = 0x14#8 then callerWithheld f.2 else r.withheld := by
  unfold callerField; split_ifs <;> simp_all

theorem callerField_valid (r : CallerRecord) (f : Byte × List Byte) : (callerField r f).valid = r.valid := by
  unfold callerField; split_ifs <;> rfl

theorem foldl_callerField_valid (fs : List (Byte × List Byte)) (r : CallerRecord) : (fs.foldl callerField r).valid = r.valid := by
  induction fs generalizing r with
  | nil => rfl
  | cons f fs ih => exact (ih _).trans (callerField_valid r f)

theorem all_isDigitChar (c : List Byte) : c.all isDigitChar = true ↔ ∀ b ∈ c, 0x30 ≤ b.toNat ∧ b.toNat ≤ 0x39 := by
  simp [List.all_eq_true, isDigitChar]

theorem callerNumber_spec (c : List Byte) :
    (1 ≤ c.length ∧ c.length ≤ 20 ∧ (∀ b ∈ c, 0x30 ≤ b.toNat ∧ b.toNat ≤ 0x39) → callerNumber c = some c) ∧
    (¬(1 ≤ c.length ∧ c.length ≤ 20 ∧ ∀ b ∈ c, 0x30 ≤ b.toNat ∧ b.toNat ≤ 0x39) → callerNumber c = none) := by
  rw [← all_isDigitChar]
  exact ⟨fun h => if_pos h, fun h => if_neg h⟩

/-! ### The message (R28, 10.5) -/

/-- The record of a message before its fields are read. -/
def blankRecord (valid : Bool) : CallerRecord := ⟨valid, none, none, none, none⟩

/-- The validity of a message: all its bytes, and their sum 0 modulo 256. -/
def burstValid (bytes : List Byte) : Bool :=
  decide (burstLength bytes = some bytes.length) && decide ((bytes.map BitVec.toNat).sum % 256 = 0)

theorem burstContent {L : Byte} {content tail : List Byte} (h : content.length = L.toNat ∨ content.length < L.toNat ∧ tail = []) :
    (content ++ tail).take L.toNat = content := by
  rcases h with h | ⟨h, rfl⟩
  · exact h ▸ List.take_left
  · rw [List.append_nil]; exact List.take_of_length_le (Nat.le_of_lt h)

theorem formCaller_fields {L : Byte} {content tail rest : List Byte} {fs : List (Byte × List Byte)}
    (h : content.length = L.toNat ∨ content.length < L.toNat ∧ tail = []) (hfs : ∀ f ∈ fs, f.2.length < 256)
    (hc : content = fs.flatMap fieldBytes ++ rest) (hrest : EndsFields rest) :
    formCaller (0x51#8 :: L :: content ++ tail) =
      some (fs.foldl callerField (blankRecord (burstValid (0x51#8 :: L :: content ++ tail)))) := by
  have hlen : (fs.flatMap fieldBytes).length ≤ L.toNat := by
    have : content.length ≤ L.toNat := by omega
    rw [hc, List.length_append] at this
    omega
  have hfields : burstFields (L.toNat + 1) content L.toNat = fs := hc ▸ burstFields_fields hrest fs _ _ hfs
    (Nat.le_succ_of_le ((length_le_flatMap_fieldBytes fs).trans hlen)) hlen
  simp only [formCaller, List.cons_append, List.drop_succ_cons, List.drop_zero, burstContent h, hfields, if_true, blankRecord,
    burstValid]

theorem formCaller_number {L : Byte} {content tail : List Byte} (h : content.length = L.toNat ∨ content.length < L.toNat ∧ tail = []) :
    formCaller (0x52#8 :: L :: content ++ tail) = some (if content.length = L.toNat then
      { blankRecord (burstValid (0x52#8 :: L :: content ++ tail)) with number := callerNumber content }
      else blankRecord (burstValid (0x52#8 :: L :: content ++ tail))) := by
  have htype : ¬(0x52#8 : Byte) = 0x51#8 := by decide
  simp only [formCaller, List.cons_append, List.drop_succ_cons, List.drop_zero, burstContent h, htype, if_true, if_false, ne_eq,
    reduceCtorEq, not_false_eq_true, and_true, blankRecord, burstValid]

theorem formCaller_valid (b : Byte) (bs : List Byte) : ∃ r, formCaller (b :: bs) = some r ∧
    (r.valid = true ↔ (∃ L more, bs = L :: more ∧ more.length = L.toNat + 1) ∧ ((b :: bs).map BitVec.toNat).sum % 256 = 0) := by
  have hblank : ∃ r, formCaller (b :: bs) = some r ∧ r.valid = burstValid (b :: bs) := by
    unfold formCaller
    dsimp only
    split_ifs
    · exact ⟨_, rfl, foldl_callerField_valid ..⟩
    all_goals exact ⟨_, rfl, rfl⟩
  obtain ⟨r, hr, hv⟩ := hblank
  refine ⟨r, hr, ?_⟩
  rw [hv, burstValid, Bool.and_eq_true, decide_eq_true_iff, decide_eq_true_iff]
  refine and_congr_left fun _ => ?_
  cases bs with
  | nil => simp [burstLength]
  | cons L more =>
    simp only [burstLength, Option.some.injEq, List.length_cons, List.cons.injEq]
    constructor
    · intro h
      exact ⟨L, more, ⟨rfl, rfl⟩, by omega⟩
    · rintro ⟨_, _, ⟨rfl, rfl⟩, h⟩
      omega

/-! ### The receiver (R27) -/

theorem formRecord_eq {l : Line} {bs : List Byte} {r : CallerRecord} {s : State} (h : formCaller bs = some r) :
    formRecord l bs s = queueReport (.caller l r)
      (s.setLine l { s.line l with iface := { (s.line l).iface with window := .heard, caller := some r } }) := by
  simp only [formRecord, h]
  exact congrArg _ (by cases l <;> rfl)

theorem burstByte_shut {l : Line} {s : State} (h : (s.line l).iface.window = .closed ∨ (s.line l).iface.window = .heard) (b : Byte) :
    burstByte l s b = s := by
  rcases h with h | h <;> rw [burstByte, h]

/-- Settles O22: the receiver by its window, the record by its fields. -/
theorem callerBurstFormsTheRecord : Obligations.CallerBurstFormsTheRecord := by
  refine ⟨fun l b bs r s hs => ?_, ?_⟩
  · dsimp only
    refine ⟨fun hw => ?_, fun hw hmore => ?_, fun hw hlast hr => ?_, fun hw hr => ?_, fun hw => ⟨?_, ?_, ?_⟩⟩
    · exact exec_of_op (by change burstByte l s b = _; rw [burstByte, hw]; rfl) (by simp [hs])
    · refine exec_of_op (?_ : burstByte l s b = _) (by simp [hs])
      rw [burstByte, hw]
      exact if_neg (by rwa [List.length_append])
    · have hbyte : burstByte l s b = queueReport (.caller l r)
          (s.setLine l { s.line l with iface := { (s.line l).iface with window := .heard, caller := some r } }) := by
        rw [burstByte, hw]
        exact (if_pos (by rwa [List.length_append])).trans (formRecord_eq hr)
      exact ⟨exec_of_op (c := .callerBurstByte l b) hbyte (by simp [hs]), exec_of_op (c := .callerMessage l [b]) hbyte (by simp [hs])⟩
    · refine exec_of_op (?_ : opCallerAbandon l s = _) (by simp [hs])
      rw [opCallerAbandon, hw]
      exact formRecord_eq hr
    · exact exec_of_op (c := .callerBurstByte l b) (burstByte_shut hw b) hs
    · refine exec_of_op (?_ : opCallerMessage l bs s = s) hs
      rw [opCallerMessage]
      induction bs with
      | nil => rfl
      | cons b bs ih => rw [List.foldl_cons, burstByte_shut hw]; exact ih
    · refine exec_of_op (?_ : opCallerAbandon l s = s) hs
      rcases hw with hw | hw <;> rw [opCallerAbandon, hw]
  · dsimp only
    refine ⟨rfl, formCaller_valid, fun L content tail h => ⟨fun fs rest hfs hc hrest => ?_, ?_⟩⟩
    · refine ⟨_, formCaller_fields h hfs hc hrest, ?_⟩
      generalize burstValid _ = v
      have hdate := foldl_callerField callerField_dateTime fs (blankRecord v)
      have hnumber := foldl_callerField callerField_number fs (blankRecord v)
      have hname := foldl_callerField callerField_name fs (blankRecord v)
      have hwithheld := foldl_callerField callerField_withheld fs (blankRecord v)
      generalize fs.foldl callerField (blankRecord v) = r at hdate hnumber hname hwithheld
      simp only [lastContent] at hdate hnumber hname hwithheld
      refine ⟨fun hn => ?_, fun hn => ?_, fun hn => ?_, fun hn => ?_, fun c hn => ?_, fun c hn => ?_, fun c hn => ?_, fun c hn => ?_⟩
      · rw [hdate, hn]; rfl
      · rw [hnumber, hn]; rfl
      · rw [hname, hn]; rfl
      · rw [hwithheld, hn]; rfl
      · rw [hdate, hn]
        simp only [Option.elim_some, callerDateTime, all_isDigitChar]
      · rw [hnumber, hn]; exact callerNumber_spec c
      · rw [hname, hn]
        simp only [Option.elim_some, callerName, List.all_eq_true, decide_eq_true_eq]
      · rw [hwithheld, hn]; rfl
    · refine ⟨_, formCaller_number h, ?_⟩
      by_cases hl : content.length = L.toNat
      · rw [if_pos hl]
        exact ⟨rfl, rfl, rfl, fun _ => callerNumber_spec content, fun hlt => absurd hl (Nat.ne_of_lt hlt)⟩
      · rw [if_neg hl]
        exact ⟨rfl, rfl, rfl, fun he => absurd he hl, fun _ => rfl⟩

end Sys2Proof.Machine
end

section
/-! PROOFS. The tone table and the end of edge states (R42, R43, R49, R57). -/

namespace Sys2Proof.Machine

/-! ### Alignments of a source (R57) -/

/-- The alignments of a line, those of the cadence entries with a source cleared. -/
def clearedAligns (cadences : List (Option CadEntry)) (src : CadSource) (now : Nat) (aligns : List Alignment) : List Alignment :=
  cadences.zipIdx.foldl (fun as x => if x.1.map (·.source) = some src then as.set x.2 (emptyAlign now) else as) aligns

theorem clearSource_put (s : State) (l : Line) (x : LineState) (k : Link) (src : CadSource) : clearSource l src (s.put l x k) =
    s.put l { x with det := { x.det with aligns := clearedAligns s.cadences src s.now x.det.aligns } } k := by
  rw [clearSource, put_cadences, clearedAligns]
  generalize s.cadences.zipIdx = entries
  induction entries generalizing x with
  | nil => rfl
  | cons entry rest ih =>
    rw [List.foldl_cons, List.foldl_cons]
    rcases entry with ⟨- | e, j⟩
    · exact ih x
    · by_cases h : e.source = src
      · have hclear : clearAlign l j (s.put l x k) =
            s.put l { x with det := { x.det with aligns := x.det.aligns.set j (emptyAlign s.now) } } k := by
          rw [clearAlign, put_now, setAlign, modDet_put]
        have hsome : Option.map (·.source) (some e) = some src := congrArg some h
        simp only [h, if_true, hclear, hsome, ih]
      · have hsome : ¬Option.map (·.source) (some e) = some src := fun hh => h (Option.some.inj hh)
        simp only [h, if_false, hsome, ih]

theorem clearedAligns_getElem? (cadences : List (Option CadEntry)) (src : CadSource) (now : Nat) (aligns : List Alignment) (k : Nat)
    (hk : k < aligns.length) : (clearedAligns cadences src now aligns)[k]? =
      if (entryAt cadences k).map (·.source) = some src then some (emptyAlign now) else aligns[k]? := by
  have hfold : ∀ (entries : List (Option CadEntry × Nat)) (as : List Alignment), k < as.length →
      (entries.foldl (fun as x => if x.1.map (·.source) = some src then as.set x.2 (emptyAlign now) else as) as)[k]? =
        if ∃ x ∈ entries, x.2 = k ∧ x.1.map (·.source) = some src then some (emptyAlign now) else as[k]? := by
    intro entries
    induction entries with
    | nil => exact fun as _ => (if_neg (by simp)).symm
    | cons x rest ih =>
      intro as has
      rw [List.foldl_cons]
      by_cases hx : x.1.map (·.source) = some src
      · rw [if_pos hx, ih _ (by rwa [List.length_set])]
        by_cases hrest : ∃ y ∈ rest, y.2 = k ∧ y.1.map (·.source) = some src
        · rw [if_pos hrest, if_pos (by obtain ⟨y, hy, h⟩ := hrest; exact ⟨y, List.mem_cons_of_mem _ hy, h⟩)]
        · rw [if_neg hrest]
          by_cases hk : x.2 = k
          · rw [if_pos ⟨x, List.mem_cons_self, hk, hx⟩, hk, List.getElem?_set_self has]
          · rw [List.getElem?_set_ne hk, if_neg]
            rintro ⟨y, hy, h⟩
            rcases List.mem_cons.mp hy with rfl | hy
            · exact hk h.1
            · exact hrest ⟨y, hy, h⟩
      · rw [if_neg hx, ih _ has]
        refine if_congr ?_ rfl rfl
        simp only [List.mem_cons, exists_eq_or_imp]
        exact (or_iff_right fun h => hx h.2).symm
  rw [clearedAligns, hfold _ _ hk]
  refine if_congr ?_ rfl rfl
  rw [entryAt]
  constructor
  · rintro ⟨⟨x, j⟩, hmem, rfl, hx⟩
    rw [List.mem_zipIdx_iff_getElem?.mp hmem]
    exact hx
  · intro h
    cases hc : cadences[k]? with
    | none => rw [hc] at h; cases h
    | some x => exact ⟨(x, k), List.mem_zipIdx_iff_getElem?.mpr hc, rfl, by rwa [hc] at h⟩

theorem isCadenceSource_eq_false {s : State} {i : Nat} : isCadenceSource s i = false ↔ Unwatched (.tone i) s := by
  simp only [isCadenceSource, List.any_eq_false, decide_eq_true_eq, Unwatched]
  constructor
  · exact fun h e he hsrc => h (some e) he (congrArg some hsrc)
  · rintro h (- | e) he hsrc
    · cases hsrc
    · exact h e he (Option.some.inj hsrc)

/-! ### The end of an edge state (R49) -/

/-- An edge state ended outside its table. -/
def EdgeState.ended (x : EdgeState) : EdgeState := { x.toReady with offFrom := none }

/-- What the end of an edge state reports. -/
def offReports (l : Line) (i : Nat) (e : ToneEntry) (x : EdgeState) : List Report :=
  if (x.st = .on ∨ x.st = .bridge) ∧ e.action = .report then
    [.tone l i e.meaning x.digit false ((x.last + 1 - x.first) * 10)] else []

/-- A line with an edge state ended. -/
def LineState.edgeEnded (cadences : List (Option CadEntry)) (now i : Nat) (x : LineState) : LineState :=
  { x with det := { x.det with
    edges := x.det.edges.set i (x.det.edges.getD i readyEdge).ended
    aligns := clearedAligns cadences (.tone i) now x.det.aligns } }

theorem endEdge_put (s : State) (l : Line) (i : Nat) (e : ToneEntry) (x : LineState) (k : Link) : endEdge l i e (s.put l x k) =
    s.put l (x.edgeEnded s.cadences s.now i) ((offReports l i e (x.det.edges.getD i readyEdge)).foldl (fun k r => k.push r) k) := by
  rw [endEdge, edgeOf, put_line, offReports]
  by_cases h : ((x.det.edges.getD i readyEdge).st = .on ∨ (x.det.edges.getD i readyEdge).st = .bridge) ∧ e.action = .report
  · simp only [h, and_self, if_true, reportTone, queueReport_put, setEdge, modDet_put]
    exact clearSource_put ..
  · simp only [h, if_false, setEdge, modDet_put]
    exact clearSource_put ..

theorem edgeEnded_edge {cadences : List (Option CadEntry)} {now i : Nat} {x : LineState} (hi : i < x.det.edges.length) :
    ((x.edgeEnded cadences now i).det.edges.getD i readyEdge).st = .ready ∧
      ∀ j, j ≠ i → (x.edgeEnded cadences now i).det.edges.getD j readyEdge = x.det.edges.getD j readyEdge := by
  simp only [LineState.edgeEnded, List.getD_eq_getElem?_getD]
  refine ⟨?_, fun j hj => ?_⟩
  · rw [List.getElem?_set_self hi]; rfl
  · rw [List.getElem?_set_ne (Ne.symm hj)]

theorem edgeEnded_align {cadences : List (Option CadEntry)} {now i k : Nat} {x : LineState} (hk : k < x.det.aligns.length) :
    (x.edgeEnded cadences now i).det.aligns.getD k (emptyAlign 0) =
      if (entryAt cadences k).map (·.source) = some (.tone i) then emptyAlign now else x.det.aligns.getD k (emptyAlign 0) := by
  simp only [LineState.edgeEnded, List.getD_eq_getElem?_getD, clearedAligns_getElem? _ _ _ _ _ hk]
  split_ifs <;> rfl

/-- The end of an entry's edge states on both lines, behind a DONE. -/
theorem endEdges_done (i : Nat) (e : ToneEntry) (c : Byte) (r : Result) (vs : List Byte) (s : State) :
    endEdges i (some e) (done c r vs s) = { s with
      lineA := s.lineA.edgeEnded s.cadences s.now i
      lineB := s.lineB.edgeEnded s.cadences s.now i
      link := (queueReports (offReports .A i e (edgeOf s .A i) ++ offReports .B i e (edgeOf s .B i)) (done c r vs s)).link } := by
  have hB := fun k => endEdge_put ({ s with lineA := s.lineA.edgeEnded s.cadences s.now i }) .B i e s.lineB k
  rw [queueReports_eq, done_eq, List.foldl_append]
  exact (congrArg (endEdge .B i e) (endEdge_put s .A i e s.lineA (s.link.push (.done c r vs)))).trans (hB _)

/-! ### TONE WRITE and TONE DELETE (R42, R43) -/

theorem toneKind_ofCode_of_lt {n : Nat} (h : 2 < n) : ToneKind.ofCode n = none := by unfold ToneKind.ofCode; split <;> simp_all

theorem toneAction_ofCodes_of_lt {n m : Nat} (h : 4 < n ∨ 3 < m) : ToneAction.ofCodes n m = none := by
  unfold ToneAction.ofCodes ControlOp.ofCode
  split <;> [rfl; skip]
  split at * <;> split <;> simp_all

theorem onOff_of_lt {n : Nat} (h : 1 < n) : onOff n = none := by
  rw [onOff, if_neg (by omega), if_neg (by omega)]

theorem meaning_ofTone_of_lt {n : Nat} (h : 5 < n) : Meaning.ofTone n = none := by unfold Meaning.ofTone; split <;> simp_all

theorem toneEntryOf_eq_none {f : ToneParams} (h : 2 < f.kind.toNat ∨ 4 < f.action.toNat ∨ 3 < f.controlOp.toNat ∨
    1 < f.priorityMark.toNat ∨ 5 < f.meaning.toNat ∨ 2048 ≤ f.liveStates.toNat ∨
    f.kind = 0#8 ∧ (f.f1.toNat < 300 ∨ 3400 < f.f1.toNat)) : toneEntryOf f = none := by
  unfold toneEntryOf
  split
  next kind action mark meaning live hk ha hp hm hl =>
    have hkind : ¬2 < f.kind.toNat := fun h => by rw [toneKind_ofCode_of_lt h] at hk; cases hk
    have haction : ¬(4 < f.action.toNat ∨ 3 < f.controlOp.toNat) := fun h => by rw [toneAction_ofCodes_of_lt h] at ha; cases ha
    have hmark : ¬1 < f.priorityMark.toNat := fun h => by rw [onOff_of_lt h] at hp; cases hp
    have hmeaning : ¬5 < f.meaning.toNat := fun h => by rw [meaning_ofTone_of_lt h] at hm; cases hm
    have hlive : ¬2048 ≤ f.liveStates.toNat := fun h => by rw [stateSet, if_neg (Nat.not_lt.mpr h)] at hl; cases hl
    have hfreq : f.kind = 0#8 ∧ (f.f1.toNat < 300 ∨ 3400 < f.f1.toNat) := by tauto
    have hsingle : kind = .single := by rw [hfreq.1] at hk; exact (Option.some.inj hk).symm
    have hout : ¬(300 ≤ f.f1.toNat ∧ f.f1.toNat ≤ 3400) := by omega
    simp [hsingle, hout]
  next => rfl

theorem toneEntryOf_single {f : ToneParams} {live : List LineSt} (hkind : f.kind = 0#8) (hlo : 300 ≤ f.f1.toNat) (hhi : f.f1.toNat ≤ 3400)
    (haction : f.action = 1#8) (hop : f.controlOp = 0#8) (hmark : f.priorityMark = 0#8) (hmeaning : f.meaning = 0#8)
    (hlive : stateSet f.liveStates = some live) : toneEntryOf f = some
      { kind := .single, f1 := f.f1.toNat, f2 := f.f2.toNat, minLevel := max (-50) (min 0 f.minLevel.toInt)
        twist := min 12 f.twist.toNat, onTime := max 10 (min 5000 f.onTime.toNat), offTime := max 10 (min 5000 f.offTime.toNat)
        action := .report, priorityMark := false, meaning := .none, live := live } := by
  have hzero : max 0 (min 12 f.twist.toNat) = min 12 f.twist.toNat := Nat.zero_max _
  unfold toneEntryOf
  rw [hkind, haction, hop, hmark, hmeaning, hlive]
  simp [ToneKind.ofCode, ToneAction.ofCodes, ControlOp.ofCode, onOff, Meaning.ofTone, hlo, hhi, clamp, clampInt, hzero]

/-- A line state has more than 16 frequencies live. -/
def overfull (tones : List (Option ToneEntry)) : Bool := LineSt.all.any fun st => decide (16 < liveCount tones st)

theorem overfull_iff {tones : List (Option ToneEntry)} : overfull tones = true ↔ ∃ st, 16 < liveCount tones st := by
  rw [overfull]
  simp only [List.any_eq_true, decide_eq_true_eq]
  exact ⟨fun ⟨st, _, h⟩ => ⟨st, h⟩, fun ⟨st, h⟩ => ⟨st, by cases st <;> decide, h⟩⟩

theorem opToneWrite_badParam {index : Byte} {f : ToneParams} {s : State} (h : toneEntryOf f = none ∨ 23 < index.toNat) :
    opToneWrite index f s = done 0x45#8 .badParam [] s := by
  unfold opToneWrite
  cases he : toneEntryOf f with
  | none => rfl
  | some e => exact if_pos (h.resolve_left (by simp [he]))

/-- TONE WRITE of an entry that is no DTMF one, by the live counts it gives. -/
theorem opToneWrite_of_some {index : Byte} {f : ToneParams} {s : State} {e : ToneEntry} (he : toneEntryOf f = some e)
    (hi : index.toNat ≤ 23) (hkind : e.kind ≠ .dtmf) : opToneWrite index f s =
      if overfull (s.tones.set index.toNat (some e)) then done 0x45#8 .tableFull [] s
      else { endEdges index.toNat (entryAt s.tones index.toNat)
        (done 0x45#8 .ok (oneByte (greatestLive (s.tones.set index.toNat (some e)))) s) with
          tones := s.tones.set index.toNat (some e) } := by
  unfold opToneWrite
  simp only [he]
  rw [if_neg (Nat.not_lt.mpr hi), if_neg (fun h => hkind h.2.2)]
  rfl

theorem opToneDelete_of_some {index : Byte} {s : State} {e : ToneEntry} (hi : index.toNat ≤ 23)
    (he : entryAt s.tones index.toNat = some e) : opToneDelete index s =
      if isCadenceSource s index.toNat then done 0x45#8 .inUse [] s
      else { endEdges index.toNat (some e) (done 0x45#8 .ok (oneByte (greatestLive (s.tones.set index.toNat none))) s) with
        tones := s.tones.set index.toNat none } := by
  unfold opToneDelete
  rw [if_neg (Nat.not_lt.mpr hi)]
  simp only [he]

/-- With no cadence entry on a source no alignment is cleared. -/
theorem clearedAligns_of_unwatched {s : State} {src : CadSource} (h : Unwatched src s) (now : Nat) (aligns : List Alignment) :
    clearedAligns s.cadences src now aligns = aligns := by
  rw [clearedAligns]
  have hnone : ∀ x ∈ s.cadences.zipIdx, ¬x.1.map (·.source) = some src := by
    rintro ⟨- | e, j⟩ hx hsrc
    · cases hsrc
    · exact h e (List.fst_mem_of_mem_zipIdx hx) (Option.some.inj hsrc)
  generalize s.cadences.zipIdx = entries at hnone
  induction entries with
  | nil => rfl
  | cons x rest ih =>
    rw [List.foldl_cons, if_neg (hnone x List.mem_cons_self)]
    exact ih fun y hy => hnone y (List.mem_cons_of_mem _ hy)

/-- Settles O29. -/
theorem toneWriteAndDelete : Obligations.ToneWriteAndDelete := by
  intro index f s hs
  dsimp only
  refine ⟨fun h => ?_, fun live e hi hkind hlo hhi haction hop hmark hmeaning hlive he => ?_, fun hi => ?_, fun hi hnone => ?_,
    fun e hi he hsrc => ?_, fun e hi he hsrc hlen => ?_⟩
  · refine exec_of_op (c := .toneWrite index f) (opToneWrite_badParam ?_) (by simp [hs])
    by_cases hi : 23 < index.toNat
    · exact .inr hi
    · exact .inl (toneEntryOf_eq_none (by tauto))
  · have hentry := (toneEntryOf_single hkind hlo hhi haction hop hmark hmeaning hlive).trans (congrArg some he.symm)
    have hwrite := opToneWrite_of_some (s := s) hentry hi (by rw [he]; nofun)
    refine ⟨fun hfull => ?_, fun hfits hnone => ?_, fun old hfits hold hlen => ?_⟩
    · exact exec_of_op (c := .toneWrite index f) (hwrite.trans (if_pos (overfull_iff.mpr hfull))) (by simp [hs])
    · have hroom : ¬overfull (s.tones.set index.toNat (some e)) = true := fun h =>
        (overfull_iff.mp h).elim fun st h => absurd (hfits st) (Nat.not_le.mpr h)
      refine exec_of_op (c := .toneWrite index f) (hwrite.trans ((if_neg hroom).trans ?_)) (by simp [hs])
      rw [hnone]; rfl
    · have hroom : ¬overfull (s.tones.set index.toNat (some e)) = true := fun h =>
        (overfull_iff.mp h).elim fun st h => absurd (hfits st) (Nat.not_le.mpr h)
      have hop := hwrite.trans (if_neg hroom)
      rw [hold, endEdges_done] at hop
      refine ⟨_, exec_of_op (c := .toneWrite index f) hop hs, rfl, ?_, ?_, rfl, rfl⟩
      · rintro (_ | _)
        · exact edgeEnded_edge (hlen .A)
        · exact edgeEnded_edge (hlen .B)
      · rintro (_ | _) k hk
        · exact edgeEnded_align hk
        · exact edgeEnded_align hk
  · exact exec_of_op (c := .toneDelete index) (if_pos hi) (by simp [hs])
  · refine exec_of_op (?_ : opToneDelete index s = _) (by simp [hs])
    unfold opToneDelete
    rw [if_neg (Nat.not_lt.mpr hi)]
    simp only [hnone]
  · exact exec_of_op (c := .toneDelete index) ((opToneDelete_of_some hi he).trans (if_pos hsrc)) (by simp [hs])
  · have hop := (opToneDelete_of_some hi he).trans (if_neg (by rw [hsrc]; exact Bool.false_ne_true))
    rw [endEdges_done] at hop
    refine ⟨_, exec_of_op (c := .toneDelete index) hop hs, rfl, ?_, ?_, rfl, rfl⟩
    · rintro (_ | _)
      · exact edgeEnded_edge (hlen .A)
      · exact edgeEnded_edge (hlen .B)
    · rintro (_ | _) <;> exact clearedAligns_of_unwatched (isCadenceSource_eq_false.mp hsrc) _ _

end Sys2Proof.Machine
end

section
/-! PROOFS. The cadence table and the cadence matcher (R53 to R57). -/

namespace Sys2Proof.Machine

/-! ### The matcher (R55, R56) -/

section
variable {a : Alignment} {e : CadEntry} {len time start : Nat}

theorem intervalMatches_iff {k : Nat} : intervalMatches e len (e.elem k) = true ↔
    ((len : Int) - (e.pattern.getD k 0 : Nat)).natAbs * 100 ≤ e.pattern.getD k 0 * e.tolerance := decide_eq_true_iff

theorem pastBound_iff {k : Nat} : pastBound e len (e.elem k) = true ↔ e.pattern.getD k 0 * (100 + e.tolerance) < len * 100 :=
  decide_eq_true_iff

theorem seeOn_early (h : time < a.validFrom) : a.seeOn e len time start = a := if_pos h

/-- An on that the alignment observes but does not expect is the first of a run, or of none. -/
theorem seeOn_afresh (h : a.validFrom ≤ time) (hno : a.held = false ∨ ¬intervalMatches e len (e.elem a.expect) = true) :
    a.seeOn e len time start = a.startRun e len start := by
  unfold Alignment.seeOn
  rw [if_neg (Nat.not_lt.mpr h)]
  split_ifs with hheld hfit
  · rfl
  · exact absurd hfit (hno.resolve_left hheld)
  · rfl

theorem seeOn_expected (h : a.validFrom ≤ time) (hheld : a.held = true) (hfit : intervalMatches e len (e.elem a.expect) = true) :
    a.seeOn e len time start = { a with expect := a.expect + 1, prevOn := some (len, start) } := by
  unfold Alignment.seeOn
  rw [if_neg (Nat.not_lt.mpr h), if_neg (by rw [hheld]; nofun), if_pos hfit]

theorem seeOff_expected (hheld : a.held = true) (hfit : intervalMatches e len (e.elem a.expect) = true) :
    a.seeOff e len = a.afterOff e := by
  unfold Alignment.seeOff
  rw [if_neg (by rw [hheld]; nofun), if_pos hfit]

theorem seeOff_mismatch {on first : Nat} (hheld : a.held = true) (hfit : ¬intervalMatches e len (e.elem a.expect) = true)
    (hon : a.prevOn = some (on, first)) : a.seeOff e len =
      if (a.startRun e on first).held = true ∧ intervalMatches e len (e.elem 1) = true then (a.startRun e on first).afterOff e
      else (a.emptied, false) := by
  unfold Alignment.seeOff
  rw [if_neg (by rw [hheld]; nofun), if_neg hfit, hon]

theorem startRun_fits (h : intervalMatches e len (e.elem 0) = true) : a.startRun e len start =
    { a.emptied with held := true, expect := 1, runStart := start, prevOn := some (len, start) } := if_pos h

theorem startRun_held : (a.startRun e len start).held = true ↔ intervalMatches e len (e.elem 0) = true := by
  unfold Alignment.startRun
  split_ifs with h
  · simp [h]
  · simp [h, Alignment.emptied]

theorem startRun_misfit (h : ¬intervalMatches e len (e.elem 0) = true) : a.startRun e len start = a.emptied := if_neg h

theorem afterOff_goes_on (h : a.expect + 1 < e.pattern.length) : a.afterOff e = ({ a with expect := a.expect + 1 }, false) := if_pos h

theorem afterOff_cycle (h : ¬a.expect + 1 < e.pattern.length) : a.afterOff e =
    ({ a with expect := 0, cycles := a.cycles + 1, matched := a.matched || decide (e.repeats ≤ a.cycles + 1) },
      decide (e.repeats ≤ a.cycles + 1)) := if_neg h

end

/-! ### One cadence entry, on the ring (R54) -/

theorem eachCadence_single {s : State} {k : Nat} {e : CadEntry} {src : CadSource} (hc : s.cadences = (List.replicate 8 none).set k (some e))
    (hk : k < 8) (hsrc : e.source = src) (f : Nat → CadEntry → State → State) : eachCadence src f s = f k e s := by
  rw [eachCadence, hc]
  interval_cases k <;> exact if_pos hsrc

theorem setAlign_put (s : State) (l : Line) (x : LineState) (k : Link) (j : Nat) (a : Alignment) :
    setAlign l j a (s.put l x k) = s.put l { x with det := { x.det with aligns := x.det.aligns.set j a } } k := modDet_put ..

theorem alignOf_put (s : State) (l : Line) (x : LineState) (k : Link) (j : Nat) :
    alignOf (s.put l x k) l j = x.det.aligns.getD j (emptyAlign 0) := by rw [alignOf, put_line]

/-- A ring class meant on a line that does not ring. -/
theorem deliver_ringClass {s : State} {l : Line} {n : Nat} {digit : Option Byte} {start : Nat} (h : s.st l ≠ .ringing) :
    deliver l (.ringClass n) digit start s = s := by
  have hcall : callMeaning l (.ringClass n) digit s = s := by
    unfold callMeaning
    split <;> first | rfl | simp_all
  unfold deliver
  dsimp only
  rw [if_neg (by simp), hcall]

theorem callRingOn_other {s : State} {l : Line} (hidle : s.st l ≠ .idle) (hring : s.st l ≠ .ringing) (hseize : s.st l ≠ .seize) :
    callRingOn l s = s := by
  unfold callRingOn
  split <;> first | rfl | simp_all

/-- An alignment that no on still running can leave: its run is over, or the on is not too long yet. -/
theorem judgeOn_of_not {a : Alignment} {e : CadEntry} {len : Nat} (h : ¬(a.held = true ∧ a.expect % 2 = 0 ∧ pastBound e len (e.elem a.expect) = true)) :
    a.judgeOn e len = a := if_neg h

theorem judgeOff_of_not {a : Alignment} {e : CadEntry} {len : Nat} (h : ¬(a.held = true ∧ a.expect % 2 = 1 ∧ pastBound e len (e.elem a.expect) = true)) :
    a.judgeOff e len = a := if_neg h

/-- The ring-on still running leaves the entry's alignment as it is. -/
theorem judgeRing_keeps {s : State} {l : Line} {x : LineState} {link : Link} {k start due : Nat} {e : CadEntry}
    (hc : s.cadences = (List.replicate 8 none).set k (some e)) (hk : k < 8) (hsrc : e.source = .ring) (hlen : k < x.det.aligns.length)
    (hring : x.iface.ring = .on start due)
    (hj : (x.det.aligns.getD k (emptyAlign 0)).judgeOn e (s.now - start) = x.det.aligns.getD k (emptyAlign 0)) :
    judgeRing l (s.put l x link) = s.put l x link := by
  have hset : x.det.aligns.set k (x.det.aligns.getD k (emptyAlign 0)) = x.det.aligns := by
    rw [List.getD_eq_getElem?_getD, List.getElem?_eq_getElem hlen]
    exact List.set_getElem_self hlen
  simp only [judgeRing, put_line, hring, runningOn, put_now]
  rw [eachCadence_single (by rwa [put_cadences]) hk hsrc, setAlign_put, alignOf_put, hj, hset]

/-- The off before a ring-on, at the one cadence entry, on the ring. -/
theorem cadenceOff_single {s : State} {l : Line} {x : LineState} {link : Link} {k n len : Nat} {e : CadEntry}
    (hc : s.cadences = (List.replicate 8 none).set k (some e)) (hk : k < 8) (hsrc : e.source = .ring) (hmean : e.meaning = .ringClass n)
    (hst : x.call.st ≠ .ringing) :
    let r := (x.det.aligns.getD k (emptyAlign 0)).seeOff e len
    cadenceOff l .ring len (s.put l x link) = s.put l { x with det := { x.det with aligns := x.det.aligns.set k r.1 } }
      (if r.2 = true ∧ e.report = true then link.push (.cadence l k e.meaning) else link) := by
  dsimp only
  rw [cadenceOff, eachCadence_single (by rwa [put_cadences]) hk hsrc]
  simp only [alignOf_put, setAlign_put, deliverCadence, queueReport_put]
  generalize (x.det.aligns.getD k (emptyAlign 0)).seeOff e len = r
  have hquiet (link : Link) (start : Nat) : deliver l e.meaning none start
      (s.put l { x with det := { x.det with aligns := x.det.aligns.set k r.1 } } link) =
      s.put l { x with det := { x.det with aligns := x.det.aligns.set k r.1 } } link := by
    rw [hmean]; exact deliver_ringClass (by rw [put_st]; exact hst)
  rcases r with ⟨b, _ | _⟩
  · rfl
  · cases e.report <;> exact hquiet ..

/-- RING_ON on a line whose call takes no ring, with one cadence entry, on the ring. -/
theorem ringOn_single {s : State} {l : Line} {k n start due off : Nat} {e : CadEntry} (hs : s.requests = [])
    (hc : s.cadences = (List.replicate 8 none).set k (some e)) (hk : k < 8) (hlen : k < (s.line l).det.aligns.length)
    (hsrc : e.source = .ring) (hmean : e.meaning = .ringClass n) (hidle : s.st l ≠ .idle) (hringing : s.st l ≠ .ringing)
    (hseize : s.st l ≠ .seize) (hring : (s.line l).iface.ring = .pending start due) (hoff : (s.line l).iface.ringOff = some off)
    {b : Alignment} {hit : Bool} (hsee : (alignOf s l k).seeOff e (start - off) = (b, hit))
    (hj : b.judgeOn e (max s.now (start + 200) - start) = b) :
    exec (.ringOn l) s = .next ((s.at (max s.now (start + 200))).put l { s.line l with
      iface := { (s.line l).iface with ring := .on start due }
      det := { (s.line l).det with aligns := (s.line l).det.aligns.set k b } }
      (if hit = true ∧ e.report = true then s.link.push (.cadence l k e.meaning) else s.link)) := by
  refine exec_of_op (?_ : opRingOn l s = _) (by simp [hs])
  have hstart : modIface l (fun i => { i with ring := .on start due }) (elapse (start + 200) s) = (s.at (max s.now (start + 200))).put l
      { s.line l with iface := { (s.line l).iface with ring := .on start due } } s.link := by cases l <;> rfl
  have hcad := cadenceOff_single (s := s.at (max s.now (start + 200))) (l := l) (len := start - off) (link := s.link)
    (x := { s.line l with iface := { (s.line l).iface with ring := .on start due } }) hc hk hsrc hmean hringing
  dsimp only at hcad
  rw [show (s.line l).det.aligns.getD k (emptyAlign 0) = alignOf s l k from rfl, hsee] at hcad
  have hop : opRingOn l s = callRingOn l (judgeRing l (cadenceOff l .ring (start - off)
      (modIface l (fun i => { i with ring := .on start due }) (elapse (start + 200) s)))) := by simp only [opRingOn, hring, hoff]
  rw [hop, hstart, hcad, judgeRing_keeps (s := s.at (max s.now (start + 200))) (start := start) (due := due) hc hk hsrc
    (by simpa using hlen) rfl, callRingOn_other]
  · rwa [put_st]
  · rwa [put_st]
  · rwa [put_st]
  · simp only [List.getD_eq_getElem?_getD, List.getElem?_set_self hlen, Option.getD_some, at_now]
    exact hj

/-! ### CADENCE WRITE and CADENCE DELETE (R53, R57) -/

/-- The alignments of an entry cleared on both lines, behind a DONE. -/
theorem clearAligns_done (k : Nat) (cadences : List (Option CadEntry)) (c : Byte) (r : Result) (vs : List Byte) (s : State) :
    clearAligns k { done c r vs s with cadences := cadences } = { s with
      link := (done c r vs s).link, cadences := cadences
      lineA := { s.lineA with det := { s.lineA.det with aligns := s.lineA.det.aligns.set k (emptyAlign s.now) } }
      lineB := { s.lineB with det := { s.lineB.det with aligns := s.lineB.det.aligns.set k (emptyAlign s.now) } } } := by
  rw [done_eq]; rfl

theorem set_align {as : List Alignment} {k : Nat} (hk : k < as.length) (b : Alignment) :
    (as.set k b).getD k (emptyAlign 0) = b ∧ ∀ j, j ≠ k → (as.set k b).getD j (emptyAlign 0) = as.getD j (emptyAlign 0) := by
  simp only [List.getD_eq_getElem?_getD]
  exact ⟨by rw [List.getElem?_set_self hk]; rfl, fun j hj => by rw [List.getElem?_set_ne (Ne.symm hj)]⟩

theorem meaning_ofCadence_of_lt {n : Nat} (h : 5 < n) : Meaning.ofCadence n = none := by unfold Meaning.ofCadence; split <;> simp_all

theorem cadEntryOf_eq_none {f : CadenceParams} (h : 5 < f.meaning.toNat ∨ 1 < f.reportFlag.toNat ∨ f.pairs = [] ∨ 4 < f.pairs.length ∨
    23 < f.source.toNat ∧ f.source ≠ 0xFF#8) : cadEntryOf f = none := by
  unfold cadEntryOf
  split
  next source meaning report hsrc hm hr =>
    have hmeaning : ¬5 < f.meaning.toNat := fun h => by rw [meaning_ofCadence_of_lt h] at hm; cases hm
    have hreport : ¬1 < f.reportFlag.toNat := fun h => by rw [onOff_of_lt h] at hr; cases hr
    have hsource : ¬(23 < f.source.toNat ∧ f.source ≠ 0xFF#8) := fun h => by
      rw [cadSourceOf, if_neg h.2, if_neg (Nat.not_le.mpr h.1)] at hsrc; cases hsrc
    have hpairs : f.pairs.length = 0 ∨ 4 < f.pairs.length := by rw [List.length_eq_zero_iff]; tauto
    exact if_pos hpairs
  next => rfl

theorem cadEntryOf_eq_some {f : CadenceParams} {src : CadSource} {m : Meaning} {flag : Bool} (hsrc : cadSourceOf f.source = some src)
    (hm : Meaning.ofCadence f.meaning.toNat = some m) (hflag : onOff f.reportFlag.toNat = some flag) (hlo : 1 ≤ f.pairs.length)
    (hhi : f.pairs.length ≤ 4) : cadEntryOf f = some
      { source := src, pattern := f.pairs.flatMap fun p => [max 50 (min 8000 p.1.toNat), max 50 (min 8000 p.2.toNat)]
        tolerance := max 5 (min 30 f.tolerance.toNat), repeats := max 1 (min 4 f.repeats.toNat), meaning := m, report := flag } := by
  unfold cadEntryOf
  rw [hsrc, hm, hflag]
  exact if_neg (by omega)

theorem cadSourceOf_tone {b : Byte} (h : b.toNat ≤ 23) : cadSourceOf b = some (.tone b.toNat) := by
  have hring : b ≠ 0xFF#8 := by rintro rfl; simp at h
  rw [cadSourceOf, if_neg hring, if_pos h]

/-- CADENCE WRITE of an entry, by its source. -/
theorem opCadenceWrite_of_some {index : Byte} {f : CadenceParams} {s : State} {e : CadEntry} (he : cadEntryOf f = some e)
    (hk : index.toNat ≤ 7) : opCadenceWrite index f s = match cadSourceResult s e.source with
      | .ok => clearAligns index.toNat { done 0x59#8 .ok [] s with cadences := s.cadences.set index.toNat (some e) }
      | r => done 0x59#8 r [] s := by
  unfold opCadenceWrite
  simp only [he]
  exact if_neg (Nat.not_lt.mpr hk)

/-- Settles O30: the table, the matcher, and a ring-on that ends an off. -/
theorem cadenceWriteAndDelete : Obligations.CadenceWriteAndDelete := by
  refine ⟨fun index f s hs => ?_, fun a e len time start hne heven hexp => ?_,
    fun l k n e start due off s hs hc hk hlen hsrc hmean hpat hrep hidle hringing hseize hring hoff hheld hexp hrun => ?_⟩
  · dsimp only
    refine ⟨fun h => ?_, fun m flag hk hm hflag hlo hhi => ⟨fun hi hnone => ?_, fun e hi he hkind => ?_, fun src hsrc hlen => ?_⟩,
      fun hk => ?_, fun hk hnone => ?_, fun e hk he hlen => ?_⟩
    · refine exec_of_op (?_ : opCadenceWrite index f s = _) (by simp [hs])
      unfold opCadenceWrite
      cases he : cadEntryOf f with
      | none => rfl
      | some e => exact if_pos (h.resolve_right fun h => by rw [cadEntryOf_eq_none h] at he; cases he)
    · refine exec_of_op (?_ : opCadenceWrite index f s = _) (by simp [hs])
      rw [opCadenceWrite_of_some (cadEntryOf_eq_some (cadSourceOf_tone hi) hm hflag hlo hhi) hk]
      simp only [cadSourceResult, hnone]
    · refine exec_of_op (?_ : opCadenceWrite index f s = _) (by simp [hs])
      rw [opCadenceWrite_of_some (cadEntryOf_eq_some (cadSourceOf_tone hi) hm hflag hlo hhi) hk]
      simp only [cadSourceResult, he, hkind, if_true]
    · have hsource : cadSourceOf f.source = some src ∧ cadSourceResult s src = .ok := by
        rcases hsrc with ⟨hff, rfl⟩ | ⟨hi, rfl, e, he, hkind⟩
        · exact ⟨by rw [hff]; rfl, rfl⟩
        · exact ⟨cadSourceOf_tone hi, by simp only [cadSourceResult, he, hkind, if_false]⟩
      have hop := opCadenceWrite_of_some (s := s) (cadEntryOf_eq_some hsource.1 hm hflag hlo hhi) hk
      simp only [hsource.2, clearAligns_done] at hop
      refine ⟨_, exec_of_op (c := .cadenceWrite index f) hop hs, rfl, ?_, rfl, rfl⟩
      rintro (_ | _)
      · exact set_align (hlen .A) _
      · exact set_align (hlen .B) _
    · exact exec_of_op (c := .cadenceDelete index) (if_pos hk) (by simp [hs])
    · refine exec_of_op (?_ : opCadenceDelete index s = _) (by simp [hs])
      unfold opCadenceDelete
      rw [if_neg (Nat.not_lt.mpr hk)]
      simp only [hnone]
    · have hop : opCadenceDelete index s =
          clearAligns index.toNat { done 0x59#8 .ok [] s with cadences := s.cadences.set index.toNat none } := by
        unfold opCadenceDelete
        rw [if_neg (Nat.not_lt.mpr hk)]
        simp only [he]
      rw [clearAligns_done] at hop
      refine ⟨_, exec_of_op (c := .cadenceDelete index) hop hs, rfl, ?_, rfl, rfl⟩
      rintro (_ | _)
      · exact set_align (hlen .A) _
      · exact set_align (hlen .B) _
  · dsimp only
    simp only [← intervalMatches_iff, ← pastBound_iff]
    refine ⟨fun h => seeOn_early h, fun h hheld hfit => ?_, fun h hheld hfit => ?_, fun h hheld hfit => seeOn_expected h hheld hfit,
      fun h hheld hfit h0 => ?_, fun h hheld hfit h0 => ?_, fun hheld => ?_, fun hheld hfit hlt => ?_, fun hheld hfit heq hrep => ?_,
      fun hheld hfit heq hrep => ?_, fun on first hheld hfit hon => ⟨fun h0 h1 hlt => ?_, fun h0 h1 heq => ?_, fun hno => ?_⟩,
      fun hheld hev hp => ?_, fun h => judgeOn_of_not h, fun hheld hev hp => ?_, fun h => judgeOff_of_not h⟩
    · rw [seeOn_afresh h (.inl hheld), startRun_fits hfit]; exact ⟨rfl, rfl, rfl, rfl, rfl⟩
    · rw [seeOn_afresh h (.inl hheld), startRun_misfit hfit]; exact ⟨rfl, rfl, rfl, rfl⟩
    · rw [seeOn_afresh h (.inr hfit), startRun_fits h0]; exact ⟨rfl, rfl, rfl, rfl, rfl⟩
    · rw [seeOn_afresh h (.inr hfit), startRun_misfit h0]; exact ⟨rfl, rfl, rfl, rfl⟩
    · exact if_pos hheld
    · rw [seeOff_expected hheld hfit, afterOff_goes_on hlt]
    · rw [seeOff_expected hheld hfit, afterOff_cycle (by omega), decide_eq_false (Nat.not_le.mpr hrep), Bool.or_false]
    · rw [seeOff_expected hheld hfit, afterOff_cycle (by omega), decide_eq_true hrep, Bool.or_true]
    · rw [seeOff_mismatch hheld hfit hon, if_pos ⟨startRun_held.mpr h0, h1⟩, startRun_fits h0, afterOff_goes_on hlt]
      exact ⟨rfl, rfl, rfl, rfl, rfl, rfl⟩
    · rw [seeOff_mismatch hheld hfit hon, if_pos ⟨startRun_held.mpr h0, h1⟩, startRun_fits h0, afterOff_cycle (by simp [heq])]
      exact ⟨rfl, rfl, rfl, rfl, rfl⟩
    · rw [seeOff_mismatch hheld hfit hon, if_neg (by rwa [startRun_held])]
      exact ⟨⟨rfl, rfl, rfl, rfl⟩, rfl⟩
    · rw [Alignment.judgeOn, if_pos ⟨hheld, hev, hp⟩]; exact ⟨rfl, rfl, rfl, rfl⟩
    · rw [Alignment.judgeOff, if_pos ⟨hheld, hev, hp⟩]; exact ⟨rfl, rfl, rfl, rfl⟩
  · have hshort : ¬pastBound e (max s.now (start + 200) - start) (e.elem 0) = true := by
      have : e.pattern.getD 0 0 * 100 ≤ e.pattern.getD 0 0 * (100 + e.tolerance) := Nat.mul_le_mul_left _ (Nat.le_add_right _ _)
      rw [pastBound_iff]
      omega
    have hring1 {b : Alignment} {hit : Bool} := ringOn_single (b := b) (hit := hit) hs hc hk hlen hsrc hmean hidle hringing hseize hring hoff
    dsimp only
    rw [← intervalMatches_iff]
    refine ⟨fun hfit => ?_, fun hfit => ?_⟩
    · have hsee : (alignOf s l k).seeOff e (start - off) =
          ({ alignOf s l k with expect := 0, cycles := (alignOf s l k).cycles + 1, matched := true }, true) := by
        rw [seeOff_expected hheld (by rwa [hexp]), afterOff_cycle (by omega), decide_eq_true (by omega), Bool.or_true]
      rw [hring1 hsee (judgeOn_of_not fun h => hshort h.2.2)]
      cases e.report
      · cases l <;> rfl
      · simp only [if_true, and_self, queueReport_eq]
        cases l <;> rfl
    · have hsee : ∃ b, b.held = false ∧ b.matched = false ∧ b.cycles = 0 ∧ b.expect = 0 ∧
          (alignOf s l k).seeOff e (start - off) = (b, false) := by
        refine ⟨(alignOf s l k).emptied, rfl, rfl, rfl, rfl, ?_⟩
        cases hprev : (alignOf s l k).prevOn with
        | none =>
          unfold Alignment.seeOff
          rw [if_neg (by rw [hheld]; nofun), if_neg (by rwa [hexp]), hprev]
        | some p => rw [seeOff_mismatch hheld (by rwa [hexp]) hprev, if_neg fun h => hfit h.2]
      obtain ⟨b, hb, hmatched, hcycles, hexpect, hsee⟩ := hsee
      refine ⟨b, hb, hmatched, hcycles, hexpect, ?_⟩
      rw [hring1 hsee (judgeOn_of_not fun h => by rw [hb] at h; cases h.1)]
      cases l <;> rfl

end Sys2Proof.Machine
end

section
/-! PROOFS. What the store's own operations leave unchanged: everything but the store, the terminal link and the requests between blocks
(Chapter 7). -/

namespace Sys2Proof.Machine

/-- A state differs from another at most in the store, the terminal link and the requests between blocks. -/
def StoreAlone (s t : State) : Prop := ∃ store link requests, t = { s with store := store, link := link, requests := requests }

theorem StoreAlone.refl (s : State) : StoreAlone s s := ⟨_, _, _, rfl⟩

theorem StoreAlone.line {s t : State} (h : StoreAlone s t) (l : Line) : t.line l = s.line l := by
  obtain ⟨_, _, _, rfl⟩ := h
  cases l <;> rfl

theorem StoreAlone.now {s t : State} (h : StoreAlone s t) : t.now = s.now := by
  obtain ⟨_, _, _, rfl⟩ := h
  rfl

section
variable {s t : State}

theorem StoreAlone.modStore (f : Store → Store) (h : StoreAlone s t) : StoreAlone s (modStore f t) := by
  obtain ⟨_, _, _, rfl⟩ := h
  exact ⟨_, _, _, rfl⟩

theorem StoreAlone.modLink (f : Link → Link) (h : StoreAlone s t) : StoreAlone s (modLink f t) := by
  obtain ⟨_, _, _, rfl⟩ := h
  exact ⟨_, _, _, rfl⟩

theorem StoreAlone.queueReport (r : Report) (h : StoreAlone s t) : StoreAlone s (queueReport r t) := by
  obtain ⟨_, _, _, rfl⟩ := h
  rw [queueReport_eq]
  exact ⟨_, _, _, rfl⟩

theorem StoreAlone.post (r : Request) (h : StoreAlone s t) : StoreAlone s (post r t) := by
  obtain ⟨_, _, _, rfl⟩ := h
  exact ⟨_, _, _, rfl⟩

theorem StoreAlone.ite {p : Prop} [Decidable p] {u v : State} (h : StoreAlone s u) (h' : StoreAlone s v) :
    StoreAlone s (if p then u else v) := by
  split
  · exact h
  · exact h'

theorem StoreAlone.lholdLeft (target : Target) (h : StoreAlone s t) : StoreAlone s (lholdLeft target t) := by
  unfold Machine.lholdLeft
  split
  · exact .ite (.modLink _ h) h
  · exact h

theorem StoreAlone.removeWriter (id : Nat) (h : StoreAlone s t) : StoreAlone s (removeWriter id t) := by
  unfold Machine.removeWriter leaveWaiting
  exact .modStore _ (.modStore _ h)

theorem StoreAlone.giveSegment (id seg : Nat) (h : StoreAlone s t) : StoreAlone s (giveSegment id seg t) := by
  unfold Machine.giveSegment modEntry modWriter
  exact .modStore _ (.modStore _ (.modStore _ h))

theorem StoreAlone.resideIn (id : Nat) (seg : Option Nat) (h : StoreAlone s t) : StoreAlone s (resideIn id seg t) := by
  unfold Machine.resideIn modWriter
  exact .modStore _ h

/-! ### Directory, references and erase -/

theorem StoreAlone.startErase (id : Nat) (h : StoreAlone s t) : StoreAlone s (startErase id t) := by
  unfold Machine.startErase
  split
  · exact .ite (.modStore _ (.modStore _ h)) (.modStore _ (.modStore _ (.modStore _ h)))
  · exact h

theorem StoreAlone.returnRef (id : Nat) (h : StoreAlone s t) : StoreAlone s (returnRef id t) := by
  unfold Machine.returnRef
  dsimp only
  split
  · exact .ite (.startErase _ (.modStore _ h)) (.modStore _ h)
  · exact .modStore _ h

theorem StoreAlone.dropWriter (id : Nat) (h : StoreAlone s t) : StoreAlone s (dropWriter id t) := by
  unfold Machine.dropWriter
  split
  · exact .ite (.modStore _ (.modStore _ h)) (.removeWriter _ h)
  · exact h

/-! ### Space -/

theorem StoreAlone.allocate (id : Nat) (h : StoreAlone s t) : StoreAlone s (allocate id t) := by
  have hpace (w : WStream) (fallback : Bool) : StoreAlone s (reportPace id w fallback t) := .ite (.queueReport _ (.modStore _ h)) h
  unfold Machine.allocate
  split
  · split
    · split
      · exact .giveSegment _ _ (hpace _ _)
      · exact h
    · exact h
  · exact h

/-! ### Close and cut -/

theorem StoreAlone.closeErase (id : Nat) (h : StoreAlone s t) : StoreAlone s (closeErase id t) := by
  unfold Machine.closeErase
  split
  · exact .startErase _ (.queueReport _ (.dropWriter _ h))
  · exact h

theorem StoreAlone.progressClose (id : Nat) (h : StoreAlone s t) : StoreAlone s (progressClose id t) := by
  unfold Machine.progressClose
  split
  · split
    · exact .ite (.ite (.closeErase _ h) (.ite (.modStore _ h) (.ite (.closeErase _ h) (.modStore _ (.modStore _ h))))) h
    · exact h
  · exact h

theorem StoreAlone.cutFinished (id : Nat) (h : StoreAlone s t) : StoreAlone s (cutFinished id t) := by
  unfold Machine.cutFinished
  dsimp only
  split
  · exact .progressClose _ (.ite (.post _ (.modStore _ h)) (.modStore _ h))
  · exact .modStore _ h

theorem StoreAlone.carryCut (id len : Nat) (h : StoreAlone s t) : StoreAlone s (carryCut id len t) := by
  unfold Machine.carryCut
  split
  · exact .ite (.cutFinished _ (.modStore _ (.modStore _ (.modStore _ h)))) (.modStore _ (.modStore _ (.modStore _ h)))
  · exact h

theorem StoreAlone.cutTo (id len : Nat) (h : StoreAlone s t) : StoreAlone s (cutTo id len t) := by
  unfold Machine.cutTo
  split
  · exact .ite (.modStore _ (.modStore _ h)) (.carryCut _ _ (.modStore _ h))
  · exact h

theorem StoreAlone.rewriteBytes (id offset : Nat) (bs : List Byte) (h : StoreAlone s t) : StoreAlone s (rewriteBytes id offset bs t) := by
  have hpart {u : State} (seq at_ : Nat) (bs : List Byte) (h : StoreAlone s u) : StoreAlone s (rewritePart id seq at_ bs u) := by
    unfold rewritePart
    refine .ite h ?_
    split
    · exact .ite (.modStore _ h) (.ite (.modStore _ h) (.modStore _ h))
    · exact h
  exact hpart _ _ _ (hpart _ _ _ h)

theorem StoreAlone.keepInWriter (id : Nat) (kept : List PageMark) (h : StoreAlone s t) : StoreAlone s (keepInWriter id kept t) := by
  unfold Machine.keepInWriter
  dsimp only
  split
  · exact .ite (.modStore _ h) (.rewriteBytes _ _ _ (.modStore _ h))
  · exact .modStore _ h

theorem StoreAlone.shortenClose (id : Nat) (h : StoreAlone s t) : StoreAlone s (shortenClose id t) := by
  unfold Machine.shortenClose
  split
  · exact .ite (.closeErase _ h) (.progressClose _ (.ite (.cutTo _ _ (.modStore _ (.modStore _ (.modStore _ (.keepInWriter _ _ h)))))
      (.modStore _ (.modStore _ (.modStore _ (.keepInWriter _ _ h))))))
  · exact h

/-! ### A full store -/

theorem StoreAlone.endFull (id : Nat) (h : StoreAlone s t) : StoreAlone s (endFull id t) := by
  unfold Machine.endFull
  split
  · split
    · exact .lholdLeft _ (.startErase _ (.queueReport _ (.modStore _ (.removeWriter _ (.queueReport _ (.modStore _ h))))))
    · exact .ite (.post _ (.modStore _ (.queueReport _ (.modStore _ h)))) (.shortenClose _ (.queueReport _ (.modStore _ h)))
  · exact h

theorem StoreAlone.judgeFull (id : Nat) (h : StoreAlone s t) : StoreAlone s (judgeFull id t) := by
  unfold Machine.judgeFull
  refine .ite (.modStore _ h) (.ite ?_ (.endFull _ h))
  split
  · exact .modStore _ (.queueReport _ (.startErase _ h))
  · exact .endFull _ h

/-! ### The memory port -/

theorem StoreAlone.grantStream (q : StreamReq) (h : StoreAlone s t) : StoreAlone s (grantStream q t) := by
  unfold Machine.grantStream
  split
  · exact .modStore _ (.resideIn _ _ h)
  · split
    · exact .modStore _ (.modStore _ h)
    · exact h
  · next w =>
    have hseg : StoreAlone s (if w.seg.isSome then Machine.resideIn w.id w.seg t else Machine.allocate w.id t) :=
      .ite (.resideIn _ _ h) (.allocate _ h)
    dsimp only
    split
    · exact .modStore _ (.modStore _ hseg)
    · exact hseg

theorem StoreAlone.storeKickFuel (fuel : Nat) {t : State} (h : StoreAlone s t) : StoreAlone s (storeKickFuel fuel t) := by
  induction fuel generalizing t with
  | zero => exact h
  | succ fuel ih =>
    unfold Machine.storeKickFuel
    refine .ite h ?_
    split
    · exact .ite (ih (.judgeFull _ h)) (.modStore _ (.grantStream _ h))
    · exact .modStore _ (.grantStream _ h)
    · split
      · exact .ite (ih (.judgeFull _ h)) (.modStore _ (.grantStream _ h))
      · exact .modStore _ (.grantStream _ h)
      · split
        · exact .modStore _ h
        · exact h

theorem StoreAlone.storeKick (h : StoreAlone s t) : StoreAlone s (storeKick t) := .storeKickFuel _ h

/-! ### Streams -/

theorem StoreAlone.openReader (o : Owner) (id offset length : Nat) (h : StoreAlone s t) : StoreAlone s (openReader o id offset length t) :=
  .storeKick (.modStore _ (.modStore _ h))

theorem StoreAlone.moveReader (o : Owner) (offset : Nat) (h : StoreAlone s t) : StoreAlone s (moveReader o offset t) := by
  unfold Machine.moveReader
  split
  · exact .openReader _ _ _ _ h
  · exact h

theorem StoreAlone.closeReader (o : Owner) (h : StoreAlone s t) : StoreAlone s (closeReader o t) := by
  unfold Machine.closeReader
  split
  · exact .storeKick (.returnRef _ (.modStore _ h))
  · exact h

theorem StoreAlone.closeMessageAs (id : Nat) (reason : EndReason) (truncated : Bool) (pages : Nat) (h : StoreAlone s t) :
    StoreAlone s (closeMessageAs id reason truncated pages t) :=
  .storeKick (.progressClose _ (.modStore _ (.modStore _ (.modStore _ h))))

theorem StoreAlone.closeWithErase (id : Nat) (h : StoreAlone s t) : StoreAlone s (closeWithErase id t) := .storeKick (.closeErase _ h)

theorem StoreAlone.closeAt (id len : Nat) (reason : EndReason) (truncated : Bool) (pages : Nat) (h : StoreAlone s t) :
    StoreAlone s (closeAt id len reason truncated pages t) :=
  .closeMessageAs _ _ _ _ (.ite (.cutTo _ _ h) h)

end

end Sys2Proof.Machine
end

section
/-! PROOFS. Edges and declarations (R48, R50, R51, R58, R60), and a receive block with one tone entry (R21, R45). -/

namespace Sys2Proof.Machine

/-! ### What a declaration's action leaves of a line (R50) -/

/-- The call of a line and the cadence table are as they were. -/
def Steady (l : Line) (s t : State) : Prop := (t.line l).call = (s.line l).call ∧ t.cadences = s.cadences

theorem Steady.refl (l : Line) (s : State) : Steady l s s := ⟨rfl, rfl⟩

theorem Steady.trans {l : Line} {s t u : State} (h : Steady l s t) (h' : Steady l t u) : Steady l s u :=
  ⟨h'.1.trans h.1, h'.2.trans h.2⟩

theorem StoreAlone.steady {s t : State} (h : StoreAlone s t) (l : Line) : Steady l s t := by
  obtain ⟨_, _, _, rfl⟩ := h
  exact ⟨by cases l <;> rfl, rfl⟩

theorem queueReport_steady (l : Line) (r : Report) (s : State) : Steady l s (queueReport r s) := (StoreAlone.refl s |>.queueReport r).steady l

theorem modVoice_steady (l : Line) (f : Voice → Voice) (s : State) : Steady l s (modVoice l f s) := by cases l <;> exact ⟨rfl, rfl⟩

theorem modDet_steady (l : Line) (f : Detector → Detector) (s : State) : Steady l s (modDet l f s) := by cases l <;> exact ⟨rfl, rfl⟩

theorem judgeExpectation_steady (l : Line) (s : State) : Steady l s (judgeExpectation l s) := by
  rw [← put_self s l, judgeExpectation_put]
  refine ⟨?_, (put_cadences ..).trans (put_cadences ..).symm⟩
  rw [put_line, put_line, LineState.judge_frame]

theorem setSub_steady (l : Line) (sub : Option VoiceSub) (s : State) : Steady l s (setSub l sub s) :=
  (modVoice_steady l _ s).trans (judgeExpectation_steady l _)

theorem endPlayback_steady (l : Line) (reason : EndReason) (s : State) : Steady l s (endPlayback l reason s) := by
  have hclose : Steady l s (closeReader (.line l) s) := ((StoreAlone.refl s).closeReader _).steady l
  have hended (f : Voice → Voice) (r : Report) :
      Steady l s (queueReport r (setSub l (some .waiting) (modVoice l f (closeReader (.line l) s)))) :=
    ((hclose.trans (modVoice_steady ..)).trans (setSub_steady ..)).trans (queueReport_steady ..)
  unfold endPlayback
  dsimp only
  split
  · exact (hended _ _).trans (((StoreAlone.refl _).post _).steady l)
  · exact hended _ _

theorem skipTo_steady (l : Line) (position : Nat) (s : State) : Steady l s (skipTo l position s) :=
  ((modVoice_steady l _ s).trans (((StoreAlone.refl _).moveReader _ _).steady l)).trans (queueReport_steady l _ _)

theorem voiceControl_steady (l : Line) (op : ControlOp) (s : State) : Steady l s (voiceControl l op s) := by
  unfold voiceControl
  dsimp only
  split
  · split
    · exact endPlayback_steady ..
    · exact skipTo_steady ..
    · split
      · split
        · exact endPlayback_steady ..
        · exact skipTo_steady ..
      · exact .refl ..
    · split
      · exact ((modVoice_steady l _ s).trans (setSub_steady ..)).trans (queueReport_steady l _ _)
      · exact (setSub_steady ..).trans (queueReport_steady l _ _)
  · exact .refl ..

theorem actOn_steady (l : Line) (i : Nat) (e : ToneEntry) (digit : Option Byte) (s : State) : Steady l s (actOn l i e digit s) := by
  unfold actOn
  dsimp only
  split
  · exact .refl ..
  · exact queueReport_steady ..
  · exact (queueReport_steady l _ s).trans (modDet_steady ..)
  · exact (modDet_steady l _ s).trans (queueReport_steady ..)
  · exact (queueReport_steady l _ s).trans (voiceControl_steady ..)

/-- A capture as a change of the line's detector. -/
theorem makeCapture_eq (l : Line) (i : Nat) (mark : Bool) (digit : Option Byte) (s : State) : makeCapture l i mark digit s =
    s.setLine l { s.line l with det := { (s.line l).det.capture ⟨i, digit, streamPosition s l, lineTime s l⟩ with
      priority := if mark then some ⟨i, lineTime s l, captureSlot (s.line l).det⟩ else (s.line l).det.priority } } := rfl

theorem voiceControl_idle {l : Line} {s : State} (op : ControlOp) (h : (s.line l).voice.sub ≠ some .playing)
    (h' : (s.line l).voice.sub ≠ some .paused) : voiceControl l op s = s := if_neg (by rintro (h1 | h1) <;> contradiction)

/-- PAUSE and its resumption on a line in VOICE that expects no far-end signal. -/
theorem voiceControl_pause {s : State} {l : Line} {x : LineState} {k : Link} (hst : x.call.st = .voice) (hexp : x.iface.expecting = false) :
    (x.voice.sub = some .playing → voiceControl l .pause (s.put l x k) =
      s.put l { x with voice := { x.voice with sub := some .paused, output := [] } } (k.push (.voice l .pause .none x.voice.position))) ∧
    (x.voice.sub = some .paused → voiceControl l .pause (s.put l x k) =
      s.put l { x with voice := { x.voice with sub := some .playing } } (k.push (.voice l .resume .none x.voice.position))) := by
  have hagree (v : Voice) (hv : v.sub ≠ some .recording) : ({ x with voice := v } : LineState).judge = { x with voice := v } ∧
      ∀ k : Link, k.judge l { x with voice := v } = k := by
    have hag : ({ x with voice := v } : LineState).iface.expecting = ({ x with voice := v } : LineState).expects := by
      simp [LineState.expects, hst, hexp, hv]
    exact ⟨LineState.judge_of_agreeing hag, Link.judge_of_agreeing hag l⟩
  constructor <;> intro hsub
  · have hj := hagree { x.voice with sub := some .paused, output := [] } (by nofun)
    simp only [voiceControl, put_line, hsub, true_or, if_true, modVoice_put, setSub, reportVoice]
    rw [judgeExpectation_put, hj.1, hj.2, queueReport_put]
  · have hj := hagree { x.voice with sub := some .playing } (by nofun)
    have hne : ¬(some VoiceSub.paused = some .playing) := by nofun
    simp only [voiceControl, put_line, hsub, or_true, if_true, hne, if_false, modVoice_put, setSub, reportVoice]
    rw [judgeExpectation_put, hj.1, hj.2, queueReport_put]

/-! ### Declarations of an entry that is no cadence source (R50, R51) -/

theorem Unwatched.of_cadences {src : CadSource} {s t : State} (h : Unwatched src s) (hc : t.cadences = s.cadences) : Unwatched src t :=
  fun e he => h e (hc ▸ he)

theorem declare_on {l : Line} {i : Nat} {e : ToneEntry} {s : State} (h : Unwatched (.tone i) s) (digit : Option Byte) (start : Nat)
    (off : Option Nat) : declare l i e s (.on digit start off) = if e.meaning = .none then actOn l i e digit s
      else deliver l e.meaning digit (lineTimeAt s l start) (actOn l i e digit s) := by
  have hsteady := actOn_steady l i e digit s
  have htime : lineTimeAt (actOn l i e digit s) l start = lineTimeAt s l start := by
    unfold lineTimeAt State.st
    rw [hsteady.1]
  have hsrc : isCadenceSource (actOn l i e digit s) i = false := isCadenceSource_eq_false.mpr (h.of_cadences hsteady.2)
  simp only [declare, declaredOn, hsrc, Bool.false_eq_true, if_false, htime]

theorem declare_off {l : Line} {i : Nat} {e : ToneEntry} {s : State} (h : Unwatched (.tone i) s) (digit : Option Byte)
    (start duration : Nat) : declare l i e s (.off digit start duration) =
      if e.action = .report then queueReport (.tone l i e.meaning digit false duration) s else s := by
  simp only [declare, declaredOff, reportTone, cadenceOn]
  split
  · exact eachCadence_of_unwatched (h.of_cadences (queueReport_steady l _ s).2) _
  · exact eachCadence_of_unwatched h _

/-! ### A receive block with one tone entry, no stream, voice operation, ring or cadence (R21, R45) -/

/-- A line with no reading and no writing stream. -/
def Streamless (l : Line) (s : State) : Prop := readerOf s (.line l) = none ∧ ∀ w ∈ s.store.writers, w.owner ≠ .line l

theorem streamPosition_of_streamless {l : Line} {s : State} (h : Streamless l s) : streamPosition s l = none := by
  obtain ⟨hread, hwrite⟩ := h
  have hactive : activeWriter s (.line l) = none := by
    rw [activeWriter, List.find?_eq_none]
    exact fun w hw => by simp [hwrite w hw]
  rw [streamPosition, hread, hactive]; rfl

theorem hasStream_of_streamless {l : Line} {s : State} (h : Streamless l s) : hasStream s l = false := by
  obtain ⟨hread, hwrite⟩ := h
  rw [hasStream, hread, Bool.or_eq_false_iff, List.any_eq_false]
  exact ⟨fun w hw => by simpa using hwrite w hw, rfl⟩

theorem readerOf_put (s : State) (l : Line) (x : LineState) (k : Link) (o : Owner) : readerOf (s.put l x k) o = readerOf s o := by
  unfold readerOf
  split <;> rw [put_store]

theorem Streamless.put {l : Line} {s : State} (h : Streamless l s) (x : LineState) (k : Link) : Streamless l (s.put l x k) := by
  rw [Streamless, readerOf_put, put_store]; exact h

/-- The detector behind a declaration, at a line time and with no stream. -/
def Detector.declared (i : Nat) (e : ToneEntry) (time : Nat) (d : Detector) : EdgeEvent → Detector
  | .on digit _ _ =>
    match e.action with
    | .priority => { d with priority := some ⟨i, time, .none⟩ }
    | .capture =>
      { d.capture ⟨i, digit, none, time⟩ with priority := if e.priorityMark then some ⟨i, time, captureSlot d⟩ else d.priority }
    | _ => d
  | .off _ _ _ => d

/-- The report of a declaration in the terminal link's queue. -/
def Link.declared (l : Line) (i : Nat) (e : ToneEntry) (k : Link) : EdgeEvent → Link
  | .on digit _ _ => if e.action = .ignore then k else k.push (.tone l i e.meaning digit true (e.onNeed * 10))
  | .off digit _ duration => if e.action = .report then k.push (.tone l i e.meaning digit false duration) else k

/-- The line time of a line of its own. -/
def LineState.timeAt (x : LineState) (now : Nat) : Nat := if x.call.st = .idle then 0 else now - x.call.leftAt

theorem lineTime_put (s : State) (l : Line) (x : LineState) (k : Link) : lineTime (s.put l x k) l = x.timeAt s.now := by
  rw [lineTime, lineTimeAt, put_st, put_line, put_now]; rfl

section
variable {l : Line} {i : Nat} {e : ToneEntry} {s : State}

/-- A declaration of an entry without a meaning, on a line without streams or voice operation. -/
theorem declare_put (hun : Unwatched (.tone i) s) (hstream : Streamless l s) (hmean : e.meaning = .none) (x : LineState) (k : Link)
    (hsub : x.voice.sub = none) (ev : EdgeEvent) : declare l i e (s.put l x k) ev =
      s.put l { x with det := x.det.declared i e (x.timeAt s.now) ev } (k.declared l i e ev) := by
  have hun' := hun.put l x k
  cases ev with
  | off digit start duration =>
    rw [declare_off hun', Link.declared, Detector.declared]
    split
    · exact queueReport_put ..
    · rfl
  | on digit start off =>
    have hpos := streamPosition_of_streamless (hstream.put x k)
    have hidle (op : ControlOp) (k : Link) : voiceControl l op (s.put l x k) = s.put l x k :=
      voiceControl_idle op (by rw [put_line, hsub]; nofun) (by rw [put_line, hsub]; nofun)
    rw [declare_on hun', if_pos hmean, Link.declared, Detector.declared]
    cases hact : e.action with
    | ignore => simp only [actOn, hact, if_true]
    | report => simp only [actOn, hact, reportTone, queueReport_put, reduceCtorEq, if_false]
    | priority => simp only [actOn, hact, reportTone, queueReport_put, reduceCtorEq, if_false, notePriority, modDet_put, lineTime_put]
    | capture =>
      simp only [actOn, hact, reportTone, queueReport_put, reduceCtorEq, if_false, makeCapture, modDet_put, lineTime_put, hpos, put_line]
    | control op => simp only [actOn, hact, reportTone, queueReport_put, reduceCtorEq, if_false, hidle]

theorem declares_put (hun : Unwatched (.tone i) s) (hstream : Streamless l s) (hmean : e.meaning = .none) (evs : List EdgeEvent) :
    ∀ (x : LineState) (k : Link), x.voice.sub = none → evs.foldl (declare l i e) (s.put l x k) =
      s.put l { x with det := evs.foldl (Detector.declared i e (x.timeAt s.now)) x.det } (evs.foldl (Link.declared l i e) k) := by
  induction evs with
  | nil => exact fun _ _ _ => rfl
  | cons ev rest ih =>
    intro x k hsub
    rw [List.foldl_cons, declare_put hun hstream hmean x k hsub]
    exact ih { x with det := x.det.declared i e (x.timeAt s.now) ev } _ hsub

theorem declared_edges (time : Nat) (d : Detector) (edges : List EdgeState) (ev : EdgeEvent) :
    Detector.declared i e time { d with edges := edges } ev = { d.declared i e time ev with edges := edges } ∧
      (d.declared i e time ev).edges = d.edges := by
  cases ev with
  | off => exact ⟨rfl, rfl⟩
  | on digit start off =>
    simp only [Detector.declared]
    cases e.action with
    | capture =>
      have hslot : captureSlot { d with edges := edges } = captureSlot d := rfl
      simp only [Detector.capture, hslot]
      cases captureSlot d <;> exact ⟨rfl, rfl⟩
    | _ => exact ⟨rfl, rfl⟩

/-- Declarations neither read nor move the edge states. -/
theorem declares_edges (time : Nat) (edges : List EdgeState) (evs : List EdgeEvent) : ∀ d : Detector,
    evs.foldl (Detector.declared i e time) { d with edges := edges } = { evs.foldl (Detector.declared i e time) d with edges := edges } := by
  induction evs with
  | nil => exact fun _ => rfl
  | cons ev rest ih => intro d; rw [List.foldl_cons, List.foldl_cons, (declared_edges time d edges ev).1, ih]

end

/-- A block for the entries of a table with one entry, live. -/
theorem detectBlock_single {s : State} {l : Line} {e : ToneEntry} {i : Nat} (n start : Nat) (b : List Sample)
    (ht : s.tones = (List.replicate 24 none).set i (some e)) (hi : i < 24) (hlive : s.st l ∈ e.live) :
    detectBlock l n start b s = entryBlock l n start i e (some (presence e b)) s := by
  have hblank (st : LineSt) (m : Nat) : ∀ (from_ : Nat) (claimed : List Nat) (t : State),
      (((List.replicate m (none : Option ToneEntry)).zip (presences st b (List.replicate m none) claimed)).zipIdx from_).foldl (fun s x =>
        match x.1.1 with
        | some e => entryBlock l n start x.2 e x.1.2 s
        | none => s) t = t := by
    induction m with
    | zero => exact fun _ _ _ => rfl
    | succ m ih => exact fun from_ claimed t => ih (from_ + 1) claimed t
  have hsingle : ∀ (m i from_ : Nat), i < m → ∀ t : State,
      ((((List.replicate m none).set i (some e)).zip (presences (s.st l) b ((List.replicate m none).set i (some e)) [])).zipIdx from_).foldl
        (fun s x => match x.1.1 with
          | some e => entryBlock l n start x.2 e x.1.2 s
          | none => s) t = entryBlock l n start (from_ + i) e (some (presence e b)) t := by
    intro m
    induction m with
    | zero => exact fun i _ h => absurd h (Nat.not_lt_zero i)
    | succ m ih =>
      intro i from_ h t
      cases i with
      | zero =>
        have hin : liveIn (some e) (s.st l) = some e := by simp [liveIn, hlive]
        have hfree : ¬(e.freqs.any fun f => decide (f ∈ ([] : List Nat))) = true := by simp
        rw [List.replicate_succ, List.set_cons_zero, presences, hin]
        simp only [hfree]
        cases presence e b with
        | none => exact hblank _ m (from_ + 1) [] _
        | some d => exact hblank _ m (from_ + 1) _ _
      | succ i =>
        have hrest := ih i (from_ + 1) (Nat.lt_of_succ_lt_succ h) t
        rw [Nat.add_right_comm] at hrest
        exact hrest
  have := hsingle 24 i 0 hi s
  rw [Nat.zero_add, ← ht] at this
  exact this

/-- The interval of a source no cadence entry watches is judged by none. -/
theorem judgeTone_of_unwatched {l : Line} {i : Nat} {s : State} (h : Unwatched (.tone i) s) (n : Nat) : judgeTone l i n s = s := by
  unfold judgeTone runningOn runningOff
  dsimp only
  repeat' split
  all_goals first | exact eachCadence_of_unwatched h _ | rfl

/-- An edge state behind a block, by what the block shows of its entry. -/
def EdgeState.met (x : EdgeState) (e : ToneEntry) (n start : Nat) : Option (Option Byte) → EdgeState × List EdgeEvent
  | some digit => x.present e n start digit
  | none => x.absence e

theorem entryBlock_some (l : Line) (n start i : Nat) (e : ToneEntry) (p : Option (Option Byte)) (s : State) :
    entryBlock l n start i e (some p) s = judgeTone l i n ((((edgeOf s l i).met e n start p).2).foldl (declare l i e)
      (setEdge l i ((edgeOf s l i).met e n start p).1 s)) := by
  cases p <;> rfl

/-- A block for an entry that no cadence entry watches, its edge moved and its declarations made. -/
theorem entryBlock_put {s : State} {l : Line} {i : Nat} {e : ToneEntry} (hun : Unwatched (.tone i) s) (hstream : Streamless l s)
    (hmean : e.meaning = .none) (n start : Nat) (p : Option (Option Byte)) (x : LineState) (k : Link) (hsub : x.voice.sub = none) :
    let r := (x.det.edges.getD i readyEdge).met e n start p
    entryBlock l n start i e (some p) (s.put l x k) =
      s.put l { x with det := { r.2.foldl (Detector.declared i e (x.timeAt s.now)) x.det with edges := x.det.edges.set i r.1 } }
        (r.2.foldl (Link.declared l i e) k) := by
  dsimp only
  rw [entryBlock_some, edgeOf, put_line]
  generalize (x.det.edges.getD i readyEdge).met e n start p = r
  have hedge : setEdge l i r.1 (s.put l x k) = s.put l { x with det := { x.det with edges := x.det.edges.set i r.1 } } k := modDet_put ..
  have hall := declares_put hun hstream hmean r.2 { x with det := { x.det with edges := x.det.edges.set i r.1 } } k hsub
  rw [declares_edges] at hall
  rw [hedge, hall, judgeTone_of_unwatched (hun.put _ _ _)]
  rfl

/-- A line as a receive block has been counted and measured before the gain. -/
def LineState.measured (b : List Sample) (x : LineState) : LineState :=
  { x with iface := { x.iface with
    blockDue := x.iface.blockDue + 10, blockNo := x.iface.blockNo + 1, preLevel := meanMagnitude (b.map BitVec.toInt) } }

/-- The part of BLOCK_END behind the detector and the matcher. -/
def blockTail (l : Line) (level clipped : Nat) (s : State) : State :=
  let s := watchBlock l s
  latchGain l (slipBlock l (clipBlock l clipped (levelLowBlock l
    (gainLimitBlock l (s.line l).iface.gain (gainBlock l level s)))))

theorem opBlockEnd_eq {s : State} {l : Line} (hdue : s.now ≤ (s.line l).iface.blockDue) (b : List Sample) : opBlockEnd l b s =
    blockTail l (meanMagnitude (b.map (gainSample (s.line l).iface.blockGain))) (clipCount b)
      (judgeRing l (detectBlock l ((s.line l).iface.blockNo + 1) ((s.line l).iface.blockDue - 10) b
        (voiceBlock l ((s.line l).iface.blockDue - 10) (b.map (gainSample (s.line l).iface.blockGain))
          ((s.at (s.line l).iface.blockDue).put l ((s.line l).measured b) s.link)))) := by
  have hend : blockEndTime s l = (s.line l).iface.blockDue := if_neg (Nat.not_lt.mpr hdue)
  have hstart : modIface l (fun i => { i with
        blockDue := (s.line l).iface.blockDue + 10, blockNo := (s.line l).iface.blockNo + 1
        preLevel := meanMagnitude (b.map BitVec.toInt) }) (elapse (s.line l).iface.blockDue s) =
      (s.at (s.line l).iface.blockDue).put l ((s.line l).measured b) s.link := by
    rw [elapse_eq_at, Nat.max_eq_right hdue]; cases l <;> rfl
  unfold opBlockEnd
  dsimp only
  rw [hend, hstart]
  rfl

/-- The rest of a block on a line without streams that measures no far-end signal, where no monitor condition changes. -/
theorem blockTail_put {s : State} {l : Line} {x : LineState} (k : Link) (level clipped : Nat) (hstream : Streamless l s)
    (hprogress : x.call.st ≠ .progress) (hexpects : x.expects = false) (hexp : x.iface.expecting = false)
    (hslip : x.iface.current.streamSlip = false) (hclip : x.iface.current.clip = decide (4 ≤ clipped)) :
    blockTail l level clipped (s.put l x k) =
      s.put l { x with iface := { x.iface with postLevel := level, slipped := false, blockGain := x.iface.gain } } k := by
  have hwatch : watchBlock l (s.put l x k) = s.put l x k := if_neg (by rw [put_st]; exact fun h => hprogress h.1)
  have hagc (y : LineState) (hcall : y.call = x.call) (hvoice : y.voice = x.voice) (k : Link) : agcActive (s.put l y k) l = false := by
    rw [agcActive, farEndExpected, put_st, put_line, hcall, hvoice]; exact hexpects
  have hpost : gainBlock l level (s.put l x k) = s.put l { x with iface := { x.iface with postLevel := level } } k := by
    unfold gainBlock
    dsimp only
    rw [hagc x rfl rfl, if_neg Bool.false_ne_true]
    exact modIface_put ..
  generalize hy : ({ x with iface := { x.iface with postLevel := level } } : LineState) = y at hpost
  have hlimit : gainLimitBlock l x.iface.gain (s.put l y k) = s.put l y k := by
    simp only [gainLimitBlock, put_line]
    rw [hagc y (by rw [← hy]) (by rw [← hy]), ← hy]
    simp
  have hlow : levelLowBlock l (s.put l y k) = s.put l y k := by
    rw [levelLowBlock, put_line, ← hy]
    exact if_neg (by rw [hexp]; nofun)
  have hset (src : MonSource) (v : Bool) (h : x.iface.current.get src = v) : setCondition l src v (s.put l y k) = s.put l y k := by
    have hy' : y.iface.current.get src = v := by rw [← hy]; exact h
    rw [setCondition_put, LineState.deliver_of_get hy', Link.deliver_of_get hy']
  rw [blockTail, hwatch]
  dsimp only
  rw [put_line, hpost, hlimit, hlow, clipBlock, hset .clip _ hclip, slipBlock, streamSlip, hasStream_of_streamless (hstream.put _ _),
    Bool.and_false, hset .streamSlip _ hslip, clearSlip, modIface_put, latchGain, modIface_put, ← hy]

theorem voiceBlock_idle {s : State} {l : Line} (h : (s.line l).voice.sub = none) (start : Nat) (gained : List Int) :
    voiceBlock l start gained s = s := by
  unfold voiceBlock
  simp only [h]

theorem presence_single {e : ToneEntry} (h : e.kind = .single) (b : List Sample) : presence e b =
    if e.minLevel * 10 ≤ levelAt b e.f1 ∧ totalLevel b - 30 ≤ levelAt b e.f1 then some none else none := by
  unfold presence
  rw [h]

/-- BLOCK_END with one SINGLE entry, live and without a meaning. -/
theorem blockEnd_single {s : State} {l : Line} {b : List Sample} {i : Nat} {e : ToneEntry}
    (ht : s.tones = (List.replicate 24 none).set i (some e)) (hi : i < 24) (hlive : s.st l ∈ e.live)
    (hmean : e.meaning = .none) (hcad : ∀ c ∈ s.cadences, c = none) (hsub : (s.line l).voice.sub = none)
    (hdue : s.now ≤ (s.line l).iface.blockDue)
    (hstream : Streamless l s) (hprogress : s.st l ≠ .progress) (hexpects : (s.line l).expects = false)
    (hexp : (s.line l).iface.expecting = false) (hslip : (s.line l).iface.current.streamSlip = false)
    (hclip : (s.line l).iface.current.clip = decide (4 ≤ clipCount b)) :
    let r := (edgeOf s l i).met e ((s.line l).iface.blockNo + 1) ((s.line l).iface.blockDue - 10) (presence e b)
    ∃ iface, opBlockEnd l b s = (s.at (s.line l).iface.blockDue).put l { s.line l with
        iface := iface
        det := { r.2.foldl (Detector.declared i e ((s.line l).timeAt (s.line l).iface.blockDue)) (s.line l).det with
          edges := (s.line l).det.edges.set i r.1 } } (r.2.foldl (Link.declared l i e) s.link) := by
  have hun (src : CadSource) : Unwatched src (s.at (s.line l).iface.blockDue) := fun c hc => absurd (hcad _ hc) (by nofun)
  have hstream' : Streamless l (s.at (s.line l).iface.blockDue) := hstream
  rw [opBlockEnd_eq hdue b]
  generalize hn : (s.line l).iface.blockNo + 1 = n
  generalize hb : (s.line l).iface.blockDue - 10 = start
  generalize b.map (gainSample (s.line l).iface.blockGain) = gained
  dsimp only
  generalize hdue' : s.at (s.line l).iface.blockDue = u at hun hstream'
  have hnow : u.now = (s.line l).iface.blockDue := by rw [← hdue']; rfl
  have htones : u.tones = _ := (congrArg State.tones hdue').symm.trans ht
  have hvoice : voiceBlock l start gained (u.put l ((s.line l).measured b) s.link) = u.put l ((s.line l).measured b) s.link :=
    voiceBlock_idle (by rw [put_line]; exact hsub) _ _
  rw [hvoice, detectBlock_single _ _ b ((put_tones ..).trans htones) hi (by rw [put_st]; exact hlive),
    entryBlock_put (hun _) hstream' hmean _ _ _ ((s.line l).measured b) _ (by exact hsub), judgeRing_of_unwatched ((hun _).put _ _ _), hnow]
  exact ⟨_, blockTail_put _ _ _ hstream' hprogress hexpects hexp hslip hclip⟩

/-! ### Edges (R48) -/

theorem declareOn_state (x : EdgeState) (n : Nat) : (x.declareOn n).1 = { x with st := .on, last := n } ∧
    ∃ off, (x.declareOn n).2 = [.on x.digit x.startTime off] := ⟨rfl, _, rfl⟩

/-- A run begun by a block. -/
theorem beginRun_spec (x : EdgeState) (e : ToneEntry) (n start : Nat) (d : Option Byte) (before : List EdgeEvent) :
    let r := x.beginRun e n start d
    r.1.first = n ∧ r.1.startTime = start ∧ r.1.onCount = 1 ∧ r.1.digit = d ∧
      (1 < e.onNeed → r.1.st = .rising ∧ before ++ r.2 = before) ∧
      (e.onNeed ≤ 1 → r.1.st = .on ∧ r.1.last = n ∧ ∃ off, before ++ r.2 = before ++ [.on d start off]) := by
  dsimp only
  unfold EdgeState.beginRun
  dsimp only
  split
  next h => exact ⟨rfl, rfl, rfl, rfl, fun h' => absurd h (Nat.not_le.mpr h'), fun _ => ⟨rfl, rfl, _, rfl⟩⟩
  next h => exact ⟨rfl, rfl, rfl, rfl, fun _ => ⟨rfl, List.append_nil _⟩, fun h' => absurd h' h⟩

section
variable {x : EdgeState} {e : ToneEntry} {n start : Nat} {d : Option Byte}

theorem present_ready (h : x.st = .ready) : x.present e n start d = x.beginRun e n start d := by rw [EdgeState.present, h]

theorem present_rising_other (h : x.st = .rising) (hd : x.digit ≠ d) : x.present e n start d = x.beginRun e n start d := by
  rw [EdgeState.present, h]; exact if_pos (Ne.symm hd)

theorem present_rising_same (h : x.st = .rising) (hd : x.digit = d) : x.present e n start d =
    if e.onNeed ≤ x.onCount + 1 then { x with onCount := x.onCount + 1 }.declareOn n else ({ x with onCount := x.onCount + 1 }, []) := by
  rw [EdgeState.present, h]; exact if_neg (fun hne => hne hd.symm)

theorem present_on_same (h : x.st = .on ∨ x.st = .bridge) (hd : x.digit = d) :
    x.present e n start d = ({ x with st := .on, last := n }, []) := by
  rcases h with h | h <;> (rw [EdgeState.present, h]; exact if_neg (fun hne => hne hd.symm))

theorem present_on_other (h : x.st = .on ∨ x.st = .bridge) (hd : x.digit ≠ d) : x.present e n start d =
    (({ x with offFrom := some x.last }.beginRun e n start d).1,
      .off x.digit x.startTime x.duration :: ({ x with offFrom := some x.last }.beginRun e n start d).2) := by
  rcases h with h | h <;> (rw [EdgeState.present, h]; exact if_pos (Ne.symm hd))

theorem present_recover (h : x.st = .recover) : x.present e n start d = ({ x with absent := 0 }, []) := by rw [EdgeState.present, h]

theorem settle_ready (h : e.offNeed ≤ x.absent) : (x.settle e).st = .ready := by rw [EdgeState.settle, if_pos h]; rfl

theorem settle_same (h : x.absent < e.offNeed) : x.settle e = x := if_neg (Nat.not_le.mpr h)

theorem absence_bridge (h : x.st = .bridge) : x.absence e =
    ({ x with st := .recover, absent := 2, offFrom := some x.last }.settle e, [.off x.digit x.startTime x.duration]) := by
  rw [EdgeState.absence, h]

theorem absence_recover (h : x.st = .recover) : x.absence e = ({ x with absent := x.absent + 1 }.settle e, []) := by
  rw [EdgeState.absence, h]

end

/-- Settles O32: the table, its runs of a new digit, the declarations, and a block with one entry. -/
theorem edgeStatesFollowTheTable : Obligations.EdgeStatesFollowTheTable := by
  refine ⟨fun x e n start d hneed => ?_, fun x e n start d => ?_, fun l i e digit start duration off s hun => ?_,
    fun l b i e s hs ht hi hkind hlive hmean hcad hlen hsub hring hoff hdue hread hwrite hprogress htrain hdata hfax hexp hslip hclip => ?_⟩
  · refine ⟨fun h => ?_, fun h => ?_, fun h hd hlt => ?_, fun h hd hle => ?_, fun h => ?_, fun h hd => present_on_same h hd,
      fun h => ?_, fun h => ?_, fun h => ?_⟩
    · obtain ⟨hfirst, htime, hcount, -, hrise, -⟩ := beginRun_spec x e n start d []
      rw [present_ready h]
      exact ⟨(hrise hneed).1, hfirst, htime, hcount, (hrise hneed).2⟩
    · rw [EdgeState.absence, h]
    · rw [present_rising_same h hd, if_neg (Nat.not_le.mpr hlt)]
    · rw [present_rising_same h hd, if_pos hle, ← hd]
      exact ⟨rfl, rfl, _, rfl⟩
    · rw [EdgeState.absence, h]; exact ⟨rfl, rfl⟩
    · rw [EdgeState.absence, h]
    · rw [absence_bridge h]
      exact ⟨rfl, fun h2 => by rw [settle_same (by exact h2)]; exact ⟨rfl, rfl⟩, fun h2 => settle_ready (by exact h2)⟩
    · rw [present_recover h, absence_recover h]
      exact ⟨rfl, rfl, fun h2 => settle_ready (by exact h2), fun h2 => by rw [settle_same (by exact h2)]⟩
  · refine ⟨fun h => ?_, fun h hd => ?_, fun h hd => ?_⟩
    · rw [present_ready h]; exact beginRun_spec x e n start d []
    · rw [present_rising_other h hd]; exact beginRun_spec x e n start d []
    · rw [present_on_other h hd]
      exact beginRun_spec { x with offFrom := some x.last } e n start d [.off x.digit x.startTime x.duration]
  · have hdecl {t : State} (h : actOn l i e digit s = t) : declare l i e s (.on digit start off) =
        if e.meaning = .none then t else deliver l e.meaning digit (lineTimeAt s l start) t := h ▸ declare_on hun digit start off
    have hself : s.put l (s.line l) s.link = s := put_self s l
    have hon (op : ControlOp) (hact : e.action = .control op) : actOn l i e digit s =
        voiceControl l op (queueReport (.tone l i e.meaning digit true ((e.onTime + 9) / 10 * 10)) s) := by
      simp only [actOn, hact]; rfl
    dsimp only
    refine ⟨fun hact => ?_, fun hact => ?_, fun hact => ?_, fun hact h0 => ?_, fun hact h0 h1 => ?_, fun hact h0 h1 => ?_,
      fun op hact => ⟨hdecl (hon op hact), fun hplay hpause => ?_, fun hop hst hexp => ⟨fun hsub => ?_, fun hsub => ?_⟩⟩,
      fun hact => ?_, fun hact => ?_⟩
    · exact hdecl (by simp only [actOn, hact])
    · exact hdecl (by simp only [actOn, hact]; rfl)
    · refine hdecl ?_
      simp only [actOn, hact, reportTone, queueReport_eq, notePriority]
      cases l <;> rfl
    · refine hdecl ?_
      simp only [actOn, hact, reportTone, queueReport_eq, makeCapture_eq, Detector.capture, captureSlot, h0, Option.isNone_none, if_true]
      cases l <;> rfl
    · have h0' : (s.line l).det.slot0.isNone = false := by simpa [Option.isNone_eq_false_iff, Option.isSome_iff_ne_none] using h0
      refine hdecl ?_
      simp only [actOn, hact, reportTone, queueReport_eq, makeCapture_eq, Detector.capture, captureSlot, h0', h1, Option.isNone_none, if_true,
        Bool.false_eq_true, if_false]
      cases l <;> rfl
    · have h0' : (s.line l).det.slot0.isNone = false := by simpa [Option.isNone_eq_false_iff, Option.isSome_iff_ne_none] using h0
      have h1' : (s.line l).det.slot1.isNone = false := by simpa [Option.isNone_eq_false_iff, Option.isSome_iff_ne_none] using h1
      refine hdecl ?_
      simp only [actOn, hact, reportTone, queueReport_eq, makeCapture_eq, Detector.capture, captureSlot, h0', h1', Bool.false_eq_true, if_false]
      cases l <;> rfl
    · exact hdecl ((hon op hact).trans (voiceControl_idle op (by rw [queueReport_eq]; cases l <;> exact hplay)
        (by rw [queueReport_eq]; cases l <;> exact hpause)))
    · have hpause := (voiceControl_pause (s := s) (l := l) (x := s.line l)
        (k := s.link.push (.tone l i e.meaning digit true ((e.onTime + 9) / 10 * 10))) hst hexp).1 hsub
      rw [← queueReport_put, hself] at hpause
      refine hdecl ((hon op hact).trans (hop ▸ hpause.trans ?_))
      rw [queueReport_eq, queueReport_eq]
      cases l <;> rfl
    · have hpause := (voiceControl_pause (s := s) (l := l) (x := s.line l)
        (k := s.link.push (.tone l i e.meaning digit true ((e.onTime + 9) / 10 * 10))) hst hexp).2 hsub
      rw [← queueReport_put, hself] at hpause
      refine hdecl ((hon op hact).trans (hop ▸ hpause.trans ?_))
      rw [queueReport_eq, queueReport_eq]
      cases l <;> rfl
    · rw [declare_off hun, if_pos hact]
    · rw [declare_off hun, if_neg hact]
  · have hexpects : (s.line l).expects = false := by
      rw [LineState.expects, hsub]
      exact decide_eq_false (by rintro (h | h | h | h) <;> contradiction)
    obtain ⟨iface, hop⟩ := blockEnd_single ht hi hlive hmean hcad hsub hdue ⟨hread, hwrite⟩ hprogress hexpects hexp hslip hclip
    have hr : (if e.minLevel * 10 ≤ levelAt b e.f1 ∧ totalLevel b - 30 ≤ levelAt b e.f1 then
        (edgeOf s l i).present e ((s.line l).iface.blockNo + 1) ((s.line l).iface.blockDue - 10) none
        else (edgeOf s l i).absence e) =
        (edgeOf s l i).met e ((s.line l).iface.blockNo + 1) ((s.line l).iface.blockDue - 10) (presence e b) := by
      rw [presence_single hkind]
      split_ifs <;> rfl
    have hacted := declares_put (l := l) (i := i) (e := e) (s := s.at (s.line l).iface.blockDue)
      (fun c hc => absurd (hcad _ hc) (by nofun)) ⟨hread, hwrite⟩ hmean
      ((edgeOf s l i).met e ((s.line l).iface.blockNo + 1) ((s.line l).iface.blockDue - 10) (presence e b)).2 (s.line l) s.link hsub
    rw [← at_eq_put, at_now] at hacted
    dsimp only
    rw [hr]
    generalize (edgeOf s l i).met e _ _ (presence e b) = r at hop hacted ⊢
    refine ⟨_, exec_of_op (c := .blockEnd l b) hop ((put_requests ..).trans hs), ?_, ?_, ?_, ?_⟩
    · rw [edgeOf, put_line, List.getD_eq_getElem?_getD, List.getElem?_set_self hlen]; rfl
    · exact (congrArg State.link hacted).symm
    · rw [put_line, show ({ s with now := (s.line l).iface.blockDue } : State) = s.at (s.line l).iface.blockDue from rfl, hacted, put_line]
    · cases l <;> rfl

end Sys2Proof.Machine
end

section
/-! PROOFS. The levels, the gain and the monitor conditions at the end of a receive block (R21 to R23, R31 to R33). -/

namespace Sys2Proof.Machine

/-! ### Several conditions delivered (R31, R33) -/

/-- A line with the conditions of a list of sources delivered. -/
def LineState.deliverAll (v : MonSource → Bool) (srcs : List MonSource) (x : LineState) : LineState :=
  srcs.foldl (fun x src => x.deliver src (v src)) x

/-- The terminal link with the conditions of a list of sources of a line delivered. -/
def Link.deliverAll (l : Line) (v : MonSource → Bool) : List MonSource → LineState → Link → Link
  | [], _, k => k
  | src :: rest, x, k => Link.deliverAll l v rest (x.deliver src (v src)) (k.deliver l src (v src) x)

section
variable (x : LineState) (src : MonSource) (v : Bool)

theorem deliver_current (a : MonSource) : (x.deliver src v).iface.current.get a = if a = src then v else x.iface.current.get a := by
  split
  next h => rw [h]; exact PerSource.get_set_self ..
  next h => exact PerSource.get_set_other _ h _

theorem deliver_latched (a : MonSource) : (x.deliver src v).iface.latched.get a =
    if a = src then x.iface.latched.get src || (v && !x.iface.current.get src) else x.iface.latched.get a := by
  unfold LineState.deliver
  dsimp only
  split_ifs with hset ha ha
  · rw [ha, PerSource.get_set_self, hset.1, hset.2]; simp
  · exact PerSource.get_set_other _ ha _
  · rw [ha]
    cases v <;> cases h : x.iface.current.get src <;> simp_all
  · rfl

/-- A delivery changes the reported state of its source alone. -/
theorem deliver_reported_other {a : MonSource} (h : a ≠ src) : (x.deliver src v).reported a = x.reported a := by
  simp only [LineState.reported, deliver_current, deliver_latched, if_neg h]
  rfl

end

/-- Deliveries move the monitor states alone. -/
theorem deliverAll_frame (v : MonSource → Bool) (srcs : List MonSource) (x : LineState) : x.deliverAll v srcs = { x with
    iface := { x.iface with
      current := (x.deliverAll v srcs).iface.current, latched := (x.deliverAll v srcs).iface.latched } } := by
  induction srcs generalizing x with
  | nil => rfl
  | cons src rest ih => exact ih _

theorem deliverAll_profile (v : MonSource → Bool) (srcs : List MonSource) (x : LineState) :
    (x.deliverAll v srcs).profile = x.profile := by
  induction srcs generalizing x with
  | nil => rfl
  | cons src rest ih => exact ih _

theorem deliverAll_current (v : MonSource → Bool) : ∀ (srcs : List MonSource) (x : LineState), srcs.Nodup → ∀ a : MonSource,
    (x.deliverAll v srcs).iface.current.get a = (if a ∈ srcs then v a else x.iface.current.get a) ∧
    (x.deliverAll v srcs).iface.latched.get a =
      if a ∈ srcs then x.iface.latched.get a || (v a && !x.iface.current.get a) else x.iface.latched.get a
  | [], x, _, a => ⟨(if_neg List.not_mem_nil).symm, (if_neg List.not_mem_nil).symm⟩
  | src :: rest, x, hnodup, a => by
    obtain ⟨hnot, hrest⟩ := List.nodup_cons.mp hnodup
    obtain ⟨hcur, hlat⟩ := deliverAll_current v rest (x.deliver src (v src)) hrest a
    rw [deliver_current, deliver_latched] at *
    by_cases ha : a = src
    · subst ha
      rw [if_neg hnot, if_pos rfl] at hcur hlat
      rw [if_pos List.mem_cons_self, if_pos List.mem_cons_self]
      exact ⟨hcur, hlat⟩
    · rw [if_neg ha] at hcur hlat
      simp only [List.mem_cons, ha, false_or]
      exact ⟨hcur, by rw [if_neg ha] at hlat; exact hlat⟩

theorem deliverAll_reported_other (v : MonSource → Bool) (srcs : List MonSource) (x : LineState) {a : MonSource} (h : a ∉ srcs) :
    (x.deliverAll v srcs).reported a = x.reported a := by
  induction srcs generalizing x with
  | nil => rfl
  | cons src rest ih =>
    obtain ⟨hne, hrest⟩ := not_or.mp (mt List.mem_cons.mpr h)
    exact (ih _ hrest).trans (deliver_reported_other x src _ hne)

/-- The reports of deliveries: one for each source whose reported state they change. -/
theorem link_deliverAll (l : Line) (v : MonSource → Bool) : ∀ (srcs : List MonSource) (x : LineState) (k : Link), srcs.Nodup →
    Link.deliverAll l v srcs x k = ((srcs.filter fun src => decide ((x.deliverAll v srcs).reported src ≠ x.reported src)).map fun src =>
      Report.monitor l src (x.profile.monitors.get src).cls ((x.deliverAll v srcs).reported src)).foldl (fun k r => k.push r) k
  | [], _, _, _ => rfl
  | src :: rest, x, k, hnodup => by
    obtain ⟨hnot, hrest⟩ := List.nodup_cons.mp hnodup
    have hhead : (x.deliverAll v (src :: rest)).reported src = (x.deliver src (v src)).reported src :=
      deliverAll_reported_other v rest _ hnot
    have htail : ∀ a ∈ rest, ((x.deliver src (v src)).deliverAll v rest).reported a = (x.deliverAll v (src :: rest)).reported a ∧
        (x.deliver src (v src)).reported a = x.reported a :=
      fun a ha => ⟨rfl, deliver_reported_other x src _ fun h => hnot (h ▸ ha)⟩
    rw [Link.deliverAll, link_deliverAll l v rest _ _ hrest, Link.deliver, List.filter_cons, hhead]
    have hfilter : (rest.filter fun a => decide (((x.deliver src (v src)).deliverAll v rest).reported a ≠ (x.deliver src (v src)).reported a)) =
        rest.filter fun a => decide ((x.deliverAll v (src :: rest)).reported a ≠ x.reported a) :=
      List.filter_congr fun a ha => by rw [(htail a ha).1, (htail a ha).2]
    rw [hfilter]
    by_cases h : (x.deliver src (v src)).reported src = x.reported src
    · rw [if_pos h, if_neg (by simp [h])]; rfl
    · rw [if_neg h, if_pos (by simpa using h), List.map_cons, List.foldl_cons, hhead]; rfl

/-- Conditions of a list of sources delivered one after the other. -/
theorem setConditions_put (s : State) (l : Line) (v : MonSource → Bool) (srcs : List MonSource) : ∀ (x : LineState) (k : Link),
    srcs.foldl (fun s src => setCondition l src (v src) s) (s.put l x k) =
      s.put l (x.deliverAll v srcs) (Link.deliverAll l v srcs x k) := by
  induction srcs with
  | nil => exact fun _ _ => rfl
  | cons src rest ih => intro x k; rw [List.foldl_cons, setCondition_put, ih]; rfl

/-- A condition set, cleared, or delivered as it stands. -/
theorem setCondition_cases {p q : Prop} [Decidable p] [Decidable q] (s : State) (l : Line) (x : LineState) (k : Link) (src : MonSource) :
    (if p then setCondition l src true (s.put l x k) else if q then setCondition l src false (s.put l x k) else s.put l x k) =
      setCondition l src (if p then true else if q then false else x.iface.current.get src) (s.put l x k) := by
  split_ifs
  · rfl
  · rfl
  · rw [setCondition_put, LineState.deliver_of_get rfl, Link.deliver_of_get rfl]

/-! ### The end of a block (R22, R23, R32) -/

/-- A line with the level behind the gain, the gain moved, and the counts of GAIN_LIMIT and LEVEL_LOW. -/
def LineState.counted (level : Nat) (x : LineState) : LineState :=
  { x with iface := { x.iface with
    postLevel := level
    gain := if x.expects then agcMove x.iface.gain level x.profile.agcTarget else x.iface.gain
    gainRun := if x.expects then (if agcAtLimit x.iface.gain level x.profile.agcTarget then min 10 (x.iface.gainRun + 1) else 0)
      else x.iface.gainRun
    lowRun := if x.iface.expecting then (if x.iface.preLevel < x.profile.levelFloor then min 3 (x.iface.lowRun + 1) else 0)
      else x.iface.lowRun
    highRun := if x.iface.expecting then
        (if x.profile.levelFloor + x.profile.levelFloor / 4 ≤ x.iface.preLevel then min 3 (x.iface.highRun + 1) else 0)
      else x.iface.highRun } }

/-- The conditions that a block delivers, of a line as counted and the gain before. -/
def LineState.conditions (before clipped : Nat) (y : LineState) : MonSource → Bool
  | .levelLow => if y.iface.expecting = true ∧ y.iface.lowRun = 3 then true
    else if y.iface.expecting = true ∧ y.iface.highRun = 3 then false else y.iface.current.levelLow
  | .clip => decide (4 ≤ clipped)
  | .gainLimit => if y.expects = true ∧ y.iface.gainRun = 10 then true
    else if (before = 0 ∨ before = 72) ∧ y.iface.gain ≠ before then false else y.iface.current.gainLimit
  | .streamSlip => false
  | src => y.iface.current.get src

/-- The sources a block delivers, in its order. -/
def blockSources : List MonSource := [.gainLimit, .levelLow, .clip, .streamSlip]

/-- A line whose counts of LEVEL_LOW have run. -/
def LineState.lowCounted (x : LineState) : LineState :=
  { x with iface := { x.iface with
    lowRun := if x.iface.expecting then (if x.iface.preLevel < x.profile.levelFloor then min 3 (x.iface.lowRun + 1) else 0)
      else x.iface.lowRun
    highRun := if x.iface.expecting then
        (if x.profile.levelFloor + x.profile.levelFloor / 4 ≤ x.iface.preLevel then min 3 (x.iface.highRun + 1) else 0)
      else x.iface.highRun } }

theorem levelLowBlock_put (s : State) (l : Line) (x : LineState) (k : Link) : levelLowBlock l (s.put l x k) =
    setCondition l .levelLow (if x.iface.expecting = true ∧ x.lowCounted.iface.lowRun = 3 then true
      else if x.iface.expecting = true ∧ x.lowCounted.iface.highRun = 3 then false else x.iface.current.levelLow)
      (s.put l x.lowCounted k) := by
  unfold levelLowBlock
  dsimp only
  rw [put_line]
  cases h : x.iface.expecting with
  | false =>
    have hlow : x.lowCounted = x := by unfold LineState.lowCounted; rw [h]; rfl
    have hcur : x.iface.current.get .levelLow = x.iface.current.levelLow := rfl
    simp only [Bool.false_eq_true, if_false, false_and, hlow]
    rw [setCondition_put, LineState.deliver_of_get hcur, Link.deliver_of_get hcur]
  | true =>
    have hlow : modIface l (fun i => { i with
        lowRun := if i.preLevel < x.profile.levelFloor then min 3 (i.lowRun + 1) else 0
        highRun := if x.profile.levelFloor + x.profile.levelFloor / 4 ≤ i.preLevel then min 3 (i.highRun + 1) else 0 }) (s.put l x k) =
        s.put l x.lowCounted k := by
      simp only [modIface_put, LineState.lowCounted, h, if_true]
    simp only [if_true, hlow, put_line, true_and]
    exact setCondition_cases s l x.lowCounted k .levelLow

/-- The gain and the level behind it, with the count of GAIN_LIMIT. -/
def LineState.gained (level : Nat) (x : LineState) : LineState :=
  { x with iface := { x.iface with
    postLevel := level
    gain := if x.expects then agcMove x.iface.gain level x.profile.agcTarget else x.iface.gain
    gainRun := if x.expects then (if agcAtLimit x.iface.gain level x.profile.agcTarget then min 10 (x.iface.gainRun + 1) else 0)
      else x.iface.gainRun } }

theorem agcActive_put (s : State) (l : Line) (x : LineState) (k : Link) : agcActive (s.put l x k) l = x.expects := by
  rw [agcActive, farEndExpected, put_st, put_line]; rfl

theorem gainBlock_put (s : State) (l : Line) (x : LineState) (k : Link) (level : Nat) :
    gainBlock l level (s.put l x k) = s.put l (x.gained level) k := by
  unfold gainBlock
  dsimp only
  rw [agcActive_put, put_line]
  cases h : x.expects <;> simp only [Bool.false_eq_true, if_false, if_true, modIface_put, LineState.gained, h]

theorem gainLimitBlock_put (s : State) (l : Line) (x : LineState) (k : Link) (before : Nat) : gainLimitBlock l before (s.put l x k) =
    setCondition l .gainLimit (if x.expects = true ∧ x.iface.gainRun = 10 then true
      else if (before = 0 ∨ before = 72) ∧ x.iface.gain ≠ before then false else x.iface.current.gainLimit) (s.put l x k) := by
  unfold gainLimitBlock
  dsimp only
  rw [agcActive_put, put_line]
  refine (if_congr and_comm rfl rfl).trans (setCondition_cases s l x k .gainLimit)

/-- The end of a block on a line without streams whose answer watch does not run. -/
theorem blockTail_measures {s : State} {l : Line} {x : LineState} (k : Link) (level clipped : Nat) (hstream : Streamless l s)
    (hwatch : ¬(x.call.st = .progress ∧ x.call.cr.mode = some .voice)) :
    let y := x.counted level
    let v := y.conditions x.iface.gain clipped
    blockTail l level clipped (s.put l x k) = s.put l { y.deliverAll v blockSources with
      iface := { (y.deliverAll v blockSources).iface with slipped := false, blockGain := y.iface.gain } }
      (Link.deliverAll l v blockSources y k) := by
  have hnone : watchBlock l (s.put l x k) = s.put l x k := if_neg (by rw [put_st, put_line]; exact hwatch)
  have hslip (y : LineState) (k : Link) : streamSlip (s.put l y k) l = false := by
    rw [streamSlip, hasStream_of_streamless (hstream.put _ _), Bool.and_false]
  dsimp only
  unfold blockTail
  rw [hnone]
  dsimp only
  rw [put_line, gainBlock_put, gainLimitBlock_put, setCondition_put, levelLowBlock_put, setCondition_put, clipBlock, setCondition_put,
    slipBlock, hslip, setCondition_put, clearSlip, modIface_put, latchGain, modIface_put]
  rfl

/-- What BLOCK_END makes of the two levels and the counts, and what conditions it delivers, by the figures of R23 and R32. -/
theorem agcMove_eq (gain level target : Nat) : agcMove gain level target =
    if target + target / 4 < level then gain - 1 else if level < target - target / 4 then min 72 (gain + 1) else gain := by
  unfold agcMove agcWants
  split_ifs <;> rfl

theorem agcAtLimit_iff (gain level target : Nat) : agcAtLimit gain level target = true ↔
    (target + target / 4 < level ∧ gain = 0 ∨ level < target - target / 4 ∧ ¬target + target / 4 < level ∧ gain = 72) := by
  unfold agcAtLimit agcWants
  split_ifs with h h' <;> simp [*]

/-- The gain and the count of GAIN_LIMIT behind a block, by the figures of R23 and R32. -/
theorem counted_figures (x : LineState) (b : List Sample) :
    let post := ((b.map (gainSample x.iface.blockGain)).map Int.natAbs).sum / 80
    let target := x.profile.agcTarget
    let y := (x.measured b).counted (meanMagnitude (b.map (gainSample x.iface.blockGain)))
    (y.iface.gain = if x.expects = true then
        (if target + target / 4 < post then x.iface.gain - 1 else if post < target - target / 4 then min 72 (x.iface.gain + 1)
          else x.iface.gain)
      else x.iface.gain) ∧
    y.iface.gainRun = if x.expects = true then
        (if target + target / 4 < post ∧ x.iface.gain = 0 ∨ post < target - target / 4 ∧ ¬target + target / 4 < post ∧ x.iface.gain = 72
          then min 10 (x.iface.gainRun + 1) else 0)
      else x.iface.gainRun :=
  ⟨if_congr Iff.rfl (agcMove_eq ..) rfl, if_congr Iff.rfl (if_congr (agcAtLimit_iff ..) rfl rfl) rfl⟩

/-- The counts of LEVEL_LOW behind a block. -/
theorem counted_levels (x : LineState) (b : List Sample) (level : Nat) :
    let pre := ((b.map BitVec.toInt).map Int.natAbs).sum / 80
    let floor := x.profile.levelFloor
    let y := (x.measured b).counted level
    y.iface.lowRun = (if x.iface.expecting = true then (if pre < floor then min 3 (x.iface.lowRun + 1) else 0) else x.iface.lowRun) ∧
    y.iface.highRun =
      (if x.iface.expecting = true then (if floor + floor / 4 ≤ pre then min 3 (x.iface.highRun + 1) else 0) else x.iface.highRun) :=
  ⟨rfl, rfl⟩

theorem detectBlock_blank {s : State} {l : Line} (n start : Nat) (b : List Sample) (ht : ∀ e ∈ s.tones, e = none) :
    detectBlock l n start b s = s := by
  unfold detectBlock
  have hmem : ∀ x ∈ (s.tones.zip (presences (s.st l) b s.tones [])).zipIdx, x.1.1 = none := fun x hx =>
    ht _ (List.of_mem_zip (List.fst_mem_of_mem_zipIdx hx)).1
  generalize (s.tones.zip (presences (s.st l) b s.tones [])).zipIdx = entries at hmem
  induction entries with
  | nil => rfl
  | cons x rest ih =>
    rw [List.foldl_cons, hmem x List.mem_cons_self]
    exact ih fun y hy => hmem y (List.mem_cons_of_mem _ hy)

/-- BLOCK_END on a line without tone entries, voice operation, stream or ring. -/
theorem blockEnd_measures {s : State} {l : Line} (b : List Sample) (ht : ∀ e ∈ s.tones, e = none) (hsub : (s.line l).voice.sub = none)
    (hring : (s.line l).iface.ring = .quiet) (hoff : (s.line l).iface.ringOff = none) (hdue : s.now ≤ (s.line l).iface.blockDue)
    (hstream : Streamless l s) (hwatch : ¬(s.st l = .progress ∧ (s.line l).call.cr.mode = some .voice)) :
    let y := ((s.line l).measured b).counted (meanMagnitude (b.map (gainSample (s.line l).iface.blockGain)))
    let v := y.conditions (s.line l).iface.gain (clipCount b)
    opBlockEnd l b s = (s.at (s.line l).iface.blockDue).put l { y.deliverAll v blockSources with
      iface := { (y.deliverAll v blockSources).iface with slipped := false, blockGain := y.iface.gain } }
      (Link.deliverAll l v blockSources y s.link) := by
  rw [opBlockEnd_eq hdue b, voiceBlock_idle (by rw [put_line]; exact hsub), detectBlock_blank _ _ _ (by rw [put_tones]; exact ht)]
  have hjudge : judgeRing l ((s.at (s.line l).iface.blockDue).put l ((s.line l).measured b) s.link) =
      (s.at (s.line l).iface.blockDue).put l ((s.line l).measured b) s.link := by
    have hr : ((s.line l).measured b).iface.ring = .quiet := hring
    have ho : ((s.line l).measured b).iface.ringOff = none := hoff
    simp only [judgeRing, put_line, hr, ho]
  rw [hjudge]
  exact blockTail_measures (s := s.at (s.line l).iface.blockDue) _ _ _ hstream hwatch

/-- A delivery of a condition, as the line and the terminal link behind it. -/
theorem setCondition_eq_put (s : State) (l : Line) (src : MonSource) (v : Bool) :
    setCondition l src v s = s.put l ((s.line l).deliver src v)
      (if ((s.line l).deliver src v).reported src = (s.line l).reported src then s.link
        else s.link.push (.monitor l src ((s.line l).profile.monitors.get src).cls (((s.line l).deliver src v).reported src))) := by
  conv_lhs => rw [← put_self s l]
  exact setCondition_put ..

/-- The reported state of a source behind a delivery that changes its condition. -/
theorem deliver_reported (x : LineState) (src : MonSource) (v : Bool) (h : x.iface.current.get src ≠ v) :
    (x.deliver src v).reported src = ((x.profile.monitors.get src).enable &&
      if (x.profile.monitors.get src).latchEnable then v || x.iface.latched.get src else v) := by
  have hnot : x.iface.current.get src = !v := by cases v <;> simp_all
  simp only [LineState.reported, deliver_current, deliver_latched, if_true, hnot, Bool.not_not, Bool.and_self, Bool.or_comm v]
  rfl

/-- Settles O28. -/
theorem blockEndMeasuresLevelsAndMovesGain : Obligations.BlockEndMeasuresLevelsAndMovesGain := by
  refine ⟨fun l b s hs ht hsub hring hoff hdue hread hwrite hwatch => ?_, fun l src v s => ?_⟩
  · have hop := blockEnd_measures b ht hsub hring hoff hdue ⟨hread, hwrite⟩ hwatch
    have hactive : (s.line l).expects = decide (s.st l = .train ∨ s.st l = .data ∨ s.st l = .fax) := by
      simp only [LineState.expects, hsub, reduceCtorEq, or_false]
      rfl
    obtain ⟨hgain, hrun⟩ := counted_figures (s.line l) b
    obtain hlow := counted_levels (s.line l) b (meanMagnitude (b.map (gainSample (s.line l).iface.blockGain)))
    rw [hactive] at hgain hrun
    dsimp only at hop hlow ⊢
    generalize hy : ((s.line l).measured b).counted (meanMagnitude (b.map (gainSample (s.line l).iface.blockGain))) = y at hop hgain hrun hlow
    have hexp : y.expects = decide (s.st l = .train ∨ s.st l = .data ∨ s.st l = .fax) := by rw [← hactive, ← hy]; rfl
    have hstates : y.iface.current = (s.line l).iface.current ∧ y.iface.latched = (s.line l).iface.latched ∧
        y.profile = (s.line l).profile := by rw [← hy]; exact ⟨rfl, rfl, rfl⟩
    generalize hv : y.conditions (s.line l).iface.gain (clipCount b) = v at hop
    have hall := deliverAll_current v blockSources y (by decide)
    have hlink := link_deliverAll l v blockSources y s.link (by decide)
    have hframe := deliverAll_frame v blockSources y
    generalize y.deliverAll v blockSources = z at hop hall hlink hframe
    refine ⟨_, exec_of_op (c := .blockEnd l b) hop ((put_requests ..).trans hs), ?_⟩
    have hother (a : MonSource) (ha : a ∉ blockSources) : v a = (s.line l).iface.current.get a := by
      rw [← hv, ← hstates.1]
      cases a <;> first | rfl | exact absurd (by decide) ha
    have hrest : y.iface.expecting = (s.line l).iface.expecting ∧ y.iface.blockNo = (s.line l).iface.blockNo + 1 ∧
        y.iface.blockDue = (s.line l).iface.blockDue + 10 ∧
        y.iface.preLevel = ((b.map BitVec.toInt).map Int.natAbs).sum / 80 ∧
        y.iface.postLevel = ((b.map (gainSample (s.line l).iface.blockGain)).map Int.natAbs).sum / 80 := by
      rw [← hy]; exact ⟨rfl, rfl, rfl, rfl, rfl⟩
    rw [put_line, put_link]
    refine ⟨?_, ?_, ?_, ?_, ?_, ?_, ?_, ?_, ?_, fun src => ?_, ?_, ?_⟩
    · rw [hframe]; exact hrest.2.1
    · rw [hframe]; exact hrest.2.2.1
    · rw [hframe]; exact hrest.2.2.2.1
    · rw [hframe]; exact hrest.2.2.2.2
    · rw [hframe]; exact hgain
    · exact hgain
    · rw [hframe]; exact hlow.1
    · rw [hframe]; exact hlow.2
    · rw [hframe]; exact hrun
    · have hcur : z.iface.current.get src = v src ∧ z.iface.latched.get src =
          ((s.line l).iface.latched.get src || (v src && !(s.line l).iface.current.get src)) := by
        obtain ⟨hc, hl⟩ := hall src
        rw [hc, hl, hstates.1, hstates.2.1]
        by_cases hsrc : src ∈ blockSources
        · rw [if_pos hsrc, if_pos hsrc]; exact ⟨rfl, rfl⟩
        · rw [if_neg hsrc, if_neg hsrc, hother src hsrc]
          exact ⟨rfl, by cases (s.line l).iface.current.get src <;> simp⟩
      have hkey (w : Bool) (h : v src = w) : z.iface.current.get src = w ∧ z.iface.latched.get src =
          ((s.line l).iface.latched.get src || (w && !(s.line l).iface.current.get src)) := h ▸ hcur
      refine hkey _ ?_
      rw [← hv]
      cases src with
      | levelLow => simp only [LineState.conditions, hrest.1, hlow.1, hlow.2, hstates.1]
      | gainLimit => simp only [LineState.conditions, hexp, hrun, hgain, hstates.1]
      | clip => rfl
      | streamSlip => rfl
      | _ => simp only [LineState.conditions, hstates.1]
    · have hreported (src : MonSource) : reportedState ((s.at (s.line l).iface.blockDue).put l { z with
          iface := { z.iface with slipped := false, blockGain := y.iface.gain } } (Link.deliverAll l v blockSources y s.link)) l src =
          z.reported src := reportedState_put ..
      have hbefore (src : MonSource) : reportedState s l src = y.reported src := by
        rw [LineState.reported, hstates.1, hstates.2.1, hstates.2.2]; rfl
      simp only [hreported, hbefore]
      rw [hlink, queueReports_eq, hstates.2.2]
      rfl
    · rw [hframe, ← hy]
      cases l <;> rfl
  · dsimp only
    refine ⟨fun h => ?_, fun h => ?_⟩
    · rw [← put_self s l, setCondition_put, LineState.deliver_of_get h, Link.deliver_of_get h]
    · have hset := setCondition_eq_put s l src v
      have hrep := deliver_reported (s.line l) src v h
      have hbefore : (s.line l).reported src = (((s.line l).profile.monitors.get src).enable &&
          if ((s.line l).profile.monitors.get src).latchEnable then (s.line l).iface.latched.get src else !v) := by
        have hnot : (s.line l).iface.current.get src = !v := by cases v <;> simp_all
        rw [LineState.reported, hnot]
      refine ⟨s.put l ((s.line l).deliver src v) s.link, fun a => ?_, fun a => ?_, ?_, fun hc => ?_, fun hc => ?_⟩
      · rw [put_line, deliver_current]
      · rw [put_line, deliver_latched]
        cases v <;> cases hcur : (s.line l).iface.current.get src <;> simp_all
      · cases l <;> rfl
      · rw [hset, queueReport_put, hrep, hbefore]
        rcases hc with ⟨hen, hle | ⟨rfl, hlat⟩⟩
        · simp [hen, hle]
        · cases hle : ((s.line l).profile.monitors.get src).latchEnable <;> simp [hen, hlat]
      · rw [hset, hrep, hbefore]
        rcases hc with hen | ⟨hle, rfl | hlat⟩
        · simp [hen]
        · simp [hle]
        · simp [hle, hlat]

end Sys2Proof.Machine
end

section
/-! PROOFS. The mailbox table (R179, R180). -/

namespace Sys2Proof.Machine

/-! ### MAILBOX (R179) -/

/-- The refusal of a MAILBOX whose operands are out of range. -/
theorem opMailbox_badParam {index enabled coding : Byte} {greeting limit : Word16} {digits : List Byte} {s : State}
    (h : s.mailboxes[index.toNat]? = none ∨ onOff enabled.toNat = none ∨ mailboxCoding coding = none ∨ digits.length = 0 ∨
      4 < digits.length ∨ digits.all isDtmfChar = false) :
    opMailbox index enabled greeting limit coding digits s = done 0x4D#8 .badParam [] s := by
  unfold opMailbox
  dsimp only
  split
  next hm he hc => exact if_pos (by simpa [hm, he, hc] using h)
  next => rfl

theorem mailboxCoding_of_eq_none {b : Byte} (h : b = 0#8 ∨ 2 < b.toNat) : mailboxCoding b = none := by
  rcases h with rfl | h
  · rfl
  · have : Coding.ofCode b.toNat = none := by unfold Coding.ofCode; split <;> simp_all
    rw [mailboxCoding, this]; rfl

/-- MAILBOX with its operands in range, by its greeting. -/
theorem opMailbox_of_valid {index enabled coding : Byte} {greeting limit : Word16} {digits : List Byte} {s : State} {old : Mailbox}
    {on : Bool} {c : Coding} (hold : s.mailboxes[index.toNat]? = some old) (hon : onOff enabled.toNat = some on)
    (hc : coding = 1#8 ∧ c = .adc4 ∨ coding = 2#8 ∧ c = .adc2) (hlo : 1 ≤ digits.length) (hhi : digits.length ≤ 4)
    (hdigits : digits.all isDtmfChar = true) : opMailbox index enabled greeting limit coding digits s =
      match greetingResult s greeting.toNat with
      | .ok => writeMailbox index.toNat old
        { enabled := on, digits := digits, greeting := if greeting.toNat = 0 then none else some greeting.toNat
          maxLength := clamp 5 600 limit.toNat, coding := c, isNew := old.isNew } (done 0x4D#8 .ok [] s)
      | r => done 0x4D#8 r [] s := by
  have hcoding : mailboxCoding coding = some c := by rcases hc with ⟨rfl, rfl⟩ | ⟨rfl, rfl⟩ <;> rfl
  unfold opMailbox
  rw [hold, hon, hcoding]
  refine if_neg ?_
  rintro (h | h | h)
  · omega
  · omega
  · rw [hdigits] at h; cases h

/-- A greeting that may not be taken. -/
theorem greetingResult_noEntry {s : State} {id : Nat} (hid : id ≠ 0) (hready : s.store.st = .ready)
    (h : findEntry s id = none ∨ ∃ e, findEntry s id = some e ∧ (playable e = false ∨ e.erasePending = true ∨ 255 ≤ e.inUse)) :
    greetingResult s id = .noEntry := by
  rw [greetingResult, if_neg hid, if_neg (by simp [storeReady, hready])]
  rcases h with h | ⟨e, he, h⟩
  · rw [h]
  · rw [he]
    refine if_neg fun ⟨hplay, href⟩ => ?_
    simp only [canRef, he, Bool.and_eq_true, decide_eq_true_eq, Bool.not_eq_true'] at href
    rcases h with h | h | h
    · rw [h] at hplay; cases hplay
    · rw [h] at href; cases href.2
    · omega

theorem playable_closed {e : Entry} (h : playable e = true) : e.state = .closed := by
  simp only [playable, Bool.and_eq_true, decide_eq_true_eq] at h
  exact h.1

/-- A greeting that may be taken. -/
theorem greetingResult_ok {s : State} {id : Nat} (h : id = 0 ∨ s.store.st = .ready ∧ ∃ e, findEntry s id = some e ∧ playable e = true ∧
    e.erasePending = false ∧ e.inUse < 255) : greetingResult s id = .ok := by
  unfold greetingResult
  by_cases hid : id = 0
  · exact if_pos hid
  · obtain ⟨hready, e, he, hplay, hpending, huse⟩ := h.resolve_left hid
    rw [if_neg hid, if_neg (by simp [storeReady, hready]), he]
    exact if_pos ⟨hplay, by simp [canRef, he, playable_closed hplay, hpending, huse]⟩

/-- The reference counts of a message changed in a directory; none changes nothing. -/
def countRefs (id : Option Nat) (f : Nat → Nat) (dir : List Entry) : List Entry :=
  updateWhere (fun e => decide (some e.id = id)) (fun e => { e with inUse := f e.inUse }) dir

theorem countRefs_none (f : Nat → Nat) (dir : List Entry) : countRefs none f dir = dir := by
  simp [countRefs, updateWhere]

theorem modEntry_countRefs (id : Nat) (f : Nat → Nat) (s : State) :
    modEntry id (fun e => { e with inUse := f e.inUse }) s = { s with store := { s.store with dir := countRefs (some id) f s.store.dir } } := by
  simp only [modEntry, modStore, countRefs, Option.some.injEq]

/-- A mailbox's greeting changes while the port is busy, the old one no withdrawn message's last reference. -/
theorem writeMailbox_changes {i : Nat} {old new : Mailbox} {s : State} (hne : old.greeting ≠ new.greeting) (hgrant : s.store.grant ≠ none)
    (hkept : ∀ id, old.greeting = some id → ∃ e, findEntry s id = some e ∧ (e.erasePending = false ∨ 2 ≤ e.inUse)) :
    writeMailbox i old new s = { s with
      mailboxes := s.mailboxes.set i new
      store := { s.store with dir := countRefs old.greeting (· - 1) (countRefs new.greeting (· + 1) s.store.dir) } } := by
  have hreturn {u : State} {id : Nat} (hid : old.greeting = some id) (hu : u.store.grant ≠ none)
      (hdir : u.store.dir = countRefs new.greeting (· + 1) s.store.dir) : storeKick (returnRef id u) =
      { u with store := { u.store with dir := countRefs (some id) (· - 1) u.store.dir } } := by
    obtain ⟨e, he, hk⟩ := hkept id hid
    have hfind : findEntry u id = some e := by
      rw [findEntry, hdir, countRefs]
      refine (find?_updateWhere_other _ _ (fun e : Entry => { e with inUse := e.inUse + 1 }) (fun _ => rfl) (fun x hx => ?_) _).trans he
      have hx' : x.id = id := by simpa using hx
      simp only [decide_eq_false_iff_not, hx', ← hid]
      exact hne
    rw [returnRef_of_kept hfind hk, modEntry_countRefs id (· - 1), storeKick_of_grant (by exact hu)]
  unfold writeMailbox
  dsimp only
  rw [if_neg hne]
  cases hold : old.greeting with
  | none =>
    cases hnew : new.greeting with
    | none => exact absurd (hold.trans hnew.symm) hne
    | some id => rw [countRefs_none]; exact modEntry_countRefs id (· + 1) _
  | some id =>
    cases hnew : new.greeting with
    | none => exact (hreturn hold (by exact hgrant) (by rw [hnew, countRefs_none])).trans (by rw [countRefs_none])
    | some id' =>
      dsimp only
      rw [takeRef, modEntry_countRefs id' (· + 1)]
      exact hreturn hold (by exact hgrant) (by rw [hnew])

/-! ### MAILCLEAR (R180) -/

/-- A count over a list with its places is one over the places. -/
theorem length_filter_zipIdx {α : Type} (p : α × Nat → Bool) (q : Nat → Bool) : ∀ (xs : List α) (n : Nat),
    (∀ i x, xs[i]? = some x → p (x, n + i) = q (n + i)) → ((xs.zipIdx n).filter p).length = ((List.range' n xs.length).filter q).length
  | [], _, _ => rfl
  | x :: rest, n, h => by
    have hrest := length_filter_zipIdx p q rest (n + 1) fun i y hy => by
      have := h (i + 1) y hy
      rwa [← Nat.add_assoc, Nat.add_right_comm] at this
    have hx : p (x, n) = q n := h 0 x rfl
    rw [List.zipIdx_cons, List.length_cons, List.range'_succ, List.filter_cons, List.filter_cons, hx]
    split
    · rw [List.length_cons, List.length_cons, hrest]
    · exact hrest

theorem flagsFound_eq {mailboxes : List Mailbox} (h : mailboxes.length = 8) (set : Byte) : flagsFound mailboxes set =
    ((List.range 8).filter fun i => set.toNat.testBit i && ((mailboxes[i]?).map (·.isNew)).getD false).length := by
  have hcount := length_filter_zipIdx (fun m => m.1.isNew && set.toNat.testBit m.2)
    (fun i => set.toNat.testBit i && ((mailboxes[i]?).map (·.isNew)).getD false) mailboxes 0 fun i m hm => by
      rw [Nat.zero_add, hm]
      exact Bool.and_comm ..
  rw [h, ← List.range_eq_range'] at hcount
  exact hcount

/-- Settles O57. -/
theorem mailboxAndMailclearAct : Obligations.MailboxAndMailclearAct := by
  intro index enabled coding set greeting limit digits s hs hlen
  dsimp only
  have hzero : greeting = 0#16 ↔ greeting.toNat = 0 := ⟨fun h => by rw [h]; rfl, fun h => BitVec.eq_of_toNat_eq h⟩
  have hvalid {old : Mailbox} {on : Bool} {c : Coding} := opMailbox_of_valid (index := index) (enabled := enabled) (coding := coding)
    (greeting := greeting) (limit := limit) (digits := digits) (s := s) (old := old) (on := on) (c := c)
  refine ⟨fun h => ?_, fun old on c hold hon hc hlo hhi hdigits => ⟨fun hg hst => ?_, fun hg hst h => ?_, fun h => ⟨fun hsame => ?_,
    fun hne hgrant hkept => ?_⟩⟩, ?_⟩
  · refine exec_of_op (c := .mailbox index enabled greeting limit coding digits) (opMailbox_badParam ?_) (by simp [hs])
    rcases h with h | h | h | h | h | h | ⟨d, hd, h⟩
    · exact .inl (List.getElem?_eq_none (by omega))
    · exact .inr (.inl (onOff_of_lt h))
    · exact .inr (.inr (.inl (mailboxCoding_of_eq_none (.inl h))))
    · exact .inr (.inr (.inl (mailboxCoding_of_eq_none (.inr h))))
    · exact .inr (.inr (.inr (.inl (by rw [h]; rfl))))
    · exact .inr (.inr (.inr (.inr (.inl h))))
    · exact .inr (.inr (.inr (.inr (.inr (List.all_eq_false.mpr ⟨d, hd, by simp [h]⟩)))))
  · refine exec_of_op (c := .mailbox index enabled greeting limit coding digits) ((hvalid hold hon hc hlo hhi hdigits).trans ?_) (by simp [hs])
    have hr : greetingResult s greeting.toNat = .notReady := by
      rw [greetingResult, if_neg (hzero.not.mp hg), if_pos (by simpa [storeReady] using hst)]
    rw [hr]
  · refine exec_of_op (c := .mailbox index enabled greeting limit coding digits) ((hvalid hold hon hc hlo hhi hdigits).trans ?_) (by simp [hs])
    rw [greetingResult_noEntry (hzero.not.mp hg) hst h]
  · have hop := hvalid hold hon hc hlo hhi hdigits
    rw [greetingResult_ok (h.imp_left hzero.mp)] at hop
    refine exec_of_op (c := .mailbox index enabled greeting limit coding digits) (hop.trans ?_) (by simp [hs])
    simp only [hzero] at hsame ⊢
    rw [done_eq]
    unfold writeMailbox
    dsimp only
    rw [if_pos hsame]
    rfl
  · have hop := hvalid hold hon hc hlo hhi hdigits
    rw [greetingResult_ok (h.imp_left hzero.mp)] at hop
    refine exec_of_op (c := .mailbox index enabled greeting limit coding digits) (hop.trans ?_) (by simp [hs])
    simp only [hzero] at hne ⊢
    rw [done_eq]
    exact writeMailbox_changes hne hgrant fun id hid => (hkept id hid).imp fun e he => ⟨he.1, he.2.2⟩
  · have hfound := flagsFound_eq hlen set
    have hbyte : oneByte (flagsFound s.mailboxes set) = [BitVec.ofNat 8 (flagsFound s.mailboxes set)] := by
      refine oneByte_of_lt (Nat.lt_of_le_of_lt ?_ (by decide : 8 < 256))
      rw [hfound]
      exact (List.length_filter_le _ _).trans (by simp)
    have hop : opMailclear set s = { s with
        link := s.link.push (.done 0x63#8 .ok (oneByte (flagsFound s.mailboxes set)))
        mailboxes := s.mailboxes.zipIdx.map fun m => if set.toNat.testBit m.2 then { m.1 with isNew := false } else m.1 } := done_eq ..
    refine ⟨_, exec_of_op (c := .mailclear set) hop hs, fun i m hm => ?_, ?_, rfl⟩
    · simp only [List.getElem?_map, List.getElem?_zipIdx, hm, Option.map_some, Nat.zero_add]
      cases set.toNat.testBit i <;> simp
    · rw [← hfound, ← hbyte, done_eq]

end Sys2Proof.Machine
end

section
/-! PROOFS. RESET TABLES (R19, R33, R62, R192). -/

namespace Sys2Proof.Machine

theorem reportedState_withLink (s : State) (k : Link) (l : Line) (src : MonSource) :
    reportedState { s with link := k } l src = reportedState s l src := by cases l <;> rfl

theorem monitorReport_withLink (s : State) (k : Link) (l : Line) (src : MonSource) :
    monitorReport { s with link := k } l src = monitorReport s l src := by cases l <;> rfl

/-- The MONITOR reports of a list of sources whose reported states differ from earlier ones. -/
theorem monitorChanges_eq (before : MonSource → Bool) (l : Line) (srcs : List MonSource) : ∀ s : State,
    srcs.foldl (fun s src => monitorChange (before src) l src s) s =
      queueReports ((srcs.filter fun src => decide (before src ≠ reportedState s l src)).map (monitorReport s l)) s := by
  induction srcs with
  | nil => exact fun _ => rfl
  | cons src rest ih =>
    intro s
    rw [List.foldl_cons, ih, List.filter_cons]
    by_cases h : reportedState s l src = before src
    · rw [monitorChange, if_pos h, if_neg (by simp [h])]
    · have hmap (k : Link) : (monitorReport { s with link := k } l) = monitorReport s l := funext fun a => monitorReport_withLink s k l a
      rw [monitorChange, if_neg h, if_pos (by simpa using Ne.symm h), List.map_cons, queueReports_cons, queueReport_eq]
      simp only [reportedState_withLink, hmap]

/-- Under the default monitor settings the reported state of a source is its current state. -/
theorem reported_of_default {x : LineState} (h : x.profile = defaultProfile) (src : MonSource) : x.reported src = x.iface.current.get src := by
  rw [LineState.reported, h]
  cases src <;> rfl

theorem reportedState_eq (s : State) (l : Line) (src : MonSource) : reportedState s l src = (s.line l).reported src := rfl

/-- A line with the default profile. -/
def LineState.defaulted (x : LineState) : LineState := { x with profile := defaultProfile }

/-- The MONITOR reports of a line whose profile has become the default one. -/
def tablesReports (s : State) (l : Line) : List Report :=
  (monSources.filter fun src => decide ((s.line l).reported src ≠ (s.line l).iface.current.get src)).map fun src =>
    .monitor l src (defaultProfile.monitors.get src).cls ((s.line l).iface.current.get src)

theorem tablesMonitors_eq {s u : State} {l : Line} (h : u.line l = (s.line l).defaulted) :
    tablesMonitors l s u = queueReports (tablesReports s l) u := by
  have hrep (src : MonSource) : reportedState u l src = (s.line l).iface.current.get src := by
    rw [reportedState_eq, h]; exact reported_of_default rfl src
  rw [tablesMonitors, monitorChanges_eq (fun src => reportedState s l src), tablesReports]
  simp only [hrep, reportedState_eq]
  congr 2
  funext src
  rw [monitorReport, hrep, h]
  rfl

/-- A line's part behind RESET TABLES. -/
def LineState.tablesReset (now : Nat) (x : LineState) : LineState :=
  { x with
    profile := defaultProfile
    modem := initialModem
    det := { x.det with edges := List.replicate 24 readyEdge, aligns := List.replicate 8 (emptyAlign now) } }

/-- RESET TABLES on an idle part whose mailboxes name no greeting. -/
theorem opResetTables_eq {s : State} (hidle : ∀ l, s.st l = .idle) (hgreet : ∀ m ∈ s.mailboxes, m.greeting = none) :
    opResetTables s = { s with
      link := (queueReports (tablesReports s .A ++ tablesReports s .B) (done 0x5A#8 .ok [] s)).link
      tones := defaultTones, cadences := defaultCadences, screen := List.replicate 32 none, ladder := defaultLadder
      mailboxes := s.mailboxes.zipIdx.map fun m => mailboxDefault m.2 m.1
      lineA := s.lineA.tablesReset s.now, lineB := s.lineB.tablesReset s.now } := by
  have hstart : ¬(s.st .A ≠ .idle ∨ s.st .B ≠ .idle) := by simp [hidle]
  have hprofiles : modProfile .B (fun _ => defaultProfile) (modProfile .A (fun _ => defaultProfile) (done 0x5A#8 .ok [] s)) = { s with
      link := s.link.push (.done 0x5A#8 .ok []), lineA := s.lineA.defaulted, lineB := s.lineB.defaulted } := by rw [done_eq]; rfl
  have hnone : s.mailboxes.filterMap (·.greeting) = [] := List.filterMap_eq_nil_iff.mpr hgreet
  unfold opResetTables
  rw [if_neg hstart]
  dsimp only
  rw [hprofiles, tablesMonitors_eq (l := .A) rfl, queueReports_eq, tablesMonitors_eq (l := .B) rfl, queueReports_eq]
  rw [queueReports_eq, done_eq, List.foldl_append, mailboxTables]
  exact congrArg (List.foldl (fun s id => storeKick (returnRef id s)) _) hnone

/-- Settles O17. -/
theorem resetTablesRestoresDefaults : Obligations.ResetTablesRestoresDefaults := by
  intro s hs
  refine ⟨fun ⟨l, h⟩ => ?_, fun hidle hgreet => ?_⟩
  · refine exec_of_op (c := .resetTables) (if_pos ?_) (by simp [hs])
    cases l
    · exact .inl h
    · exact .inr h
  · have hop := opResetTables_eq hidle hgreet
    refine ⟨_, exec_of_op (c := .resetTables) hop hs, rfl, rfl, rfl, rfl, fun i m hm => ?_, rfl, rfl, rfl, rfl, rfl, ?_⟩
    · simp only [List.getElem?_map, List.getElem?_zipIdx, hm, Option.map_some, Nat.zero_add]
      rfl
    · have hframe : ∀ (rs : List Report) (k : Link), (rs.foldl (fun k r => k.push r) k).target = k.target ∧
          (rs.foldl (fun k r => k.push r) k).discard = k.discard ∧ (rs.foldl (fun k r => k.push r) k).parser = k.parser ∧
          (rs.foldl (fun k r => k.push r) k).rate = k.rate ∧ (rs.foldl (fun k r => k.push r) k).dayClock = k.dayClock ∧
          (rs.foldl (fun k r => k.push r) k).seconds = k.seconds := by
        intro rs
        induction rs with
        | nil => exact fun _ => ⟨rfl, rfl, rfl, rfl, rfl, rfl⟩
        | cons r rest ih => intro k; simpa using ih (k.push r)
      obtain ⟨htarget, hdiscard, hparser, hrate, hclock, hseconds⟩ := hframe
        (.done 0x5A#8 .ok [] :: (tablesReports s .A ++ tablesReports s .B)) s.link
      rw [queueReports_eq, done_eq]
      refine ⟨htarget, hdiscard, hparser, hrate, hclock, hseconds, ?_, ?_⟩
      · dsimp only
        rw [queueReports_eq]
        rfl
      · rintro (_ | _) <;> exact ⟨rfl, rfl, rfl, rfl, rfl, rfl, rfl, rfl⟩

end Sys2Proof.Machine
end

section
/-! PROOFS. FORMAT and STORESET (R136, R142, R155, R156). -/

namespace Sys2Proof.Machine

/-! ### The memory port without streams -/

/-- No stream stands at the memory port. -/
def Portless (s : State) : Prop :=
  s.store.writers = [] ∧ s.store.readA = none ∧ s.store.readB = none ∧ s.store.readHost = none

section
variable {s : State}

theorem writeReq_of_no_writers (h : s.store.writers = []) (o : Owner) : writeReq s o = none := by
  rw [writeReq, h]; rfl

theorem readReq_of_none {o : Owner} (h : readerOf s o = none) : readReq s o = none := by rw [readReq, h]

theorem Portless.lineReq (h : Portless s) (l : Line) : lineReq s l = none := by
  obtain ⟨hw, ha, hb, -⟩ := h
  have hr : readerOf s (.line l) = none := by cases l <;> assumption
  rw [Machine.lineReq, writeReq_of_no_writers hw, readReq_of_none hr]; rfl

theorem Portless.lineClass (h : Portless s) : lineClass s = none := by
  rw [Machine.lineClass, h.lineReq, h.lineReq]; rfl

theorem Portless.hostClass (h : Portless s) : hostClass s = none := by
  rw [Machine.hostClass, writeReq_of_no_writers h.1, readReq_of_none (o := .host) h.2.2.2]
  exact ite_self none

/-- Without streams the free port takes the first maintenance request. -/
theorem storeKick_of_maint (h : Portless s) (hg : s.store.grant = none) {m : Maint} {rest : List Maint}
    (hm : s.store.maint = m :: rest) :
    storeKick s = { s with store := { s.store with maint := rest, grant := some (.maint m) } } := by
  simp only [storeKick, storeKickFuel, hg, h.lineClass, h.hostClass, hm]
  rfl

/-- Without any request the port stays as it is. -/
theorem storeKick_of_portless (h : Portless s) (hm : s.store.maint = []) : storeKick s = s := by
  simp only [storeKick, storeKickFuel, h.lineClass, h.hostClass, hm]
  exact ite_self s

end

/-! ### FORMAT (R142) -/

section
variable {s : State} {raw : List RegionParams} {regions : List Region}

theorem opFormat_notReady (h : s.store.st = .scanning ∨ s.store.st = .formatting) :
    opFormat raw s = done 0x67#8 .notReady [] s := if_pos h

theorem opFormat_of_ready (h : s.store.st = .ready ∨ s.store.st = .unformatted) : opFormat raw s =
    match formatTable raw with
    | none => done 0x67#8 .badParam [] s
    | some regions =>
      if formatBlocked s then done 0x67#8 .inUse [] s
      else startFormat regions (done 0x67#8 .ok (numBytes 2 (presentSegments regions).length) s) := by
  refine (if_neg ?_).trans rfl
  rcases h with h | h <;> simp [h]

theorem formatBlocked_of (h : s.jobs ≠ [] ∨ ∃ e ∈ s.store.dir, e.state = .opened ∨ 0 < e.inUse) : formatBlocked s = true := by
  rw [formatBlocked, Bool.or_eq_true]
  rcases h with hj | ⟨e, hmem, he⟩
  · exact .inr (by simpa using hj)
  · exact .inl (List.any_eq_true.mpr ⟨e, hmem, decide_eq_true he⟩)

theorem formatBlocked_of_free (hj : s.jobs = []) (h : ∀ e ∈ s.store.dir, e.state ≠ .opened ∧ e.inUse = 0) :
    formatBlocked s = false := by
  rw [formatBlocked, hj, Bool.or_eq_false_iff]
  refine ⟨List.any_eq_false.mpr fun e he => ?_, rfl⟩
  obtain ⟨hst, huse⟩ := h e he
  simp [hst, huse]

/-- The start of a format: the free port takes the first of its writes, that of the label. -/
theorem startFormat_eq (regions : List Region) (ha : s.store.readA = none) (hb : s.store.readB = none)
    (hh : s.store.readHost = none) (hg : s.store.grant = none) : startFormat regions s = { s with
      mailboxes := s.mailboxes.map fun m => { m with isNew := false }
      store := { s.store with
        st := .formatting, regions := regions, free := [], dir := [], unheard := [], nextId := 1, creation := 0
        formatCount := if s.store.formatCount < 65535 then s.store.formatCount + 1 else 0
        writers := [], waiting := [], grant := some (.maint (.label false))
        maint := (presentSegments regions).map (fun g => Maint.freeHeader g .format) ++ [.label true] } } := by
  rw [startFormat]
  exact storeKick_of_maint ⟨rfl, by exact ha, by exact hb, by exact hh⟩ (by exact hg) rfl

end

/-! ### The last label write (R142) -/

/-- The store enters READY with no job to dispatch. -/
theorem finish_enterReady {s : State} (hs : s.requests = []) (hj : s.jobs = []) : finish (enterReady s) =
    queueReport (.store .ready s.store.dir.length) { s with store := { s.store with st := .ready, scan := none } } :=
  finish_askDispatch (by simp [modStore, hs]) fun l _ => dispatchLine_of_no_jobs l (by simp [modStore, hj])

/-- The write that ends a format: the label is there, and the store is READY. -/
theorem opLabelWriteComplete_last {s : State} (h : portQuiet s) (hg : s.store.grant = some (.maint (.label true))) :
    opLabelWriteComplete s = enterReady { s with store := { s.store with
      grant := none, memory := Memory.writeBytes s.store.memory 0 (labelBytes true s.store.regions s.store.formatCount) } } := by
  obtain ⟨hw, ha, hb, hh, hm, -⟩ := h
  rw [opLabelWriteComplete, hg]
  exact storeKick_of_portless (by simp [Portless, enterReady, modStore, post, hw, ha, hb, hh])
    (by simp [enterReady, modStore, post, hm])

/-! ### STORESET (R156) -/

theorem FullPolicy.ofCode_of_lt {n : Nat} (h : 1 < n) : FullPolicy.ofCode n = none := by
  unfold FullPolicy.ofCode; split <;> first | omega | rfl

theorem OrderMode.ofCode_of_lt {n : Nat} (h : 1 < n) : OrderMode.ofCode n = none := by
  unfold OrderMode.ofCode; split <;> first | omega | rfl

section
variable {s : State} {a b c d : Byte}

theorem opStoreset_notReady (h : s.store.st ≠ .ready) : opStoreset a b c d s = done 0x73#8 .notReady [] s :=
  if_pos (decide_eq_false h)

theorem opStoreset_badParam (h : s.store.st = .ready) (hbd : 1 < b.toNat ∨ 1 < d.toNat) :
    opStoreset a b c d s = done 0x73#8 .badParam [] s := by
  rw [opStoreset, if_neg (by simp [storeReady, h])]
  rcases hbd with hb | hd
  · rw [FullPolicy.ofCode_of_lt hb]
  · rw [OrderMode.ofCode_of_lt hd]; cases FullPolicy.ofCode b.toNat <;> rfl

/-- STORESET accepted; a watermark already reached is reported behind the DONE. -/
theorem opStoreset_of_valid {p : FullPolicy} {o : OrderMode} (h : s.store.st = .ready)
    (hp : FullPolicy.ofCode b.toNat = some p) (ho : OrderMode.ofCode d.toNat = some o) {written : State}
    (hw : written = { done 0x73#8 .ok [] s with store := { s.store with settings := ⟨a.toNat, p, min 96 c.toNat, o⟩ } }) :
    opStoreset a b c d s = if min 96 c.toNat ≠ 0 ∧ min 96 c.toNat ≤ s.store.unheard.length
      then queueReport (.store .watermark s.store.unheard.length) written else written := by
  rw [opStoreset, if_neg (by simp [storeReady, h]), hp, ho, hw]
  simp only [done_eq, modStore]

end

/-- Settles O50: FORMAT by its checks, the last label write, and STORESET by its checks and its watermark. -/
theorem formatAndStoresetAct : Obligations.FormatAndStoresetAct := by
  intro raw a b c d s hs st
  refine ⟨fun hst => ?_, fun hst => ⟨fun hbad => ?_, fun regions htab huse => ?_,
    fun regions htab hj hdir ha hb hh hg => ?_⟩, fun hq hg hj => ⟨?_, fun hwf x hx => ?_⟩, fun hst => ?_, fun hst hbd => ?_,
    fun policy order hst hp ho => ?_⟩
  · exact exec_of_op (opFormat_notReady hst) (by simp [hs])
  · exact exec_of_op ((opFormat_of_ready hst).trans (by rw [hbad])) (by simp [hs])
  · exact exec_of_op ((opFormat_of_ready hst).trans (by rw [htab]; exact if_pos (formatBlocked_of huse))) (by simp [hs])
  · refine exec_of_op ((opFormat_of_ready hst).trans ?_) (by simp [hs])
    rw [htab]
    simp only [formatBlocked_of_free hj hdir, Bool.false_eq_true, if_false, done_eq]
    exact startFormat_eq regions (by exact ha) (by exact hb) (by exact hh) (by exact hg)
  · exact (exec_finish (c := .labelWriteComplete) (opLabelWriteComplete_last hq hg)).trans (congrArg _ (finish_enterReady hs hj))
  · exact Memory.read_writeBytes_outside _ _ hwf _ _ (.inr (by omega))
  · exact exec_of_op (opStoreset_notReady hst) (by simp [hs])
  · exact exec_of_op (opStoreset_badParam hst hbd) (by simp [hs])
  · have hp' : FullPolicy.ofCode b.toNat = some policy := by rcases hp with ⟨rfl, rfl⟩ | ⟨rfl, rfl⟩ <;> rfl
    have ho' : OrderMode.ofCode d.toNat = some order := by rcases ho with ⟨rfl, rfl⟩ | ⟨rfl, rfl⟩ <;> rfl
    have hop := opStoreset_of_valid (a := a) (c := c) hst hp' ho' rfl
    refine ⟨fun h => ?_, fun hc h => ?_⟩
    · refine exec_of_op (hop.trans (if_neg ?_)) (by simp [hs])
      rcases h with rfl | h
      · simp
      · exact fun ⟨_, hle⟩ => absurd hle (by exact Nat.not_le.mpr h)
    · refine exec_of_op (hop.trans (if_pos ⟨?_, h⟩)) (by simp [hs])
      have : c.toNat ≠ 0 := fun hz => hc (BitVec.eq_of_toNat_eq hz)
      omega

end Sys2Proof.Machine
end

section
/-! PROOFS. The host streams: OPEN, CLOSE, READ, the bytes of a host write, and the end of a close (R147, R149 to R151, R155). -/

namespace Sys2Proof.Machine

/-! ### Writing streams, by message -/

/-- A changed writing stream is found as it was changed. -/
theorem findWriter_modWriter (id : Nat) {f : WStream → WStream} (hf : ∀ w, (f w).id = w.id) (s : State) :
    findWriter (modWriter id f s) id = (findWriter s id).map f :=
  find?_updateWhere _ _ (fun w => by rw [hf]) _

theorem updateWhere_singleton {α : Type} {p : α → Bool} (f : α → α) {x : α} (h : p x = true) : updateWhere p f [x] = [f x] := by
  rw [updateWhere, List.map_cons, if_pos h]; rfl

/-- A change of the only writing stream. -/
theorem modWriter_single {s : State} {w : WStream} (f : WStream → WStream) (h : s.store.writers = [w]) :
    modWriter w.id f s = { s with store := { s.store with writers := [f w] } } := by
  have hp : (fun x : WStream => decide (x.id = w.id)) w = true := decide_eq_true rfl
  rw [modWriter, modStore, h, updateWhere_singleton f hp]

theorem findWriter_single {s : State} {w : WStream} (h : s.store.writers = [w]) : findWriter s w.id = some w := by
  simp [findWriter, h]

theorem lholdLeft_other {s : State} {t : Target} (h : s.link.target ≠ t) : lholdLeft t s = s := by
  unfold lholdLeft; split
  · exact if_neg fun hc => h hc.1
  · rfl

/-! ### The steps of a close (R147) -/

section
variable {s : State} {id : Nat} {w : WStream} {e : Entry} {c : Closing}

/-- While a write is still to be made, or the copy has been asked for, the close waits. -/
theorem progressClose_waits (hw : findWriter s id = some w) (he : findEntry s id = some e) (hc : w.closing = some c)
    (h : w.handed ≠ none ∨ c.copyAsked = true) : progressClose id s = s := by
  rw [progressClose, hw, he]
  dsimp only
  rw [hc]
  refine if_neg fun ⟨_, hasked, hhanded⟩ => ?_
  rcases h with h | h
  · exact h hhanded
  · rw [h] at hasked; cases hasked

/-- The bytes still in the buffer become the next segment. -/
theorem progressClose_hands (hw : findWriter s id = some w) (he : findEntry s id = some e) (hc : w.closing = some c)
    (hcut : w.cut = .none) (hasked : c.copyAsked = false) (herase : c.erase = false) (hhanded : w.handed = none)
    (hfill : w.filling ≠ []) : progressClose id s = modWriter id (fun w => { w with
      handed := some (w.filling.take (segCapacity w.seq)), filling := w.filling.drop (segCapacity w.seq) }) s := by
  rw [progressClose, hw, he]
  dsimp only
  rw [hc]
  exact (if_pos ⟨hcut, hasked, hhanded⟩).trans ((if_neg (by simp [herase])).trans (if_pos hfill))

/-- With all bytes written the rewrite of the copy is asked for. -/
theorem progressClose_asks (hw : findWriter s id = some w) (he : findEntry s id = some e) (hc : w.closing = some c)
    (hcut : w.cut = .none) (hasked : c.copyAsked = false) (herase : c.erase = false) (hhanded : w.handed = none)
    (hfill : w.filling = []) (hchain : e.chain ≠ []) :
    progressClose id s = modStore (fun t => { t with maint := t.maint ++ [.copyRewrite id] })
      (modWriter id (fun w => { w with closing := some { c with copyAsked := true } }) s) := by
  rw [progressClose, hw, he]
  dsimp only
  rw [hc]
  exact (if_pos ⟨hcut, hasked, hhanded⟩).trans ((if_neg (by simp [herase])).trans
    ((if_neg (by simp [hfill])).trans (if_neg hchain)))

end

/-! ### OPEN (R149) -/

section
variable {s : State} {k c b : Byte} {m : Word16} {o : Word32}

theorem opOpen_notReady (h : s.store.st ≠ .ready) : opOpen k c s = done 0x4F#8 .notReady [] s := if_pos (decide_eq_false h)

theorem MsgKind.ofCode_of_lt {n : Nat} (h : 2 < n) : MsgKind.ofCode n = none := by
  unfold MsgKind.ofCode; split <;> first | omega | rfl

theorem Coding.ofCode_of_lt {n : Nat} (h : 2 < n) : Coding.ofCode n = Option.none := by
  unfold Coding.ofCode; split <;> first | omega | rfl

theorem Coding.ofCode_eq_none_string {n : Nat} (h : Coding.ofCode n = some .none) : n = 0 := by
  unfold Coding.ofCode at h; split at h <;> simp_all

theorem opOpen_badParam (h : s.store.st = .ready)
    (hbad : k = 0#8 ∧ c = 0#8 ∨ k = 1#8 ∧ c ≠ 0#8 ∨ 2 < k.toNat ∨ 2 < c.toNat) : opOpen k c s = done 0x4F#8 .badParam [] s := by
  rw [opOpen, if_neg (by simp [storeReady, h])]
  rcases hbad with ⟨rfl, rfl⟩ | ⟨rfl, hc⟩ | hk | hc
  · rfl
  · cases hcode : Coding.ofCode c.toNat with
    | none => rfl
    | some coding =>
      refine if_pos (decide_eq_false fun hnone => hc ?_)
      exact BitVec.eq_of_toNat_eq (Coding.ofCode_eq_none_string (hnone ▸ hcode))
  · rw [MsgKind.ofCode_of_lt hk]
  · rw [Coding.ofCode_of_lt hc]; cases MsgKind.ofCode k.toNat <;> rfl

/-- OPEN with its operands in range, by the checks that are left. -/
theorem opOpen_of_valid {kind : MsgKind} {coding : Coding} (h : s.store.st = .ready) (hk : MsgKind.ofCode k.toNat = some kind)
    (hc : Coding.ofCode c.toNat = some coding) (hagree : kindCodingAgree kind coding = true) : opOpen k c s =
      if (hostWriter s).isSome then done 0x4F#8 .busy [] s
      else if 96 ≤ s.store.dir.length then done 0x4F#8 .tableFull [] s
      else if s.store.free.length ≤ s.store.settings.reserve then done 0x4F#8 .storeFull [] s
      else lholdLeft .store (done 0x4F#8 .ok (numBytes 2 (freshId s))
        (modStore (fun t => { t with hostFail := false }) (createMessage .host kind none coding s))) := by
  rw [opOpen, if_neg (by simp [storeReady, h]), hk, hc]
  exact if_neg (by simp [hagree])

/-! ### CLOSE and READ: their refusals (R150, R151) -/

theorem opClose_hostFail (h : s.store.st = .ready) (hf : s.store.hostFail = true) : opClose s = done 0x57#8 .storeFull [] s := by
  rw [opClose, if_neg (by simp [storeReady, h]), if_pos hf]

theorem opClose_unopened (h : s.store.st = .ready) (hf : s.store.hostFail = false) (hw : activeWriter s .host = none) :
    opClose s = done 0x57#8 .badState [] s := by
  rw [opClose, if_neg (by simp [storeReady, h]), if_neg (by simp [hf]), hw]

theorem opClose_of_ready {w : WStream} (h : s.store.st = .ready) (hf : s.store.hostFail = false)
    (hw : activeWriter s .host = some w) {e : Entry} (he : findEntry s w.id = some e) : opClose s =
      if e.length = 0 then removeEntry w.id (removeWriter w.id (done 0x57#8 .ok (numBytes 4 e.length) s))
      else lholdLeft .store (closeMessageAs w.id (.byRelease .host) false 0 (done 0x57#8 .ok (numBytes 4 e.length) s)) := by
  rw [opClose, if_neg (by simp [storeReady, h]), if_neg (by simp [hf]), hw]
  simp only [he]
  rfl

theorem opRead_zero (h : s.store.st = .ready) : opRead 0#16 o s =
    if s.store.readHost.isSome then done 0x52#8 .ok [0#8, 0#8, 0#8, 0#8] (stopHostRead s) else done 0x52#8 .noEntry [] s := by
  rw [opRead, if_neg (by simp [storeReady, h])]; rfl

theorem toNat_ne_zero (h : m ≠ 0#16) : m.toNat ≠ 0 := fun hz => h (BitVec.eq_of_toNat_eq hz)

theorem opRead_busy (h : s.store.st = .ready) (hm : m ≠ 0#16) (hr : s.store.readHost ≠ none) :
    opRead m o s = done 0x52#8 .busy [] s := by
  rw [opRead, if_neg (by simp [storeReady, h]), if_neg (toNat_ne_zero hm), if_pos (Option.isSome_iff_ne_none.mpr hr)]

theorem opRead_unfound (h : s.store.st = .ready) (hr : s.store.readHost = none) (hm : m = 0#16 ∨ findEntry s m.toNat = none) :
    opRead m o s = done 0x52#8 .noEntry [] s := by
  rcases hm with rfl | hm
  · rw [opRead_zero h, if_neg (by simp [hr])]
  · rw [opRead, if_neg (by simp [storeReady, h])]
    refine (ite_congr rfl (fun _ => if_neg (by simp [hr])) fun _ => (if_neg (by simp [hr])).trans (by rw [hm])).trans (ite_self _)

/-- READ of a message that is there, while no read goes on. -/
theorem opRead_of_found {e : Entry} (h : s.store.st = .ready) (hr : s.store.readHost = none) (hm : m ≠ 0#16)
    (he : findEntry s m.toNat = some e) : opRead m o s =
      if e.state ≠ .closed ∨ e.erasePending then done 0x52#8 .noEntry [] s
      else if e.length < o.toNat then done 0x52#8 .badParam [] s
      else if canRef s e.id = false then done 0x52#8 .noEntry [] s
      else if e.length = o.toNat then done 0x52#8 .ok (numBytes 4 (e.length - o.toNat)) s
      else openReader .host e.id o.toNat e.length (takeRef e.id (done 0x52#8 .ok (numBytes 4 (e.length - o.toNat)) s)) := by
  rw [opRead, if_neg (by simp [storeReady, h]), if_neg (toNat_ne_zero hm), if_neg (by simp [hr]), he]

theorem canRef_of {e : Entry} {id : Nat} (he : findEntry s id = some e) (hst : e.state = .closed) (herase : e.erasePending = false)
    (huse : e.inUse < 255) : canRef s id = true := by
  simp [canRef, he, hst, herase, huse]

theorem canRef_full {e : Entry} {id : Nat} (he : findEntry s id = some e) (huse : e.inUse = 255) : canRef s id = false := by
  simp [canRef, he, huse]

/-- READ of a message that may not be referenced. -/
theorem opRead_refused {e : Entry} (h : s.store.st = .ready) (hr : s.store.readHost = none) (he : findEntry s m.toNat = some e)
    (hbad : e.state ≠ .closed ∨ e.erasePending = true ∨ e.id = m.toNat ∧ e.inUse = 255 ∧ o.toNat ≤ e.length) :
    opRead m o s = done 0x52#8 .noEntry [] s := by
  by_cases hm : m = 0#16
  · exact opRead_unfound h hr (.inl hm)
  rw [opRead_of_found h hr hm he]
  by_cases hfirst : e.state ≠ .closed ∨ e.erasePending = true
  · exact if_pos hfirst
  obtain ⟨hid, huse, hlen⟩ := (hbad.resolve_left fun h => hfirst (.inl h)).resolve_left fun h => hfirst (.inr h)
  rw [if_neg hfirst, if_neg (by omega), if_pos (canRef_full (by rw [hid]; exact he) huse)]

/-- READ of a message of which bytes are to come opens the stream, the port being busy. -/
theorem opRead_opens {e : Entry} (h : s.store.st = .ready) (hr : s.store.readHost = none) (hm : m ≠ 0#16)
    (he : findEntry s m.toNat = some e) (hst : e.state = .closed) (herase : e.erasePending = false) (hlen : o.toNat < e.length)
    (huse : e.inUse < 255) (hg : s.store.grant ≠ none) : opRead m o s =
      setReader .host (some { id := e.id, position := o.toNat, length := e.length, buffers := []
                              nextSeq := seqOf o.toNat, ready := false, region := none, tag := s.store.nextTag })
        (modStore (fun t => { t with nextTag := t.nextTag + 1 })
          (takeRef e.id (done 0x52#8 .ok (numBytes 4 (e.length - o.toNat)) s))) := by
  rw [opRead_of_found h hr hm he, if_neg (by simp [hst, herase]), if_neg (by omega),
    if_neg (by simp [canRef_of ((findEntry_id he).symm ▸ he) hst herase huse]), if_neg (by omega), done_eq]
  exact storeKick_of_grant hg

/-- The read in progress stops, the port being busy. -/
theorem stopHostRead_eq {r : RStream} {e : Entry} (hr : s.store.readHost = some r) (hg : s.store.grant ≠ none)
    (he : findEntry s r.id = some e) (hkept : e.erasePending = false ∨ 2 ≤ e.inUse) :
    stopHostRead s = modEntry r.id (fun e => { e with inUse := e.inUse - 1 }) (setReader .host none (staleSource .hostRead s)) :=
  closeReader_of_kept (s := staleSource .hostRead s) (o := .host) hr hg he hkept

/-- Beside an engaged arbiter a report joins the queue or is lost. -/
theorem Link.push_sending_of_busy (r : Report) {k : Link} (h : k.sending ≠ .idle) : (k.push r).sending = k.sending := by
  unfold Link.push
  split
  · rw [if_neg fun hc => h hc.1]
  · rfl

/-- The unit under way does not matter to a report that is queued beside it. -/
theorem Link.push_withSending (r : Report) {k : Link} {x : Sending} (h : k.sending ≠ .idle) (hx : x ≠ .idle) :
    ({ k with sending := x } : Link).push r = { k.push r with sending := x } := by
  unfold Link.push
  dsimp only
  split
  · rw [if_neg fun hc => hx hc.1, if_neg fun hc => h hc.1]
  · rfl

/-- The stop of a read makes the unit under way stale and keeps the arbiter engaged. -/
theorem done_staleSource (code : Byte) (r : Result) (vs : List Byte) (src : Source) (h : s.link.sending ≠ .idle) :
    done code r vs (staleSource src s) = staleSource src (done code r vs s) := by
  have hx : (staleSource src s).link.sending ≠ .idle := by
    simp only [staleSource, modLink]
    cases hs : s.link.sending with
    | idle => exact absurd hs h
    | _ => simp
  simp only [done_eq]
  simp only [staleSource, modLink, Link.push_sending_of_busy _ h] at hx ⊢
  rw [Link.push_withSending _ h hx]

/-- The answer of READ behind the stop of the read in progress. -/
theorem done_stopHostRead {r : RStream} {e : Entry} {code : Byte} {result : Result} {vs : List Byte} (hr : s.store.readHost = some r)
    (hg : s.store.grant ≠ none) (hbusy : s.link.sending ≠ .idle) (he : findEntry s r.id = some e)
    (hkept : e.erasePending = false ∨ 2 ≤ e.inUse) : done code result vs (stopHostRead s) =
      { done code result vs s with
        link := { (done code result vs s).link with sending := match s.link.sending with
          | .payload src n at_ valid => .payload src n at_ (valid && !decide (src = .hostRead))
          | other => other }
        store := { s.store with
          readHost := none
          dir := updateWhere (fun x => decide (x.id = r.id)) (fun x => { x with inUse := x.inUse - 1 }) s.store.dir } } := by
  have hback : done code result vs (stopHostRead s) = modEntry r.id (fun e => { e with inUse := e.inUse - 1 })
      (setReader .host none (done code result vs (staleSource .hostRead s))) := by
    rw [stopHostRead_eq hr hg he hkept]
    simp only [done_eq]
    rfl
  rw [hback, done_staleSource _ _ _ _ hbusy]
  simp only [done_eq, staleSource, modLink, Link.push_sending_of_busy _ hbusy]
  rfl

end

/-! ### The bytes of a host write (R149) -/

/-- LHOLD after a byte has joined the buffer of the store, the current target. -/
theorem lholdJoined_store {s : State} {free : Nat} (ht : s.link.target = .store) (hroom : hostWriteRoom s = free) :
    lholdJoined .store s = { s with link := { s.link with lhold := s.link.lhold || decide (free < 64) } } := by
  simp only [lholdJoined, targetFree, hroom]
  by_cases hlow : free < 64
  · rw [if_pos ⟨ht, hlow⟩, decide_eq_true hlow, Bool.or_true]; rfl
  · rw [if_neg fun h => hlow h.2, decide_eq_false hlow, Bool.or_false]

/-- A byte joins the host's write stream, the segment not yet full and the port busy. -/
theorem acceptHostByte_eq {b : Byte} {w : WStream} {s : State} (hws : s.store.writers = [w]) (howner : w.owner = .host)
    (hactive : w.active = true) (hhanded : w.handed = none) (hlen : w.filling.length + 1 < segCapacity w.seq)
    (hg : s.store.grant ≠ none) (ht : s.link.target = .store) : acceptHostByte b s =
      modEntry w.id (fun e => { e with length := e.length + 1 }) { s with
        link := { s.link with lhold := s.link.lhold || decide (1024 - (w.filling.length + 1) < 64) }
        store := { s.store with writers := [{ w with filling := w.filling ++ [b] }] } } := by
  have hactiveWriter : activeWriter s .host = some w := by simp [activeWriter, hws, howner, hactive]
  have hstay : ({ w with filling := w.filling ++ [b] } : WStream).handOver = { w with filling := w.filling ++ [b] } :=
    if_neg fun ⟨_, _, hfull⟩ => by simp at hfull; omega
  rw [acceptHostByte, hactiveWriter]
  dsimp only
  rw [modWriter_single _ hws, hstay, lholdJoined_store (free := 1024 - (w.filling.length + 1)) (by exact ht), storeKick_of_grant (by exact hg)]
  · rfl
  · simp [hostWriteRoom, hostWriter, modEntry, modStore, howner, WStream.buffered, hhanded]

theorem segCapacity_le (seq : Nat) : segCapacity seq ≤ 1016 := by unfold segCapacity; split <;> decide

/-- The target of the bytes being the store, and its stream with room. -/
theorem deliverPayload_store {b : Byte} {w : WStream} {s : State} (hws : s.store.writers = [w]) (howner : w.owner = .host)
    (hactive : w.active = true) (hhanded : w.handed = none) (hlen : w.filling.length + 1 < segCapacity w.seq)
    (ht : s.link.target = .store) : deliverPayload b s = acceptHostByte b s := by
  have := segCapacity_le w.seq
  have hwriter : hostWriter s = some w := by simp [hostWriter, hws, howner]
  rw [deliverPayload, ht]
  refine if_pos ⟨by rw [hostWriteOpen, hwriter]; exact hactive, ?_⟩
  simp only [hostWriteRoom, hwriter, WStream.buffered, hhanded, Option.map_none, Option.getD_none]
  omega

/-! ### A close by the host and its end (R147, R150, R155) -/

section
variable {s : State} {w : WStream} {e : Entry}

/-- A close asked for of the only stream, before its steps. -/
def closeAsked (w : WStream) (c : Closing) (s : State) : State := { s with store := { s.store with
  writers := [{ w with active := false, failed := false, closing := some c }]
  waiting := s.store.waiting.filter (fun x => decide (x ≠ w.id))
  dir := updateWhere (fun x => decide (x.id = w.id)) (fun x => { x with pages := c.pages, truncated := c.truncated }) s.store.dir } }

theorem closeMessageAs_eq (hws : s.store.writers = [w]) (reason : EndReason) (truncated : Bool) (pages : Nat) :
    closeMessageAs w.id reason truncated pages s =
      storeKick (progressClose w.id (closeAsked w ⟨reason, truncated, pages, false, false⟩ s)) := by
  rw [closeMessageAs, modWriter_single _ hws]
  rfl

theorem findWriter_closeAsked (w : WStream) (c : Closing) (s : State) : findWriter (closeAsked w c s) w.id =
    some { w with active := false, failed := false, closing := some c } := by
  simp [findWriter, closeAsked]

theorem findEntry_closeAsked (he : findEntry s w.id = some e) (c : Closing) : findEntry (closeAsked w c s) w.id =
    some { e with pages := c.pages, truncated := c.truncated } := by
  have h := findEntry_modEntry w.id (f := fun x => { x with pages := c.pages, truncated := c.truncated }) (fun _ => rfl) s
  rw [he] at h
  exact h

/-- CLOSE of a message that has bytes, its stream the only one. -/
theorem opClose_begins (h : s.store.st = .ready) (hf : s.store.hostFail = false) (hws : s.store.writers = [w])
    (howner : w.owner = .host) (hactive : w.active = true) (he : findEntry s w.id = some e) (hlen : 0 < e.length)
    (ht : s.link.target ≠ .store) {asked : State}
    (hasked : asked = closeAsked w ⟨.byRelease .host, false, 0, false, false⟩ (done 0x57#8 .ok (numBytes 4 e.length) s))
    {t : State} (hstep : progressClose w.id asked = t) (hg : t.store.grant ≠ none) (htarget : t.link = asked.link) : opClose s = t := by
  have hw : activeWriter s .host = some w := by simp [activeWriter, hws, howner, hactive]
  rw [opClose_of_ready h hf hw he, if_neg (by omega), closeMessageAs_eq (by simpa using hws), ← hasked, hstep, storeKick_of_grant hg]
  exact lholdLeft_other (by rw [htarget, hasked]; simpa [closeAsked, done_eq] using ht)

end

/-- A message that ends its close: the list of the unheard as it joins it, no watermark being set. -/
theorem joinUnheard_eq {s : State} {id : Nat} {e : Entry} (he : findEntry s id = some e) (hw : s.store.settings.watermark = 0) :
    joinUnheard id s = { s with store := { s.store with
      unheard := if e.unheard ∧ id ∉ s.store.unheard then placeByCreation s.store.dir id s.store.unheard else s.store.unheard } } := by
  rw [joinUnheard, he]
  dsimp only
  split
  · exact if_neg fun h => h.1 hw
  · rfl

theorem setNewFlag_eq (mailbox : Option Nat) (s : State) : setNewFlag mailbox s = { s with mailboxes :=
    match mailbox with
    | some m => s.mailboxes.modify m fun b => { b with isNew := true }
    | none => s.mailboxes } := by
  cases mailbox <;> rfl

/-- The state of the store as a message becomes CLOSED. -/
def messageClosed (id : Nat) (c : Closing) (s : State) : State := { s with store := { s.store with
  writers := s.store.writers.filter fun w => decide (w.id ≠ id)
  waiting := s.store.waiting.filter (fun x => decide (x ≠ id))
  dir := updateWhere (fun x => decide (x.id = id))
    (fun x => { x with state := .closed, writer := none, truncated := c.truncated, pages := c.pages }) s.store.dir } }

theorem findEntry_messageClosed {s : State} {id : Nat} {e : Entry} (he : findEntry s id = some e) (c : Closing) :
    findEntry (messageClosed id c s) id =
      some { e with state := .closed, writer := none, truncated := c.truncated, pages := c.pages } := by
  have h := findEntry_modEntry id
    (f := fun x => { x with state := .closed, writer := none, truncated := c.truncated, pages := c.pages }) (fun _ => rfl) s
  rw [he] at h
  exact h

/-- The end of a close, no watermark being set: MESSAGE, the unheard list, the mailbox's new flag. -/
theorem closeDone_eq {s : State} {id : Nat} {e : Entry} {c : Closing} (he : findEntry s id = some e)
    (hw : s.store.settings.watermark = 0) :
    closeDone id c s = queueReport (.message id e.kind e.mailbox e.length c.reason) { messageClosed id c s with
      store := { (messageClosed id c s).store with
        unheard := if (e.kind = .voice ∨ e.kind = .fax) ∧ e.fetched = false ∧ id ∉ s.store.unheard
          then placeByCreation (messageClosed id c s).store.dir id s.store.unheard else s.store.unheard }
      mailboxes := if e.kind = .voice then
        (match e.mailbox with
          | some m => s.mailboxes.modify m fun b => { b with isNew := true }
          | none => s.mailboxes)
        else s.mailboxes } := by
  have hjoin := joinUnheard_eq (s := queueReport (.message id e.kind e.mailbox e.length c.reason) (messageClosed id c s))
    (by rw [queueReport_eq]; exact findEntry_messageClosed he c) (by rw [queueReport_eq]; exact hw)
  have hif : (if ({ e with state := .closed, writer := none, truncated := c.truncated, pages := c.pages } : Entry).unheard ∧
        id ∉ s.store.unheard then placeByCreation (messageClosed id c s).store.dir id s.store.unheard else s.store.unheard) =
      if (e.kind = .voice ∨ e.kind = .fax) ∧ e.fetched = false ∧ id ∉ s.store.unheard
        then placeByCreation (messageClosed id c s).store.dir id s.store.unheard else s.store.unheard :=
    if_congr (by simp [Entry.unheard, and_assoc]) rfl rfl
  rw [closeDone, he]
  dsimp only
  rw [show removeWriter id _ = messageClosed id c s from rfl, hjoin]
  simp only [queueReport_eq, setNewFlag_eq]
  rw [← hif]
  split <;> rfl

/-- COPY_REWRITE_COMPLETE of a message whose stream closes. -/
theorem opCopyRewriteComplete_closing {s : State} {w : WStream} {e : Entry} {c : Closing}
    (hg : s.store.grant = some (.maint (.copyRewrite w.id))) (hws : s.store.writers = [w]) (he : findEntry s w.id = some e)
    (hc : w.closing = some c) (hasked : c.copyAsked = true) : opCopyRewriteComplete s =
      storeKick (closeDone w.id c { s with store := { s.store with grant := none, memory := rewriteCopy s.store.memory e } }) := by
  have hclosing (mem : List Host.Cell) :
      closingOf { s with store := { s.store with grant := none, memory := mem } } w.id = some c := by
    simp [closingOf, findWriter, hws, hc, hasked]
  rw [opCopyRewriteComplete, hg]
  simp only [show findEntry (freePort s) w.id = some e from he]
  rw [show modStore _ (freePort s) = { s with store := { s.store with grant := none, memory := rewriteCopy s.store.memory e } }
    from rfl, hclosing]

/-- The end of the close of the only stream, no watermark being set and nothing else standing at the port. -/
theorem opCopyRewriteComplete_last {s : State} {w : WStream} {e : Entry} {c : Closing}
    (hg : s.store.grant = some (.maint (.copyRewrite w.id))) (hws : s.store.writers = [w]) (he : findEntry s w.id = some e)
    (hc : w.closing = some c) (hasked : c.copyAsked = true) (hwater : s.store.settings.watermark = 0) (ha : s.store.readA = none)
    (hb : s.store.readB = none) (hh : s.store.readHost = none) (hm : s.store.maint = []) : opCopyRewriteComplete s =
      closeDone w.id c { s with store := { s.store with grant := none, memory := rewriteCopy s.store.memory e } } := by
  rw [opCopyRewriteComplete_closing hg hws he hc hasked]
  have hend := closeDone_eq (c := c)
    (s := { s with store := { s.store with grant := none, memory := rewriteCopy s.store.memory e } }) (by exact he) hwater
  refine storeKick_of_portless ⟨?_, ?_, ?_, ?_⟩ ?_ <;> rw [hend, queueReport_store]
  · simp [messageClosed, hws]
  · exact ha
  · exact hb
  · exact hh
  · exact hm

/-- Settles O51: the commands of the host streams by their checks, then a close and its end. -/
theorem hostStreamsOpenCloseRead : Obligations.HostStreamsOpenCloseRead := by
  refine ⟨?_, ?_⟩
  · intro k c b m o w e s hs st
    refine ⟨fun hst => ?_, fun kind coding hst hkind hcoding => ?_, fun hst hbad => ?_, fun hst hf => ?_,
      fun hst hf hw => ?_, fun hst hf hw he hlen => ?_, fun r hst hr => ⟨fun hm => ?_, ?_⟩,
      fun hst hr => ⟨fun hm => ?_, fun he hbad => ?_, fun hm he hclosed herase => ⟨fun hlen => ?_, fun hlen huse hid => ?_, ?_⟩⟩, ?_⟩
    · refine ⟨exec_of_op (opOpen_notReady hst) (by simp [hs]), exec_of_op (c := .closeMessage) (if_pos (decide_eq_false hst)) (by simp [hs]),
        exec_of_op (c := .readMessage m o) (if_pos (decide_eq_false hst)) (by simp [hs])⟩
    · have hk : MsgKind.ofCode k.toNat = some kind := by rcases hkind with ⟨rfl, rfl, -⟩ | ⟨rfl, rfl, -⟩ | ⟨rfl, rfl⟩ <;> rfl
      have hc : Coding.ofCode c.toNat = some coding := by rcases hcoding with ⟨rfl, rfl⟩ | ⟨rfl, rfl⟩ | ⟨rfl, rfl⟩ <;> rfl
      have hagree : kindCodingAgree kind coding = true := by
        rcases hkind with ⟨-, rfl, hc0⟩ | ⟨-, rfl, hc0⟩ | ⟨-, rfl⟩ <;> rcases hcoding with ⟨rfl, rfl⟩ | ⟨rfl, rfl⟩ | ⟨rfl, rfl⟩ <;>
          simp_all [kindCodingAgree]
      have hop := opOpen_of_valid hst hk hc hagree
      refine ⟨fun hw => ?_, fun hw hfull => ?_, fun hw hroom hfree => ?_, fun hw hroom hfree htarget => ?_⟩
      · exact exec_of_op (hop.trans (if_pos (Option.isSome_iff_ne_none.mpr hw))) (by simp [hs])
      · exact exec_of_op (hop.trans ((if_neg (by simp [hw])).trans (if_pos hfull))) (by simp [hs])
      · exact exec_of_op (hop.trans ((if_neg (by simp [hw])).trans ((if_neg (by exact Nat.not_le.mpr hroom)).trans (if_pos hfree))))
          (by simp [hs])
      · have hopened := hop.trans ((if_neg (by simp [hw])).trans ((if_neg (by exact Nat.not_le.mpr hroom)).trans
          ((if_neg (by exact Nat.not_le.mpr hfree)).trans (lholdLeft_other (by rw [done_eq]; exact fun h => htarget ((Link.push_target _ _).symm.trans h))))))
        rw [done_eq] at hopened
        exact ⟨_, exec_of_op hopened hs, rfl, rfl, rfl, by rw [done_eq]; rfl, rfl, rfl⟩
    · exact exec_of_op (opOpen_badParam hst hbad) (by simp [hs])
    · exact exec_of_op (c := .closeMessage) (opClose_hostFail hst hf) (by simp [hs])
    · exact exec_of_op (c := .closeMessage) (opClose_unopened hst hf hw) (by simp [hs])
    · refine exec_of_op (c := .closeMessage) ((opClose_of_ready hst hf hw he).trans ?_) (by simp [hs])
      rw [if_pos hlen, hlen]
      simp only [done_eq]
      rfl
    · exact exec_of_op (opRead_busy hst hm (by rw [hr]; simp)) (by simp [hs])
    · rintro rfl hg hbusy he hkept
      refine exec_of_op (c := .readMessage 0#16 o) ((opRead_zero hst).trans
        ((if_pos (by rw [hr]; rfl)).trans ?_)) (by simp [hs])
      exact done_stopHostRead hr hg hbusy he hkept
    · exact exec_of_op (opRead_unfound hst hr hm) (by simp [hs])
    · exact exec_of_op (opRead_refused hst hr he hbad) (by simp [hs])
    · exact exec_of_op ((opRead_of_found hst hr hm he).trans ((if_neg (by simp [hclosed, herase])).trans (if_pos hlen))) (by simp [hs])
    · refine exec_of_op ((opRead_of_found hst hr hm he).trans ?_) (by simp [hs])
      have href := canRef_of (hid.symm ▸ he) hclosed herase huse
      rw [if_neg (by simp [hclosed, herase]), if_neg (by omega), if_neg (by simp [href]), if_pos hlen.symm, hlen, Nat.sub_self]
      rfl
    · intro hlen huse hid hg
      have hop := opRead_opens hst hr hm he hclosed herase hlen huse hg
      rw [done_eq] at hop
      refine ⟨_, exec_of_op hop hs, rfl, ?_, by rw [done_eq]; rfl, rfl, rfl⟩
      have hfound := findEntry_modEntry m.toNat (f := fun x => { x with inUse := x.inUse + 1 }) (fun _ => rfl) s
      rw [he, Option.map_some] at hfound
      simpa only [findEntry, setReader, modStore, takeRef, modEntry, hid] using hfound
    · intro hparser hb htarget hws howner hactive hhanded hlen hg he
      have hop : opOf (.downstreamByte b) s = _ := (show opDownstreamByte b s = deliverPayload b s by
        simp only [opDownstreamByte, hparser, if_neg hb]).trans ((deliverPayload_store hws howner hactive hhanded hlen htarget).trans
          (acceptHostByte_eq hws howner hactive hhanded hlen hg htarget))
      refine ⟨_, exec_of_op hop hs, rfl, ?_, rfl, rfl, rfl⟩
      have hfound := findEntry_modEntry w.id (f := fun x => { x with length := x.length + 1 }) (fun _ => rfl) s
      rw [he, Option.map_some] at hfound
      exact hfound
  · intro id w e s hs he hid hwid hws
    subst hwid
    intro st closing closed
    refine ⟨fun hst hf howner hactive hcut hlen htarget hg => ?_, fun c hg hc hasked hwater ha hb hh hmaint => ?_⟩
    · have hop {t : State} := opClose_begins (t := t) hst hf hws howner hactive he hlen htarget rfl
      have hstream := findWriter_closeAsked w closing (done 0x57#8 .ok (numBytes 4 e.length) s)
      have hentry := findEntry_closeAsked (s := done 0x57#8 .ok (numBytes 4 e.length) s) (w := w) (by rw [done_eq]; exact he) closing
      refine ⟨fun hhanded hfill => ?_, fun hhanded => ?_, fun hhanded hfill hchain => ?_⟩
      · have hclose := hop (progressClose_hands hstream hentry rfl hcut rfl rfl hhanded hfill) (by simpa [modWriter, modStore, closeAsked] using hg) rfl
        refine exec_of_op (c := .closeMessage) (hclose.trans ?_) (by simp [closed, hs])
        rw [modWriter_single (w := { w with active := false, failed := false, closing := some closing }) _ rfl]
        simp only [closed, closeAsked, done_eq]
        rfl
      · have hclose := hop (progressClose_waits hstream hentry rfl (.inl hhanded)) (by simpa [closeAsked] using hg) rfl
        refine exec_of_op (c := .closeMessage) (hclose.trans ?_) (by simp [closed, hs])
        simp only [closed, closeAsked, done_eq]
        rfl
      · have hclose := hop (progressClose_asks hstream hentry rfl hcut rfl rfl hhanded hfill hchain) (by simpa [modWriter, modStore, closeAsked] using hg) rfl
        refine exec_of_op (c := .closeMessage) (hclose.trans ?_) (by simp [closed, hs])
        rw [modWriter_single (w := { w with active := false, failed := false, closing := some closing }) _ rfl]
        simp only [closed, closeAsked, done_eq]
        rfl
    · have hop := opCopyRewriteComplete_last hg hws he hc hasked hwater ha hb hh hmaint
      rw [closeDone_eq (by exact he) (by exact hwater)] at hop
      have hgone : s.store.writers.filter (fun x => decide (x.id ≠ w.id)) = [] := by simp [hws]
      rw [queueReport_eq] at hop
      refine ⟨exec_of_op (c := .copyRewriteComplete) (hop.trans ?_) (by simp [hs]), findEntry_messageClosed he c⟩
      rw [queueReport_eq]
      simp only [messageClosed, hgone]
      rfl

end Sys2Proof.Machine
end

section
/-! PROOFS. PROFILE and MONCLEAR (R31, R33, R37, R38). -/

namespace Sys2Proof.Machine

/-! ### The MONITOR reports of a change of settings or states (R33) -/

/-- A source whose change of reported state or class calls for a MONITOR report. -/
def monitorDiffers (l : Line) (before u : State) (src : MonSource) : Bool :=
  decide (reportedState before l src ≠ reportedState u l src ∨ reportedState u l src = true ∧
    ((before.line l).profile.monitors.get src).cls ≠ ((u.line l).profile.monitors.get src).cls)

theorem monitorDiffers_withLink (l : Line) (before u : State) (k : Link) :
    monitorDiffers l before { u with link := k } = monitorDiffers l before u := by cases l <;> rfl

theorem profileMonitor_eq (l : Line) (before u : State) (src : MonSource) : profileMonitor l before u src =
    if monitorDiffers l before u src then queueReport (monitorReport u l src) u else u := by
  unfold monitorDiffers
  simp only [decide_eq_true_eq]
  rfl

theorem foldl_profileMonitor (l : Line) (before : State) (srcs : List MonSource) : ∀ u : State,
    srcs.foldl (profileMonitor l before) u =
      queueReports ((srcs.filter (monitorDiffers l before u)).map (monitorReport u l)) u := by
  induction srcs with
  | nil => exact fun _ => rfl
  | cons src rest ih =>
    intro u
    have hmap (k : Link) : monitorReport { u with link := k } l = monitorReport u l := funext fun a => monitorReport_withLink u k l a
    rw [List.foldl_cons, ih, List.filter_cons, profileMonitor_eq]
    cases h : monitorDiffers l before u src
    · rfl
    · rw [if_pos rfl, if_pos rfl, List.map_cons, queueReports_cons, queueReport_eq]
      simp only [monitorDiffers_withLink, hmap]

/-- The reports follow the DONE of their directive. -/
theorem monitorReports_done (l : Line) (before u : State) (code : Byte) (r : Result) (vs : List Byte) :
    monitorReports l before (done code r vs u) =
      queueReports ((monSources.filter (monitorDiffers l before u)).map (monitorReport u l)) (done code r vs u) := by
  have hmap (k : Link) : monitorReport { u with link := k } l = monitorReport u l := funext fun a => monitorReport_withLink u k l a
  rw [monitorReports, foldl_profileMonitor, done_eq]
  simp only [monitorDiffers_withLink, hmap]

@[simp] theorem queueReports_requests (rs : List Report) (s : State) : (queueReports rs s).requests = s.requests := by
  rw [queueReports_eq]

/-! ### PROFILE (R37, R38) -/

/-- A field's enumeration, field by field. -/
theorem profileValueOk_iff (f v : Nat) : profileValueOk f v = true ↔ (f = 0x01 → v ≤ 4) ∧ (4 ≤ f → f ≤ 6 → v / 256 ≤ 4) ∧
    (f ∈ [0x07, 0x08, 0x09, 0x12, 0x15, 0x20, 0x39] → v ≤ 1) ∧ (0x18 ≤ f → f ≤ 0x1F → v ≤ 7) ∧
    (f = 0x38 → 3 ≤ v ∧ v ≤ 5) ∧ (f = 0x3A → v ∈ [0, 5, 10, 20, 40]) := by
  unfold profileValueOk
  split
  case h_22 => simp_all; omega
  all_goals simp
  all_goals omega

theorem profileFieldLocked_iff (f : Nat) : profileFieldLocked f = true ↔ f ∈ [0x30, 0x31, 0x38, 0x39, 0x3A] := by
  simp [profileFieldLocked]; omega

section
variable {line : Byte} {l : Line} {pairs : List (Byte × Word16)} {s : State}

theorem opProfile_badParam (hl : lineOf line = some l)
    (h : ∃ p ∈ pairs, profileFieldNamed p.1.toNat = false ∨ profileValueOk p.1.toNat p.2.toNat = false) :
    opProfile line pairs s = done 0x47#8 .badParam [] s := by
  obtain ⟨p, hp, h⟩ := h
  rw [opProfile, hl]
  dsimp only
  by_cases hnamed : (pairs.all fun p => profileFieldNamed p.1.toNat) = false
  · exact if_pos hnamed
  · refine (if_neg hnamed).trans (if_pos ?_)
    have hp' : profileFieldNamed p.1.toNat = true := List.all_eq_true.mp (Bool.not_eq_false _ ▸ hnamed) p hp
    exact List.all_eq_false.mpr ⟨p, hp, by simpa [hp'] using h⟩

/-- PROFILE with named fields and values in their enumerations, by its locked fields. -/
theorem opProfile_of_valid (hl : lineOf line = some l)
    (h : ∀ p ∈ pairs, profileFieldNamed p.1.toNat = true ∧ profileValueOk p.1.toNat p.2.toNat = true) : opProfile line pairs s =
      if (pairs.any fun p => profileFieldLocked p.1.toNat) = true ∧ s.st l ≠ .idle then done 0x47#8 .badState [] s
      else
        let t := monitorReports l s (done 0x47#8 .ok []
          (modProfile l (fun p => pairs.foldl (fun p q => p.write q.1.toNat q.2.toNat) p) s))
        if (pairs.any fun p => decide (p.1.toNat = 0x08)) then post (.dispatch l) t else t := by
  have hnamed : (pairs.all fun p => profileFieldNamed p.1.toNat) = true := List.all_eq_true.mpr fun p hp => (h p hp).1
  have hvalue : (pairs.all fun p => profileValueOk p.1.toNat p.2.toNat) = true := List.all_eq_true.mpr fun p hp => (h p hp).2
  rw [opProfile, hl]
  simp only [hnamed, hvalue, Bool.true_eq_false, if_false]

end

/-! ### MONCLEAR (R33) -/

/-- The latched states of the sources of a list that the set names become the current ones. -/
theorem foldl_clearLatch (set : Byte) (srcs : List MonSource) : ∀ i : Iface, ∃ latched : PerSource Bool,
    srcs.foldl (clearLatch set) i = { i with latched := latched } ∧
    ∀ src, latched.get src = if src ∈ srcs ∧ set.toNat.testBit src.code then i.current.get src else i.latched.get src := by
  induction srcs with
  | nil => exact fun i => ⟨i.latched, rfl, fun src => by simp⟩
  | cons a rest ih =>
    intro i
    obtain ⟨latched, hfold, hget⟩ := ih (clearLatch set i a)
    rw [List.foldl_cons, hfold]
    refine ⟨latched, by unfold clearLatch; split <;> rfl, fun src => ?_⟩
    rw [hget]
    by_cases ha : set.toNat.testBit a.code = true
    · have hi : clearLatch set i a = { i with latched := i.latched.set a (i.current.get a) } := if_pos ha
      rw [hi]
      by_cases hsrc : src = a
      · subst hsrc; simp [ha, PerSource.get_set_self]
      · simp [hsrc, PerSource.get_set_other _ hsrc]
    · have hi : clearLatch set i a = i := if_neg ha
      rw [hi]
      by_cases hsrc : src = a
      · subst hsrc; simp [ha]
      · simp [hsrc]

theorem opMonclear_eq {line set : Byte} {l : Line} {s : State} (hl : lineOf line = some l) {latched : PerSource Bool}
    (h : monSources.foldl (clearLatch set) (s.line l).iface = { (s.line l).iface with latched := latched }) {u : State}
    (hu : u = s.setLine l { s.line l with iface := { (s.line l).iface with latched := latched } }) :
    opMonclear line set s = monitorReports l s (done 0x77#8 .ok [] u) := by
  rw [opMonclear, hl, hu, ← h]
  rfl

/-- Settles O26: the checks of PROFILE, its writing, MONCLEAR, and the clamping field by field. -/
theorem profileAndMonclearAct : Obligations.ProfileAndMonclearAct := by
  intro line l s hs changed
  have hchanged (u : State) : changed u = (monSources.filter (monitorDiffers l s u)).map (monitorReport u l) := rfl
  refine ⟨fun pairs hl => ?_, fun set hl => ?_, fun hl pairs => ?_, fun hl set => ?_, fun p v => ?_⟩
  · exact exec_of_op (c := .profile line pairs) (by rw [opOf, opProfile, hl]) (by simp [hs])
  · exact exec_of_op (c := .monclear line set) (by rw [opOf, opMonclear, hl]) (by simp [hs])
  · intro named fits locked
    refine ⟨fun hbad => ?_, fun hok hlocked hst => ?_, fun hok hlocked hdisp => ?_⟩
    · obtain ⟨p, hp, hbad⟩ := hbad
      refine exec_of_op (opProfile_badParam hl ⟨p, hp, hbad.imp (fun h => ?_) fun h => ?_⟩) (by simp [hs])
      · exact decide_eq_false h
      · exact Bool.eq_false_iff.mpr fun h' => h ((profileValueOk_iff _ _).mp h')
    · obtain ⟨p, hp, hlock⟩ := hlocked
      refine exec_of_op ((opProfile_of_valid hl fun p hp => ⟨decide_eq_true (hok p hp).1, (profileValueOk_iff _ _).mpr (hok p hp).2⟩).trans
        (if_pos ⟨List.any_eq_true.mpr ⟨p, hp, (profileFieldLocked_iff _).mpr hlock⟩, hst⟩)) (by simp [hs])
    · intro u
      have hop := opProfile_of_valid (s := s) hl fun p hp => ⟨decide_eq_true (hok p hp).1, (profileValueOk_iff _ _).mpr (hok p hp).2⟩
      have hfree : ¬((pairs.any fun p => profileFieldLocked p.1.toNat) = true ∧ s.st l ≠ .idle) := by
        rintro ⟨hany, hst⟩
        obtain ⟨p, hp, hlock⟩ := List.any_eq_true.mp hany
        exact hst (hlocked p hp ((profileFieldLocked_iff _).mp hlock))
      rw [if_neg hfree] at hop
      have hreports : monitorReports l s (done 0x47#8 .ok [] u) = queueReports (changed u) (done 0x47#8 .ok [] u) := by
        rw [monitorReports_done, hchanged]
      have hu : modProfile l (fun p => pairs.foldl (fun p q => p.write q.1.toNat q.2.toNat) p) s = u := rfl
      simp only [hu, hreports] at hop
      have hreq : (queueReports (changed u) (done 0x47#8 .ok [] u)).requests = [] := by simp [u, hs]
      split at hop
      · rename_i hany
        have hjobs : s.jobs = [] := hdisp.resolve_left fun hnot => by
          obtain ⟨p, hp, hcode⟩ := List.any_eq_true.mp hany
          exact hnot p hp (BitVec.eq_of_toNat_eq (of_decide_eq_true hcode))
        refine (exec_finish (c := .profile line pairs) hop).trans
          (congrArg _ (finish_post (r := .dispatch l) hreq (dispatchLine_of_no_jobs l ?_) hreq))
        rw [queueReports_eq, done_eq]
        cases l <;> exact hjobs
      · exact exec_of_op hop hreq
  · obtain ⟨latched, hfold, hget⟩ := foldl_clearLatch set monSources (s.line l).iface
    refine ⟨latched, fun src => by simpa [mem_monSources] using hget src, ?_⟩
    intro u
    refine exec_of_op ((opMonclear_eq hl hfold rfl).trans (monitorReports_done l s u _ _ _)) ?_
    simp [u, hs]
  · simp only [Profile.write, clamp, Nat.zero_max, and_self]

end Sys2Proof.Machine
end

section
/-! PROOFS. PINS (R30). -/

namespace Sys2Proof.Machine

/-! ### The moves of the inputs -/

section
variable {old new : List PinCfg} {f : PinFn} {withdraw : State → State} {place : Nat → State → State} {s : State}

theorem moveInput_same (h : pinOf old f = pinOf new f) : moveInput old new f withdraw place s = s := by
  rw [moveInput, h]
  cases hn : pinOf new f with
  | none => rfl
  | some p => exact if_pos rfl

theorem moveInput_withdrawn (ho : pinOf old f ≠ none) (hn : pinOf new f = none) :
    moveInput old new f withdraw place s = withdraw s := by
  obtain ⟨p, ho⟩ := Option.ne_none_iff_exists'.mp ho
  rw [moveInput, ho, hn]

theorem moveInput_placed {p : Nat} (hn : pinOf new f = some p) (h : pinOf old f ≠ some p) :
    moveInput old new f withdraw place s = place p s := by
  rw [moveInput, hn]
  cases ho : pinOf old f with
  | none => rfl
  | some q => exact if_neg (by rwa [ho] at h)

/-- An input that stands or is placed where placing does nothing. -/
theorem moveInput_idle (hn : pinOf new f ≠ none) : moveInput old new f withdraw (fun _ s => s) s = s := by
  obtain ⟨p, hn⟩ := Option.ne_none_iff_exists'.mp hn
  rw [moveInput, hn]
  cases pinOf old f with
  | none => rfl
  | some q => exact ite_self s

variable {l : Line}

theorem moveInputs_same (hr : pinOf old (ringFn l) = pinOf new (ringFn l)) (hl : pinOf old (loopFn l) = pinOf new (loopFn l))
    (he : pinOf old (extFn l) = pinOf new (extFn l)) : moveInputs l old new s = s := by
  rw [moveInputs, moveInput_same hr, moveInput_same hl, moveInput_same he]

end

/-- Every input but those of one function stands. -/
def OthersStand (old new : List PinCfg) (g : PinFn) : Prop :=
  ∀ l, ∀ f ∈ [ringFn l, loopFn l, extFn l], f ≠ g → pinOf old f = pinOf new f

section
variable {old new : List PinCfg} {g : PinFn} {s : State}

/-- The line an input function does not belong to does not move. -/
theorem OthersStand.line (h : OthersStand old new g) {l : Line} (hr : ringFn l ≠ g) (hl : loopFn l ≠ g) (he : extFn l ≠ g) :
    moveInputs l old new s = s :=
  moveInputs_same (h l _ (by simp) hr) (h l _ (by simp) hl) (h l _ (by simp) he)

/-- The moves of both lines where no more than one line's input moves. -/
theorem OthersStand.moves (h : OthersStand old new g) {l : Line} (hg : g = ringFn l ∨ g = loopFn l ∨ g = extFn l) :
    moveInputs .B old new (moveInputs .A old new s) = moveInputs l old new s := by
  cases l
  · rw [h.line (l := .B)] <;> (rcases hg with rfl | rfl | rfl <;> decide)
  · rw [h.line (l := .A)] <;> (rcases hg with rfl | rfl | rfl <;> decide)

theorem OthersStand.ring {l : Line} (h : OthersStand old new (ringFn l)) : moveInputs .B old new (moveInputs .A old new s) =
    moveInput old new (ringFn l) (withdrawRing l) (fun _ s => s) s := by
  rw [h.moves (.inl rfl), moveInputs, moveInput_same (f := loopFn l) (h l _ (by simp) (by cases l <;> decide)),
    moveInput_same (f := extFn l) (h l _ (by simp) (by cases l <;> decide))]

theorem OthersStand.loop {l : Line} (h : OthersStand old new (loopFn l)) : moveInputs .B old new (moveInputs .A old new s) =
    moveInput old new (loopFn l) (withdrawLoop l) (placeLoop l) s := by
  rw [h.moves (.inr (.inl rfl)), moveInputs, moveInput_same (f := ringFn l) (h l _ (by simp) (by cases l <;> decide)),
    moveInput_same (f := extFn l) (h l _ (by simp) (by cases l <;> decide))]

theorem OthersStand.ext {l : Line} (h : OthersStand old new (extFn l)) : moveInputs .B old new (moveInputs .A old new s) =
    moveInput old new (extFn l) (withdrawExt l) (placeExt l) s := by
  rw [h.moves (.inr (.inr rfl)), moveInputs, moveInput_same (f := ringFn l) (h l _ (by simp) (by cases l <;> decide)),
    moveInput_same (f := loopFn l) (h l _ (by simp) (by cases l <;> decide))]

end

/-! ### The checks of PINS -/

section
variable {raw : List (Byte × Byte)} {pins : List PinCfg} {s : State}

theorem mapM_eq_none_of_mem {α β : Type} {f : α → Option β} {xs : List α} {x : α} (hx : x ∈ xs) (hf : f x = none) :
    xs.mapM f = none := by
  induction xs with
  | nil => cases hx
  | cons y rest ih =>
    rw [List.mapM_cons]
    rcases List.mem_cons.mp hx with rfl | hx
    · rw [hf]; rfl
    · rw [ih hx]; cases f y <;> rfl

theorem pinsOf_eq_none (h : ∃ p ∈ raw, 11 < p.1.toNat ∨ 1 < p.2.toNat) : pinsOf raw = none := by
  obtain ⟨p, hp, h⟩ := h
  refine mapM_eq_none_of_mem hp ?_
  rcases h with h | h
  · have hfn : PinFn.ofCode p.1.toNat = none := List.getElem?_eq_none (Nat.succ_le_of_lt h)
    rw [hfn]
  · rw [onOff_of_lt h]; cases PinFn.ofCode p.1.toNat <;> rfl

theorem opPins_badParam (h : pinsOf raw = none ∨ pinsOf raw = some pins ∧ pinsPlaced pins = false) :
    opPins raw s = done 0x50#8 .badParam [] s := by
  rcases h with h | ⟨h, hplaced⟩
  · rw [opPins, h]
  · rw [opPins, h]; exact if_pos (.inr hplaced)

theorem length_filter_of_two {α : Type} {p : α → Bool} {xs : List α} {j k : Nat} {x y : α} (hjk : j < k)
    (hx : xs[j]? = some x) (hy : xs[k]? = some y) (hpx : p x = true) (hpy : p y = true) : 2 ≤ (xs.filter p).length := by
  have hsplit := List.take_append_drop k xs
  have h1 : x ∈ xs.take k := List.mem_of_getElem? (i := j) (by rw [List.getElem?_take, if_pos hjk]; exact hx)
  have h2 : y ∈ xs.drop k := List.mem_of_getElem? (i := 0) (by rw [List.getElem?_drop]; simpa using hy)
  rw [← hsplit, List.filter_append, List.length_append]
  have h1' := List.length_pos_of_mem (List.mem_filter.mpr ⟨h1, hpx⟩)
  have h2' := List.length_pos_of_mem (List.mem_filter.mpr ⟨h2, hpy⟩)
  omega

theorem PinFn.mem_all (f : PinFn) : f ∈ PinFn.all := by cases f <;> decide

/-- A function on two pins. -/
theorem pinsPlaced_of_twice {j k : Nat} {p q : PinCfg} (hjk : j ≠ k) (hp : pins[j]? = some p) (hq : pins[k]? = some q)
    (hfn : p.fn = q.fn) (hin : p.fn ≠ .inp) (hout : p.fn ≠ .out) : pinsPlaced pins = false := by
  have htwo : 2 ≤ (pins.filter fun x => decide (x.fn = p.fn)).length := by
    rcases Nat.lt_or_gt_of_ne hjk with h | h
    · exact length_filter_of_two h hp hq (by simp) (by simp [hfn])
    · exact length_filter_of_two h hq hp (by simp [hfn]) (by simp)
  rw [pinsPlaced, Bool.and_eq_false_iff]
  refine .inl (List.all_eq_false.mpr ⟨p.fn, PinFn.mem_all _, ?_⟩)
  simp only [hin, hout, false_or, decide_eq_true_eq]
  omega

/-- An input function on GP8 to GP11. -/
theorem pinsPlaced_of_high {k : Nat} {p : PinCfg} (hk : 8 ≤ k) (hp : pins[k]? = some p) (hin : p.fn.isInput = true) :
    pinsPlaced pins = false := by
  rw [pinsPlaced, Bool.and_eq_false_iff]
  refine .inr (List.all_eq_false.mpr ⟨p, List.mem_of_getElem? (i := k - 8) ?_, by simp [hin]⟩)
  rw [List.getElem?_drop, Nat.add_sub_cancel' hk, hp]

/-- PINS with an assignment that may stand, by the HOOK pins. -/
theorem opPins_of_placed (h : pinsOf raw = some pins) (hlen : pins.length = 12) (hplaced : pinsPlaced pins = true) : opPins raw s =
    if hookMoves s pins .A || hookMoves s pins .B then done 0x50#8 .badState [] s
    else moveInputs .B s.pins pins (moveInputs .A s.pins pins { done 0x50#8 .ok [] s with pins := pins }) := by
  rw [opPins, h]
  exact if_neg (by simp [hlen, hplaced])

end

/-! ### An input withdrawn or placed -/

section
variable {s : State} {l : Line}

theorem withdrawRing_off (h : ∀ start due, (s.line l).iface.ring ≠ .on start due) :
    withdrawRing l s = modIface l (fun i => { i with ring := .quiet }) s := by
  rw [withdrawRing]
  split
  · exact absurd ‹_› (h _ _)
  · rfl

/-- A ring-on ends as its input is withdrawn, no cadence entry watching the ring. -/
theorem withdrawRing_on {start due : Nat} (h : (s.line l).iface.ring = .on start due) (hring : Unwatched .ring s) :
    withdrawRing l s = s.setLine l { s.line l with
      iface := { (s.line l).iface with
        ring := .quiet, ringOff := some s.now
        window := if (s.line l).call.firstRing = true ∧ (s.line l).call.st = .ringing then .listening else (s.line l).iface.window }
      call := { (s.line l).call with firstRing := false } } := by
  rw [withdrawRing, h, setLine_eq_put]
  exact (congrArg _ (put_self s l).symm).trans (ringOffNow_put start hring)

/-- LOOP withdrawn from a line that is not in SEIZE: an established loop has nothing to do. -/
theorem finish_withdrawLoop (hs : s.requests = []) (hst : s.st l ≠ .seize) : finish (withdrawLoop l s) =
    modIface l (fun i => { i with
      loopIn := false
      loop := match i.loop with
        | .wait _ _ => .present
        | .doubt _ => .present
        | other => other }) s := by
  have hplain (f : Iface → Iface) : finish (modIface l f s) = modIface l f s := finish_of_none _ (by simpa [modIface] using hs)
  cases h : (s.line l).iface.loop with
  | wait n due =>
    have hseize : (modIface l (fun i => { i with loop := .present }) (modIface l (fun i => { i with loopIn := false }) s)).st l ≠ .seize := by
      cases l <;> exact hst
    rw [withdrawLoop, h]
    refine (finish_post (r := .loopUp l) (by simp [modIface, hs]) (if_neg hseize) (by simp [modIface, hs])).trans ?_
    cases l <;> simp only [modIface, State.line, State.setLine] at h ⊢ <;> rw [h]
  | doubt due =>
    rw [withdrawLoop, h]
    refine (finish_of_none _ (by simp [modIface, hs])).trans ?_
    cases l <;> simp only [modIface, State.line, State.setLine] at h ⊢ <;> rw [h]
  | _ =>
    rw [withdrawLoop, h]
    refine (finish_of_none _ (by simp [modIface, hs])).trans ?_
    cases l <;> simp only [modIface, State.line, State.setLine] at h ⊢ <;> rw [h]

/-- LOOP placed on a pin: the debouncer goes on with the level sampled there. -/
theorem placeLoop_eq (p : Nat) (h : (s.line l).iface.loopSuspended = false) : placeLoop l p s =
    { s.setLine l { s.line l with iface := { (s.line l).iface with
        loopIn := Config.pinSample s.samples p
        loop := match (s.line l).iface.loop with
          | .onHook => .onHook
          | .wait n _ => .wait n (if Config.pinSample s.samples p then some (s.now + 20) else none)
          | .present => if Config.pinSample s.samples p then .present else .doubt (s.now + 300)
          | .doubt _ => if Config.pinSample s.samples p then .present else .doubt (s.now + 300)
          | .lost => .lost } } with samples := s.samples + 1 } := by
  have hloop (i : Iface) (hi : i.loopSuspended = false) (v : Bool) :
      (if i.loopSuspended then i.loop else match i.loop with
        | .doubt _ => if v then LoopDeb.present else .doubt (s.now + 300)
        | other => loopStep s.now v other) = match i.loop with
          | .onHook => .onHook
          | .wait n _ => .wait n (if v then some (s.now + 20) else none)
          | .present => if v then .present else .doubt (s.now + 300)
          | .doubt _ => if v then .present else .doubt (s.now + 300)
          | .lost => .lost := by
    rw [if_neg (by simp [hi])]
    cases i.loop <;> rfl
  have hplaced := congrArg (fun x : LoopDeb => { s.setLine l { s.line l with iface := { (s.line l).iface with
    loopIn := Config.pinSample s.samples p, loop := x } } with samples := s.samples + 1 }) (hloop _ h (Config.pinSample s.samples p))
  cases l <;> exact hplaced

theorem placeExt_eq (p : Nat) : placeExt l p s =
    { s.setLine l { s.line l with iface := { (s.line l).iface with
        extIn := Config.pinSample s.samples p
        extDue := if Config.pinSample s.samples p = (s.line l).iface.extState then none else some (s.now + 50) } } with
      samples := s.samples + 1 } := by
  cases l <;> rfl

/-- EXT withdrawn: with no job the hang-up dispatches none. -/
theorem finish_withdrawExt (hs : s.requests = []) (hj : s.jobs = []) : finish (withdrawExt l s) =
    modIface l (fun i => { i with extIn := false, extState := false, extDue := none }) s := by
  have hreq : (modIface l (fun i => { i with extIn := false, extState := false, extDue := none }) s).requests = [] := by simp [modIface, hs]
  rw [withdrawExt]
  split
  · exact finish_post (r := .extHangup l) hreq (dispatchLine_of_no_jobs l (by cases l <;> exact hj)) hreq
  · exact finish_of_none _ hreq

end

/-- Settles O25: the checks of PINS in their order, then the one input that moves. -/
theorem pinsAssignsFunctions : Obligations.PinsAssignsFunctions := by
  intro raw s hs
  refine ⟨fun h => ?_, fun pins hpins hlen => ⟨fun h => ?_, fun hplaced h => ?_, fun hplaced hhook => ?_⟩⟩
  · exact exec_of_op (opPins_badParam (pins := []) (.inl (pinsOf_eq_none h))) (by simp [hs])
  · refine exec_of_op (opPins_badParam (.inr ⟨hpins, ?_⟩)) (by simp [hs])
    rcases h with ⟨j, k, p, q, hjk, hp, hq, hfn, hin, hout⟩ | ⟨k, p, hk, hp, hin⟩
    · exact pinsPlaced_of_twice hjk hp hq hfn hin hout
    · exact pinsPlaced_of_high hk hp hin
  · obtain ⟨l, h⟩ := h
    refine exec_of_op ((opPins_of_placed hpins hlen hplaced).trans (if_pos ?_)) (by simp [hs])
    rw [Bool.or_eq_true]
    cases l
    · exact .inl (decide_eq_true h)
    · exact .inr (decide_eq_true h)
  · intro assigned others
    have hstand (l : Line) : hookMoves s pins l = false := decide_eq_false fun h => (hhook l).elim h.1 h.2
    have hop {t : State} (h : moveInputs .B s.pins pins (moveInputs .A s.pins pins assigned) = t) : opOf (.pins raw) s = t :=
      (opPins_of_placed hpins hlen hplaced).trans ((if_neg (by simp [hstand])).trans h)
    have hreq : assigned.requests = [] := by simp [assigned, hs]
    have hassigned : assigned = { s with link := s.link.push (.done 0x50#8 .ok []), pins := pins } := by
      simp only [assigned, done_eq]
    have hline (l : Line) : assigned.line l = s.line l := by rw [hassigned]; cases l <;> rfl
    have hmod (l : Line) (f : Iface → Iface) :
        modIface l f assigned = assigned.setLine l { s.line l with iface := f (s.line l).iface } := by rw [modIface, hline]
    refine ⟨fun h => ?_, fun l => ?_⟩
    · refine exec_of_op (hop ?_) hreq
      have hall (g : PinFn) : OthersStand s.pins pins g := h g
      rw [(hall .inp).line, (hall .inp).line] <;> decide
    intro x i with_
    have hreqs (y : LineState) : (assigned.setLine l y).requests = [] := by simpa using hreq
    have hnow : assigned.now = s.now ∧ assigned.samples = s.samples := by rw [hassigned]; exact ⟨rfl, rfl⟩
    refine ⟨fun h ho hn => ⟨fun hring => ?_, fun start due hring hwatch => ?_⟩, fun h hn => ?_, fun h ho hn hst => ?_,
      fun p h hn hmoved hsusp => ?_, fun h ho hn hj => ?_, fun p h hn hmoved => ?_⟩
    · exact exec_of_op (hop (((OthersStand.ring h).trans (moveInput_withdrawn ho hn)).trans
        ((withdrawRing_off (by rw [hline]; exact hring)).trans (hmod l _)))) (hreqs _)
    · refine exec_of_op (hop (((OthersStand.ring h).trans (moveInput_withdrawn ho hn)).trans
        ((withdrawRing_on (by rw [hline]; exact hring) (by rw [hassigned]; exact hwatch)).trans ?_))) (hreqs _)
      rw [hline, hnow.1] <;> rfl
    · exact exec_of_op (hop ((OthersStand.ring h).trans (moveInput_idle hn))) hreq
    · refine (exec_finish (hop ((OthersStand.loop h).trans (moveInput_withdrawn ho hn)))).trans (congrArg _ ?_)
      exact (finish_withdrawLoop hreq (by rw [State.st, hline]; exact hst)).trans (hmod l _)
    · refine exec_of_op (hop (((OthersStand.loop h).trans (moveInput_placed hn hmoved)).trans
        ((placeLoop_eq p (by rw [hline]; exact hsusp)).trans ?_))) (hreqs _)
      rw [hline, hnow.1, hnow.2] <;> rfl
    · refine (exec_finish (hop ((OthersStand.ext h).trans (moveInput_withdrawn ho hn)))).trans (congrArg _ ?_)
      exact (finish_withdrawExt hreq (by rw [hassigned]; exact hj)).trans (hmod l _)
    · refine exec_of_op (hop (((OthersStand.ext h).trans (moveInput_placed hn hmoved)).trans
        ((placeExt_eq p).trans ?_))) (hreqs _)
      rw [hline, hnow.1, hnow.2]

end Sys2Proof.Machine
end

section
/-! PROOFS. The rules of the call controller and the voice engine on one line, and three timers of a call (R63, R72, R73, R80, R183). -/

namespace Sys2Proof.Machine

/-! ### Changes of one line beside the store -/

section
variable (s : State) (l : Line) (x : LineState) (k : Link)

@[simp] theorem modStore_put (f : Store → Store) : modStore f (s.put l x k) = (modStore f s).put l x k := by cases l <;> rfl

/-- A message created for an owner, with its writing stream. -/
def State.created (e : Entry) (o : Owner) (s : State) : State := modStore (fun t => { t with
  dir := t.dir ++ [e], creation := nextCreation t.creation
  nextId := skipIds (t.dir ++ [e]) 97 (nextIdAfter e.id), writers := t.writers ++ [newWriter e.id o] }) s

theorem createMessage_eq (o : Owner) (kind : MsgKind) (mailbox : Option Nat) (coding : Coding) :
    createMessage o kind mailbox coding s = s.created (newEntry s o kind mailbox coding) o := rfl

theorem created_put (e : Entry) (o : Owner) : (s.put l x k).created e o = (s.created e o).put l x k := modStore_put ..

@[simp] theorem created_mailboxes (e : Entry) (o : Owner) : (s.created e o).mailboxes = s.mailboxes := rfl
@[simp] theorem created_now (e : Entry) (o : Owner) : (s.created e o).now = s.now := rfl
@[simp] theorem created_requests (e : Entry) (o : Owner) : (s.created e o).requests = s.requests := rfl

theorem readerOf_line (o : Owner) : readerOf (s.put l x k) o = readerOf s o := by
  cases l <;> rcases o with (_ | _) | _ <;> rfl

theorem freshId_put : freshId (s.put l x k) = freshId s := by cases l <;> rfl

/-! ### The call -/

/-- The call without the timers and watches of a state that the line leaves. -/
def Call.timeless (c : Call) : Call :=
  { c with
    ringDue := none, dialToneDue := none, blindDue := none, progressDue := none, watchDue := none, classifyDue := none
    digitDue := none, step := .none, stepDue := none, firstRing := false, watchArmed := false }

@[simp] theorem clearTimers_put : clearTimers l (s.put l x k) = s.put l { x with call := x.call.timeless } k := modCall_put ..

@[simp] theorem modRecord_put (f : CallRecord → CallRecord) :
    modRecord l f (s.put l x k) = s.put l { x with call := { x.call with cr := f x.call.cr } } k := modCall_put ..

/-! ### Tones and the voice engine -/

/-- A signal requested while none sounds. -/
theorem requestTone_put (sig : ToneSignal) (h : x.iface.tone = none) : requestTone l sig (s.put l x k) =
    s.put l { x with iface := { x.iface with tone := some ⟨sig, true, s.now + sig.firstInterval⟩ } } k := by
  rw [requestTone, put_line, h]
  simp only [modIface_put, put_now]

@[simp] theorem stopTone_put : stopTone l (s.put l x k) = s.put l { x with iface := { x.iface with tone := none } } k := modIface_put ..

theorem setSub_put (sub : Option VoiceSub) : setSub l sub (s.put l x k) =
    s.put l ({ x with voice := { x.voice with sub := sub } } : LineState).judge
      (k.judge l { x with voice := { x.voice with sub := sub } }) := by
  rw [setSub, modVoice_put]; exact judgeExpectation_put ..

@[simp] theorem reportVoice_put (e : VoiceEvent) (r : EndReason) (n : Nat) :
    reportVoice l e r n (s.put l x k) = s.put l x (k.push (.voice l e r n)) := queueReport_put ..

/-- The greeting of a line that reads no message stops. -/
theorem closeGreeting_put (h : readerOf s (.line l) = none) :
    closeGreeting l (s.put l x k) = s.put l { x with voice := { x.voice with silentDue := none } } k := by
  rw [closeGreeting, modVoice_put, closeReader, readerOf_line, h]

end

/-- A change of state after which the expectation stands as it was, no call state with a carrier being left. -/
theorem LineState.enter_of_agreeing {x : LineState} {st : LineSt} {r : LineReason} {now : Nat}
    (h : x.iface.expecting = (x.setSt st r now).expects) (hc : x.call.st.carries = false) :
    x.enter st r now = x.setSt st r now := by
  rw [LineState.enter, if_neg (by simp [hc]), LineState.judge_of_agreeing (x := x.setSt st r now) h]

theorem Link.enter_of_agreeing {x : LineState} {st : LineSt} {r : LineReason} {missed : Option (Nat × Option CallerRecord)} {now : Nat}
    (l : Line) (k : Link) (h : x.iface.expecting = (x.setSt st r now).expects) (hc : x.call.st.carries = false) :
    k.enter l st r missed now x = k.push (.line l st r missed) := by
  rw [Link.enter]
  simp only [hc, Bool.false_eq_true, false_and, if_false]
  exact Link.judge_of_agreeing (x := x.setSt st r now) h l _

/-- The reports of a release where no monitor source is set: LINE alone. -/
theorem Link.released_of_quiet {x : LineState} (h : x.Quiet) (l : Line) (r : ReleaseReason) (now : Nat) (k : Link) :
    k.released l r now x = k.push (.line l .cleardown (.release r) none) := by
  have hy : (x.enter .cleardown (.release r) now).onHook.Quiet := h.enter _ _ _
  have hz : (x.released r now).Quiet := by
    have : ((x.enter .cleardown (.release r) now).onHook.deliver .loopLoss false).Quiet := by rwa [LineState.deliver_of_get (hy.get _)]
    exact this
  rw [Link.released, Link.judge_of_quiet hz, Link.deliver_of_get (hy.get _), Link.enter_of_quiet h]

/-! ### Three timers of a call (R72, R73, R80, R183) -/

section
variable {s : State} {l : Line} {due : Nat}

theorem opDigitTimerExpiry_eq (h : (s.line l).call.digitDue = some due) : opDigitTimerExpiry l s =
    modCall l (fun c => { c with digits := [], digitDue := none }) (elapse due s) := by
  rw [opDigitTimerExpiry, h]

theorem opAnswerWatchArm_eq (h : (s.line l).call.watchDue = some due) (hst : s.st l = .progress)
    (hr : (s.line l).call.ringback = false) : opAnswerWatchArm l s = armWatch l (elapse due s) := by
  rw [opAnswerWatchArm, h]; exact if_pos ⟨hst, hr⟩

/-- The line as it enters VOICE from CLASSIFY, the greeting over, before the voice engine goes on. -/
def LineState.intoVoice (now : Nat) (x : LineState) : LineState :=
  let y := ({ x with call := x.call.timeless } : LineState).enter .voice (.change .windowEnd) now
  { y with voice := { y.voice with silentDue := none } }

/-- The classify window ends: the line enters VOICE and the greeting is over. -/
theorem opClassifyWindowExpiry_eq (h : (s.line l).call.classifyDue = some due) (hst : s.st l = .classify)
    (hr : readerOf s (.line l) = none) {u : State} (hu : u = (s.at (max s.now due)).put l ((s.line l).intoVoice (max s.now due))
      (s.link.enter l .voice (.change .windowEnd) none (max s.now due) { s.line l with call := (s.line l).call.timeless })) :
    opClassifyWindowExpiry l s =
      if recordingRefused u then askRelease l .voiceDone (reportVoice l .ended .noSpace 0 (setSub l none u))
      else enterBeep l (createRecording l .answered (s.line l).call.cr.mailbox (mailboxSettings u (s.line l).call.cr.mailbox).1
        (mailboxSettings u (s.line l).call.cr.mailbox).2 u) := by
  have hstart : elapse due s = (s.at (max s.now due)).put l (s.line l) s.link := by cases l <;> rfl
  have hmail : (({ s.line l with call := (s.line l).call.timeless } : LineState).enter .voice (.change .windowEnd) (max s.now due)).call.cr.mailbox =
      (s.line l).call.cr.mailbox := by rw [LineState.enter_frame]; rfl
  rw [opClassifyWindowExpiry, h]
  dsimp only
  rw [if_pos hst, classifyToVoice, hstart, clearTimers_put, changeState_put, voiceFromClassify]
  dsimp only
  rw [put_line, at_now, closeGreeting_put _ _ _ _ (by cases l <;> exact hr), hmail, hu]
  rfl

end

section
variable {s : State} {l : Line} {x : LineState} {k : Link}

/-- A recording's message created, and the engine prepared for it. -/
theorem createRecording_put (kind : VoiceKind) (mailbox : Option Nat) (coding : Coding) (seconds : Nat) :
    createRecording l kind mailbox coding seconds (s.put l x k) =
      (s.created (newEntry (s.put l x k) (.line l) .voice mailbox coding) (.line l)).put l { x with voice := { initialVoice with
        sub := x.voice.sub, kind := some kind, message := some (freshId s), mailbox := mailbox, coding := coding
        limit := seconds * secondBytes coding } } k := by
  rw [createRecording]
  dsimp only
  rw [createMessage_eq, created_put, modVoice_put, freshId_put]

/-- The beep begins on a line that expects no far-end signal. -/
theorem enterBeep_put (ht : x.iface.tone = none)
    (he : x.iface.expecting = ({ x with voice := { x.voice with sub := some .beep } } : LineState).expects) :
    enterBeep l (s.put l x k) = s.put l { x with
      voice := { x.voice with sub := some .beep }
      iface := { x.iface with tone := some ⟨.beep x.profile.beepFrequency x.profile.beepDuration, true,
        s.now + (ToneSignal.beep x.profile.beepFrequency x.profile.beepDuration).firstInterval⟩ } } k := by
  rw [enterBeep]
  dsimp only
  rw [put_line, setSub_put, LineState.judge_of_agreeing he, Link.judge_of_agreeing he, requestTone_put _ _ _ _ _ (by exact ht)]

end

/-- The settings of a mailbox, or ADC4 and 120 s for none. -/
theorem mailboxSettings_eq (s : State) (mailbox : Option Nat) : mailboxSettings s mailbox =
    (((mailbox.bind fun m => s.mailboxes[m]?).map (·.coding)).getD .adc4, ((mailbox.bind fun m => s.mailboxes[m]?).map (·.maxLength)).getD 120) := by
  rw [mailboxSettings]; cases mailbox.bind fun m => s.mailboxes[m]? <;> rfl

/-- The entry to VOICE of a line that expects no far-end signal. -/
theorem intoVoice_of_agreeing {x : LineState} (hst : x.call.st = .classify) (hsub : x.voice.sub = some .greeting)
    (hexp : x.iface.expecting = false) (now : Nat) :
    x.intoVoice now = { x with
      call := { x.call.timeless with st := .voice, reason := some (.change .windowEnd) }
      voice := { x.voice with silentDue := none } } ∧
    ∀ (l : Line) (k : Link), k.enter l .voice (.change .windowEnd) none now { x with call := x.call.timeless } =
      k.push (.line l .voice (.change .windowEnd) none) := by
  have hagree : ({ x with call := x.call.timeless } : LineState).iface.expecting =
      (({ x with call := x.call.timeless } : LineState).setSt .voice (.change .windowEnd) now).expects := by
    simp [hexp, LineState.expects, LineState.setSt, hsub]
  have hcarries : ({ x with call := x.call.timeless } : LineState).call.st.carries = false := by
    simp [Call.timeless, hst, LineSt.carries]
  refine ⟨?_, fun l k => Link.enter_of_agreeing l k hagree hcarries⟩
  rw [LineState.intoVoice]
  dsimp only
  rw [LineState.enter_of_agreeing hagree hcarries]
  simp only [LineState.setSt, Call.timeless, hst, reduceCtorEq, if_false]

/-- The classify window of a line whose recording finds room: its message is created and the beep sounds. -/
theorem classifyWindow_records {s : State} {l : Line} {due : Nat} (h : (s.line l).call.classifyDue = some due)
    (hst : s.st l = .classify) (hready : s.store.st = .ready) (hfree : s.store.settings.reserve < s.store.free.length)
    (hdir : s.store.dir.length < 96) (hsub : (s.line l).voice.sub = some .greeting) (hreader : readerOf s (.line l) = none)
    (htone : (s.line l).iface.tone = none) (hexp : (s.line l).iface.expecting = false) :
    ∃ e, e = newEntry ((s.at (max s.now due)).put l ((s.line l).intoVoice (max s.now due))
        (s.link.push (.line l .voice (.change .windowEnd) none))) (.line l) .voice (s.line l).call.cr.mailbox
        (mailboxSettings s (s.line l).call.cr.mailbox).1 ∧
      opClassifyWindowExpiry l s = ((s.at (max s.now due)).created e (.line l)).put l { s.line l with
        call := { (s.line l).call.timeless with st := .voice, reason := some (.change .windowEnd) }
        iface := { (s.line l).iface with tone := some ⟨.beep (s.line l).profile.beepFrequency (s.line l).profile.beepDuration, true,
          max s.now due + (s.line l).profile.beepDuration⟩ }
        voice := { initialVoice with
          sub := some .beep, kind := some .answered, message := some (freshId s), mailbox := (s.line l).call.cr.mailbox
          coding := (mailboxSettings s (s.line l).call.cr.mailbox).1
          limit := (mailboxSettings s (s.line l).call.cr.mailbox).2 * secondBytes (mailboxSettings s (s.line l).call.cr.mailbox).1 } }
        (s.link.push (.line l .voice (.change .windowEnd) none)) := by
  obtain ⟨hinto, hlink⟩ := intoVoice_of_agreeing hst hsub hexp (max s.now due)
  have hop := opClassifyWindowExpiry_eq h hst hreader rfl
  have hroom (x : LineState) (k : Link) : recordingRefused ((s.at (max s.now due)).put l x k) = false := by
    simp only [recordingRefused, createRefused, storeReady, freeCount, put_store, State.at, hready]
    simp only [decide_true, Bool.not_true, Bool.false_or, Bool.or_eq_false_iff, decide_eq_false_iff_not]
    omega
  refine ⟨_, rfl, ?_⟩
  rw [hop, hlink, hroom, if_neg Bool.false_ne_true, createRecording_put, hinto, enterBeep_put (by exact htone)]
  · cases l <;> rfl
  · simp [hexp, LineState.expects]

/-- The classify window of a line whose recording is refused: VOICE END, and the release asked for. -/
theorem classifyWindow_refused {s : State} {l : Line} {due : Nat} (h : (s.line l).call.classifyDue = some due)
    (hst : s.st l = .classify)
    (hrefused : s.store.st ≠ .ready ∨ s.store.free.length ≤ s.store.settings.reserve ∨ 96 ≤ s.store.dir.length)
    (hreader : readerOf s (.line l) = none) {x : LineState} {k : Link} (hx : x = { (s.line l).intoVoice (max s.now due) with
      voice := { ((s.line l).intoVoice (max s.now due)).voice with sub := none } })
    (hk : k = s.link.enter l .voice (.change .windowEnd) none (max s.now due) { s.line l with call := (s.line l).call.timeless }) :
    opClassifyWindowExpiry l s =
      askRelease l .voiceDone ((s.at (max s.now due)).put l x.judge ((k.judge l x).push (.voice l .ended .noSpace 0))) := by
  have hop := opClassifyWindowExpiry_eq h hst hreader rfl
  have hroom (x : LineState) (k : Link) : recordingRefused ((s.at (max s.now due)).put l x k) = true := by
    simp only [recordingRefused, createRefused, storeReady, freeCount, put_store, State.at]
    simp only [Bool.or_eq_true, Bool.not_eq_true', decide_eq_false_iff_not, decide_eq_true_eq]
    exact hrefused
  rw [hop, hroom, if_pos rfl, setSub_put, reportVoice_put, hx, hk]

theorem settleAttempt_of_reason {s : State} {l : Line} {r : ReleaseReason} (h : r ≠ .busy ∧ r ≠ .noAnswer ∧ r ≠ .noCarrier) :
    settleAttempt l r s = s := by
  unfold settleAttempt
  dsimp only
  rw [if_neg]
  rintro ⟨-, -, h' | h' | h'⟩
  · exact h.1 h'
  · exact h.2.1 h'
  · exact h.2.2 h'

/-- The entry to CLEARDOWN of a line without work and without a job, for a reason that no attempt record counts. -/
theorem enterCleardown_put_uncounted (s : State) (l : Line) {x : LineState} (k : Link) {r : ReleaseReason} (h : x.Workless)
    (hjob : x.call.cr.job = none) (hr : r ≠ .busy ∧ r ≠ .noAnswer ∧ r ≠ .noCarrier) :
    enterCleardown l r (s.put l x k) = s.put l (x.cleardown r s.now) (k.released l r s.now x) := by
  rw [enterCleardown_put_of_no_job s l k r h hjob]
  dsimp only
  rw [settleAttempt_of_reason hr, put_attempts, ite_self]
  cases l <;> rfl

/-- Settles O41, timer by timer. -/
theorem callTimersAct : Obligations.CallTimersAct := by
  intro l due s hs x now
  refine ⟨fun h => ?_, fun h hst hr => ?_, fun h hst hready hfree hdir hsub hreader htone hexp => ?_,
    fun h hst hrefused hsub hreader hjob href hrole htone => ?_⟩
  · refine (exec_of_op (c := .digitTimerExpiry l) (opDigitTimerExpiry_eq h) (by simp [modCall, elapse, hs])).trans ?_
    cases l <;> rfl
  · refine (exec_of_op (c := .answerWatchArm l) (opAnswerWatchArm_eq h hst hr) (by simp [armWatch, modCall, elapse, hs])).trans ?_
    cases l <;> rfl
  · obtain ⟨e, he, hop⟩ := classifyWindow_records h hst hready hfree hdir hsub hreader htone hexp
    have hmb : e.mailbox = x.call.cr.mailbox ∧ e.coding = (mailboxSettings s x.call.cr.mailbox).1 := by rw [he]; exact ⟨rfl, rfl⟩
    have hid : e.id = freshId s := by rw [he]; exact freshId_put (s.at _) l _ _
    have hcr : e.creation = s.store.creation := by rw [he]; exact congrArg Store.creation (put_store (s.at _) l _ _)
    have hnew : e.kind = .voice ∧ e.state = .opened ∧ e.length = 0 := by rw [he]; exact ⟨rfl, rfl, rfl⟩
    obtain ⟨hkind, hstate, hlength⟩ := hnew
    rw [mailboxSettings_eq] at hop hmb
    refine ⟨_, exec_of_op (c := .classifyWindowExpiry l) hop (by simp [State.at, hs]), ?_⟩
    rw [queueReport_eq]
    cases l <;> exact ⟨rfl, rfl, rfl, rfl, rfl, rfl, rfl, rfl, rfl, ⟨e, rfl, hid, hkind, hstate, hlength, hmb.1, hmb.2, hcr⟩,
      ⟨_, rfl, hid, rfl, rfl⟩, rfl, rfl⟩
  · have hop := classifyWindow_refused h hst hrefused hreader rfl rfl
    generalize hy : ({ (s.line l).intoVoice (max s.now due) with
      voice := { ((s.line l).intoVoice (max s.now due)).voice with sub := none } } : LineState) = y at hop
    have hyframe : y.iface.tone = none ∧ y.fax.role = none ∧ y.voice.sub = none ∧ y.call.refHeld = false ∧
        y.call.st = .voice ∧ y.call.cr.job = none := by
      rw [← hy, LineState.intoVoice, LineState.enter_frame]
      exact ⟨htone, hrole, rfl, href, rfl, hjob⟩
    obtain ⟨htone', hrole', hsub', href', hst', hjob'⟩ := hyframe
    have hw : y.judge.Workless := by rw [LineState.judge_frame]; exact ⟨htone', hrole', hsub', href'⟩
    have hcall : y.judge.call = y.call := by rw [LineState.judge_frame]
    have hdown (k : Link) := enterCleardown_put_uncounted (s.at now) l (x := y.judge) k (r := .voiceDone) hw (by rw [hcall, hjob'])
      (by decide)
    have hreq (x : LineState) (k : Link) : ((s.at now).put l x k).requests = [] := (put_requests ..).trans hs
    refine ⟨_, (exec_finish (c := .classifyWindowExpiry l) hop).trans (congrArg _ ((finish_askRelease (hreq _ _)
      (by rw [put_st, hcall, hst']; rfl) ((congrArg State.requests (hdown _)).trans (hreq _ _))).trans (hdown _))), ?_⟩
    obtain ⟨e, lo, hi, cur, lat, hx⟩ := y.judge.cleardown_frame .voiceDone (s.at now).now
    refine ⟨(put_st ..).trans (by rw [hx]; rfl), by rw [put_line, hx]; rfl, by rw [put_line, hx]; rfl, fun hquiet => ?_, ?_⟩
    · have hq : ({ s.line l with call := (s.line l).call.timeless } : LineState).Quiet := hquiet
      have hyq : y.Quiet := by rw [← hy]; exact hq.enter .voice (.change .windowEnd) now
      rw [put_link, Link.released_of_quiet hyq.judge, Link.judge_of_quiet hyq, Link.enter_of_quiet hq, queueReports_eq]
      rfl
    · cases l <;> rfl

end Sys2Proof.Machine
end

section
/-! PROOFS. DIAL: its checks and the entry to SEIZE (R74 to R76). -/

namespace Sys2Proof.Machine

/-! ### The hook closes (R25, R76) -/

theorem hasPin_put (s : State) (l : Line) (x : LineState) (k : Link) (f : PinFn) : hasPin (s.put l x k) f = hasPin s f := by cases l <;> rfl

/-- A line interface whose hook has closed, the loop awaited from this moment. -/
def Iface.seized (now : Nat) (i : Iface) : Iface :=
  { i with
    hook := true, loopSuspended := false, loop := .wait (now + 1000) (if i.loopIn then some (now + 20) else none) }

theorem closeHook_put {s : State} {l : Line} {x : LineState} {k : Link} (hloop : x.iface.loop = .onHook)
    (hpin : hasPin s (loopFn l) = true) : closeHook l (s.put l x k) = s.put l { x with iface := x.iface.seized s.now } k := by
  rw [closeHook]
  simp only [modIface_put, put_line, hloop, if_true, hasPin_put, hpin, put_now]
  rfl

/-- A call that enters SEIZE. -/
def Call.seized (r : ChangeReason) (now : Nat) (c : Call) : Call :=
  { c with
    st := .seize, reason := some (.change r), leftAt := if c.st = .idle then now else c.leftAt, loopUp := false, toneHeard := false }

/-- The entry to SEIZE of an on-hook line that expects no far-end signal. -/
theorem enterSeize_put {s : State} {l : Line} {x : LineState} {k : Link} {r : ChangeReason} (hloop : x.iface.loop = .onHook)
    (hpin : hasPin s (loopFn l) = true) (hst : x.call.st = .idle) (hexp : x.iface.expecting = false) (hsub : x.voice.sub = none) :
    enterSeize l r (s.put l x k) = s.put l { x with call := x.call.seized r s.now, iface := x.iface.seized s.now }
      (k.push (.line l .seize (.change r) none)) := by
  have hagree : x.iface.expecting = (x.setSt .seize (.change r) s.now).expects := by
    simp [hexp, LineState.expects, LineState.setSt, hsub]
  have hcarries : x.call.st.carries = false := by rw [hst]; rfl
  rw [enterSeize, changeState_put, LineState.enter_of_agreeing hagree hcarries, Link.enter_of_agreeing l k hagree hcarries, modCall_put,
    closeHook_put (by exact hloop) hpin]
  rfl

/-! ### Attempt records -/

theorem prepareAttempt_eq (number : List Byte) (s : State) :
    prepareAttempt number s = { s with attempts := (prepareAttempt number s).attempts } := by
  unfold prepareAttempt
  dsimp only
  repeat' split
  all_goals rfl

/-- The attempt records and the seconds counter decide what a try makes of the records. -/
theorem prepareAttempt_congr {number : List Byte} {s t : State} (ha : t.attempts = s.attempts) (hk : t.link.seconds = s.link.seconds) :
    (prepareAttempt number t).attempts = (prepareAttempt number s).attempts := by
  have hslot : attemptSlot t = attemptSlot s := by rw [attemptSlot, attemptSlot, oldestAttempt, oldestAttempt, ha]
  have hindex : attemptIndex t number = attemptIndex s number := by rw [attemptIndex, attemptIndex, ha]
  unfold prepareAttempt
  dsimp only
  rw [hindex, hslot, ha, hk]
  repeat' split
  all_goals first | rfl | exact ha

/-! ### DIAL -/

section
variable {line mode : Byte} {l : Line} {m : CallMode} {msg : Word16} {str : List Byte} {s : State}

/-- The call that DIAL makes. -/
def dialRecord (m : CallMode) (msg : Word16) (str : List Byte) : CallRecord :=
  { emptyCallRecord with
    dir := some .outgoing, mode := some m, dialled := str, number := dialNumber str
    message := if m = .data then none else some msg.toNat }

/-- The effects of a DIAL that has passed its checks. -/
def dialTaken (l : Line) (m : CallMode) (msg : Word16) (str : List Byte) (s : State) : State :=
  let s := prepareAttempt (dialNumber str) (modRecord l (fun _ => dialRecord m msg str) (done 0x44#8 .ok [] s))
  enterSeize l .dial (if m = .data then s else modCall l (fun c => { c with refHeld := true }) (takeRef msg.toNat s))

theorem CallMode.ofDial_eq_none {n : Nat} (h : n = 0 ∨ 3 < n) : CallMode.ofDial n = none := by
  unfold CallMode.ofDial; split <;> simp_all

theorem opDial_badParam (h : lineOf line = none ∨ CallMode.ofDial mode.toNat = none) :
    opDial line mode msg str s = done 0x44#8 .badParam [] s := by
  rcases h with h | h
  · rw [opDial, h]
  · rw [opDial, h]; cases lineOf line <;> rfl

/-- What is checked behind the operands, the state of the line and its extension: the message, the screen list, the attempts. -/
def dialOutcome (l : Line) (m : CallMode) (msg : Word16) (str : List Byte) (s : State) : State :=
  if m ≠ .data ∧ storeReady s = false then done 0x44#8 .notReady [] s
  else if m ≠ .data ∧ messageFits s m msg.toNat = false then done 0x44#8 .noEntry [] s
  else if outgoingBarred s (s.line l).profile.screenBar (dialNumber str) then done 0x44#8 .screened [] s
  else
    match consultAttempts s (dialNumber str) with
    | .barred => done 0x44#8 .barred [] s
    | .delayed left => done 0x44#8 .delayed (numBytes 2 (min 65535 left)) s
    | .allowed => dialTaken l m msg str s

theorem opDial_eq (hl : lineOf line = some l) (hm : CallMode.ofDial mode.toNat = some m) : opDial line mode msg str s =
    if dialStringOk (s.line l).profile.dialMethod str = false ∨ (m ≠ .data ∧ msg = 0#16) then done 0x44#8 .badParam [] s
    else if s.st l ≠ .idle ∨ hasHook s l = false ∨ (m = .fax ∧ faxRungs s.ladder = []) then done 0x44#8 .badState [] s
    else if (s.line l).profile.extPolicy = .yieldLine ∧ (s.line l).iface.extState then done 0x44#8 .busy [] s
    else dialOutcome l m msg str s := by
  rw [opDial, hl, hm]
  rfl

/-- DIAL as far as its message, when operands, line and extension allow it. -/
theorem opDial_outcome (hl : lineOf line = some l) (hm : CallMode.ofDial mode.toNat = some m)
    (hstr : dialStringOk (s.line l).profile.dialMethod str = true) (hmsg : m = .data ∨ msg ≠ 0#16) (hst : s.st l = .idle)
    (hhook : hasHook s l = true) (hfax : m = .fax → faxRungs s.ladder ≠ [])
    (hext : (s.line l).profile.extPolicy = .keep ∨ (s.line l).iface.extState = false) :
    opDial line mode msg str s = dialOutcome l m msg str s := by
  rw [opDial_eq hl hm, if_neg, if_neg, if_neg]
  · rintro ⟨h1, h2⟩
    rcases hext with h | h
    · rw [h1] at h; cases h
    · rw [h2] at h; cases h
  · rintro (h | h | ⟨h1, h2⟩)
    · exact h hst
    · rw [hhook] at h; cases h
    · exact hfax h1 h2
  · rintro (h | ⟨h1, h2⟩)
    · rw [hstr] at h; cases h
    · exact hmsg.elim h1 fun h => h h2

/-- DIAL whose message, if it has one, may be taken. -/
theorem dialOutcome_of_message (hmsg : m = .data ∨ s.store.st = .ready ∧ messageFits s m msg.toNat = true) :
    dialOutcome l m msg str s =
      if outgoingBarred s (s.line l).profile.screenBar (dialNumber str) then done 0x44#8 .screened [] s
      else match consultAttempts s (dialNumber str) with
        | .barred => done 0x44#8 .barred [] s
        | .delayed left => done 0x44#8 .delayed (numBytes 2 (min 65535 left)) s
        | .allowed => dialTaken l m msg str s := by
  rw [dialOutcome, if_neg, if_neg] <;> rcases hmsg with rfl | ⟨hready, hfits⟩ <;> simp_all [storeReady]

/-- The state with a reference more on a message, or as it is for a call without one. -/
def State.referenced (m : CallMode) (id : Nat) (s : State) : State := if m = .data then s else takeRef id s

/-- The line of a DIAL that has passed its checks. -/
def LineState.dialled (m : CallMode) (msg : Word16) (str : List Byte) (now : Nat) (x : LineState) : LineState :=
  { x with
    call := { (x.call.seized .dial now) with cr := dialRecord m msg str, refHeld := if m = .data then x.call.refHeld else true }
    iface := x.iface.seized now }

theorem dialTaken_eq (hst : s.st l = .idle) (hpin : hasPin s (loopFn l) = true) (hloop : (s.line l).iface.loop = .onHook)
    (hexp : (s.line l).iface.expecting = false) (hsub : (s.line l).voice.sub = none) : dialTaken l m msg str s =
      { (s.referenced m msg.toNat).put l ((s.line l).dialled m msg str s.now)
          ((s.link.push (.done 0x44#8 .ok [])).push (.line l .seize (.change .dial) none)) with
        attempts := (prepareAttempt (dialNumber str) s).attempts } := by
  have hstart : modRecord l (fun _ => dialRecord m msg str) (done 0x44#8 .ok [] s) = s.put l
      { s.line l with call := { (s.line l).call with cr := dialRecord m msg str } } (s.link.push (.done 0x44#8 .ok [])) := by
    rw [done_eq]; cases l <;> rfl
  have hprepare (x : LineState) : prepareAttempt (dialNumber str) (s.put l x (s.link.push (.done 0x44#8 .ok []))) =
      ({ s with attempts := (prepareAttempt (dialNumber str) s).attempts } : State).put l x (s.link.push (.done 0x44#8 .ok [])) := by
    have hk : (s.put l x (s.link.push (.done 0x44#8 .ok []))).link.seconds = s.link.seconds := by rw [put_link, Link.push_seconds]
    rw [prepareAttempt_eq, prepareAttempt_congr (put_attempts ..) hk]
    cases l <;> rfl
  rw [dialTaken]
  dsimp only
  rw [hstart, hprepare]
  by_cases hm : m = .data
  · rw [if_pos hm, State.referenced, if_pos hm, enterSeize_put (by exact hloop) (by exact hpin) (by exact hst) (by exact hexp) (by exact hsub)]
    subst hm
    cases l <;> rfl
  · rw [if_neg hm, State.referenced, if_neg hm, takeRef, modEntry, modStore_put, modCall_put,
      enterSeize_put (by exact hloop) (by exact hpin) (by exact hst) (by exact hexp) (by exact hsub), LineState.dialled, if_neg hm]
    cases l <;> rfl

end

/-- The message of a call fits when R75's conditions hold. -/
theorem messageFits_iff {s : State} {m : CallMode} {id : Nat} {e : Entry} (he : findEntry s id = some e) (hm : m = .fax ∨ m = .voice) :
    messageFits s m id = true ↔ e.state = .closed ∧ e.erasePending = false ∧ e.inUse < 255 ∧
      (if m = .fax then e.kind = .fax else e.kind = .voice ∨ e.kind = .file ∧ e.coding ≠ .none) := by
  rw [messageFits, he]
  simp only [canRef, he, playable]
  rcases hm with rfl | rfl <;> simp <;> tauto

/-- Settles O36: the checks of DIAL in their order, then the entry to SEIZE. -/
theorem dialChecksThenSeizes : Obligations.DialChecksThenSeizes := by
  refine ⟨?_, ?_⟩
  · intro line mode l m msg str s hs p
    refine ⟨fun h => ?_, fun hline hm => ?_⟩
    · exact exec_of_op (opDial_badParam (h.imp_right CallMode.ofDial_eq_none)) (by simp [hs])
    have hl : lineOf line = some l := by rw [hline, lineOf_lineByte]
    refine ⟨fun h => ?_, fun hstr hmsg => ⟨fun h => ?_, fun hst hhook hfax => ⟨fun hpol hext => ?_, fun hext => ⟨fun hdata hready => ?_,
      fun hdata => ?_⟩⟩⟩⟩
    · exact exec_of_op ((opDial_eq hl hm).trans (if_pos h)) (by simp [hs])
    · refine exec_of_op ((opDial_eq hl hm).trans ((if_neg ?_).trans (if_pos h))) (by simp [hs])
      rintro (h | ⟨h1, h2⟩)
      · exact absurd (hstr.symm.trans h) (by decide)
      · exact hmsg.elim h1 fun h => h h2
    · refine exec_of_op ((opDial_eq hl hm).trans ((if_neg ?_).trans ((if_neg ?_).trans (if_pos ⟨hpol, hext⟩)))) (by simp [hs])
      · rintro (h | ⟨h1, h2⟩)
        · exact absurd (hstr.symm.trans h) (by decide)
        · exact hmsg.elim h1 fun h => h h2
      · rintro (h | h | ⟨h1, h2⟩)
        · exact h hst
        · exact absurd (hhook.symm.trans h) (by decide)
        · exact hfax h1 h2
    · exact exec_of_op ((opDial_outcome hl hm hstr hmsg hst hhook hfax hext).trans (if_pos ⟨hdata, decide_eq_false hready⟩)) (by simp [hs])
    · have hop := (opDial_outcome hl hm hstr hmsg hst hhook hfax hext).trans (dialOutcome_of_message (.inl hdata))
      refine ⟨fun hbar => ?_, fun hbar hcons => ?_, fun left hbar hcons hleft => ?_, fun hbar hcons hpin hloop hexp hsub => ?_⟩
      · exact exec_of_op (hop.trans (if_pos hbar)) (by simp [hs])
      · exact exec_of_op (hop.trans ((if_neg (by rw [hbar]; simp)).trans (by rw [hcons]))) (by simp [hs])
      · exact exec_of_op (hop.trans ((if_neg (by rw [hbar]; simp)).trans (by rw [hcons]; dsimp only; rw [Nat.min_eq_right hleft]))) (by simp [hs])
      · have hrun := (hop.trans ((if_neg (by rw [hbar]; simp)).trans (by rw [hcons]))).trans (dialTaken_eq hst hpin hloop hexp hsub)
        subst hdata
        refine ⟨_, exec_of_op hrun (by simp [State.referenced, hs]), ?_⟩
        have hidle : (s.line l).call.st = .idle := hst
        cases l <;> exact ⟨rfl, rfl, if_pos hidle, rfl, rfl, rfl, rfl⟩
  · intro l mode m msg str s hs hm hkind hmsg hstr hst hhook hfax hext hready p dial fits
    have hop := opDial_outcome (lineOf_lineByte l) hm hstr (.inr hmsg) hst hhook hfax hext
    have hdata : m ≠ .data := by rcases hkind with rfl | rfl <;> decide
    have hgone (h : messageFits s m msg.toNat = false) : dial = .next (done 0x44#8 .noEntry [] s) :=
      exec_of_op (hop.trans ((if_neg (by simp [storeReady, hready])).trans (if_pos ⟨hdata, h⟩))) (by simp [hs])
    refine ⟨fun hfound => hgone (by rw [messageFits, hfound]), fun e he => ⟨fun hnot => hgone ?_, fun hfit hbar => ?_, fun hfit hbar => ?_⟩⟩
    · exact Bool.eq_false_iff.mpr fun h => hnot ((messageFits_iff he hkind).mp h)
    · have hop := hop.trans (dialOutcome_of_message (.inr ⟨hready, (messageFits_iff he hkind).mpr hfit⟩))
      exact exec_of_op (hop.trans (if_pos hbar)) (by simp [hs])
    · have hop := hop.trans (dialOutcome_of_message (.inr ⟨hready, (messageFits_iff he hkind).mpr hfit⟩))
      have hop := hop.trans (if_neg (by rw [hbar]; simp))
      refine ⟨fun hcons => ?_, fun left hcons hleft => ?_, fun hcons hpin hloop hexp hsub => ?_⟩
      · exact exec_of_op (hop.trans (by rw [hcons])) (by simp [hs])
      · exact exec_of_op (hop.trans (by rw [hcons]; dsimp only; rw [Nat.min_eq_right hleft])) (by simp [hs])
      · have hrun := (hop.trans (by rw [hcons])).trans (dialTaken_eq hst hpin hloop hexp hsub)
        have hidle : (s.line l).call.st = .idle := hst
        rw [State.referenced, if_neg hdata, LineState.dialled, if_neg hdata, dialRecord, if_neg hdata] at hrun
        refine ⟨_, exec_of_op hrun (by simp [takeRef, modEntry, modStore, hs]), ?_⟩
        cases l <;> exact ⟨rfl, rfl, if_pos hidle, rfl, rfl, rfl, rfl, rfl⟩

end Sys2Proof.Machine
end

section
/-! PROOFS. The steps of a dial string (R76, R77, R79, R80, R92). -/

namespace Sys2Proof.Machine

/-! ### One symbol (R77) -/

/-- The line as a symbol is taken up that takes time, no tone sounding. -/
def LineState.symbol (now : Nat) (b : Byte) (x : LineState) : LineState :=
  if b = 0x2C#8 then { x with call := { x.call with step := .comma, stepDue := some (now + x.profile.comma * 1000) } }
  else if b = 0x21#8 then { x with
    call := { x.call with step := .flash, stepDue := some (now + x.profile.flash) }
    iface := { x.iface with hook := false, loopSuspended := true } }
  else if b = 0x57#8 then { x with call := { x.call with
    step := .waitTone, stepDue := none, dialToneDue := some (now + x.profile.dialToneWait * 1000) } }
  else if x.profile.dialMethod = .pulse ∧ isDigitChar b = true then { x with
    call := { x.call with
      step := .brk ((if b = 0x30#8 then 10 else b.toNat - 0x30) - 1), stepDue := some (now + x.profile.pulseBreak)
      pulse := ⟨x.profile.pulseBreak, x.profile.pulseMake, x.profile.interdigit⟩ }
    iface := { x.iface with hook := false, loopSuspended := true } }
  else { x with
    call := { x.call with step := .toneDigit, stepDue := none }
    iface := { x.iface with tone := some ⟨.dtmf b x.profile.toneOn x.profile.toneOff, true, now + x.profile.toneOn⟩ } }

/-- A call whose symbol is complete. -/
def Call.stepped (c : Call) : Call :=
  { c with step := .none, stepDue := none, dialToneDue := none, cr := { c.cr with position := c.cr.position + 1 } }

theorem byte_toNat_eq {b : Byte} {n : Nat} (hn : n < 256) : b.toNat = n ↔ b = BitVec.ofNat 8 n := by
  rw [← BitVec.toNat_inj, BitVec.toNat_ofNat, Nat.mod_eq_of_lt (by simpa using hn)]

section
variable {s : State} {l : Line} {x : LineState} {k : Link}

@[simp] theorem beginStep_put (st : DialStep) (time : Nat) : beginStep l st time (s.put l x k) =
    s.put l { x with call := { x.call with step := st, stepDue := some (s.now + time) } } k := by
  rw [beginStep, modCall_put, put_now]

@[simp] theorem openForDial_put : openForDial l (s.put l x k) =
    s.put l { x with iface := { x.iface with hook := false, loopSuspended := true } } k := modIface_put ..

theorem dialSymbols_symbol {b : Byte} {rest : List Byte} (ht : x.iface.tone = none) (hw : b = 0x57#8 → x.call.toneHeard = false) :
    dialSymbols l (b :: rest) (s.put l x k) = s.put l (x.symbol s.now b) k := by
  rw [dialSymbols, LineState.symbol]
  dsimp only
  simp only [byte_toNat_eq (b := b) (n := 0x2C) (by decide), byte_toNat_eq (b := b) (n := 0x21) (by decide),
    byte_toNat_eq (b := b) (n := 0x57) (by decide), put_line]
  by_cases hcomma : b = 0x2C#8
  · rw [if_pos hcomma, if_pos hcomma, beginStep_put]
  rw [if_neg hcomma, if_neg hcomma]
  by_cases hflash : b = 0x21#8
  · rw [if_pos hflash, if_pos hflash, openForDial_put, beginStep_put]
  rw [if_neg hflash, if_neg hflash]
  by_cases hwait : b = 0x57#8
  · rw [if_pos hwait, if_pos hwait, if_neg (by simp [hw hwait]), waitForTone, modCall_put, put_now, put_line]
  rw [if_neg hwait, if_neg hwait, dialDigit]
  simp only [put_line, modCall_put, openForDial_put, beginStep_put, pulseCount, byte_toNat_eq (b := b) (n := 0x30) (by decide)]
  split_ifs
  · rfl
  · rfl
  · exact requestTone_put _ _ _ _ _ ht

/-- A 'W' with a dial tone remembered is passed over, the tone forgotten. -/
theorem dialSymbols_remembered {rest : List Byte} (h : x.call.toneHeard = true) :
    dialSymbols l (0x57#8 :: rest) (s.put l x k) = dialSymbols l rest (s.put l { x with call := { x.call with
      toneHeard := false, cr := { x.call.cr with position := x.call.cr.position + 1 } } } k) := by
  rw [dialSymbols]
  simp only [put_line, h, modCall_put]
  rfl

theorem symbolDone_put : symbolDone l (s.put l x k) =
    dialSymbols l (x.call.cr.dialled.drop (x.call.cr.position + 1)) (s.put l { x with call := x.call.stepped } k) := by
  rw [symbolDone, modCall_put, dialOn, put_line]
  rfl

theorem drop_of_getElem? {α : Type} {xs : List α} {n : Nat} {a : α} (h : xs[n]? = some a) : xs.drop n = a :: xs.drop (n + 1) := by
  obtain ⟨hn, rfl⟩ := List.getElem?_eq_some_iff.mp h
  exact List.drop_eq_getElem_cons hn

/-! ### The entries to DIAL and PROGRESS (R76, R79) -/

/-- The calling tone of a call's mode. -/
def callingTone (mode : Option CallMode) (now : Nat) : Option ToneGen :=
  if mode = some .fax then some ⟨.faxCalling, true, now + 500⟩
  else if mode = some .data then some ⟨.dataCalling, true, now + 500⟩ else none

/-- The call as it enters PROGRESS. -/
def Call.progressing (now timeout : Nat) (c : Call) : Call :=
  { c.timeless with
    st := .progress, reason := some (.change .digits), progressDue := some (now + timeout * 1000)
    watchDue := if c.cr.mode = some .voice then some (now + 10000) else none
    ringback := false, watchArmed := false, speechRun := 0, silentRun := 0 }

theorem enterProgress_put (ht : x.iface.tone = none) (hexp : x.iface.expecting = false) (hsub : x.voice.sub = none)
    (hst : x.call.st = .dial) : enterProgress l (s.put l x k) = s.put l { x with
      call := x.call.progressing s.now x.profile.progressTimeout
      iface := { x.iface with tone := callingTone x.call.cr.mode s.now } } (k.push (.line l .progress (.change .digits) none)) := by
  have hagree : ({ x with call := x.call.timeless } : LineState).iface.expecting =
      (({ x with call := x.call.timeless } : LineState).setSt .progress (.change .digits) s.now).expects := by
    simp [hexp, LineState.expects, LineState.setSt, hsub]
  have hcarries : ({ x with call := x.call.timeless } : LineState).call.st.carries = false := by
    simp [Call.timeless, hst, LineSt.carries]
  have hset : ({ x with call := x.call.timeless } : LineState).setSt .progress (.change .digits) s.now =
      { x with call := { x.call.timeless with st := .progress, reason := some (.change .digits) } } := by
    simp only [LineState.setSt, Call.timeless, hst, reduceCtorEq, if_false]
  have hmode : x.call.timeless.cr.mode = x.call.cr.mode := rfl
  rw [enterProgress]
  dsimp only
  rw [clearTimers_put, changeState_put, LineState.enter_of_agreeing hagree hcarries, Link.enter_of_agreeing l k hagree hcarries, hset]
  simp only [put_line, modCall_put, put_now, hmode]
  by_cases hfax : x.call.cr.mode = some .fax
  · rw [if_pos hfax, requestTone_put _ _ _ _ _ (by exact ht), callingTone, if_pos hfax]; rfl
  by_cases hdata : x.call.cr.mode = some .data
  · rw [if_neg hfax, if_pos hdata, requestTone_put _ _ _ _ _ (by exact ht), callingTone, if_neg hfax, if_pos hdata]; rfl
  · rw [if_neg hfax, if_neg hdata, callingTone, if_neg hfax, if_neg hdata, ← ht]; rfl

/-- The call as it enters DIAL, before its first symbol. -/
def Call.dialling (r : ChangeReason) (c : Call) : Call :=
  { c.timeless with st := .dial, reason := some (.change r), toneHeard := false, cr := { c.cr with position := 0 } }

theorem enterDial_put {r : ChangeReason} (hexp : x.iface.expecting = false) (hsub : x.voice.sub = none) (hst : x.call.st = .seize) :
    enterDial l r (s.put l x k) = dialSymbols l x.call.cr.dialled
      (s.put l { x with call := x.call.dialling r } (k.push (.line l .dial (.change r) none))) := by
  have hagree : ({ x with call := x.call.timeless } : LineState).iface.expecting =
      (({ x with call := x.call.timeless } : LineState).setSt .dial (.change r) s.now).expects := by
    simp [hexp, LineState.expects, LineState.setSt, hsub]
  have hcarries : ({ x with call := x.call.timeless } : LineState).call.st.carries = false := by
    simp [Call.timeless, hst, LineSt.carries]
  have hset : ({ x with call := x.call.timeless } : LineState).setSt .dial (.change r) s.now =
      { x with call := { x.call.timeless with st := .dial, reason := some (.change r) } } := by
    simp only [LineState.setSt, Call.timeless, hst, reduceCtorEq, if_false]
  rw [enterDial]
  dsimp only
  rw [clearTimers_put, changeState_put, LineState.enter_of_agreeing hagree hcarries, Link.enter_of_agreeing l k hagree hcarries, hset,
    modCall_put, dialOn, put_line]
  rfl

end

/-! ### The events of a dial string -/

section
variable {s : State} {l : Line} {due : Nat}

theorem elapseTo_put (s : State) (l : Line) (due : Nat) : elapseTo (some due) s = (s.at (max s.now due)).put l (s.line l) s.link :=
  at_eq_put s l _

/-- The line interface with the hook closed again after a break or flash, the loop established. -/
def Iface.resumed (now : Nat) (i : Iface) : Iface :=
  { i with hook := true, loopSuspended := false, loop := if i.loopIn then .present else .doubt (now + 300) }

theorem closeAfterDial_put {x : LineState} {k : Link} (hpin : hasPin s (loopFn l) = true) (hloop : x.iface.loop = .present) :
    closeAfterDial l (s.put l x k) = s.put l { x with iface := x.iface.resumed s.now } k := by
  rw [closeAfterDial, modIface_put, hasPin_put, put_now, hpin, Iface.resumed]
  simp only [hloop, Bool.not_true, Bool.or_false]

/-- The events that end a symbol, with the line interface behind them. -/
theorem symbol_ends {c : Instr} {i : Iface} (hst : s.st l = .dial)
    (h : c = .interdigitTimeEnd l ∧ (s.line l).call.step = .interdigit ∧ (s.line l).call.stepDue = some due ∧ i = (s.line l).iface ∨
      c = .commaPauseEnd l ∧ (s.line l).call.step = .comma ∧ (s.line l).call.stepDue = some due ∧ i = (s.line l).iface ∨
      c = .flashTimeEnd l ∧ (s.line l).call.step = .flash ∧ (s.line l).call.stepDue = some due ∧ hasPin s (loopFn l) = true ∧
        (s.line l).iface.loop = .present ∧ i = (s.line l).iface.resumed (max s.now due) ∨
      c = .toneGeneratorCompletion l ∧ (s.line l).call.step = .toneDigit ∧
        (∃ d on off, (s.line l).iface.tone = some ⟨.dtmf d on off, false, due⟩) ∧ i = { (s.line l).iface with tone := none }) :
    opOf c s = symbolDone l ((s.at (max s.now due)).put l { s.line l with iface := i } s.link) := by
  rcases h with ⟨rfl, hstep, hdue, rfl⟩ | ⟨rfl, hstep, hdue, rfl⟩ | ⟨rfl, hstep, hdue, hpin, hloop, rfl⟩ | ⟨rfl, hstep, ⟨d, on, off, htone⟩, rfl⟩
  · change opInterdigitTimeEnd l s = _
    rw [opInterdigitTimeEnd, hstep, hdue, elapseTo_put]
  · change opCommaPauseEnd l s = _
    rw [opCommaPauseEnd, hstep, hdue, elapseTo_put]
  · change opFlashTimeEnd l s = _
    rw [opFlashTimeEnd, hstep, hdue, elapseTo_put s l, closeAfterDial_put (by exact hpin) hloop]
    rfl
  · change opToneGeneratorCompletion l s = _
    have hstart : elapse due s = (s.at (max s.now due)).put l (s.line l) s.link := at_eq_put s l _
    rw [opToneGeneratorCompletion, htone]
    dsimp only
    rw [hstart, stopTone_put]
    refine (if_pos rfl).trans (if_pos ⟨?_, ?_⟩)
    · rw [put_st]; exact hst
    · rw [put_line]; exact hstep

end

section
variable {s : State} {l : Line} {x : LineState} {k : Link}

theorem loopArrived_put (hst : x.call.st = .seize) : loopArrived l (s.put l x k) =
    if x.profile.blindDial then s.put l { x with call := { x.call with loopUp := true, blindDue := some (s.now + 2000) } } k
    else if x.call.toneHeard then enterDial l .dialtone (s.put l { x with call := { x.call with loopUp := true } } k)
    else s.put l { x with call := { x.call with
      loopUp := true, dialToneDue := some (s.now + x.profile.dialToneWait * 1000) } } k := by
  rw [loopArrived, put_st, if_pos hst]
  simp only [put_line, modCall_put, put_now]

/-- A DIALTONE meaning on a line whose voice engine does not work reaches the call controller alone. -/
theorem deliver_dialtone (digit : Option Byte) (start : Nat) {t : State} (h : callMeaning l .dialtone digit s = t)
    (hsub : (t.line l).voice.sub = none) : deliver l .dialtone digit start s = t := by
  rw [deliver, h, if_pos (.inr rfl), voiceFarEnd, hsub]

theorem callMeaning_seize (digit : Option Byte) (h : s.st l = .seize) : callMeaning l .dialtone digit s = dialtoneInSeize l s := by
  simp only [callMeaning, h]

theorem callMeaning_dial (digit : Option Byte) (h : s.st l = .dial) : callMeaning l .dialtone digit s = dialtoneInDial l s := by
  simp only [callMeaning, h]

theorem dialtoneInSeize_put : dialtoneInSeize l (s.put l x k) =
    if x.profile.blindDial then s.put l x k
    else if x.call.loopUp then enterDial l .dialtone (s.put l { x with call := { x.call with toneHeard := true } } k)
    else s.put l { x with call := { x.call with toneHeard := true } } k := by
  rw [dialtoneInSeize]
  simp only [put_line, modCall_put]

/-- What a symbol leaves of a line. -/
theorem symbol_frame (now : Nat) (b : Byte) (x : LineState) :
    x.symbol now b = { x with call := (x.symbol now b).call, iface := (x.symbol now b).iface } := by
  unfold LineState.symbol
  split_ifs <;> rfl

end

/-- Settles O37: the steps of a dial string in DIAL, then the ways into DIAL. -/
theorem dialStepsFollowTheString : Obligations.DialStepsFollowTheString := by
  refine ⟨?_, ?_⟩
  · intro l c due i s hs hst x p now go step closed opened at_ symbol
    have hgo (k : Call) (i : Iface) : (s.at now).put l { x with call := k, iface := i } s.link = go k i := by cases l <;> rfl
    have hreq (k : Call) (i : Iface) : (go k i).requests = [] := by simp [go, hs]
    refine ⟨fun n hstep hdue hpin hloop => ?_, fun hstep hdue => ?_, fun n hstep hdue => ?_, fun h ht => ?_⟩
    · refine exec_of_op (c := .pulseBreakEnd l) ?_ (hreq _ _)
      change opPulseBreakEnd l s = _
      rw [opPulseBreakEnd, hstep, hdue, elapseTo_put s l]
      dsimp only
      rw [closeAfterDial_put (by exact hpin) hloop, beginStep_put, put_line]
      exact hgo _ _
    · refine exec_of_op (c := .pulseMakeEnd l) ?_ (hreq _ _)
      change opPulseMakeEnd l s = _
      rw [opPulseMakeEnd, hstep, hdue, elapseTo_put s l]
      dsimp only
      rw [if_pos rfl, beginStep_put, put_line]
      exact hgo _ _
    · refine exec_of_op (c := .pulseMakeEnd l) ?_ (hreq _ _)
      change opPulseMakeEnd l s = _
      rw [opPulseMakeEnd, hstep, hdue, elapseTo_put s l]
      dsimp only
      rw [if_neg (Nat.succ_ne_zero n), openForDial_put, beginStep_put, put_line]
      exact hgo _ _
    have hop := (symbol_ends hst h).trans symbolDone_put
    have hsym (b : Byte) (k : Call) (hk : k.stepDue = none) : (s.at now).put l (({ x with call := k, iface := i } : LineState).symbol now b) s.link =
        symbol b k i := by
      simp only [symbol, LineState.symbol]
      split_ifs <;> rw [← hgo] <;> simp only [hk] <;> rfl
    have hsymreq (b : Byte) (k : Call) : (symbol b k i).requests = [] := by
      simp only [symbol]
      split_ifs <;> exact hreq _ _
    refine ⟨fun b hb hw => ?_, fun b hw hheard hb hne => ?_, fun hend hexp hsub => ?_⟩
    · refine exec_of_op (hop.trans ?_) (hsymreq _ _)
      rw [drop_of_getElem? hb, dialSymbols_symbol (by exact ht) (by exact hw)]
      exact hsym b _ rfl
    · refine exec_of_op (hop.trans ?_) (hsymreq _ _)
      rw [drop_of_getElem? hw, dialSymbols_remembered (by exact hheard), drop_of_getElem? hb,
        dialSymbols_symbol (by exact ht) (fun h => absurd h hne)]
      exact hsym b _ rfl
    · have hrun := hop
      rw [List.drop_of_length_le (by exact hend.le), dialSymbols, enterProgress_put (by exact ht) (by exact hexp) (by exact hsub) (by exact hst)] at hrun
      refine ⟨_, exec_of_op hrun (by simp [State.at, hs]), ?_⟩
      cases l <;> exact ⟨rfl, rfl, rfl, rfl, rfl, rfl, rfl, rfl⟩
  · intro l due start digit s hs htone hexp hsub x p dialling begins
    have hself : s.put l x s.link = s := put_self s l
    have hdial (r : ChangeReason) (now : Nat) (c : Call) (i : Iface) (hcr : c.cr = x.call.cr) (ht : i.tone = none)
        (hne : x.call.cr.dialled ≠ []) (hb : begins) (hexp : i.expecting = false) (hst : c.st = .seize) : ∃ y k,
        enterDial l r ((s.at now).put l { x with call := c, iface := i } s.link) = (s.at now).put l y k ∧
        y.iface.loop = i.loop ∧ y.voice = x.voice ∧ dialling r ((s.at now).put l y k) := by
      obtain ⟨b, rest, hsyms⟩ := List.exists_cons_of_ne_nil hne
      have hfirst : x.call.cr.dialled[0]? = some b := by rw [hsyms]; rfl
      have hkind := hb b hfirst
      have hw : b ≠ 0x57#8 := by
        rintro rfl
        rcases hkind with h | h <;> revert h <;> decide
      have hrun := (enterDial_put (s := s.at now) (l := l) (k := s.link) (x := { x with call := c, iface := i }) (r := r) hexp hsub hst).trans
        (congrArg (dialSymbols l · _) (by exact (congrArg _ hcr).trans hsyms))
      rw [dialSymbols_symbol (by exact ht) (fun h => absurd h hw), at_now] at hrun
      refine ⟨_, _, hrun, ?_⟩
      have hd : c.cr.dialled = x.call.cr.dialled := congrArg _ hcr
      rcases hkind with rfl | hdigit
      · have hnot : ∀ d, x.call.cr.dialled[0]? = some d → isDigitChar d = true → False := fun d h hdig => by
          rw [hfirst] at h
          cases h
          revert hdig; decide
        rw [LineState.symbol, if_pos rfl]
        cases l <;> exact ⟨rfl, rfl, rfl, rfl, rfl, hd, rfl, rfl, rfl, fun _ => ⟨rfl, rfl⟩, fun d h h' => (hnot d h h').elim,
          fun d h h' => (hnot d h h').elim, rfl⟩
      · have hcomma : b ≠ 0x2C#8 := by rintro rfl; revert hdigit; decide
        have hflash : b ≠ 0x21#8 := by rintro rfl; revert hdigit; decide
        have hnot : x.call.cr.dialled[0]? ≠ some 0x2C#8 := by rw [hfirst]; simpa using hcomma
        rw [LineState.symbol, if_neg hcomma, if_neg hflash, if_neg hw]
        have hsame {d : Byte} (h : x.call.cr.dialled[0]? = some d) : b = d := Option.some.inj (hfirst.symm.trans h)
        by_cases hm : x.profile.dialMethod = .pulse
        · rw [if_pos ⟨hm, hdigit⟩]
          have htone {q : Prop} (h : p.dialMethod = .tone) : q := absurd (hm.symm.trans h) (by decide)
          cases l <;> exact ⟨rfl, rfl, rfl, rfl, rfl, hd, rfl, rfl, rfl, fun h => absurd h hnot, fun d h _ ht => htone ht,
            fun d h _ _ => by rw [← hsame h]; exact ⟨rfl, rfl, rfl, rfl, rfl⟩, rfl⟩
        · rw [if_neg fun h => hm h.1]
          cases l <;> exact ⟨rfl, rfl, rfl, rfl, rfl, hd, rfl, rfl, rfl, fun h => absurd h hnot,
            fun d h _ _ => by rw [← hsame h]; exact ⟨rfl, rfl⟩, fun d h _ hp => absurd hp hm, rfl⟩
    have hno {b : Bool} (h : b = false) : ¬b = true := fun h' => absurd (h.symm.trans h') (by decide)
    have hreq (now : Nat) (y : LineState) (k : Link) : ((s.at now).put l y k).requests = [] := by simp [State.at, hs]
    refine ⟨fun hdue hst hne hb => ?_, ?_, fun hst => ⟨fun hblind => ?_, fun hblind hup => ?_, fun hblind hup hne hb => ?_⟩,
      fun hst => ⟨fun hstep => ?_, fun hstep hcomma => ?_⟩⟩
    · obtain ⟨y, k, hrun, -, -, hy⟩ := hdial .blind (max s.now due) x.call x.iface rfl htone hne hb hexp hst
      refine ⟨_, exec_of_op (c := .blindDialDelay l) ((?_ : opBlindDialDelay l s = _).trans hrun) (hreq _ _ _), put_now .., hy⟩
      rw [opBlindDialDelay, hdue]
      exact (if_pos hst).trans (congrArg _ (at_eq_put s l _))
    · intro n hloop hst up now
      have hop : opLoopEstablished l s = loopArrived l ((s.at now).put l up s.link) := by
        rw [opLoopEstablished, hloop]
        exact congrArg (loopArrived l) (by cases l <;> rfl)
      have hop := hop.trans (loopArrived_put (s := s.at now) (x := up) (k := s.link) hst)
      refine ⟨fun hblind => ?_, fun hblind hheard => ?_, fun hblind hheard hne hb => ?_⟩
      · refine (exec_of_op (c := .loopEstablished l) (hop.trans (if_pos hblind)) (hreq _ _ _)).trans ?_
        cases l <;> rfl
      · refine (exec_of_op (c := .loopEstablished l) (hop.trans ((if_neg (hno hblind)).trans (if_neg (hno hheard)))) (hreq _ _ _)).trans ?_
        cases l <;> rfl
      · obtain ⟨y, k, hrun, hloop', -, hy⟩ := hdial .dialtone now { x.call with loopUp := true } { x.iface with loop := .present } rfl htone
          hne hb hexp hst
        refine ⟨_, exec_of_op (c := .loopEstablished l) (hop.trans ((if_neg (hno hblind)).trans ((if_pos hheard).trans hrun))) (hreq _ _ _),
          put_now .., by rw [put_line]; exact hloop', hy⟩
    · refine deliver_dialtone digit start ((callMeaning_seize digit hst).trans (?_ : _ = s)) hsub
      exact if_pos hblind
    · have hrun := dialtoneInSeize_put (s := s) (l := l) (x := x) (k := s.link)
      rw [hself, if_neg (hno hblind), if_neg (hno hup)] at hrun
      refine (deliver_dialtone digit start ((callMeaning_seize digit hst).trans hrun) (by rw [put_line]; exact hsub)).trans ?_
      cases l <;> rfl
    · obtain ⟨y, k, hdialled, -, hvoice, hy⟩ := hdial .dialtone s.now { x.call with toneHeard := true } x.iface rfl htone hne hb hexp hst
      have hrun := dialtoneInSeize_put (s := s) (l := l) (x := x) (k := s.link)
      rw [hself, if_neg (hno hblind), if_pos hup] at hrun
      have hall := deliver_dialtone digit start ((callMeaning_seize digit hst).trans (hrun.trans hdialled))
        (by rw [put_line, hvoice]; exact hsub)
      rw [hall]
      exact ⟨put_now .., hy⟩
    · refine (deliver_dialtone digit start ((callMeaning_dial digit hst).trans (if_neg hstep)) (by cases l <;> exact hsub)).trans ?_
      cases l <;> rfl
    · have hrun := symbolDone_put (s := s) (l := l) (x := x) (k := s.link)
      rw [hself, drop_of_getElem? hcomma, dialSymbols_symbol (by exact htone) (fun h => absurd h (by decide)), LineState.symbol,
        if_pos rfl] at hrun
      refine (deliver_dialtone digit start ((callMeaning_dial digit hst).trans ((if_pos hstep).trans hrun))
        (by rw [put_line]; exact hsub)).trans ?_
      cases l <;> rfl

end Sys2Proof.Machine
end

section
/-! PROOFS. How a line is answered (R67 to R70, R72, R78, R182). -/

namespace Sys2Proof.Machine

/-! ### A reading stream opened beside a line's change (R146) -/

/-- A reading stream opened on a message at an offset, its reference taken. -/
def State.reading (o : Owner) (e : Entry) (offset : Nat) (s : State) : State :=
  setReader o (some { id := e.id, position := offset, length := e.length, buffers := [], nextSeq := seqOf offset, ready := false
                      region := none, tag := s.store.nextTag })
    (modStore (fun t => { t with nextTag := t.nextTag + 1 }) (takeRef e.id s))

theorem openReader_eq {s : State} (o : Owner) (e : Entry) (offset : Nat) (hg : s.store.grant ≠ none) :
    openReader o e.id offset e.length (takeRef e.id s) = s.reading o e offset :=
  storeKick_of_grant (by rcases o with (_ | _) | _ <;> exact hg)

section
variable (s : State) (l : Line) (x : LineState) (k : Link) (o : Owner) (e : Entry) (offset : Nat)

theorem reading_put : (s.put l x k).reading o e offset = (s.reading o e offset).put l x k := by
  rcases o with (_ | _) | _ <;> cases l <;> rfl

theorem readerOf_reading : readerOf (s.reading o e offset) o = some {
    id := e.id, position := offset, length := e.length, buffers := [], nextSeq := seqOf offset, ready := false, region := none
    tag := s.store.nextTag } := by rcases o with (_ | _) | _ <;> rfl

theorem findEntry_reading {s : State} {e : Entry} (he : findEntry s e.id = some e) :
    findEntry (s.reading o e offset) e.id = some { e with inUse := e.inUse + 1 } := by
  have h := findEntry_modEntry e.id (f := fun x => { x with inUse := x.inUse + 1 }) (fun _ => rfl) s
  rw [he, Option.map_some] at h
  rw [State.reading, findEntry_setReader]
  exact h

theorem reading_frame : s.reading o e offset = { s with store := (s.reading o e offset).store } := by
  rcases o with (_ | _) | _ <;> rfl

theorem reading_memory : (s.reading o e offset).store.memory = s.store.memory := by rcases o with (_ | _) | _ <;> rfl

/-- The engine's stream is opened while the port is busy. -/
theorem openVoiceStream_put (hg : s.store.grant ≠ none) : openVoiceStream l e offset (s.put l x k) =
    (s.reading (.line l) e offset).put l { x with voice := { x.voice with
      message := some e.id, coding := e.coding, p := 0, k := 0, position := offset, output := [] } } k := by
  rw [openVoiceStream, modVoice_put, openReader_eq _ _ _ (by rw [put_store]; exact hg), reading_put]

end

/-! ### The greeting (R182) and CLASSIFY (R72) -/

section
variable {s : State} {l : Line} {x : LineState} {k : Link}

theorem findEntry_put (id : Nat) : findEntry (s.put l x k) id = findEntry s id := by cases l <;> rfl
theorem canRef_put (id : Nat) : canRef (s.put l x k) id = canRef s id := by cases l <;> rfl
theorem greetingOf_put (mailbox : Option Nat) : greetingOf (s.put l x k) mailbox = greetingOf s mailbox := by cases l <;> rfl

/-- The voice engine as a greeting begins. -/
def greetingVoice (mailbox : Option Nat) : Voice :=
  { initialVoice with sub := some .greeting, kind := some .answered, mailbox := mailbox }

theorem startGreeting_put (mailbox : Option Nat) (hr : readerOf s (.line l) = none) {y : LineState} {k' : Link}
    (hy : y = ({ x with voice := greetingVoice mailbox } : LineState).judge) (hk : k' = k.judge l { x with voice := greetingVoice mailbox }) :
    startGreeting l mailbox (s.put l x k) =
      match greetingOf s mailbox with
      | some e => if canRef s e.id then openVoiceStream l e 0 (s.put l y k')
        else s.put l { y with voice := { y.voice with silentDue := some (s.now + 5000) } } k'
      | none => s.put l { y with voice := { y.voice with silentDue := some (s.now + 5000) } } k' := by
  rw [startGreeting, closeReader, readerOf_line, hr]
  dsimp only
  rw [modVoice_put, setSub_put]
  have hline : ({ x with voice := { ({ initialVoice with
      sub := ((s.put l x k).line l).voice.sub, kind := some .answered, mailbox := mailbox } : Voice) with sub := some .greeting } } : LineState) =
      { x with voice := greetingVoice mailbox } := rfl
  rw [hline, ← hy, ← hk, greetingOf_put]
  cases hg : greetingOf s mailbox with
  | none => simp only [modVoice_put, put_now]
  | some e => simp only [modVoice_put, put_now, canRef_put]

/-- The call as CLASSIFY's work begins. -/
def Call.classifying (now window : Nat) (c : Call) : Call :=
  { c with classifyTime := window, digits := [], digitDue := none, classifyDue := some (now + window * 1000) }

theorem beginClassify_put : beginClassify l (s.put l x k) =
    startGreeting l x.call.cr.mailbox (s.put l { x with call := x.call.classifying s.now x.profile.classifyWindow } k) := by
  rw [beginClassify, modCall_put, restartClassify, put_line, modCall_put, put_now, put_line]
  rfl

/-! ### The enablement check (R69) -/

theorem mailboxEnabled_put (m : Nat) : mailboxEnabled (s.put l x k) m = mailboxEnabled s m := by cases l <;> rfl

theorem mailboxChecked_put (m : Option Nat) : mailboxChecked (s.put l x k) l m =
    (m.filter (mailboxEnabled s)).or ((some x.profile.mailbox).filter (mailboxEnabled s)) := by
  have h : mailboxEnabled (s.put l x k) = mailboxEnabled s := funext fun m => mailboxEnabled_put m
  rw [mailboxChecked, h, put_line]
  cases m.filter (mailboxEnabled s) <;> rfl

theorem mailboxChecked_some (m : Nat) : mailboxChecked s l (some m) =
    if mailboxEnabled s m = true then some m
    else if mailboxEnabled s (s.line l).profile.mailbox = true then some (s.line l).profile.mailbox else none := by
  rw [mailboxChecked, Option.filter_some, Option.filter_some]
  split_ifs <;> rfl

/-- A checked mailbox passes the check again. -/
theorem mailboxChecked_checked (m : Option Nat) : mailboxChecked s l (mailboxChecked s l m) = mailboxChecked s l m := by
  have hdefault : mailboxChecked s l ((some (s.line l).profile.mailbox).filter (mailboxEnabled s)) =
      (some (s.line l).profile.mailbox).filter (mailboxEnabled s) := by
    by_cases h : mailboxEnabled s (s.line l).profile.mailbox = true
    · rw [Option.filter_some, if_pos h, mailboxChecked, Option.filter_some, if_pos h]
    · rw [Option.filter_some, if_neg h, mailboxChecked, Option.filter_none, Option.filter_some, if_neg h]
  cases hm : m.filter (mailboxEnabled s) with
  | none =>
    have h : mailboxChecked s l m = (some (s.line l).profile.mailbox).filter (mailboxEnabled s) := by rw [mailboxChecked, hm]
    rw [h, hdefault]
  | some n =>
    have h : mailboxChecked s l m = some n := by rw [mailboxChecked, hm]
    have hn : mailboxEnabled s n = true := (Option.filter_eq_some_iff.mp hm).2
    rw [h, mailboxChecked, Option.filter_some, if_pos hn]

/-! ### An answer (R69) -/

/-- The line of an answered call before its change of state: window closed, hook closed, timers stopped, the call's record made. -/
def LineState.answered (mode : CallMode) (mailbox : Option Nat) (now : Nat) (x : LineState) : LineState :=
  { x with
    call := { x.call.timeless with cr := { x.call.cr with dir := some .incoming, mode := some mode, mailbox := mailbox } }
    iface := ({ x.iface with window := .closed } : Iface).seized now }

/-- A line that can be answered: on-hook, with a loop pin, and no caller message under way. -/
structure Answerable (s : State) (l : Line) (x : LineState) : Prop where
  pin : hasPin s (loopFn l) = true
  loop : x.iface.loop = .onHook
  window : ∀ bs, x.iface.window ≠ .gathering bs

theorem answerLine_data_put (mailbox : Option Nat) (h : Answerable s l x) : answerLine l .data mailbox (s.put l x k) =
    requestTone l .answer (changeState l .train (.change .answer) (s.put l (x.answered .data mailbox s.now) k)) := by
  unfold answerLine
  dsimp only
  rw [closeWindow_put h.window, clearTimers_put, closeHook_put (by exact h.loop) h.pin, modRecord_put]
  rfl

theorem answerLine_fax_put (mailbox : Option Nat) (h : Answerable s l x) : answerLine l .fax mailbox (s.put l x k) =
    requestTone l .answer (modemEnterFax l (changeState l .fax (.change .answer) (s.put l (x.answered .fax mailbox s.now) k))) := by
  unfold answerLine
  dsimp only
  rw [closeWindow_put h.window, clearTimers_put, closeHook_put (by exact h.loop) h.pin, modRecord_put]
  rfl

theorem answerLine_spoken_put {mode : CallMode} (hmode : mode = .voice ∨ mode = .auto) (mailbox : Option Nat) (h : Answerable s l x) :
    answerLine l mode mailbox (s.put l x k) = beginClassify l (changeState l .classify (.change .answer)
      (s.put l (x.answered mode (mailboxChecked (s.put l x k) l mailbox) s.now) k)) := by
  have hchecked (y : LineState) (hp : y.profile = x.profile) : mailboxChecked (s.put l y k) l mailbox = mailboxChecked (s.put l x k) l mailbox := by
    rw [mailboxChecked_put, mailboxChecked_put, hp]
  unfold answerLine
  dsimp only
  rw [closeWindow_put h.window, clearTimers_put, closeHook_put (by exact h.loop) h.pin]
  rcases hmode with rfl | rfl <;> (dsimp only; rw [modRecord_put, hchecked]; rfl; rfl)

/-- What an answer in mode DATA makes of the line. -/
theorem answerLine_data (mailbox : Option Nat) (h : Answerable s l x) (ht : x.iface.tone = none) : ∃ y k',
    answerLine l .data mailbox (s.put l x k) = s.put l y k' ∧ y.call.st = .train ∧ y.call.reason = some (.change .answer) ∧
      y.call.cr = { x.call.cr with dir := some .incoming, mode := some .data, mailbox := mailbox } ∧ y.call.ringDue = none ∧
      y.iface.hook = true ∧ y.iface.window = .closed ∧ y.iface.tone = some ⟨.answer, true, s.now + 3000⟩ ∧
      y = { x with call := y.call, iface := y.iface } := by
  have hrun := answerLine_data_put (k := k) mailbox h
  rw [changeState_put, requestTone_put _ _ _ _ _ (by rw [LineState.enter_frame]; exact ht)] at hrun
  refine ⟨_, _, hrun, ?_⟩
  rw [LineState.enter_frame]
  exact ⟨rfl, rfl, rfl, rfl, rfl, rfl, rfl, rfl⟩

/-- What an answer in mode FAX makes of the line. -/
theorem answerLine_fax (mailbox : Option Nat) (h : Answerable s l x) (ht : x.iface.tone = none) : ∃ y k',
    answerLine l .fax mailbox (s.put l x k) = s.put l y k' ∧ y.call.st = .fax ∧ y.call.reason = some (.change .answer) ∧
      y.call.cr = { x.call.cr with dir := some .incoming, mode := some .fax, mailbox := mailbox } ∧
      y.iface.hook = true ∧ y.iface.tone = some ⟨.answer, true, s.now + 3000⟩ ∧
      y.modem.rung = some ((faxRungs s.ladder).getLast?.getD 0) ∧
      y = { x with call := y.call, iface := y.iface, modem := y.modem } := by
  have hrun := answerLine_fax_put (k := k) mailbox h
  simp only [changeState_put, modemEnterFax, modModem_put, put_ladder] at hrun
  rw [requestTone_put _ _ _ _ _ (by rw [LineState.enter_frame]; exact ht)] at hrun
  refine ⟨_, _, hrun, ?_⟩
  rw [LineState.enter_frame]
  exact ⟨rfl, rfl, rfl, rfl, rfl, rfl, rfl⟩

/-- A judgement of the expectation leaves hook, loop, window and tone. -/
theorem judge_iface (x : LineState) : x.judge.iface.hook = x.iface.hook ∧ x.judge.iface.loop = x.iface.loop ∧
    x.judge.iface.window = x.iface.window ∧ x.judge.iface.tone = x.iface.tone := by
  rw [LineState.judge_frame]; exact ⟨rfl, rfl, rfl, rfl⟩

/-- CLASSIFY's work with a mailbox that has no greeting: 5 s of silence. -/
theorem beginClassify_silent (hr : readerOf s (.line l) = none) (hg : greetingOf s x.call.cr.mailbox = none) : ∃ y k',
    beginClassify l (s.put l x k) = s.put l y k' ∧ y.call = x.call.classifying s.now x.profile.classifyWindow ∧
      y.voice = { greetingVoice x.call.cr.mailbox with silentDue := some (s.now + 5000) } ∧
      (y.iface.hook = x.iface.hook ∧ y.iface.loop = x.iface.loop ∧ y.iface.window = x.iface.window ∧ y.iface.tone = x.iface.tone) ∧
      y = { x with call := y.call, iface := y.iface, voice := y.voice } := by
  have hrun := beginClassify_put (s := s) (l := l) (x := x) (k := k)
  rw [startGreeting_put _ hr rfl rfl, hg] at hrun
  refine ⟨_, _, hrun, ?_, ?_, ?_, ?_⟩
  · rw [LineState.judge_frame]
  · rw [LineState.judge_frame]
  · exact judge_iface _
  · rw [LineState.judge_frame]

/-- CLASSIFY's work with a mailbox whose greeting is read, the port being busy. -/
theorem beginClassify_message {e : Entry} (hr : readerOf s (.line l) = none) (hg : greetingOf s x.call.cr.mailbox = some e)
    (href : canRef s e.id = true) (hgrant : s.store.grant ≠ none) : ∃ y k',
    beginClassify l (s.put l x k) = (s.reading (.line l) e 0).put l y k' ∧ y.call = x.call.classifying s.now x.profile.classifyWindow ∧
      y.voice = { greetingVoice x.call.cr.mailbox with message := some e.id, coding := e.coding } ∧
      (y.iface.hook = x.iface.hook ∧ y.iface.loop = x.iface.loop ∧ y.iface.window = x.iface.window ∧ y.iface.tone = x.iface.tone) ∧
      y = { x with call := y.call, iface := y.iface, voice := y.voice } := by
  have hrun := beginClassify_put (s := s) (l := l) (x := x) (k := k)
  rw [startGreeting_put _ hr rfl rfl, hg] at hrun
  dsimp only at hrun
  rw [if_pos href, openVoiceStream_put _ _ _ _ _ _ hgrant] at hrun
  refine ⟨_, _, hrun, ?_, ?_, ?_, ?_⟩
  · rw [LineState.judge_frame]
  · rw [LineState.judge_frame]; rfl
  · exact judge_iface _
  · rw [LineState.judge_frame]

end

/-! ### ANSWER (R70) -/

section
variable {line mode mailbox : Byte} {l : Line} {m : CallMode} {mb : Option Nat} {s : State}

theorem opAnswer_badParam (h : lineOf line = none ∨ CallMode.ofAnswer mode.toNat = none ∨ mailboxOf mailbox = none) :
    opAnswer line mode mailbox s = done 0x41#8 .badParam [] s := by
  unfold opAnswer
  dsimp only
  split
  · simp_all
  · rfl

theorem CallMode.ofAnswer_eq_none {n : Nat} (h : n = 0 ∨ 4 < n) : CallMode.ofAnswer n = none := by
  unfold CallMode.ofAnswer CallMode.ofCode
  split_ifs
  · rfl
  · split <;> simp_all

theorem mailboxOf_eq_none (h : 7 < mailbox.toNat ∧ mailbox ≠ 0xFF#8) : mailboxOf mailbox = none := by
  rw [mailboxOf, if_neg (by omega), if_neg h.2]

theorem mode_of_range (h1 : 1 ≤ mode.toNat) (h4 : mode.toNat ≤ 4) : mode = 1#8 ∨ mode = 2#8 ∨ mode = 3#8 ∨ mode = 4#8 := by
  bv_omega

theorem opAnswer_eq (hl : lineOf line = some l) (hm : CallMode.ofAnswer mode.toNat = some m) (hmb : mailboxOf mailbox = some mb) :
    opAnswer line mode mailbox s =
      if ¬(s.st l = .idle ∨ s.st l = .ringing) ∨ hasHook s l = false then done 0x41#8 .badState [] s
      else if m ≠ .data ∧ storeReady s = false then done 0x41#8 .notReady [] s
      else answerLine l m (mailboxChecked s l (some (mb.getD (s.line l).profile.mailbox))) (done 0x41#8 .ok [] s) := by
  rw [opAnswer, hl, hm, hmb]

/-- ANSWER of a line that may be answered. -/
theorem opAnswer_of_valid (hl : lineOf line = some l) (hm : CallMode.ofAnswer mode.toNat = some m) (hmb : mailboxOf mailbox = some mb)
    (hst : s.st l = .idle ∨ s.st l = .ringing) (hhook : hasHook s l = true) (hready : m = .data ∨ s.store.st = .ready) :
    opAnswer line mode mailbox s = answerLine l m (mailboxChecked s l (some (mb.getD (s.line l).profile.mailbox)))
      (s.put l (s.line l) (s.link.push (.done 0x41#8 .ok []))) := by
  have hdone : done 0x41#8 .ok [] s = s.put l (s.line l) (s.link.push (.done 0x41#8 .ok [])) := by rw [done_eq]; cases l <;> rfl
  rw [opAnswer_eq hl hm hmb, if_neg, if_neg, hdone]
  · rintro ⟨h1, h2⟩
    rcases hready with h | h
    · exact h1 h
    · simp [storeReady, h] at h2
  · rintro (h | h)
    · exact h hst
    · rw [hhook] at h; cases h

theorem mailboxChecked_put_self (k : Link) (m : Option Nat) : mailboxChecked (s.put l (s.line l) k) l m = mailboxChecked s l m := by
  rw [mailboxChecked_put, ← mailboxChecked_put (k := s.link), put_self]

end

/-! ### The answer plan (R68) -/

theorem ringMap_eq (p : Profile) (n : Nat) : ringMap p n = if n = 1 then p.ringMap1 else if n = 2 then p.ringMap2 else p.ringMap3 := by
  unfold ringMap
  split <;> simp_all

theorem planAnswers_iff (s : State) (l : Line) (p : Plan) : planAnswers s l p = true ↔
    p.mode ≠ .off ∧ p.rings ≤ (s.line l).call.cr.rings ∧ hasHook s l = true ∧ (p.mode = .data ∨ s.store.st = .ready) := by
  simp only [planAnswers, storeReady, Bool.and_eq_true, Bool.or_eq_true, decide_eq_true_eq, and_assoc]

/-- The plan a screen action makes, or none (R68). -/
def planOf (s : State) (l : Line) : Option ScreenAction → Option Plan
  | some .noAnswer => none
  | some .bar => none
  | some (.answerRings n) => some (basePlan s l n)
  | some (.route m) => some ⟨.voice, some m, (s.line l).call.ringsToAnswer.getD (s.line l).profile.rings⟩
  | some .faxOnly => some ⟨.fax, none, (s.line l).call.ringsToAnswer.getD (s.line l).profile.rings⟩
  | some .dataOnly => some ⟨.data, none, (s.line l).call.ringsToAnswer.getD (s.line l).profile.rings⟩
  | some .allow => some (basePlan s l ((s.line l).call.ringsToAnswer.getD (s.line l).profile.rings))
  | none => some (basePlan s l ((s.line l).call.ringsToAnswer.getD (s.line l).profile.rings))

theorem answerPlan_eq (s : State) (l : Line) : answerPlan s l =
    planOf s l (if 2 ≤ (s.line l).call.cr.rings then consult s true (callerSubject (s.line l).iface.caller) else none) := by
  rw [answerPlan]
  generalize (if 2 ≤ (s.line l).call.cr.rings then consult s true (callerSubject (s.line l).iface.caller) else none) = a
  cases a with
  | none => rfl
  | some a => cases a <;> rfl

/-- Without a screen entry to consult the plan is that of ring class or profile. -/
theorem answerPlan_base {s : State} {l : Line}
    (h : (s.line l).call.cr.rings < 2 ∨ consult s true (callerSubject (s.line l).iface.caller) = none ∨
      consult s true (callerSubject (s.line l).iface.caller) = some .allow) :
    answerPlan s l = some (basePlan s l ((s.line l).call.ringsToAnswer.getD (s.line l).profile.rings)) := by
  rw [answerPlan_eq]
  rcases h with h | h | h
  · rw [if_neg (by omega)]; rfl
  · rw [h, ite_self]; rfl
  · rw [h]; split_ifs <;> rfl

theorem consult_none {s : State} (h : ∀ e ∈ s.screen, e = none) (incoming : Bool) (subject : Subject) : consult s incoming subject = none := by
  rw [consult, List.findSome?_eq_none_iff.mpr fun e he => by rw [h e he]; rfl]
  rfl

/-! ### Glare (R78) -/

/-- The jobs behind a glare: the job of the call, if it is listed, waits again. -/
def glaredJobs (x : LineState) (s : State) : List Job :=
  match x.call.cr.job.bind (findJob s) with
  | some j => updateWhere (fun k => decide (k.id = j.id)) (fun k => { k with
      state := .waiting, lastTry := (x.fax.good, x.modem.rung) }) s.jobs
  | none => s.jobs

theorem reportJob_link (id : Nat) (s : State) : ∃ k, reportJob id s = { s with link := k } := by
  rw [reportJob]
  split
  · exact ⟨_, queueReport_eq _ _⟩
  · exact ⟨s.link, rfl⟩

/-- The state with its jobs replaced. -/
def State.withJobs (s : State) (jobs : List Job) : State := { s with jobs := jobs }

theorem glareJob_put (s : State) (l : Line) (x : LineState) (k : Link) : ∃ k' B, glareJob l (s.put l x k) = B.put l x k' ∧
    (B = s.withJobs (glaredJobs x s) ∨ B = askDispatch (s.withJobs (glaredJobs x s))) := by
  have hfind : findJob (s.put l x k) = findJob s := by funext id; cases l <;> rfl
  rw [glareJob, put_line, hfind, glaredJobs]
  cases x.call.cr.job.bind (findJob s) with
  | none => exact ⟨k, s, rfl, .inl rfl⟩
  | some j =>
    have hjobs : modJob j.id (fun k => { k with state := .waiting }) (modJob j.id (fun j => { j with lastTry := lastTryOf (s.put l x k) l })
        (s.put l x k)) = (s.withJobs (updateWhere (fun k => decide (k.id = j.id)) (fun k => { k with
          state := .waiting, lastTry := (x.fax.good, x.modem.rung) }) s.jobs)).put l x k := by
      simp only [modJob]
      have hjobs := updateWhere_updateWhere (fun k : Job => decide (k.id = j.id))
        (fun j : Job => { j with lastTry := lastTryOf (s.put l x k) l }) (fun k : Job => { k with state := .waiting }) (fun _ => rfl) s.jobs
      rw [lastTryOf, put_line] at hjobs
      exact (by cases l <;> rfl : _ = _).trans (congrArg (fun jobs => State.put (s.withJobs jobs) l x k) hjobs)
    dsimp only
    rw [requeueJob, hjobs]
    obtain ⟨k', hk⟩ := reportJob_link j.id ((s.withJobs (updateWhere (fun k => decide (k.id = j.id)) (fun k => { k with
      state := .waiting, lastTry := (x.fax.good, x.modem.rung) }) s.jobs)).put l x k)
    rw [hk]
    exact ⟨k', _, by cases l <;> rfl, .inr rfl⟩

theorem glare_put {s : State} {l : Line} {x : LineState} {k : Link} (href : x.call.refHeld = false) : ∃ k' B,
    (B = s.withJobs (glaredJobs x s) ∨ B = askDispatch (s.withJobs (glaredJobs x s))) ∧
    glare l (s.put l x k) =
      (let call := fun (m : CallMode) => { x.call.timeless with cr := { emptyCallRecord with
        dir := some .incoming, rings := 1, mode := some m
        mailbox := if mailboxEnabled s x.profile.mailbox = true then some x.profile.mailbox else none } }
      if s.store.st = .ready then beginClassify l (changeState l .classify (.change .glare) (B.put l { x with call := call .auto } k'))
      else requestTone l .answer (changeState l .train (.change .glare) (B.put l { x with call := call .data } k'))) := by
  obtain ⟨k', B, hjob, hB⟩ := glareJob_put s l { x with call := x.call.timeless } k
  have hsame : glaredJobs { x with call := x.call.timeless } s = glaredJobs x s := rfl
  rw [hsame] at hB
  have hstore : B.store = s.store := by rcases hB with rfl | rfl <;> rfl
  have hmail : mailboxEnabled B = mailboxEnabled s := by rcases hB with rfl | rfl <;> rfl
  refine ⟨k', B, hB, ?_⟩
  rw [glare]
  dsimp only
  have hready : storeReady (B.put l { x with call := x.call.timeless } k') = decide (s.store.st = .ready) := by
    rw [storeReady, put_store, hstore]
  rw [returnCallRef_put s l k href, clearTimers_put, hjob, modRecord_put, put_line, mailboxChecked_some, hready, put_line]
  have hen : mailboxEnabled (B.put l { x with call := x.call.timeless } k') = mailboxEnabled s := by
    funext m; rw [mailboxEnabled_put, hmail]
  rw [hen]
  by_cases h : s.store.st = .ready
  · simp only [h, decide_true, if_true, storeReady, put_store, hstore]
    congr 5
    split_ifs <;> rfl
  · simp only [h, decide_false, if_false, Bool.false_eq_true, storeReady, put_store, hstore]
    congr 5
    split_ifs <;> rfl

theorem callRingOn_seize {s : State} {l : Line} (h : s.st l = .seize) : callRingOn l s = glare l s := by rw [callRingOn, h]

theorem canTakeJob_of_off {s : State} {l : Line} (h : (s.line l).profile.autoCallout = false) : canTakeJob s l = false := by
  simp [canTakeJob, h]

/-- Behind a glare no line with auto call-out off takes a job. -/
theorem finish_glared {s B : State} {l : Line} {y : LineState} {k : Link} {jobs : List Job} (hs : s.requests = [])
    (hB : B = s.withJobs jobs ∨ B = askDispatch (s.withJobs jobs)) (hy : y.profile.autoCallout = false)
    (hother : ∀ m, (s.line m).profile.autoCallout = false) : finish (B.put l y k) = (s.withJobs jobs).put l y k := by
  have hreq : ((s.withJobs jobs).put l y k).requests = [] := by rw [put_requests]; exact hs
  rcases hB with rfl | rfl
  · exact finish_of_none _ hreq
  · have hback : (askDispatch (s.withJobs jobs)).put l y k = askDispatch ((s.withJobs jobs).put l y k) := by
      simp only [askDispatch, post_put]
    rw [hback]
    refine finish_askDispatch hreq fun m rs => dispatchLine_of_not (canTakeJob_of_off ?_)
    by_cases hm : m = l
    · subst hm; exact (congrArg (fun z : LineState => z.profile.autoCallout) (put_line _ _ _ k)).trans hy
    · exact (congrArg (fun z : LineState => z.profile.autoCallout) (put_line_other _ _ _ y k hm)).trans (hother m)

/-! ### The obligation -/

/-- A ring-on of a RINGING line whose plan is that of its profile, mode DATA. -/
theorem evaluatePlan_data {s : State} {l : Line} (hscreen : ∀ e ∈ s.screen, e = none) (hclass : (s.line l).call.cr.ringClass = none)
    (hmode : (s.line l).profile.answerMode = .data) (hhook : hasHook s l = true) : evaluatePlan l s =
      if (s.line l).call.ringsToAnswer.getD (s.line l).profile.rings ≤ (s.line l).call.cr.rings then
        answerLine l .data (some (s.line l).profile.mailbox) s
      else s := by
  have hplan : answerPlan s l = some ⟨.data, some (s.line l).profile.mailbox, (s.line l).call.ringsToAnswer.getD (s.line l).profile.rings⟩ := by
    rw [answerPlan_base (.inr (.inl (consult_none hscreen _ _))), basePlan, hclass, hmode]
  have hanswers := planAnswers_iff s l ⟨.data, some (s.line l).profile.mailbox, (s.line l).call.ringsToAnswer.getD (s.line l).profile.rings⟩
  rw [evaluatePlan, hplan]
  dsimp only
  split_ifs with h1 h2 h2
  · rfl
  · exact absurd (hanswers.mp h1).2.1 h2
  · exact absurd (hanswers.mpr ⟨nofun, h2, hhook, .inl rfl⟩) h1
  · rfl

/-- ANSWER in mode DATA or FAX. -/
theorem opAnswer_toned {line mode mailbox : Byte} {l : Line} {mb : Option Nat} {s : State} (hl : lineOf line = some l)
    (hmb : mailboxOf mailbox = some mb) (hst : s.st l = .idle ∨ s.st l = .ringing) (hhook : hasHook s l = true)
    (hmode : mode = 1#8 ∨ mode = 2#8 ∧ s.store.st = .ready) (h : Answerable s l (s.line l)) (ht : (s.line l).iface.tone = none) :
    ∃ y k', opAnswer line mode mailbox s = s.put l y k' ∧ y.call.st = (if mode = 1#8 then LineSt.train else .fax) ∧
      y.call.reason = some (.change .answer) ∧
      y.call.cr = { (s.line l).call.cr with
        dir := some .incoming, mode := some (if mode = 1#8 then .data else .fax)
        mailbox := mailboxChecked s l (some (mb.getD (s.line l).profile.mailbox)) } ∧
      y.iface.hook = true ∧ y.iface.tone = some ⟨.answer, true, s.now + 3000⟩ ∧
      (mode = 1#8 → y.modem = (s.line l).modem) ∧ (mode = 2#8 → y.modem.rung = some ((faxRungs s.ladder).getLast?.getD 0)) ∧
      y = { s.line l with call := y.call, iface := y.iface, modem := y.modem } := by
  rcases hmode with rfl | ⟨rfl, hready⟩
  · obtain ⟨y, k', hrun, h1, h2, h3, _, h4, _, h5, h6⟩ := answerLine_data (k := s.link.push (.done 0x41#8 .ok []))
      (mailboxChecked s l (some (mb.getD (s.line l).profile.mailbox))) h ht
    exact ⟨y, k', (opAnswer_of_valid (m := .data) hl rfl hmb hst hhook (.inl rfl)).trans hrun, h1, h2, h3, h4, h5,
      fun _ => by rw [h6], fun h => absurd h (by decide), by rw [h6]⟩
  · obtain ⟨y, k', hrun, h1, h2, h3, h4, h5, h6, h7⟩ := answerLine_fax (k := s.link.push (.done 0x41#8 .ok []))
      (mailboxChecked s l (some (mb.getD (s.line l).profile.mailbox))) h ht
    exact ⟨y, k', (opAnswer_of_valid (m := .fax) hl rfl hmb hst hhook (.inr hready)).trans hrun, h1, h2, h3, h4, h5,
      fun h => absurd h (by decide), fun _ => h6, h7⟩

/-- ANSWER in mode VOICE or AUTO, up to CLASSIFY's work. -/
theorem opAnswer_spoken {line mode mailbox : Byte} {l : Line} {mb : Option Nat} {s : State} (hl : lineOf line = some l)
    (hmb : mailboxOf mailbox = some mb) (hst : s.st l = .idle ∨ s.st l = .ringing) (hhook : hasHook s l = true)
    (hmode : mode = 3#8 ∨ mode = 4#8) (hready : s.store.st = .ready) (h : Answerable s l (s.line l)) :
    ∃ z k', opAnswer line mode mailbox s = beginClassify l (s.put l z k') ∧ z.call.st = .classify ∧
      z.call.reason = some (.change .answer) ∧ z.call.cr = { (s.line l).call.cr with
        dir := some .incoming, mode := some (if mode = 3#8 then .voice else .auto)
        mailbox := mailboxChecked s l (some (mb.getD (s.line l).profile.mailbox)) } ∧
      z.iface.hook = true ∧ z.iface.window = .closed ∧ z = { s.line l with call := z.call, iface := z.iface } := by
  have hm : ∃ m, CallMode.ofAnswer mode.toNat = some m ∧ (m = .voice ∨ m = .auto) ∧ m = if mode = 3#8 then .voice else .auto := by
    rcases hmode with rfl | rfl
    · exact ⟨.voice, rfl, .inl rfl, rfl⟩
    · exact ⟨.auto, rfl, .inr rfl, rfl⟩
  obtain ⟨m, hcode, hspoken, hm⟩ := hm
  have hrun := opAnswer_of_valid hl hcode hmb hst hhook (.inr hready)
  rw [answerLine_spoken_put hspoken _ h, mailboxChecked_put_self, mailboxChecked_checked, changeState_put] at hrun
  refine ⟨_, _, hrun, ?_⟩
  rw [LineState.enter_frame, ← hm]
  exact ⟨rfl, rfl, rfl, rfl, rfl, rfl⟩

theorem findEntry_greetingOf {s : State} {mailbox : Option Nat} {e : Entry} (h : greetingOf s mailbox = some e) :
    findEntry s e.id = some e := by
  obtain ⟨id, -, he⟩ := Option.bind_eq_some_iff.mp h
  rw [findEntry_id he, he]

/-- A ring-on in RINGING under the profile's DATA plan. -/
theorem opRingOn_data {s : State} {l : Line} {start due : Nat} (hst : s.st l = .ringing)
    (hpending : (s.line l).iface.ring = .pending start due) (hring : ∀ e, some e ∈ s.cadences → e.source ≠ .ring)
    (hscreen : ∀ e ∈ s.screen, e = none) (hclass : (s.line l).call.cr.ringClass = none) (hmode : (s.line l).profile.answerMode = .data)
    (hhook : hasHook s l = true) :
    let now := max s.now (start + 200)
    let y := { s.line l with
      iface := { (s.line l).iface with ring := .on start due }
      call := { (s.line l).call with
        cr := { (s.line l).call.cr with rings := min 255 ((s.line l).call.cr.rings + 1) }, ringDue := some (now + 8000), firstRing := false } }
    opRingOn l s = if (s.line l).call.ringsToAnswer.getD (s.line l).profile.rings ≤ min 255 ((s.line l).call.cr.rings + 1) then
        answerLine l .data (some (s.line l).profile.mailbox) ((s.at now).put l y s.link)
      else (s.at now).put l y s.link := by
  dsimp only
  rw [opRingOn_of_pending hpending hring, callRingOn_ringing (by rw [put_st]; exact hst), countRing, modCall_put, put_now,
    evaluatePlan_data (by rw [put_screen]; exact hscreen) (by rw [put_line]; exact hclass) (by rw [put_line]; exact hmode)
      (by cases l <;> exact hhook), put_line]
  rfl

theorem glaredJobs_of_none {x : LineState} {s : State} (h : x.call.cr.job = none) : glaredJobs x s = s.jobs := by rw [glaredJobs, h]; rfl

theorem glaredJobs_of_some {x : LineState} {s : State} {j : Job} (h : x.call.cr.job = some j.id) (hj : findJob s j.id = some j) :
    glaredJobs x s = updateWhere (fun k => decide (k.id = j.id)) (fun k => { k with
      state := .waiting, lastTry := (x.fax.good, x.modem.rung) }) s.jobs := by
  rw [glaredJobs, h]
  simp only [Option.bind_some, hj]

/-- What glare makes of a line: the outgoing call's timers are gone, its loop and hook stand, and the call is an incoming one. -/
structure Glared (s : State) (l : Line) (start due : Nat) (m : CallMode) (st : LineSt) (y : LineState) : Prop where
  st : y.call.st = st
  reason : y.call.reason = some (.change .glare)
  dialTone : y.call.dialToneDue = none
  blind : y.call.blindDue = none
  loop : y.iface.loop = (s.line l).iface.loop
  hook : y.iface.hook = (s.line l).iface.hook
  record : y.call.cr = { emptyCallRecord with
    dir := some .incoming, rings := 1, mode := some m
    mailbox := if mailboxEnabled s (s.line l).profile.mailbox = true then some (s.line l).profile.mailbox else none }
  rest : y = { s.line l with call := y.call, iface := y.iface, voice := y.voice }

/-- RING_ON in SEIZE with a store that is not READY: training, the answer tone sounding. -/
theorem exec_ringOn_glare_data {l : Line} {start due : Nat} {s : State} (hs : s.requests = []) (hst : s.st l = .seize)
    (hpending : (s.line l).iface.ring = .pending start due) (hring : Unwatched .ring s) (href : (s.line l).call.refHeld = false)
    (ht : (s.line l).iface.tone = none) (hauto : ∀ m, (s.line m).profile.autoCallout = false) (hready : s.store.st ≠ .ready) : ∃ y k',
    exec (.ringOn l) s = .next (((s.at (max s.now (start + 200))).withJobs (glaredJobs (s.line l) s)).put l y k') ∧
      Glared s l start due .data .train y ∧ y.voice = (s.line l).voice ∧
      y.iface.tone = some ⟨.answer, true, max s.now (start + 200) + 3000⟩ := by
  generalize hnow : max s.now (start + 200) = now
  obtain ⟨k', B, hB, hglare⟩ := glare_put (s := s.at now) (l := l) (k := s.link)
    (x := { s.line l with iface := { (s.line l).iface with ring := .on start due } }) href
  have hBnow : B.now = now := by rcases hB with rfl | rfl <;> rfl
  dsimp only at hglare
  rw [if_neg (by exact hready), changeState_put, hBnow, requestTone_put _ _ _ _ _ (by rw [LineState.enter_frame]; exact ht), hBnow] at hglare
  have hop := opRingOn_of_pending hpending hring
  rw [hnow, callRingOn_seize (by rw [put_st]; exact hst), hglare] at hop
  have hrun := exec_finish (c := .ringOn l) hop
  rw [finish_glared (s := s.at now) hs hB (by rw [LineState.enter_frame]; exact hauto l) (by cases l <;> exact hauto)] at hrun
  refine ⟨_, _, hrun, ⟨?_, ?_, ?_, ?_, ?_, ?_, ?_, ?_⟩, ?_, ?_⟩
  all_goals (rw [LineState.enter_frame] <;> rfl)

/-- RING_ON in SEIZE with a READY store and a mailbox without a greeting: CLASSIFY, 5 s of silence. -/
theorem exec_ringOn_glare_auto {l : Line} {start due : Nat} {s : State} (hs : s.requests = []) (hst : s.st l = .seize)
    (hpending : (s.line l).iface.ring = .pending start due) (hring : Unwatched .ring s) (href : (s.line l).call.refHeld = false)
    (hauto : ∀ m, (s.line m).profile.autoCallout = false) (hready : s.store.st = .ready) (hr : readerOf s (.line l) = none)
    (hg : greetingOf s (if mailboxEnabled s (s.line l).profile.mailbox = true then some (s.line l).profile.mailbox else none) = none) :
    ∃ y k', exec (.ringOn l) s = .next (((s.at (max s.now (start + 200))).withJobs (glaredJobs (s.line l) s)).put l y k') ∧
      Glared s l start due .auto .classify y ∧ y.voice.sub = some .greeting ∧
      y.voice.silentDue = some (max s.now (start + 200) + 5000) ∧ y.call.digits = [] ∧
      y.call.classifyDue = some (max s.now (start + 200) + (s.line l).profile.classifyWindow * 1000) := by
  generalize hnow : max s.now (start + 200) = now
  obtain ⟨k', B, hB, hglare⟩ := glare_put (s := s.at now) (l := l) (k := s.link)
    (x := { s.line l with iface := { (s.line l).iface with ring := .on start due } }) href
  have hBnow : B.now = now := by rcases hB with rfl | rfl <;> rfl
  have hBreader : readerOf B (.line l) = none := by rcases hB with rfl | rfl <;> exact hr
  have hBgreeting (m : Option Nat) : greetingOf B m = greetingOf s m := by rcases hB with rfl | rfl <;> rfl
  dsimp only at hglare
  rw [if_pos (by exact hready), changeState_put, hBnow] at hglare
  generalize hz : LineState.enter .classify (.change .glare) now _ = z at hglare
  have hzcr : z.call.cr = { emptyCallRecord with
      dir := some .incoming, rings := 1, mode := some .auto
      mailbox := if mailboxEnabled s (s.line l).profile.mailbox = true then some (s.line l).profile.mailbox else none } := by
    rw [← hz, LineState.enter_frame]; rfl
  have hzrest : z = { s.line l with call := z.call, iface := z.iface } := by rw [← hz, LineState.enter_frame]
  obtain ⟨y, k'', hclassify, hy1, hy2, ⟨hy3, hy4, -, -⟩, hy5⟩ := beginClassify_silent (s := B) (x := z) hBreader
    (by rw [hBgreeting, hzcr]; exact hg)
  rw [hclassify] at hglare
  have hyrest : y = { s.line l with call := y.call, iface := y.iface, voice := y.voice } := hy5.trans (by rw [hzrest])
  have hop := opRingOn_of_pending hpending hring
  rw [hnow, callRingOn_seize (by rw [put_st]; exact hst), hglare] at hop
  have hrun := exec_finish (c := .ringOn l) hop
  rw [finish_glared (s := s.at now) hs hB (by rw [hyrest]; exact hauto l) (by cases l <;> exact hauto)] at hrun
  have hprofile : z.profile = (s.line l).profile := by rw [hzrest]
  refine ⟨y, k'', hrun, ⟨?_, ?_, ?_, ?_, ?_, ?_, ?_, hyrest⟩, ?_, ?_, ?_, ?_⟩
  · rw [hy1, ← hz, LineState.enter_frame]; rfl
  · rw [hy1, ← hz, LineState.enter_frame]; rfl
  · rw [hy1, ← hz, LineState.enter_frame]; rfl
  · rw [hy1, ← hz, LineState.enter_frame]; rfl
  · rw [hy4, ← hz, LineState.enter_frame]
  · rw [hy3, ← hz, LineState.enter_frame]
  · rw [hy1]; exact hzcr
  · rw [hy2]; rfl
  · rw [hy2, hBnow]
  · rw [hy1]; rfl
  · rw [hy1, hBnow, hprofile]; rfl

/-- Settles O38. -/
theorem answerChecksThenAnswers : Obligations.AnswerChecksThenAnswers := by
  refine ⟨fun line mode mailbox l mb s hs => ⟨fun h => ?_, fun hline h1 h4 hmb => ?_⟩, fun l s => ?_, ?_⟩
  · refine exec_of_op (c := .answer line mode mailbox) (opAnswer_badParam ?_) (by simp [hs])
    rcases h with h | h | h | h
    · exact .inl h
    · exact .inr (.inl (CallMode.ofAnswer_eq_none (.inl h)))
    · exact .inr (.inl (CallMode.ofAnswer_eq_none (.inr h)))
    · exact .inr (.inr (mailboxOf_eq_none h))
  · have hl : lineOf line = some l := by rw [hline, lineOf_lineByte]
    have hcode : ∃ m, CallMode.ofAnswer mode.toNat = some m ∧ (mode ≠ 1#8 → m ≠ .data) := by
      rcases mode_of_range h1 h4 with rfl | rfl | rfl | rfl
      exacts [⟨.data, rfl, fun h => absurd rfl h⟩, ⟨.fax, rfl, nofun⟩, ⟨.voice, rfl, nofun⟩, ⟨.auto, rfl, nofun⟩]
    obtain ⟨m, hm, hdata⟩ := hcode
    refine ⟨fun h => ?_, fun hst hhook hne hready => ?_, fun hst hhook hmode hpin hloop ht hw => ?_,
      fun hst hhook hmode hready hpin hloop _ hw hr => ?_⟩
    · exact exec_of_op (c := .answer line mode mailbox) ((opAnswer_eq hl hm hmb).trans (if_pos h)) (by simp [hs])
    · have hbad : ¬(¬(s.st l = .idle ∨ s.st l = .ringing) ∨ hasHook s l = false) := by simp [hst, hhook]
      have hnot : m ≠ .data ∧ storeReady s = false := ⟨hdata hne, by simpa [storeReady] using hready⟩
      exact exec_of_op (c := .answer line mode mailbox) ((opAnswer_eq hl hm hmb).trans ((if_neg hbad).trans (if_pos hnot))) (by simp [hs])
    · obtain ⟨y, k', hop, hy1, hy2, hy3, hy4, hy5, hy6, hy7, hy8⟩ := opAnswer_toned hl hmb hst hhook hmode ⟨hpin, hloop, hw⟩ ht
      refine ⟨_, exec_of_op (c := .answer line mode mailbox) hop ((put_requests ..).trans hs), ?_⟩
      rw [put_st, put_line, put_link, hy3]
      exact ⟨hy1, hy2, rfl, rfl, hy4, mailboxChecked_some _, hy5, hy6, hy7, by rw [← hy8]; cases l <;> rfl⟩
    · intro x enabled checked greeting classifying
      obtain ⟨z, k', hop, hz1, hz2, hz3, hz4, hz5, hz6⟩ := opAnswer_spoken hl hmb hst hhook hmode hready ⟨hpin, hloop, hw⟩
      have hmail : z.call.cr.mailbox = checked := by rw [hz3]; exact mailboxChecked_some _
      have hprofile : z.profile = x.profile := by rw [hz6]
      refine ⟨fun hg => ?_, fun e hg hclosed herase huse hgrant => ?_⟩
      · obtain ⟨y, k'', hrun, hy1, hy2, ⟨hy3, -, hy4, -⟩, hy5⟩ := beginClassify_silent (x := z) (k := k') hr (by rw [hmail]; exact hg)
        rw [hmail] at hy2
        rw [hprofile] at hy1
        refine ⟨_, exec_of_op (c := .answer line mode mailbox) (hop.trans hrun) ((put_requests ..).trans hs), ?_⟩
        simp only [classifying, put_st, put_line, put_link]
        rw [hy1, hy3, hy4]
        refine ⟨⟨hz1, hz2, ?_, ?_, hmail, rfl, rfl, hz4, hz5⟩, hy2, ?_⟩
        · exact congrArg CallRecord.dir hz3
        · exact congrArg CallRecord.mode hz3
        · have hy : y = { s.line l with call := y.call, iface := y.iface, voice := y.voice } := hy5.trans (by rw [hz6])
          rw [← hy1]
          exact (congrArg (fun y => s.put l y k'') hy).trans (by cases l <;> rfl)
      · have hfind := findEntry_greetingOf hg
        obtain ⟨y, k'', hrun, hy1, hy2, ⟨hy3, -, hy4, -⟩, hy5⟩ := beginClassify_message (x := z) (k := k') hr
          (by rw [hmail]; exact hg) (canRef_of hfind hclosed herase huse) hgrant
        rw [hmail] at hy2
        rw [hprofile] at hy1
        refine ⟨_, exec_of_op (c := .answer line mode mailbox) (hop.trans hrun) ?_, ?_⟩
        · rw [reading_frame]; exact (put_requests ..).trans hs
        simp only [classifying, put_st, put_line, put_link, readerOf_put, findEntry_put, put_store]
        rw [hy1, hy3, hy4]
        refine ⟨⟨hz1, hz2, ?_, ?_, hmail, rfl, rfl, hz4, hz5⟩, hy2, readerOf_reading .., findEntry_reading _ _ hfind, reading_memory .., ?_⟩
        · exact congrArg CallRecord.dir hz3
        · exact congrArg CallRecord.mode hz3
        · have hy : y = { s.line l with call := y.call, iface := y.iface, voice := y.voice } := hy5.trans (by rw [hz6])
          rw [← hy1]
          exact (congrArg (fun y => (s.reading (.line l) e 0).put l y k'') hy).trans (by cases l <;> rfl)
  · intro x p cr rings map base found
    have hbase (n : Nat) : some (basePlan s l n) = base n := by
      simp only [base, basePlan, cr, map, p, x, ← ringMap_eq]
      cases (s.line l).call.cr.ringClass <;> rfl
    have hconsulted {a : Option ScreenAction} (hrings : 2 ≤ cr.rings) (h : found = a) : answerPlan s l = planOf s l a := by
      rw [answerPlan_eq, if_pos (by exact hrings)]
      exact congrArg (planOf s l) h
    refine ⟨fun h => (answerPlan_base h).trans (hbase rings), fun hrings => ⟨?_, ?_, ?_, ?_, ?_⟩, planAnswers_iff s l, ?_⟩
    · exact fun h => hconsulted hrings h
    · exact fun n h => (hconsulted hrings h).trans (hbase n)
    · exact fun m h => hconsulted hrings h
    · exact fun h => hconsulted hrings h
    · exact fun h => hconsulted hrings h
    intro start due hs hst hpending hring hscreen hclass hmode hhook hpin hloop ht hw now
    have hop := opRingOn_data hst hpending hring hscreen hclass hmode hhook
    dsimp only at hop
    refine ⟨fun h => ?_, fun h => ?_⟩
    · rw [if_pos (by exact h)] at hop
      obtain ⟨y, k', hrun, hy1, hy2, hy3, hy4, hy5, hy6, hy7, hy8⟩ := answerLine_data (k := s.link) (s := s.at now) (l := l)
        (x := { x with
          iface := { x.iface with ring := .on start due }
          call := { x.call with cr := { cr with rings := min 255 (cr.rings + 1) }, ringDue := some (now + 8000), firstRing := false } })
        (some p.mailbox) ⟨by cases l <;> exact hpin, hloop, hw⟩ ht
      refine ⟨_, exec_of_op (c := .ringOn l) (hop.trans hrun) ((put_requests ..).trans hs), ?_⟩
      rw [put_st, put_line, put_link, hy3]
      exact ⟨hy1, hy2, rfl, hy4, hy5, hy6, hy7, (congrArg (fun y => (s.at now).put l y k') hy8).trans (by cases l <;> rfl)⟩
    · rw [if_neg (Nat.not_le.mpr h)] at hop
      refine (exec_of_op (c := .ringOn l) hop ((put_requests ..).trans hs)).trans ?_
      cases l <;> rfl
  · intro l start due s hs hst hpending hring href ht hauto x now enabled record abandoned
    have habandoned {m st y k'} (h : Glared s l start due m st y) :
        abandoned (((s.at now).withJobs (glaredJobs x s)).put l y k') ∧
        ((s.at now).withJobs (glaredJobs x s)).put l y k' =
          { s.setLine l { x with call := y.call, iface := y.iface, voice := y.voice } with
            link := k', now := now, jobs := glaredJobs x s } := by
      refine ⟨?_, (congrArg (fun y => ((s.at now).withJobs (glaredJobs x s)).put l y k') h.rest).trans (by cases l <;> rfl)⟩
      simp only [abandoned, put_line, put_attempts, put_now, put_jobs]
      exact ⟨h.reason, h.dialTone, h.blind, h.loop, h.hook, rfl, rfl, glaredJobs_of_none, fun j => glaredJobs_of_some⟩
    refine ⟨fun hready _ => ?_, fun hready _ hr hg => ?_⟩
    · obtain ⟨y, k', hrun, hy, hvoice, htone⟩ := exec_ringOn_glare_data hs hst hpending hring href ht hauto hready
      obtain ⟨h1, h2⟩ := habandoned (k' := k') hy
      rw [hvoice] at h2
      refine ⟨_, hrun, ?_, h1, ?_, ?_, ?_⟩
      · rw [put_st]; exact hy.st
      · rw [put_line]; exact hy.record
      · rw [put_line]; exact htone
      · rw [put_line, put_link, put_jobs]; exact h2
    · obtain ⟨y, k', hrun, hy, hsub, hsilent, hdigits, hdue⟩ := exec_ringOn_glare_auto hs hst hpending hring href hauto hready hr hg
      obtain ⟨h1, h2⟩ := habandoned (k' := k') hy
      refine ⟨_, hrun, ?_, h1, ?_, ?_, ?_, ?_, ?_, ?_⟩
      · rw [put_st]; exact hy.st
      · rw [put_line]; exact hy.record
      · rw [put_line]; exact hdue
      · rw [put_line]; exact hdigits
      · rw [put_line]; exact hsub
      · rw [put_line]; exact hsilent
      · rw [put_line, put_link, put_jobs]; exact h2

end Sys2Proof.Machine
end

section
/-! PROOFS. The call-out list (R86 to R91). -/

namespace Sys2Proof.Machine

/-! ### A job found, changed and reported -/

section
variable {s : State} {j : Job}

theorem findJob_id {id : Nat} (h : findJob s id = some j) : j.id = id := by simpa [findJob] using List.find?_some h

theorem findJob_modJob {id : Nat} (h : findJob s id = some j) {f : Job → Job} (hf : ∀ k, (f k).id = k.id) :
    findJob (modJob id f s) id = some (f j) := by
  have hfind := find?_updateWhere (fun k : Job => decide (k.id = id)) f (fun k => by rw [hf]) s.jobs
  rw [show s.jobs.find? (fun k : Job => decide (k.id = id)) = some j from h] at hfind
  exact hfind

theorem reportJob_of_some {id : Nat} (h : findJob s id = some j) : reportJob id s = queueReport (.job j.id j.state j.tries j.outcome) s := by
  rw [reportJob, h]

theorem modJob_modJob (id : Nat) {f : Job → Job} (g : Job → Job) (hf : ∀ k, (f k).id = k.id) :
    modJob id g (modJob id f s) = modJob id (fun k => g (f k)) s := by
  rw [modJob, modJob, modJob, ← updateWhere_updateWhere (fun k : Job => decide (k.id = id)) f g (fun k => by rw [hf])]

theorem finishJob_eq {id : Nat} (h : findJob s id = some j) (r : JobResult) : finishJob id r s =
    queueReport (.job j.id .done j.tries (some ⟨r, j.lastTry.1, j.lastTry.2, s.link.dayClock⟩)) (modJob id (fun k => { k with
      state := .done, outcome := some ⟨r, k.lastTry.1, k.lastTry.2, s.link.dayClock⟩ }) s) := by
  exact reportJob_of_some (findJob_modJob (f := fun k => { k with
    state := .done, outcome := some ⟨r, k.lastTry.1, k.lastTry.2, s.link.dayClock⟩ }) h fun _ => rfl)

theorem requeueJob_eq {id : Nat} (h : findJob s id = some j) : requeueJob id s =
    askDispatch (queueReport (.job j.id .waiting j.tries j.outcome) (modJob id (fun k => { k with state := .waiting }) s)) := by
  exact congrArg askDispatch (reportJob_of_some (findJob_modJob (f := fun k => { k with state := .waiting }) h fun _ => rfl))

end

/-! ### JOBADD (R88) -/

section
variable {kind pref prio tries : Byte} {msg : Word16} {str : List Byte} {k : JobKind} {lp : LinePref} {s : State}

theorem opJobadd_badParam (h : JobKind.ofCode kind.toNat = none ∨ LinePref.ofCode pref.toNat = none) :
    opJobadd kind msg prio pref tries str s = done 0x4A#8 .badParam [] s := by
  unfold opJobadd
  dsimp only
  split
  · simp_all
  · rfl

/-- JOBADD with kind and preference named: the checks in their order. -/
theorem opJobadd_eq (hk : JobKind.ofCode kind.toNat = some k) (hp : LinePref.ofCode pref.toNat = some lp) :
    opJobadd kind msg prio pref tries str s =
      if (lp.lines.all fun l => dialStringOk (s.line l).profile.dialMethod str) = false then done 0x4A#8 .badParam [] s
      else if 16 ≤ s.jobs.length then done 0x4A#8 .tableFull [] s
      else if k = .fax ∧ faxRungs s.ladder = [] then done 0x4A#8 .badState [] s
      else if storeReady s = false then done 0x4A#8 .notReady [] s
      else if messageFits s k.mode msg.toNat = false then done 0x4A#8 .noEntry [] s
      else if (lp.lines.all fun l => outgoingBarred s (s.line l).profile.screenBar (dialNumber str)) then done 0x4A#8 .screened [] s
      else
        let id := freeJobId s.jobs 16 (nextJobId s.lastJob)
        askDispatch (reportJob id (done 0x4A#8 .ok (oneByte id) (takeRef msg.toNat { s with
          lastJob := id
          jobs := s.jobs ++ [{
            id := id, kind := k, symbols := str, number := dialNumber str, message := msg.toNat, priority := clamp 0 7 prio.toNat
            preference := lp, maxTries := clamp 1 15 tries.toNat, tries := 0, state := .waiting, outcome := none, lastTry := (0, none) }] }))) := by
  rw [opJobadd, hk, hp]

/-- A job whose id is free is found at the end of the list. -/
theorem findJob_append {t : State} {j : Job} (hjobs : t.jobs = s.jobs ++ [j]) (h : findJob s j.id = none) : findJob t j.id = some j := by
  have hnone : s.jobs.find? (fun k => decide (k.id = j.id)) = none := h
  rw [findJob, hjobs, List.find?_append, hnone]
  simp

theorem messageFits_of_none {m : CallMode} {id : Nat} (h : findEntry s id = none) : messageFits s m id = false := by rw [messageFits, h]

theorem lines_ne_nil (lp : LinePref) : ∃ l, l ∈ lp.lines := by cases lp <;> exact ⟨_, List.mem_cons_self⟩

end

/-! ### Dispatch (R89) -/

theorem finish_dispatched {u t : State} {l o : Line} (ho : o ≠ l) (hu : u.requests = []) (ht : t.requests = [])
    (huo : (u.line o).profile.autoCallout = false) (hto : (t.line o).profile.autoCallout = false)
    (h : ∀ rs, dispatchLine l { u with requests := rs } = { t with requests := rs }) : finish (askDispatch u) = t := by
  have hskip (v : State) (hv : (v.line o).profile.autoCallout = false) (rs : List Request) :
      dispatchLine o { v with requests := rs } = { v with requests := rs } :=
    dispatchLine_of_not (canTakeJob_of_off (by cases o <;> exact hv))
  have hreq : (askDispatch u).requests = [.dispatch .A, .dispatch .B] := by simp [askDispatch, hu]
  have hback : { t with requests := [] } = t := by rw [← ht]
  rw [finish, takeRequests_cons hreq]
  cases l with
  | A =>
    obtain rfl : o = .B := by cases o <;> first | rfl | exact absurd rfl ho
    have hA : takeRequest (.dispatch .A) { askDispatch u with requests := [.dispatch .B] } = { t with requests := [.dispatch .B] } := h _
    have hB : takeRequest (.dispatch .B) { t with requests := [] } = t := (hskip t hto []).trans hback
    rw [hA, takeRequests_cons rfl]
    exact (congrArg _ hB).trans (takeRequests_of_none ht)
  | B =>
    obtain rfl : o = .A := by cases o <;> first | rfl | exact absurd rfl ho
    have hA : takeRequest (.dispatch .A) { askDispatch u with requests := [.dispatch .B] } = { u with requests := [.dispatch .B] } :=
      hskip u huo _
    have hB : takeRequest (.dispatch .B) { u with requests := [] } = t := (h []).trans hback
    rw [hA, takeRequests_cons rfl]
    exact (congrArg _ hB).trans (takeRequests_of_none ht)

/-- SECONDS_TICK up to dispatch (R17). -/
def State.ticked (s : State) : State :=
  { s with
    now := max s.now s.link.secondDue
    link := { s.link with seconds := min 4294967295 (s.link.seconds + 1), secondDue := s.link.secondDue + 1000 } }

theorem opSecondsTick_eq (s : State) : opSecondsTick s = askDispatch s.ticked := rfl

section
variable {s : State} {l : Line} {j : Job} {rest : List Job}

theorem canTakeJob_iff : canTakeJob s l = true ↔ s.st l = .idle ∧ (s.line l).profile.autoCallout = true ∧ hasHook s l = true ∧
    s.store.st = .ready ∧ ¬((s.line l).profile.extPolicy = .yieldLine ∧ (s.line l).iface.extState = true) := by
  simp only [canTakeJob, storeReady, Bool.and_eq_true, decide_eq_true_eq, Bool.not_eq_true', Bool.and_eq_false_iff, and_assoc,
    decide_eq_false_iff_not, not_and_or, Bool.not_eq_true]

theorem examineJobs_other (h : l ∉ j.preference.lines) : examineJobs l (j :: rest) s = examineJobs l rest s := by
  rw [examineJobs, if_pos h]

theorem examineJobs_barred (h : l ∈ j.preference.lines) (hv : consultAttempts s j.number = .barred) :
    examineJobs l (j :: rest) s = examineJobs l rest (finishJob j.id .barred s) := by
  rw [examineJobs, if_neg (not_not_intro h), hv]

theorem examineJobs_delayed {n : Nat} (h : l ∈ j.preference.lines) (hv : consultAttempts s j.number = .delayed n) :
    examineJobs l (j :: rest) s = examineJobs l rest s := by
  rw [examineJobs, if_neg (not_not_intro h), hv]

theorem examineJobs_allowed (h : l ∈ j.preference.lines) (hv : consultAttempts s j.number = .allowed) :
    examineJobs l (j :: rest) s = if outgoingBarred s (s.line l).profile.screenBar j.number = true then
      examineJobs l rest (finishJob j.id .screened s) else takeJob l j s := by
  rw [examineJobs, if_neg (not_not_intro h), hv]

/-- A job taken by an IDLE line (R89). -/
theorem takeJob_eq (hj : findJob s j.id = some j) (hst : s.st l = .idle) (hpin : hasPin s (loopFn l) = true)
    (hloop : (s.line l).iface.loop = .onHook) (hexp : (s.line l).iface.expecting = false) (hsub : (s.line l).voice.sub = none) :
    takeJob l j s = State.put { s with
        jobs := updateWhere (fun k => decide (k.id = j.id)) (fun k => { k with state := .active }) s.jobs
        attempts := (prepareAttempt j.number s).attempts } l
      { s.line l with
        call := ({ (s.line l).call with cr := { emptyCallRecord with
          dir := some .outgoing, mode := some j.kind.mode, dialled := j.symbols, number := j.number
          message := some j.message, job := some j.id } } : Call).seized .job s.now
        iface := (s.line l).iface.seized s.now }
      ((s.link.push (.job j.id .active j.tries j.outcome)).push (.line l .seize (.change .job) none)) := by
  have hreport := reportJob_of_some (findJob_modJob (f := fun k => { k with state := .active }) hj fun _ => rfl)
  rw [takeJob]
  dsimp only
  rw [hreport, queueReport_eq, prepareAttempt_eq]
  have hprepare : (prepareAttempt j.number (modRecord l (fun _ => { emptyCallRecord with
      dir := some .outgoing, mode := some j.kind.mode, dialled := j.symbols, number := j.number, message := some j.message, job := some j.id })
      { modJob j.id (fun k => { k with state := .active }) s with link := s.link.push (.job j.id .active j.tries j.outcome) })).attempts =
      (prepareAttempt j.number s).attempts :=
    prepareAttempt_congr (by cases l <;> rfl) (by cases l <;> exact Link.push_seconds ..)
  have hstart : { modRecord l (fun _ => { emptyCallRecord with
      dir := some .outgoing, mode := some j.kind.mode, dialled := j.symbols, number := j.number, message := some j.message, job := some j.id })
      { modJob j.id (fun k => { k with state := .active }) s with link := s.link.push (.job j.id .active j.tries j.outcome) } with
      attempts := (prepareAttempt j.number s).attempts } = State.put { s with
        jobs := updateWhere (fun k => decide (k.id = j.id)) (fun k => { k with state := .active }) s.jobs
        attempts := (prepareAttempt j.number s).attempts } l
      { s.line l with call := { (s.line l).call with cr := { emptyCallRecord with
          dir := some .outgoing, mode := some j.kind.mode, dialled := j.symbols, number := j.number
          message := some j.message, job := some j.id } } } (s.link.push (.job j.id .active j.tries j.outcome)) := by cases l <;> rfl
  have hlink : (modJob j.id (fun k => { k with state := .active }) s).link = s.link := rfl
  dsimp only at hprepare hstart ⊢
  rw [hlink, hprepare, hstart]
  rw [enterSeize_put (by exact hloop) (by exact hpin) (by exact hst) (by exact hexp) (by exact hsub)]

end

/-! ### Settlement of a job (R90) -/

section
variable {s : State} {l : Line} {x : LineState} {k : Link} {j : Job}

theorem modJob_put (id : Nat) (f : Job → Job) : modJob id f (s.put l x k) =
    (s.withJobs (updateWhere (fun k => decide (k.id = id)) f s.jobs)).put l x k := by cases l <;> rfl

theorem findJob_put (id : Nat) : findJob (s.put l x k) id = findJob s id := by cases l <;> rfl

theorem askDispatch_put : askDispatch (s.put l x k) = (askDispatch s).put l x k := by simp only [askDispatch, post_put]

/-- The state behind a settlement: the jobs changed, and dispatch perhaps asked for. -/
def SettledJobs (l : Line) (x : LineState) (k : Link) (f : Job → Job) (j : Job) (s t : State) : Prop :=
  ∃ r B, t = B.put l x (k.push r) ∧ (B = s.withJobs (updateWhere (fun k => decide (k.id = j.id)) f s.jobs) ∨
    B = askDispatch (s.withJobs (updateWhere (fun k => decide (k.id = j.id)) f s.jobs)))

theorem finishJob_put (hj : findJob s j.id = some j) (f : Job → Job) (hf : ∀ k, (f k).id = k.id) (r : JobResult) :
    SettledJobs l x k' (fun k => { f k with
      state := .done, outcome := some ⟨r, (f k).lastTry.1, (f k).lastTry.2, k'.dayClock⟩ }) j s
      (finishJob j.id r (modJob j.id f (s.put l x k'))) := by
  have hfind := findJob_modJob (s := s.put l x k') (by rw [findJob_put]; exact hj) hf
  have hlink : (modJob j.id f (s.put l x k')).link = k' := by rw [modJob_put, put_link]
  rw [finishJob_eq hfind r, modJob_modJob _ _ hf, hlink, modJob_put, queueReport_put]
  exact ⟨_, _, rfl, .inl rfl⟩

theorem requeueJob_put (hj : findJob s j.id = some j) (f : Job → Job) (hf : ∀ k, (f k).id = k.id) :
    SettledJobs l x k' (fun k => { f k with state := .waiting }) j s (requeueJob j.id (modJob j.id f (s.put l x k'))) := by
  have hfind := findJob_modJob (s := s.put l x k') (by rw [findJob_put]; exact hj) hf
  rw [requeueJob_eq hfind, modJob_modJob _ _ hf, modJob_put, queueReport_put]
  exact ⟨_, _, askDispatch_put, .inr rfl⟩

theorem settleJob_host (hj : findJob s j.id = some j) (hjob : x.call.cr.job = some j.id) :
    SettledJobs l x k (fun j => { j with
      state := .done, lastTry := (x.fax.good, x.modem.rung), outcome := some ⟨.cancelled, x.fax.good, x.modem.rung, k.dayClock⟩ }) j s
      (settleJob l .host (s.put l x k)) := by
  have h := finishJob_put (l := l) (x := x) (k' := k) hj (fun j => { j with lastTry := (x.fax.good, x.modem.rung) }) (fun _ => rfl) .cancelled
  have hrun : settleJob l .host (s.put l x k) =
      finishJob j.id .cancelled (modJob j.id (fun j => { j with lastTry := (x.fax.good, x.modem.rung) }) (s.put l x k)) := by
    simp only [settleJob, put_line, hjob, Option.bind_some, findJob_put, hj, lastTryOf]
  rw [hrun]
  exact h

theorem settleJob_extension (hj : findJob s j.id = some j) (hjob : x.call.cr.job = some j.id) :
    SettledJobs l x k (fun j => { j with state := .waiting, lastTry := (x.fax.good, x.modem.rung) }) j s
      (settleJob l .extension (s.put l x k)) := by
  have h := requeueJob_put (l := l) (x := x) (k' := k) hj (fun j => { j with lastTry := (x.fax.good, x.modem.rung) }) (fun _ => rfl)
  have hrun : settleJob l .extension (s.put l x k) =
      requeueJob j.id (modJob j.id (fun j => { j with lastTry := (x.fax.good, x.modem.rung) }) (s.put l x k)) := by
    simp only [settleJob, put_line, hjob, Option.bind_some, findJob_put, hj, lastTryOf]
  rw [hrun]
  exact h

theorem settleJob_noAnswer (hj : findJob s j.id = some j) (hjob : x.call.cr.job = some j.id) (hgood : x.fax.good = 0) :
    SettledJobs l x k (fun k' => if j.tries + 1 < j.maxTries then
        { k' with tries := k'.tries + 1, state := .waiting, lastTry := (x.fax.good, x.modem.rung) }
      else { k' with
        tries := k'.tries + 1, state := .done, lastTry := (x.fax.good, x.modem.rung)
        outcome := some ⟨.failed, x.fax.good, x.modem.rung, k.dayClock⟩ }) j s
      (settleJob l .noAnswer (s.put l x k)) := by
  have hrun : settleJob l .noAnswer (s.put l x k) =
      failJob j x.fax.good (modJob j.id (fun j => { j with lastTry := (x.fax.good, x.modem.rung) }) (s.put l x k)) := by
    simp only [settleJob, put_line, hjob, Option.bind_some, findJob_put, hj, lastTryOf]
  have hmod := modJob_modJob (s := s.put l x k) j.id (f := fun j => { j with lastTry := (x.fax.good, x.modem.rung) })
    (fun j => { j with tries := j.tries + 1 }) (fun _ => rfl)
  rw [hrun, failJob, hmod]
  by_cases h : j.tries + 1 < j.maxTries
  · simp only [if_pos h]
    exact requeueJob_put hj (fun j => { j with tries := j.tries + 1, lastTry := (x.fax.good, x.modem.rung) }) (fun _ => rfl)
  · simp only [if_neg h]
    rw [if_neg (by omega)]
    exact finishJob_put hj (fun j => { j with tries := j.tries + 1, lastTry := (x.fax.good, x.modem.rung) }) (fun _ => rfl) .failed

/-- A line without work enters CLEARDOWN from a call of a job, which is settled; no line takes a job. -/
theorem finish_settled {r : ReleaseReason} {f : Job → Job} (hs : s.requests = []) (h : x.Workless) (hst : x.call.st ≠ .cleardown)
    (hauto : x.profile.autoCallout = false) (hother : ∀ m, (s.line m).profile.autoCallout = false)
    (hsettle : ∀ y k', y.call.cr.job = x.call.cr.job → y.fax = x.fax → y.modem.rung = x.modem.rung → k'.dayClock = k.dayClock →
      SettledJobs l y k' f j s (settleJob l r (s.put l y k'))) : ∃ y k' attempts,
    finish (enterCleardown l r (s.put l x k)) = State.put { s with
      jobs := updateWhere (fun k => decide (k.id = j.id)) f s.jobs, attempts := attempts } l y k' ∧ y.call.st = .cleardown ∧
      ∃ B : State, B.attempts = s.attempts ∧ attempts = (settleAttempt l r B).attempts ∧ B.link.seconds = k.seconds ∧
        (B.line l).call.cr.dir = x.call.cr.dir ∧ (B.line l).call.cr.number = x.call.cr.number ∧
        (B.line l).call.reached = x.call.reached := by
  obtain ⟨e, lo, hi, cur, lat, hx⟩ := x.cleardown_frame r s.now
  have hcall : (x.released r s.now).judge.call = (x.released r s.now).call := by rw [LineState.judge_frame]
  have hcr : (x.released r s.now).judge.call.cr.job = x.call.cr.job := by
    have h := congrArg (fun y : LineState => y.call.cr.job) hx
    rw [hcall]; exact h
  have hdir : (x.released r s.now).judge.call.cr.dir = x.call.cr.dir := by
    have h := congrArg (fun y : LineState => y.call.cr.dir) hx
    rw [hcall]; exact h
  have hnumber : (x.released r s.now).judge.call.cr.number = x.call.cr.number := by
    have h := congrArg (fun y : LineState => y.call.cr.number) hx
    rw [hcall]; exact h
  have hreached : (x.released r s.now).judge.call.reached = x.call.reached := by
    have h := congrArg (fun y : LineState => y.call.reached) hx
    rw [hcall]; exact h
  have hst' : (x.released r s.now).judge.call.st = .cleardown := by
    have h := congrArg (fun y : LineState => y.call.st) hx
    rw [hcall]; exact h
  have hfax : (x.released r s.now).judge.fax = x.fax := by
    have h := congrArg LineState.fax hx; exact h
  have hrung : (x.released r s.now).judge.modem.rung = x.modem.rung := by
    have h := congrArg (fun y : LineState => y.modem.rung) hx; exact h
  have hprofile : (x.released r s.now).judge.profile = x.profile := by
    have h := congrArg LineState.profile hx; exact h
  have hclock := ((Link.Pushed.refl k).released l r s.now x).frame
  obtain ⟨report, B, hB, hor⟩ := hsettle _ (k.released l r s.now x) hcr hfax hrung hclock.2.2.1
  rw [enterCleardown_put s l k r h]
  dsimp only
  rw [if_neg hst, hB, settleAttempt_eq]
  generalize hattempts : (settleAttempt l r (B.put l (x.released r s.now).judge ((k.released l r s.now x).push report))).attempts = attempts
  generalize hk' : (k.released l r s.now x).push report = k' at hattempts ⊢
  generalize (x.released r s.now).judge = y at hcr hst' hfax hrung hprofile hdir hnumber hreached hattempts
  refine ⟨{ y with call := { y.call with cleardownDue := some (s.now + 2000) } }, k', attempts, ?_, hst', ?_⟩
  · have hput (t : State) : modCall l (fun c => { c with cleardownDue := some (({ t.put l y k' with attempts := attempts } : State).now + 2000) })
        { t.put l y k' with attempts := attempts } = ({ t with attempts := attempts } : State).put l
          { y with call := { y.call with cleardownDue := some (t.now + 2000) } } k' := by cases l <;> rfl
    have hnow : B.now = s.now := by rcases hor with rfl | rfl <;> rfl
    have hB' : { B with attempts := attempts } = ({ s with attempts := attempts } : State).withJobs
        (updateWhere (fun k => decide (k.id = j.id)) f s.jobs) ∨ { B with attempts := attempts } =
        askDispatch (({ s with attempts := attempts } : State).withJobs (updateWhere (fun k => decide (k.id = j.id)) f s.jobs)) := by
      rcases hor with rfl | rfl
      · exact .inl rfl
      · exact .inr rfl
    refine (congrArg finish (hput B)).trans ((finish_glared (s := { s with attempts := attempts }) hs hB'
      (by exact (congrArg Profile.autoCallout hprofile).trans hauto) hother).trans ?_)
    rw [hnow]
    rfl
  · refine ⟨B.put l y k', ?_, hattempts.symm, ?_, ?_, ?_, ?_⟩
    · rw [put_attempts]; rcases hor with rfl | rfl <;> rfl
    · rw [put_link, ← hk', Link.push_seconds]; exact hclock.2.2.2
    · rw [put_line]; exact hdir
    · rw [put_line]; exact hnumber
    · rw [put_line]; exact hreached

/-- An outgoing call that was not reached counts in the record of its number (R86). -/
theorem settleAttempt_counts {B : State} {i : Nat} {a : AttemptRecord} (hattempts : B.attempts = s.attempts)
    (hdir : (B.line l).call.cr.dir = some .outgoing) (hreached : (B.line l).call.reached = false)
    (hi : attemptIndex s (B.line l).call.cr.number = some i) (ha : entryAt s.attempts i = some a) (hfew : a.failures ≤ 10) :
    (settleAttempt l .noAnswer B).attempts = s.attempts.set i (some { a with
      failures := a.failures + 1
      next := B.link.seconds + (if a.failures = 0 then 0 else if a.failures ≤ 2 then 60 else 180) }) := by
  have hindex : attemptIndex B (B.line l).call.cr.number = some i := by rw [attemptIndex, hattempts]; exact hi
  have hfail : a.fail B.link.seconds = { a with
      failures := a.failures + 1
      next := B.link.seconds + (if a.failures = 0 then 0 else if a.failures ≤ 2 then 60 else 180) } := by
    have hmin : min 12 (a.failures + 1) = a.failures + 1 := by omega
    rw [AttemptRecord.fail, hmin, nextAttempt]
    split_ifs <;> first | rfl | omega
  simp only [settleAttempt]
  rw [if_pos ⟨hdir, hreached, by decide⟩, settleFailure]
  simp only [hindex, Option.isSome_some, if_true, hattempts, ha, Option.map_some, hfail]

end

/-! ### The obligation -/

section
variable {kind pref prio tries : Byte} {msg : Word16} {str : List Byte} {k : JobKind} {lp : LinePref} {s : State}

/-- JOBADD of a job that passes the checks (R88). -/
theorem opJobadd_accepts {n : Nat} (hk : JobKind.ofCode kind.toNat = some k) (hp : LinePref.ofCode pref.toNat = some lp)
    (hdial : ∀ l ∈ lp.lines, dialStringOk (s.line l).profile.dialMethod str = true) (hlen : s.jobs.length < 16)
    (hrungs : k = .voice ∨ faxRungs s.ladder ≠ []) (hready : s.store.st = .ready) (hfits : messageFits s k.mode msg.toNat = true)
    (hbar : ∀ l, outgoingBarred s (s.line l).profile.screenBar (dialNumber str) = false)
    (hn : n = freeJobId s.jobs 16 (nextJobId s.lastJob)) (hfree : findJob s n = none) :
    opJobadd kind msg prio pref tries str s = askDispatch { s with
      lastJob := n
      jobs := s.jobs ++ [{
        id := n, kind := k, symbols := str, number := dialNumber str, message := msg.toNat, priority := min 7 prio.toNat
        preference := lp, maxTries := max 1 (min 15 tries.toNat), tries := 0, state := .waiting, outcome := none, lastTry := (0, none) }]
      link := (s.link.push (.done 0x4A#8 .ok (oneByte n))).push (.job n .waiting 0 none)
      store := { s.store with dir := updateWhere (fun e => decide (e.id = msg.toNat)) (fun e => { e with inUse := e.inUse + 1 }) s.store.dir } } := by
  have hall : ¬(lp.lines.all fun l => dialStringOk (s.line l).profile.dialMethod str) = false := by
    rw [Bool.not_eq_false, List.all_eq_true]; exact hdial
  have hnobar : ¬(lp.lines.all fun l => outgoingBarred s (s.line l).profile.screenBar (dialNumber str)) = true := by
    obtain ⟨l, hl⟩ := lines_ne_nil lp
    rw [List.all_eq_true]
    exact fun h => absurd (h l hl) (by rw [hbar l]; nofun)
  have hfax : ¬(k = .fax ∧ faxRungs s.ladder = []) := by
    rintro ⟨rfl, h⟩
    exact hrungs.elim nofun fun hne => hne h
  rw [opJobadd_eq hk hp, if_neg hall, if_neg (by omega), if_neg hfax, if_neg (by simp [storeReady, hready]), if_neg (by simp [hfits]),
    if_neg hnobar, ← hn]
  dsimp only
  rw [done_eq, reportJob_of_some (findJob_append (j := {
      id := n, kind := k, symbols := str, number := dialNumber str, message := msg.toNat, priority := clamp 0 7 prio.toNat
      preference := lp, maxTries := clamp 1 15 tries.toNat, tries := 0, state := .waiting, outcome := none, lastTry := (0, none) }) rfl hfree),
    queueReport_eq]
  simp only [clamp, Nat.zero_max]
  rfl

end

section
variable {id : Byte} {s : State} {j : Job} {e : Entry}

/-- JOBCLEAR of a job that is not ACTIVE, the port being busy and the reference no withdrawn message's last. -/
theorem opJobclear_clears (hj : findJob s id.toNat = some j) (he : findEntry s j.message = some e)
    (hkept : e.erasePending = false ∨ 2 ≤ e.inUse) (hgrant : s.store.grant ≠ none) (hst : j.state ≠ .active) :
    opJobclear id s = { s with
      jobs := s.jobs.filter fun x => decide (x.id ≠ j.id)
      store := { s.store with dir := updateWhere (fun e => decide (e.id = j.message)) (fun e => { e with inUse := e.inUse - 1 }) s.store.dir }
      link := if j.state = .waiting then
          (s.link.push (.done 0x58#8 .ok [])).push (.job j.id .done j.tries (some ⟨.cancelled, 0, none, s.link.dayClock⟩))
        else s.link.push (.done 0x58#8 .ok []) } := by
  have hid := findJob_id hj
  have hj' : findJob s j.id = some j := by rw [hid]; exact hj
  have hfilter (f : Job → Job) (hf : ∀ k, (f k).id = k.id) :
      (updateWhere (fun k => decide (k.id = j.id)) f s.jobs).filter (fun x => decide (x.id ≠ j.id)) =
        s.jobs.filter fun x => decide (x.id ≠ j.id) := by
    induction s.jobs with
    | nil => rfl
    | cons x xs ih =>
      rw [updateWhere, List.map_cons, ← updateWhere]
      by_cases hx : x.id = j.id
      · simpa [hx, hf] using ih
      · simpa [hx] using ih
  have hend (t : State) (hstore : t.store = s.store) : storeKick (returnRef j.message t) = { t with
      store := { s.store with dir := updateWhere (fun e => decide (e.id = j.message)) (fun e => { e with inUse := e.inUse - 1 }) s.store.dir } } := by
    have he' : findEntry t j.message = some e := by rw [findEntry, hstore]; exact he
    rw [returnRef_of_kept he' hkept, modEntry, storeKick_of_grant (by rw [modStore, hstore]; exact hgrant), modStore, hstore]
  simp only [opJobclear, hj]
  rw [if_neg hst, done_eq]
  by_cases hw : j.state = .waiting
  · simp only [if_pos hw]
    have hfind := findJob_modJob (s := { s with link := s.link.push (.done 0x58#8 .ok []) }) (f := fun j => { j with lastTry := (0, none) })
      hj' (fun _ => rfl)
    have hclock : (modJob j.id (fun j => { j with lastTry := (0, none) }) { s with link := s.link.push (.done 0x58#8 .ok []) }).link.dayClock =
        s.link.dayClock := Link.push_dayClock ..
    rw [finishJob_eq hfind, hclock, modJob_modJob j.id (f := fun j => { j with lastTry := (0, none) }) _ (fun _ => rfl), queueReport_eq]
    refine (hend _ (by rfl)).trans ?_
    have hrest := hfilter (fun k => { k with
      state := .done, lastTry := (0, none), outcome := some ⟨.cancelled, 0, none, s.link.dayClock⟩ }) (fun _ => rfl)
    simp only [modJob]
    rw [hrest]
  · simp only [if_neg hw]
    exact hend _ rfl

end

section
variable {s : State} {l o : Line} {j : Job} {rest : List Job}

/-- A line that takes no job leaves the tick as it is. -/
theorem exec_secondsTick_idle (hs : s.requests = []) (ho : o ≠ l) (hoff : (s.line o).profile.autoCallout = false)
    (h : ∀ rs, dispatchLine l { s.ticked with requests := rs } = { s.ticked with requests := rs }) :
    exec .secondsTick s = .next s.ticked :=
  (exec_finish (c := .secondsTick) (opSecondsTick_eq s)).trans (congrArg _ (finish_dispatched ho hs hs (by cases o <;> exact hoff)
    (by cases o <;> exact hoff) h))

theorem dispatchLine_ticked (hwait : (listOrder s.store.settings.order s.jobs).filter (fun k => decide (k.state = .waiting)) = j :: rest)
    (hst : s.st l = .idle) (hauto : (s.line l).profile.autoCallout = true) (hhook : hasHook s l = true) (hready : s.store.st = .ready)
    (hext : ¬((s.line l).profile.extPolicy = .yieldLine ∧ (s.line l).iface.extState = true)) (rs : List Request) :
    dispatchLine l { s.ticked with requests := rs } = examineJobs l (j :: rest) { s.ticked with requests := rs } := by
  have hcan : canTakeJob { s.ticked with requests := rs } l = true := by
    refine canTakeJob_iff.mpr ⟨?_, ?_, ?_, hready, ?_⟩ <;> cases l <;> assumption
  rw [dispatchLine, if_pos hcan, ← hwait]
  rfl

/-- The first job of the list is finished, and nothing else is examined. -/
theorem exec_secondsTick_finished {r : JobResult} (hs : s.requests = []) (ho : o ≠ l) (hoff : (s.line o).profile.autoCallout = false)
    (hj : findJob s j.id = some j)
    (h : ∀ rs, dispatchLine l { s.ticked with requests := rs } = finishJob j.id r { s.ticked with requests := rs }) :
    exec .secondsTick s = .next (queueReport (.job j.id .done j.tries (some ⟨r, j.lastTry.1, j.lastTry.2, s.link.dayClock⟩))
      { s.ticked with jobs := updateWhere (fun k => decide (k.id = j.id)) (fun k => { k with
        state := .done, outcome := some ⟨r, k.lastTry.1, k.lastTry.2, s.link.dayClock⟩ }) s.jobs }) := by
  refine (exec_finish (c := .secondsTick) (opSecondsTick_eq s)).trans (congrArg _ (finish_dispatched ho hs ?_ (by cases o <;> exact hoff)
    ?_ fun rs => (h rs).trans ?_))
  · rw [queueReport_eq]; exact hs
  · rw [queueReport_eq]; cases o <;> exact hoff
  · rw [finishJob_eq (by exact hj), queueReport_eq, queueReport_eq]
    rfl

end

/-- Settles O40. -/
theorem jobaddAndJobclear : Obligations.JobaddAndJobclear := by
  refine ⟨fun kind pref prio tries id msg str k lp s hs hk hp hdial hauto => ?_, ?_, ?_, ?_⟩
  · have hall : ¬(lp.lines.all fun l => dialStringOk (s.line l).profile.dialMethod str) = false := by
      rw [Bool.not_eq_false, List.all_eq_true]; exact fun l _ => hdial l
    have hadd {t : State} (h : opJobadd kind msg prio pref tries str s = t) (ht : t.requests = []) :
        exec (.jobadd kind msg prio pref tries str) s = .next t := exec_of_op (c := .jobadd kind msg prio pref tries str) h ht
    have heq := opJobadd_eq (prio := prio) (tries := tries) (msg := msg) (str := str) (s := s) hk hp
    rw [if_neg hall] at heq
    refine ⟨fun hfull => ?_, fun hlen hrungs => ?_, ?_, ?_, ?_⟩
    · exact hadd (heq.trans (if_pos hfull)) (by simp [hs])
    · have hfax : ¬(k = .fax ∧ faxRungs s.ladder = []) := by
        rintro ⟨rfl, h⟩
        exact hrungs.elim nofun fun hne => hne h
      rw [if_neg (by omega), if_neg hfax] at heq
      refine ⟨fun hready => ?_, fun hready he => ?_, fun n hready hfits hbar hn hlt hfree => ?_⟩
      · exact hadd (heq.trans (if_pos (by simpa [storeReady] using hready))) (by simp [hs])
      · rw [if_neg (by simp [storeReady, hready])] at heq
        exact hadd (heq.trans (if_pos (messageFits_of_none he))) (by simp [hs])
      · have hop := opJobadd_accepts (prio := prio) (tries := tries) hk hp (fun l _ => hdial l) hlen hrungs hready hfits hbar hn hfree
        refine ⟨_, (exec_finish (c := .jobadd kind msg prio pref tries str) hop).trans (congrArg _ (finish_askDispatch hs fun l rs =>
          dispatchLine_of_not (canTakeJob_of_off (by
            cases l
            exacts [hauto .A, hauto .B])))), rfl, rfl, ?_, rfl, rfl⟩
        rw [done_eq, queueReport_eq]
    · exact fun h => exec_of_op (c := .jobclear id) (by simp only [opOf, opJobclear, h]) (by simp [hs])
    · exact fun j hj hst => exec_of_op (c := .jobclear id) (by simp only [opOf, opJobclear, hj]; exact if_pos hst) (by simp [hs])
    · intro j e hj he huse hkept hgrant cleared
      refine ⟨fun hst => ?_, fun hst => ?_⟩
      · have hop := opJobclear_clears hj he hkept hgrant (by rw [hst]; nofun)
        rw [if_pos hst] at hop
        refine (exec_of_op (c := .jobclear id) hop hs).trans ?_
        simp only [cleared, done_eq, queueReport_eq]
      · have hop := opJobclear_clears hj he hkept hgrant (by rw [hst]; nofun)
        rw [if_neg (by rw [hst]; nofun)] at hop
        refine (exec_of_op (c := .jobclear id) hop hs).trans ?_
        simp only [cleared, done_eq]
  · intro kind pref prio tries msg str s hs jobadd
    have hadd {t : State} (h : opJobadd kind msg prio pref tries str s = t) (ht : t.requests = []) : jobadd = .next t :=
      exec_of_op (c := .jobadd kind msg prio pref tries str) h ht
    refine ⟨fun h => hadd (opJobadd_badParam h) (by simp [hs]), fun k lp hk hp => ⟨fun ⟨l, hl, h⟩ => ?_, fun hdial hlen => ?_⟩⟩
    · refine hadd ((opJobadd_eq hk hp).trans (if_pos ?_)) (by simp [hs])
      rw [← Bool.not_eq_true, List.all_eq_true]
      exact fun hall => absurd (hall l hl) (by rw [h]; nofun)
    · have hall : ¬(lp.lines.all fun l => dialStringOk (s.line l).profile.dialMethod str) = false := by
        rw [Bool.not_eq_false, List.all_eq_true]; exact hdial
      have heq := opJobadd_eq (prio := prio) (tries := tries) (msg := msg) (str := str) (s := s) hk hp
      rw [if_neg hall, if_neg (by omega)] at heq
      refine ⟨fun hfax hrungs => hadd (heq.trans (if_pos ⟨hfax, hrungs⟩)) (by simp [hs]), fun hrungs hready hfits hbar => ?_⟩
      rw [if_neg fun h => hrungs h.1 h.2, if_neg (by simp [storeReady, hready]), if_neg (by simp [hfits])] at heq
      exact hadd (heq.trans (if_pos (List.all_eq_true.mpr hbar))) (by simp [hs])
  · intro l o j rest s hs ho hoff x p u finished
    refine ⟨fun h => ?_, fun hwait hj hst hauto hhook hready hext => ⟨fun hrest hl => ?_, fun hl => ⟨fun hrest hv => ?_,
      fun n hrest hv => ?_, fun hrest hv hbar => ?_, fun hv hbar hpin hloop hexp hsub => ?_⟩⟩⟩
    · refine exec_secondsTick_idle hs ho hoff fun rs => dispatchLine_of_not (Bool.eq_false_iff.mpr fun hcan => ?_)
      obtain ⟨h1, h2, h3, h4, h5⟩ := canTakeJob_iff.mp hcan
      have hline : ({ s.ticked with requests := rs } : State).line l = x := by cases l <;> rfl
      have hhook : hasHook { s.ticked with requests := rs } l = hasHook s l := by cases l <;> rfl
      rw [hline] at h2 h5
      rcases h with h | h | h | h | h
      · exact h ((congrArg (fun z : LineState => z.call.st) hline).symm.trans h1)
      · rw [show x.profile.autoCallout = false from h] at h2; cases h2
      · rw [hhook, h] at h3; cases h3
      · exact h h4
      · exact h5 h
    · refine exec_secondsTick_idle hs ho hoff fun rs => (dispatchLine_ticked hwait hst hauto hhook hready hext rs).trans ?_
      rw [hrest, examineJobs_other hl, examineJobs]
    · refine exec_secondsTick_finished hs ho hoff hj fun rs => (dispatchLine_ticked hwait hst hauto hhook hready hext rs).trans ?_
      rw [hrest, examineJobs_barred hl (by exact hv), examineJobs]
    · refine exec_secondsTick_idle hs ho hoff fun rs => (dispatchLine_ticked hwait hst hauto hhook hready hext rs).trans ?_
      rw [hrest, examineJobs_delayed hl (by exact hv), examineJobs]
    · refine exec_secondsTick_finished hs ho hoff hj fun rs => (dispatchLine_ticked hwait hst hauto hhook hready hext rs).trans ?_
      rw [hrest, examineJobs_allowed hl (by exact hv), if_pos (by cases l <;> exact hbar), examineJobs]
    · have htake (rs : List Request) : dispatchLine l { s.ticked with requests := rs } = _ :=
        (dispatchLine_ticked hwait hst hauto hhook hready hext rs).trans ((examineJobs_allowed hl (by exact hv)).trans
          ((if_neg (by cases l <;> (rw [Bool.not_eq_true]; exact hbar))).trans (takeJob_eq (by exact hj) (by cases l <;> exact hst)
            (by cases l <;> exact hpin) (by cases l <;> exact hloop) (by cases l <;> exact hexp) (by cases l <;> exact hsub))))
      refine ⟨_, (exec_finish (c := .secondsTick) (opSecondsTick_eq s)).trans (congrArg _ (finish_dispatched (l := l) (t := State.put {
          s.ticked with
          jobs := updateWhere (fun k => decide (k.id = j.id)) (fun k => { k with state := .active }) s.jobs
          attempts := (prepareAttempt j.number s.ticked).attempts } l
          { x with
            call := ({ x.call with cr := { emptyCallRecord with
              dir := some .outgoing, mode := some j.kind.mode, dialled := j.symbols, number := j.number
              message := some j.message, job := some j.id } } : Call).seized .job s.ticked.now
            iface := x.iface.seized s.ticked.now }
          ((s.ticked.link.push (.job j.id .active j.tries j.outcome)).push (.line l .seize (.change .job) none)))
          ho hs (by rw [put_requests]; exact hs) (by cases o <;> exact hoff) ?_ fun rs => (htake rs).trans ?_)), ?_⟩
      · rw [put_line_other _ _ _ _ _ ho]; cases o <;> exact hoff
      · have hprepare : (prepareAttempt j.number { s.ticked with requests := rs }).attempts = (prepareAttempt j.number s.ticked).attempts :=
          prepareAttempt_congr rfl rfl
        rw [hprepare]
        cases l <;> rfl
      · rw [put_st, put_line, put_jobs, put_link, put_attempts, queueReport_eq, queueReport_eq]
        exact ⟨rfl, rfl, rfl, rfl, rfl, rfl, rfl, rfl, by cases l <;> rfl⟩
  · intro l c j s hs hrel htone hrole hsub href hauto hjob hj x tried change ended settled
    have hne : s.st l ≠ .cleardown := by intro h; rw [h] at hrel; cases hrel
    have hsettled {J : List Job} {A : List (Option AttemptRecord)} {now : Nat} {y : LineState} {k : Link} (hy : y.call.st = .cleardown) :
        settled (State.put { s.at now with jobs := J, attempts := A } l y k) := by
      refine ⟨(put_st ..).trans hy, ?_⟩
      rw [put_line]
      cases l <;> rfl
    refine ⟨?_, ?_, ?_⟩
    · rintro rfl
      obtain ⟨y, k', A, hfin, hy, B, hBa, hA, -⟩ := finish_settled (j := j) (s := s.at s.now) (l := l) (x := x) (k := s.link.push (.done 0x48#8 .ok []))
        (r := .host) (f := fun k => { k with state := .done, lastTry := tried, outcome := ended .cancelled }) hs ⟨htone, hrole, hsub, href⟩ hne
        (hauto l) (by rintro (_ | _); exacts [hauto .A, hauto .B]) (by
          intro y k' hj' hf hr hc
          have h := settleJob_host (s := s.at s.now) (l := l) (x := y) (k := k') hj (hj'.trans hjob)
          rw [hf, hr, hc, Link.push_dayClock] at h
          exact h)
      · have hop : opRelease (lineByte l) 2#8 s = enterCleardown l .host ((s.at s.now).put l x (s.link.push (.done 0x48#8 .ok []))) := by
          simp only [opRelease, lineOf_lineByte, hrel]
          exact congrArg (enterCleardown l .host) (by rw [done_eq]; cases l <;> rfl)
        refine ⟨_, (exec_finish (c := .release (lineByte l) 2#8) hop).trans (congrArg _ hfin), hsettled hy, ?_, ?_⟩
        · rw [put_attempts, hA, settleAttempt_of_other (by decide) (by decide) (by decide), hBa]; rfl
        · rw [put_jobs]; rfl
    · rintro rfl hdue hin hoff hpol
      obtain ⟨due, hdue⟩ := Option.ne_none_iff_exists'.mp hdue
      obtain ⟨y, k', A, hfin, hy, B, hBa, hA, -⟩ := finish_settled (j := j) (s := s.at (max s.now due)) (l := l) (k := s.link)
        (x := { x with iface := { x.iface with extState := true, extDue := none } })
        (r := .extension) (f := fun k => { k with state := .waiting, lastTry := tried }) hs ⟨htone, hrole, hsub, href⟩ hne
        (hauto l) (by rintro (_ | _); exacts [hauto .A, hauto .B]) (by
          intro y k' hj' hf hr hc
          have h := settleJob_extension (s := s.at (max s.now due)) (l := l) (x := y) (k := k') hj (hj'.trans hjob)
          rw [hf, hr] at h
          exact h)
      · have hstart : modIface l (fun i => { i with extState := true, extDue := none }) (elapse due s) = (s.at (max s.now due)).put l
            { s.line l with iface := { (s.line l).iface with extState := true, extDue := none } } s.link := by cases l <;> rfl
        have hop : opExtensionPickup l s = enterCleardown l .extension ((s.at (max s.now due)).put l
            { x with iface := { x.iface with extState := true, extDue := none } } s.link) := by
          have hdue' : (s.line l).iface.extDue = some due := hdue
          have hin' : (s.line l).iface.extIn = true := hin
          have hoff' : (s.line l).iface.extState = false := hoff
          have hpol' : (s.line l).profile.extPolicy = .yieldLine := hpol
          simp only [opExtensionPickup, hdue']
          rw [if_pos ⟨hin', hoff'⟩, hstart, callPickup]
          simp only [put_st, put_line, hpol']
          rw [if_neg (fun hr => by rw [State.st, hr] at hrel; cases hrel)]
          exact if_pos hrel
        refine ⟨_, (exec_finish (c := .extensionPickup l) hop).trans (congrArg _ hfin), hsettled hy, ?_, ?_⟩
        · rw [put_attempts, hA, settleAttempt_of_other (by decide) (by decide) (by decide), hBa]; rfl
        · rw [put_jobs]; rfl
    · rintro rfl hdue hgood
      obtain ⟨due, hdue⟩ := Option.ne_none_iff_exists'.mp hdue
      obtain ⟨y, k', A, hfin, hy, B, hBa, hA, hsec, hdir, hnum, hreach⟩ := finish_settled (j := j) (s := s.at (max s.now due)) (l := l) (k := s.link)
        (x := { x with call := { x.call with progressDue := none } })
        (r := .noAnswer) (f := fun k' => if j.tries + 1 < j.maxTries then
            { k' with tries := k'.tries + 1, state := .waiting, lastTry := tried }
          else { k' with tries := k'.tries + 1, state := .done, lastTry := tried, outcome := ended .failed }) hs ⟨htone, hrole, hsub, href⟩ hne
        (hauto l) (by rintro (_ | _); exacts [hauto .A, hauto .B]) (by
          intro y k' hj' hf hr hc
          have h := settleJob_noAnswer (s := s.at (max s.now due)) (l := l) (x := y) (k := k') hj (hj'.trans hjob) (by rw [hf]; exact hgood)
          rw [hf, hr, hc] at h
          exact h)
      · have hop : opProgressTimerExpiry l s = enterCleardown l .noAnswer ((s.at (max s.now due)).put l
            { x with call := { x.call with progressDue := none } } s.link) := by
          have hstart : modCall l (fun c => { c with progressDue := none }) (elapse due s) = (s.at (max s.now due)).put l
              { x with call := { x.call with progressDue := none } } s.link := by cases l <;> rfl
          have hdue' : (s.line l).call.progressDue = some due := hdue
          simp only [opProgressTimerExpiry, hdue']
          rw [hstart, releaseLine, if_pos (by rw [put_st]; exact hrel)]
        refine ⟨_, (exec_finish (c := .progressTimerExpiry l) hop).trans (congrArg _ hfin), hsettled hy, fun h => ?_, fun h => ?_,
          fun i a hout hnot hi ha hfew => ?_⟩
        · rw [put_jobs]; simp only [if_pos h]; rfl
        · rw [put_jobs]; simp only [if_neg (Nat.not_lt.mpr h)]; rfl
        · rw [put_attempts, hA, settleAttempt_counts (s := s) (i := i) (a := a) hBa (hdir.trans hout) (hreach.trans hnot) (by rw [hnum]; exact hi) ha hfew,
            hsec]

end Sys2Proof.Machine
end

section
/-! PROOFS. Playback (R187, R188, R190). -/

namespace Sys2Proof.Machine

/-! ### A reading stream closed or moved beside a line's change -/

/-- A reading stream closed, its reference returned. -/
def State.unread (o : Owner) (id : Nat) (s : State) : State :=
  modEntry id (fun e => { e with inUse := e.inUse - 1 }) (setReader o none s)

/-- A reading stream moved to another offset of its message. -/
def State.reread (o : Owner) (r : RStream) (offset : Nat) (s : State) : State :=
  setReader o (some { id := r.id, position := offset, length := r.length, buffers := [], nextSeq := seqOf offset, ready := false
                      region := none, tag := s.store.nextTag })
    (modStore (fun t => { t with nextTag := t.nextTag + 1 }) s)

section
variable (s : State) (l : Line) (x : LineState) (k : Link) (o : Owner)

theorem setReader_put (r : Option RStream) : setReader o r (s.put l x k) = (setReader o r s).put l x k := by
  rcases o with (_ | _) | _ <;> cases l <;> rfl

theorem unread_put (id : Nat) : (s.put l x k).unread o id = (s.unread o id).put l x k := by
  rcases o with (_ | _) | _ <;> cases l <;> rfl

theorem readerOf_setReader (r : Option RStream) : readerOf (setReader o r s) o = r := by rcases o with (_ | _) | _ <;> rfl

theorem readerOf_unread (id : Nat) : readerOf (s.unread o id) o = none := by rcases o with (_ | _) | _ <;> rfl

theorem unread_frame (id : Nat) : s.unread o id = { s with store := (s.unread o id).store } := by
  rcases o with (_ | _) | _ <;> rfl

theorem unread_memory (id : Nat) : (s.unread o id).store.memory = s.store.memory := by rcases o with (_ | _) | _ <;> rfl

theorem findEntry_unread {s : State} {e : Entry} {id : Nat} (he : findEntry s id = some e) :
    findEntry (s.unread o id) id = some { e with inUse := e.inUse - 1 } := by
  have h := findEntry_modEntry id (f := fun x => { x with inUse := x.inUse - 1 }) (fun _ => rfl) (setReader o none s)
  rw [findEntry_setReader, he, Option.map_some] at h
  exact h

theorem reread_put (r : RStream) (offset : Nat) : (s.put l x k).reread o r offset = (s.reread o r offset).put l x k := by
  rcases o with (_ | _) | _ <;> cases l <;> rfl

theorem readerOf_reread (r : RStream) (offset : Nat) : readerOf (s.reread o r offset) o = some {
    id := r.id, position := offset, length := r.length, buffers := [], nextSeq := seqOf offset, ready := false, region := none
    tag := s.store.nextTag } := by rcases o with (_ | _) | _ <;> rfl

theorem reread_frame (r : RStream) (offset : Nat) : s.reread o r offset = { s with store := (s.reread o r offset).store } := by
  rcases o with (_ | _) | _ <;> rfl

theorem reread_store (r : RStream) (offset : Nat) : (s.reread o r offset).store.memory = s.store.memory ∧
    (s.reread o r offset).store.dir = s.store.dir := by rcases o with (_ | _) | _ <;> exact ⟨rfl, rfl⟩

theorem moveReader_eq {s : State} {o : Owner} {r : RStream} (hr : readerOf s o = some r) (offset : Nat) (hgrant : s.store.grant ≠ none) :
    moveReader o offset s = s.reread o r offset := by
  rw [moveReader, hr]
  exact storeKick_of_grant (by rcases o with (_ | _) | _ <;> exact hgrant)

end

/-! ### The engine between its substates -/

/-- A line in VOICE that expects no far-end signal. -/
structure LineState.Listening (x : LineState) : Prop where
  st : x.call.st = .voice
  expecting : x.iface.expecting = false

section
variable {s : State} {l : Line} {x : LineState} {k : Link}

/-- Between substates other than RECORDING the expectation stands. -/
theorem setSub_listening (h : x.Listening) {sub : Option VoiceSub} (hsub : sub ≠ some .recording) :
    setSub l sub (s.put l x k) = s.put l { x with voice := { x.voice with sub := sub } } k := by
  have hagree : ({ x with voice := { x.voice with sub := sub } } : LineState).iface.expecting =
      ({ x with voice := { x.voice with sub := sub } } : LineState).expects := by
    simp [LineState.expects, h.st, h.expecting, hsub]
  rw [setSub_put, LineState.judge_of_agreeing hagree, Link.judge_of_agreeing hagree]

/-- A stream that can be closed: its message's reference is not a withdrawn message's, and the port is busy. -/
structure Returnable (s : State) (l : Line) (r : RStream) (e : Entry) : Prop where
  reader : readerOf s (.line l) = some r
  entry : findEntry s r.id = some e
  kept : e.erasePending = false
  grant : s.store.grant ≠ none

variable {r : RStream} {e : Entry}

theorem closeReader_put (h : Returnable s l r e) : closeReader (.line l) (s.put l x k) = (s.unread (.line l) r.id).put l x k := by
  rw [← unread_put]
  exact closeReader_of_kept (by rw [readerOf_line]; exact h.reader) (by rw [put_store]; exact h.grant)
    (by rw [findEntry_put]; exact h.entry) (.inl h.kept)

/-- The end of a playback: stream closed, VOICE END queued, the engine waiting, a delivery's release asked for. -/
theorem endPlayback_put (h : Returnable s l r e) (hx : x.Listening) (reason : EndReason) : endPlayback l reason (s.put l x k) =
    let t := (s.unread (.line l) r.id).put l { x with voice := { x.voice with sub := some .waiting, output := [] } }
      (k.push (.voice l .ended reason x.voice.position))
    if x.voice.kind = some .delivery ∧ (reason = .ended ∨ reason = .key) then askRelease l .voiceDone t else t := by
  have hsub := setSub_listening (s := s.unread (.line l) r.id) (l := l) (k := k) (x := { x with voice := { x.voice with output := [] } })
    ⟨hx.st, hx.expecting⟩ (sub := some .waiting) nofun
  rw [endPlayback]
  simp only [put_line, closeReader_put h, modVoice_put]
  rw [hsub, reportVoice_put]

/-- Bytes taken from the stream and decoded, the port being busy. -/
theorem playBytes_put (hr : readerOf s (.line l) = some r) (hgrant : s.store.grant ≠ none) (n : Nat) :
    ∃ p q out, playBytes l n (s.put l x k) = (setReader (.line l) (some (r.advance n)) s).put l
      { x with voice := { x.voice with p := p, k := q, position := x.voice.position + n, output := out } } k := by
  rw [playBytes, readerOf_line, hr]
  dsimp only
  rw [modVoice_put, takeBytes, readerOf_line, hr]
  dsimp only
  rw [setReader_put, storeKick_of_grant (by rw [put_store, setReader_grant]; exact hgrant), put_line]
  exact ⟨_, _, _, rfl⟩

/-- A skip (R188). -/
theorem skipTo_put (hr : readerOf s (.line l) = some r) (hgrant : s.store.grant ≠ none) (n : Nat) :
    skipTo l n (s.put l x k) = (s.reread (.line l) r n).put l
      { x with voice := { x.voice with p := 0, k := 0, position := n, output := [] } } (k.push (.voice l .skip .none n)) := by
  rw [skipTo, modVoice_put, moveReader_eq (by rw [readerOf_line]; exact hr) _ (by rw [put_store]; exact hgrant), reread_put, reportVoice_put]

/-- The engine as playback of a message begins. -/
def playingVoice (kind : VoiceKind) (e : Entry) (offset : Nat) : Voice :=
  { initialVoice with sub := some .playing, kind := some kind, message := some e.id, coding := e.coding, position := offset }

/-- Playback begun before the end of a message (R187). -/
theorem startPlaying_put (hx : x.Listening) (hgrant : s.store.grant ≠ none) (kind : VoiceKind) {offset : Nat} (hoff : offset ≠ e.length) :
    startPlaying l kind e offset (s.put l x k) =
      (s.reading (.line l) e offset).put l { x with voice := playingVoice kind e offset } (k.push (.voice l .start .none offset)) := by
  have hsub := setSub_listening (s := s) (l := l) (k := k) (x := { x with voice := { initialVoice with sub := x.voice.sub, kind := some kind } })
    ⟨hx.st, hx.expecting⟩ (sub := some .playing) nofun
  rw [startPlaying]
  dsimp only
  rw [if_neg hoff, modVoice_put, hsub, openVoiceStream_put _ _ _ _ _ _ hgrant, reportVoice_put]
  rfl

end

/-! ### The obligation -/

theorem unread_setReader (s : State) (o : Owner) (r : Option RStream) (id : Nat) : (setReader o r s).unread o id = s.unread o id := by
  rcases o with (_ | _) | _ <;> rfl

section
variable {line : Byte} {l : Line} {s : State}

theorem opPlay_noLine (m : Word16) (o : Word32) (h : lineOf line = none) : opPlay line m o s = done 0x56#8 .badParam [] s := by
  simp only [opPlay, h]

theorem opStop_noLine (h : lineOf line = none) : opStop line s = done 0x49#8 .badParam [] s := by simp only [opStop, h]

/-- PLAY on a line in VOICE whose engine waits and whose store is READY. -/
theorem opPlay_waiting {m : Word16} {o : Word32} (hst : s.st l = .voice) (hsub : (s.line l).voice.sub = some .waiting)
    (hready : s.store.st = .ready) : opPlay (lineByte l) m o s =
      match findEntry s m.toNat with
      | some e =>
        if playable e = false ∨ canRef s e.id = false then done 0x56#8 .noEntry [] s
        else if e.length < o.toNat then done 0x56#8 .badParam [] s
        else startPlaying l .host e o.toNat (done 0x56#8 .ok (numBytes 4 (e.length - o.toNat)) s)
      | none => done 0x56#8 .noEntry [] s := by
  simp only [opPlay, lineOf_lineByte]
  rw [if_neg (not_not_intro hst), if_neg (not_not_intro hsub), if_neg (by simp [storeReady, hready])] <;> rfl

end

theorem done_put_self (s : State) (l : Line) (code : Byte) (r : Result) (bs : List Byte) :
    done code r bs s = s.put l (s.line l) (s.link.push (.done code r bs)) := by rw [done_eq]; cases l <;> rfl

theorem voiceControl_skipFwd {s : State} {l : Line} {r : RStream}
    (hsub : (s.line l).voice.sub = some .playing ∨ (s.line l).voice.sub = some .paused) (hr : readerOf s (.line l) = some r) :
    voiceControl l .skipFwd s =
      if r.length ≤ (s.line l).voice.position + 5 * secondBytes (s.line l).voice.coding then endPlayback l .ended s
      else skipTo l ((s.line l).voice.position + 5 * secondBytes (s.line l).voice.coding) s := by
  rw [voiceControl]
  simp only [hr]
  rw [if_pos hsub]

/-- Settles O58. -/
theorem playbackStartsAndEnds : Obligations.PlaybackStartsAndEnds := by
  refine ⟨fun line l m o e s hs hgrant hexp hkind => ?_, fun l op r e s hgrant hst hexp hr he hid hkept => ?_⟩
  · intro x v ended
    refine ⟨fun h => ⟨?_, ?_⟩, ?_, fun r hst hr he hid hkept => ?_⟩
    · exact exec_of_op (c := .play line m o) (opPlay_noLine m o h) (by simp [hs])
    · exact exec_of_op (c := .stop line) (opStop_noLine h) (by simp [hs])
    · rintro rfl
      have hplay {t : State} (h : opPlay (lineByte l) m o s = t) (ht : t.requests = []) : exec (.play (lineByte l) m o) s = .next t :=
        exec_of_op (c := .play (lineByte l) m o) h ht
      have hstop {t : State} (h : opStop (lineByte l) s = t) (ht : t.requests = []) : exec (.stop (lineByte l)) s = .next t :=
        exec_of_op (c := .stop (lineByte l)) h ht
      refine ⟨fun hst => ?_, fun hst hsub => ?_, fun hst hsub => ⟨fun hready => ?_, fun hready he => ?_, fun hready he hid => ⟨fun hp => ?_,
        fun hp huse hkept => ⟨fun hlen => ?_, fun hlen => ?_⟩⟩⟩, fun hsub => ?_, fun hsub => ?_⟩
      · exact hplay (by simp only [opPlay, lineOf_lineByte]; exact if_pos hst) (by simp [hs])
      · exact hplay (by simp only [opPlay, lineOf_lineByte]; exact (if_neg (not_not_intro hst)).trans (if_pos hsub)) (by simp [hs])
      · refine hplay ?_ (by simp [hs])
        simp only [opPlay, lineOf_lineByte]
        rw [if_neg (not_not_intro hst), if_neg (not_not_intro hsub), if_pos (by simpa [storeReady] using hready)]
      · refine hplay ?_ (by simp [hs])
        rw [opPlay_waiting hst hsub hready, he]
      · refine hplay ?_ (by simp [hs])
        rw [opPlay_waiting hst hsub hready, he]
        exact if_pos (.inl hp)
      · have href : canRef s e.id = true := canRef_of (by rw [hid]; exact he) (playable_closed hp) hkept huse
        refine hplay ?_ (by simp [hs])
        rw [opPlay_waiting hst hsub hready, he]
        exact (if_neg (by simp [hp, href])).trans (if_pos hlen)
      · have href : canRef s e.id = true := canRef_of (by rw [hid]; exact he) (playable_closed hp) hkept huse
        have hop : opPlay (lineByte l) m o s = (s.reading (.line l) e o.toNat).put l { x with voice := playingVoice .host e o.toNat }
            ((s.link.push (.done 0x56#8 .ok (numBytes 4 (e.length - o.toNat)))).push (.voice l .start .none o.toNat)) := by
          rw [opPlay_waiting hst hsub hready, he]
          refine (if_neg (by simp [hp, href])).trans ((if_neg (by omega)).trans ?_)
          rw [done_put_self s l, startPlaying_put ⟨hst, hexp⟩ hgrant _ (by omega)]
        refine ⟨_, hplay hop (by rw [put_requests, reading_frame]; exact hs), ?_⟩
        rw [put_line, readerOf_put, findEntry_put, put_link, put_store, done_eq, queueReport_eq, ← hid]
        refine ⟨rfl, readerOf_reading .., findEntry_reading _ _ (by rw [hid]; exact he), rfl, reading_memory .., ?_⟩
        rw [reading_frame]
        cases l <;> rfl
      · exact hstop (by simp only [opStop, lineOf_lineByte, show (s.line l).voice.sub = some .beep from hsub]) (by simp [hs])
      · refine hstop ?_ (by simp [hs])
        rcases hsub with h | h <;> simp only [opStop, lineOf_lineByte, show (s.line l).voice.sub = _ from h]
    · have hreturn : Returnable s l r e := ⟨hr, he, hkept, hgrant⟩
      have hx : x.Listening := ⟨hst, hexp⟩
      refine ⟨?_, fun hsub hlt hblock hheld => ?_⟩
      · rintro rfl hsub
        have hop : opStop (lineByte l) s = (s.unread (.line l) r.id).put l { x with voice := { v with sub := some .waiting, output := [] } }
            ((s.link.push (.done 0x49#8 .ok [])).push (.voice l .ended (.byRelease .host) v.position)) := by
          have hend := (endPlayback_put (k := s.link.push (.done 0x49#8 .ok [])) hreturn hx (.byRelease .host)).trans
            (if_neg fun h => hkind h.1)
          rw [← done_put_self s l] at hend
          rcases hsub with h | h <;> (simp only [opStop, lineOf_lineByte, show (s.line l).voice.sub = _ from h]; exact hend)
        refine ⟨_, exec_of_op (c := .stop (lineByte l)) hop (by rw [put_requests, unread_frame]; exact hs), ?_⟩
        rw [put_line, readerOf_put, findEntry_put, put_link, put_store]
        refine ⟨rfl, readerOf_unread .., findEntry_unread _ he, ?_, unread_memory .., ?_⟩
        · simp only [ended, done_eq, queueReport_eq]
        · rw [unread_frame]; cases l <;> rfl
      · obtain ⟨p, q, out, hrest⟩ := playBytes_put (s := s) (l := l) (x := x) (k := s.link) hr hgrant (r.length - r.position)
        rw [put_self] at hrest
        have hadvanced : Returnable (setReader (.line l) (some (r.advance (r.length - r.position))) s) l
            (r.advance (r.length - r.position)) e :=
          ⟨readerOf_setReader .., (findEntry_setReader ..).trans he, hkept, by rw [setReader_grant]; exact hgrant⟩
        have hend := (endPlayback_put (k := s.link) (x := { x with voice := { v with
          p := p, k := q, position := v.position + (r.length - r.position), output := out } }) hadvanced ⟨hst, hexp⟩ .ended).trans
          (if_neg fun h => hkind h.1)
        rw [unread_setReader] at hend
        have hlast : lastBlockHeld s l = true := by
          rw [lastBlockHeld, hr]
          exact decide_eq_true ⟨hblock, hheld.ge⟩
        have hop : opPlaybackComplete l s = endPlayback l .ended (playBytes l (r.length - r.position) s) := by
          rw [opPlaybackComplete, if_pos ⟨hsub, hlast⟩, playRest, hr]
        refine ⟨_, exec_of_op (c := .playbackComplete l) (hop.trans (by rw [hrest, hend])) (by rw [put_requests, unread_frame]; exact hs), ?_⟩
        rw [put_line, readerOf_put, findEntry_put, put_link, put_store]
        refine ⟨rfl, rfl, readerOf_unread .., findEntry_unread _ he, ?_, unread_memory .., ?_⟩
        · simp only [ended, queueReport_eq]
        · rw [unread_frame]; cases l <;> rfl
  · intro x v t span same skipped ended
    have hreturn : Returnable s l r e := ⟨hr, he, hkept, hgrant⟩
    have hx : x.Listening := ⟨hst, hexp⟩
    have hspan : 5 * secondBytes v.coding = span := by
      simp only [span]; cases v.coding <;> rfl
    refine ⟨fun h1 h2 => if_neg (by rintro (h | h); exacts [h1 h, h2 h]), fun hsub => ?_⟩
    have hskipped (n : Nat) (h : t = skipTo l n s) : skipped n := by
      have hput := skipTo_put (x := x) (k := s.link) hr hgrant n
      rw [put_self] at hput
      simp only [skipped, same, h, hput, put_line, readerOf_put, put_link, put_store, put_requests]
      refine ⟨rfl, readerOf_reread .., (reread_store ..).2, by rw [queueReport_eq], by rw [reread_frame], (reread_store ..).1, ?_⟩
      rw [reread_frame]
      cases l <;> rfl
    have hended (reason : EndReason) (hreason : reason = .ended ∨ reason = .key) (h : t = endPlayback l reason s) : ended reason := by
      have hput := endPlayback_put (k := s.link) hreturn hx reason
      rw [put_self] at hput
      have hrequests : (s.unread (.line l) r.id).requests = s.requests := by rw [unread_frame]
      by_cases hdelivery : v.kind = some .delivery
      · rw [if_pos ⟨hdelivery, hreason⟩, askRelease, post_put] at hput
        simp only [ended, same, h, hput, put_line, readerOf_put, findEntry_put, put_link, put_store, put_requests]
        refine ⟨rfl, readerOf_unread .., findEntry_unread _ he, by rw [queueReport_eq], ?_, unread_memory .., ?_⟩
        · rw [if_pos hdelivery, post_requests, hrequests]
        · rw [unread_frame]; cases l <;> rfl
      · rw [if_neg fun h => hdelivery h.1] at hput
        simp only [ended, same, h, hput, put_line, readerOf_put, findEntry_put, put_link, put_store, put_requests]
        refine ⟨rfl, readerOf_unread .., findEntry_unread _ he, by rw [queueReport_eq], ?_, unread_memory .., ?_⟩
        · rw [if_neg hdelivery, hrequests, List.append_nil]
        · rw [unread_frame]; cases l <;> rfl
    refine ⟨?_, ?_, ?_, ?_, ?_, ?_⟩
    · rintro rfl; exact hended .key (.inr rfl) (if_pos hsub)
    · rintro rfl; exact hskipped _ ((if_pos hsub).trans (by rw [← hspan]))
    · rintro rfl h
      exact hskipped _ ((voiceControl_skipFwd hsub hr).trans ((if_neg (by rw [hspan]; exact Nat.not_le.mpr h)).trans (by rw [hspan])))
    · rintro rfl h
      exact hended .ended (.inl rfl) ((voiceControl_skipFwd hsub hr).trans (if_pos (by rw [hspan]; exact h)))
    · rintro rfl h
      have hput := (voiceControl_pause (s := s) (l := l) (k := s.link) hst hexp).1 h
      rw [put_self] at hput
      rw [queueReport_eq, setLine_eq_put]
      exact hput
    · rintro rfl h
      have hput := (voiceControl_pause (s := s) (l := l) (k := s.link) hst hexp).2 h
      rw [put_self] at hput
      rw [queueReport_eq, setLine_eq_put]
      exact hput

end Sys2Proof.Machine
end

section
/-! PROOFS. Recordings: their beginning and their blocks (R182 to R185, R189). -/

namespace Sys2Proof.Machine

section
variable {s : State} {l : Line} {x : LineState} {k : Link}

/-- RECORDING entered: a far-end signal is expected from now on. -/
theorem setSub_recording (h : x.Listening) : setSub l (some .recording) (s.put l x k) = s.put l { x with
    voice := { x.voice with sub := some .recording }
    iface := { x.iface with expecting := true, lowRun := 0, highRun := 0 } } k := by
  have hexpects : ({ x with voice := { x.voice with sub := some .recording } } : LineState).expects = true := by
    simp [LineState.expects]
  have hne : ¬({ x with voice := { x.voice with sub := some .recording } } : LineState).iface.expecting =
      ({ x with voice := { x.voice with sub := some .recording } } : LineState).expects := by
    rw [hexpects]; simp [h.expecting]
  rw [setSub_put, LineState.judge, if_neg hne, if_pos hexpects, Link.judge, if_pos (.inr hexpects)]
  rfl

/-- RECORDING left, no LEVEL_LOW being set: no far-end signal is expected any longer. -/
theorem setSub_waiting_of_recording (hst : x.call.st = .voice) (hexp : x.iface.expecting = true)
    (hlow : x.iface.current.get .levelLow = false) : setSub l (some .waiting) (s.put l x k) = s.put l { x with
    voice := { x.voice with sub := some .waiting }
    iface := { x.iface with expecting := false, lowRun := 0, highRun := 0 } } k := by
  have hexpects : ({ x with voice := { x.voice with sub := some .waiting } } : LineState).expects = false := by
    simp [LineState.expects, hst]
  have hne : ¬({ x with voice := { x.voice with sub := some .waiting } } : LineState).iface.expecting =
      ({ x with voice := { x.voice with sub := some .waiting } } : LineState).expects := by
    rw [hexpects]; simp [hexp]
  have hget : (({ x with voice := { x.voice with sub := some .waiting } } : LineState).setExpecting false).iface.current.get .levelLow =
      false := hlow
  rw [setSub_put, LineState.judge, if_neg hne, if_neg (by simp [hexpects]), LineState.deliver_of_get hget, Link.judge,
    if_neg (by simp [hexpects, hexp]), Link.deliver_of_get hget]
  rfl

theorem beginRecording_put : beginRecording l (s.put l x k) = s.put l { x with
    voice := { x.voice with begun := true, p := 0, k := 0, silenceRun := 0, position := 0 } } (k.push (.voice l .start .none 0)) := by
  rw [beginRecording, modVoice_put, reportVoice_put]

theorem enterRecording_put (h : x.Listening) (hblock : x.iface.blockDue ≠ s.now + 10) : enterRecording l (s.put l x k) = s.put l { x with
    voice := { x.voice with sub := some .recording, begun := false, offsets := [], silenceStart := 0 }
    iface := { x.iface with expecting := true, lowRun := 0, highRun := 0 } } k := by
  rw [enterRecording, modVoice_put]
  dsimp only
  rw [setSub_recording (x := { x with voice := { x.voice with begun := false, offsets := [], silenceStart := 0 } }) ⟨h.st, h.expecting⟩,
    atBlockStart, put_line, put_now, if_neg]
  simpa using hblock

end

/-! ### RECORD (R189) -/

section
variable {line mb coding beep : Byte} {limit : Word16} {l : Line} {box : Option Nat} {c : Coding} {on : Bool} {s : State}

theorem opRecord_badParam (h : lineOf line = none ∨ mailboxOf mb = none ∨ Coding.ofCode coding.toNat = none ∨ onOff beep.toNat = none) :
    opRecord line mb coding limit beep s = done 0x42#8 .badParam [] s := by
  unfold opRecord
  dsimp only
  split
  · simp_all
  · rfl

/-- RECORD with its operands named: the checks in their order. -/
theorem opRecord_eq (hl : lineOf line = some l) (hmb : mailboxOf mb = some box) (hc : Coding.ofCode coding.toNat = some c)
    (hon : onOff beep.toNat = some on) : opRecord line mb coding limit beep s =
      if s.st l ≠ .voice then done 0x42#8 .badState [] s
      else if (s.line l).voice.sub ≠ some .waiting then done 0x42#8 .busy [] s
      else if storeReady s = false then done 0x42#8 .notReady [] s
      else if (box.map (mailboxEnabled s)) = some false then done 0x42#8 .noEntry [] s
      else if createRefused s then done 0x42#8 .storeFull [] s
      else
        let t := done 0x42#8 .ok (numBytes 2 (freshId s)) (createRecording l .host box (recordCoding s box c)
          (if limit.toNat = 0 then (mailboxSettings s box).2 else clamp 5 600 limit.toNat) s)
        if on then enterBeep l t else enterRecording l t := by
  rw [opRecord, hl, hmb, hc, hon] <;> rfl

/-- The engine prepared for a recording of the host. -/
def hostRecording (s : State) (box : Option Nat) (used : Coding) (seconds : Nat) : Voice :=
  { initialVoice with
    kind := some .host, message := some (freshId s), mailbox := box, coding := used, limit := seconds * secondBytes used }

theorem createRecording_host (used : Coding) (seconds : Nat) (code : Byte) (bs : List Byte) :
    done code .ok bs (createRecording l .host box used seconds s) =
      (s.created (newEntry s (.line l) .voice box used) (.line l)).put l
        { s.line l with voice := { hostRecording s box used seconds with sub := (s.line l).voice.sub } }
        (s.link.push (.done code .ok bs)) := by
  have h := createRecording_put (s := s) (l := l) (x := s.line l) (k := s.link) .host box used seconds
  rw [put_self] at h
  rw [h, done_put]
  rfl

end

/-! ### The end of a greeting (R182, R183) -/

section
variable {s : State} {l : Line} {due : Nat}

/-- The recording of a call without a mailbox, created at the entry to VOICE. -/
theorem voiceFromClassify_records {x : LineState} {k : Link} (htone : x.iface.tone = none) (hexp : x.iface.expecting = false)
    (hst : x.call.st = .voice) (hr : readerOf s (.line l) = none) (hbox : x.call.cr.mailbox = none) (hready : s.store.st = .ready)
    (hroom : createRefused s = false) : voiceFromClassify l (s.put l x k) =
      (s.created (newEntry (s.put l { x with voice := { x.voice with silentDue := none } } k) (.line l) .voice none .adc4) (.line l)).put l
        { x with
          iface := { x.iface with tone := some ⟨.beep x.profile.beepFrequency x.profile.beepDuration, true,
            s.now + x.profile.beepDuration⟩ }
          voice := { initialVoice with
            sub := some .beep, kind := some .answered, message := some (freshId s), coding := .adc4, limit := 480000 } } k := by
  have hrefused (y : LineState) : recordingRefused (s.put l y k) = false := by
    have hr' : createRefused (s.put l y k) = createRefused s := by cases l <;> rfl
    rw [recordingRefused, hr', hroom, storeReady, put_store]
    simp [hready]
  rw [voiceFromClassify]
  dsimp only
  rw [closeGreeting_put _ _ _ _ hr, hrefused, if_neg Bool.false_ne_true, put_line, hbox, createRecording_put,
    enterBeep_put (by exact htone) (by simp [hexp, LineState.expects, hst])]
  have hlimit : 120 * secondBytes .adc4 = 480000 := by norm_num [secondBytes]
  simp only [mailboxSettings, Option.bind_none, hlimit]
  rfl

/-- A silent greeting's end in CLASSIFY, an incoming call's without a mailbox: the recording is created and the beep requested. -/
theorem exec_greetingEnd_records (hs : s.requests = []) (htone : (s.line l).iface.tone = none) (hexp : (s.line l).iface.expecting = false)
    (hsub : (s.line l).voice.sub = some .greeting) (hdue : (s.line l).voice.silentDue = some due) (hst : s.st l = .classify)
    (hr : readerOf s (.line l) = none) (hbox : (s.line l).call.cr.mailbox = none) (hready : s.store.st = .ready)
    (hroom : createRefused s = false) : ∃ e, e = newEntry s (.line l) .voice none .adc4 ∧
      exec (.greetingEnd l) s = .next (((s.at (max s.now due)).created e (.line l)).put l { s.line l with
        call := { (s.line l).call.timeless with st := .voice, reason := some (.change .greetingEnd) }
        iface := { (s.line l).iface with tone := some ⟨.beep (s.line l).profile.beepFrequency (s.line l).profile.beepDuration, true,
          max s.now due + (s.line l).profile.beepDuration⟩ }
        voice := { initialVoice with
          sub := some .beep, kind := some .answered, message := some (freshId s), coding := .adc4, limit := 480000 } }
        (s.link.push (.line l .voice (.change .greetingEnd) none))) := by
  refine ⟨_, rfl, ?_⟩
  generalize hnow : max s.now due = now
  have hclose : opGreetingEnd l s = post (.greetingEnd l) ((s.at now).put l
      { s.line l with voice := { (s.line l).voice with silentDue := none } } s.link) := by
    have hstart : elapse due s = (s.at now).put l (s.line l) s.link := by rw [← hnow]; cases l <;> rfl
    simp only [opGreetingEnd, hdue]
    rw [if_neg (not_not_intro hsub), endGreeting, hstart, closeGreeting_put _ _ _ _ (by exact hr)]
  have hagree : ({ s.line l with
      call := (s.line l).call.timeless, voice := { (s.line l).voice with silentDue := none } } : LineState).iface.expecting =
      (({ s.line l with
        call := (s.line l).call.timeless, voice := { (s.line l).voice with silentDue := none } } : LineState).setSt .voice
          (.change .greetingEnd) now).expects := by
    simp [hexp, LineState.expects, LineState.setSt, hsub]
  have hcarries : ({ s.line l with
      call := (s.line l).call.timeless, voice := { (s.line l).voice with silentDue := none } } : LineState).call.st.carries = false :=
    congrArg LineSt.carries hst
  refine (exec_finish (c := .greetingEnd l) hclose).trans (congrArg _ (finish_post (r := .greetingEnd l) ((put_requests ..).trans hs) ?_
    ((put_requests ..).trans hs)))
  rw [takeRequest, greetingEnded, if_pos (by rw [put_st]; exact hst), classifyToVoice, clearTimers_put, changeState_put, at_now,
    LineState.enter_of_agreeing hagree hcarries, Link.enter_of_agreeing l s.link hagree hcarries,
    voiceFromClassify_records (by exact htone) (by exact hexp) rfl (by exact hr) (by exact hbox) (by exact hready) (by exact hroom)]
  have hentry (x : LineState) (hx : x.iface.caller = (s.line l).iface.caller) :
      newEntry ((s.at now).put l x (s.link.push (.line l .voice (.change .greetingEnd) none))) (.line l) .voice none .adc4 =
        newEntry s (.line l) .voice none .adc4 := by
    have hclock : ((s.at now).put l x (s.link.push (.line l .voice (.change .greetingEnd) none))).link.dayClock = s.link.dayClock := by
      rw [put_link, Link.push_dayClock]
    simp only [newEntry, hclock, put_line, hx, freshId_put, put_store]
    rfl
  rw [hentry _ (by rfl)]
  have hstill : (s.line l).call.st ≠ .idle := by rw [show (s.line l).call.st = .classify from hst]; nofun
  simp only [LineState.setSt, Call.timeless, hstill, if_false]
  rfl

end

/-! ### A block of a recording (R184, R185) -/

/-- Bytes that do not fill the buffer of a stream join it. -/
theorem pushAll_fills {room : Nat} (bs : List Byte) : ∀ {w : WStream}, w.mayFill room = true →
    w.filling.length + bs.length < w.fillCapacity → w.pushAll room bs = { w with filling := w.filling ++ bs } := by
  induction bs with
  | nil => intro w _ _; simp [WStream.pushAll]
  | cons b rest ih =>
    intro w hm hlen
    rw [List.length_cons] at hlen
    have hpush : w.push room b = { w with filling := w.filling ++ [b] } := by
      rw [WStream.push, if_pos ⟨hm, by omega⟩, WStream.handOver, if_neg]
      rintro ⟨hhanded, -, hfull⟩
      have hcap : w.fillCapacity = segCapacity w.seq := by
        simp only [WStream.fillCapacity, show w.handed = none from hhanded]; rfl
      simp only [List.length_append, List.length_singleton] at hfull
      omega
    have hlen' : w.filling.length + 1 + rest.length < w.fillCapacity := by omega
    have hrest := ih (w := { w with filling := w.filling ++ [b] }) hm
      (by simp only [List.length_append, List.length_singleton]; exact hlen')
    rw [WStream.pushAll, List.foldl_cons, hpush]
    exact hrest.trans (by rw [List.append_assoc]; rfl)

section
variable {s : State} {w : WStream} {bs : List Byte}

theorem roomFor_single (hws : s.store.writers = [w]) : roomFor s w = 2 := by
  unfold roomFor
  split
  · simp [lineBuffersHeld, hws]
  · rfl

theorem mayFill_two (w : WStream) : w.mayFill 2 = true := by
  rw [WStream.mayFill]; split <;> rfl

/-- Speech that does not fill the buffer joins the only stream, the port being busy. -/
theorem appendSpeech_single (l : Line) (hws : s.store.writers = [w]) (hgrant : s.store.grant ≠ none)
    (hlen : w.filling.length + bs.length < w.fillCapacity) : appendSpeech l w.id bs s = { s with store := { s.store with
      writers := [{ w with filling := w.filling ++ bs }]
      dir := updateWhere (fun y => decide (y.id = w.id)) (fun y => { y with length := y.length + bs.length }) s.store.dir } } := by
  have hw := findWriter_single hws
  have hpush := pushAll_fills bs (mayFill_two w) hlen
  have haccepted : ({ w with filling := w.filling ++ bs } : WStream).accepted = w.accepted + bs.length := by
    simp only [WStream.accepted, WStream.buffered, WStream.toReadBack, List.length_append]; omega
  have hkeeps : dropsBytes s w.id bs = false := by
    simp only [dropsBytes, hw, roomFor_single hws, hpush, haccepted]
    simp
  rw [appendSpeech, hkeeps, if_neg Bool.false_ne_true, appendBytes, hw]
  dsimp only
  rw [roomFor_single hws, hpush, haccepted, modWriter_single _ hws, storeKick_of_grant (by exact hgrant), Nat.add_sub_cancel_left]
  rfl

end

section
variable {s : State} {l : Line} {w : WStream} {start : Nat} {gained : List Int}

/-- The engine behind a block of a recording. -/
def Voice.recorded (v : Voice) (start accepted n : Nat) (silent : Bool) (c : Coder) : Voice :=
  { v with
    p := c.p, k := c.k, offsets := (start, accepted) :: v.offsets, position := n
    silenceRun := if silent then v.silenceRun + 1 else 0
    silenceStart := if silent ∧ v.silenceRun = 0 then accepted else v.silenceStart }

/-- A block of a recording whose bytes do not fill the buffer: stored, and the recording ended at its limit or its silence. -/
theorem recordBlock_single {v : Voice} (hv : (s.line l).voice = v) (hid : v.message = some w.id) (hws : s.store.writers = [w])
    (hgrant : s.store.grant ≠ none) {r : List Nat × Coder} (hr : r = (Coder.mk v.p v.k).encode v.coding (gained.map voiceX))
    {bytes : List Byte} (hbytes : bytes = packCodes v.coding r.1) (hlen : w.filling.length + bytes.length < w.fillCapacity)
    {v' : Voice} (hv' : v' = v.recorded start w.accepted (w.accepted + bytes.length)
      (decide (blockLevel (gained.map voiceX) < (s.line l).profile.silenceThreshold)) r.2)
    {stored : State} (hstored : stored = { s.setLine l { s.line l with voice := v' } with
      store := { s.store with
        writers := [{ w with filling := w.filling ++ bytes }]
        dir := updateWhere (fun y => decide (y.id = w.id)) (fun y => { y with length := y.length + bytes.length }) s.store.dir } }) :
    recordBlock l start gained s =
      if v.limit ≤ w.accepted + bytes.length then endRecording l .limit (w.accepted + bytes.length) stored
      else if (s.line l).profile.silenceTime * 100 ≤ v'.silenceRun then endRecording l .silence v'.silenceStart stored
      else stored := by
  have haccepted : acceptedOf s w.id = w.accepted := by rw [acceptedOf, findWriter_single hws]; rfl
  have hspeech := appendSpeech_single l hws hgrant hlen
  generalize hu : ({ s with store := { s.store with
      writers := [{ w with filling := w.filling ++ bytes }]
      dir := updateWhere (fun y => decide (y.id = w.id)) (fun y => { y with length := y.length + bytes.length }) s.store.dir } } : State) = u
    at hspeech
  have hu' : acceptedOf u w.id = w.accepted + bytes.length := by
    rw [← hu, acceptedOf, findWriter_single (w := { w with filling := w.filling ++ bytes }) rfl]
    simp only [Option.map_some, Option.getD_some, WStream.accepted, WStream.buffered, WStream.toReadBack, List.length_append]
    omega
  have hmod (f : Voice → Voice) : acceptedOf (modVoice l f u) w.id = acceptedOf u w.id := by cases l <;> rfl
  have hline : u.line l = s.line l := by rw [← hu]; cases l <;> rfl
  have hvoice (f : Voice → Voice) : ((modVoice l f u).line l).voice = f v := by
    rw [← hv, ← hline]; cases l <;> rfl
  have hstored' : modVoice l (fun v => { v with
      p := r.2.p, k := r.2.k, offsets := (start, w.accepted) :: v.offsets, position := w.accepted + bytes.length
      silenceRun := if decide (blockLevel (gained.map voiceX) < (s.line l).profile.silenceThreshold) then v.silenceRun + 1 else 0
      silenceStart := if decide (blockLevel (gained.map voiceX) < (s.line l).profile.silenceThreshold) ∧ v.silenceRun = 0 then w.accepted
        else v.silenceStart }) u = stored := by
    rw [hstored, hv', ← hv, ← hu]; cases l <;> rfl
  have hstoredVoice : (stored.line l).voice = v' := by rw [← hstored', hvoice, hv']; rfl
  have hstoredAccepted : acceptedOf stored w.id = w.accepted + bytes.length := by rw [← hstored', hmod, hu']
  unfold recordBlock
  simp only [hv, hid]
  rw [← hr, ← hbytes, hspeech, haccepted, hu', hstored', hstoredAccepted, hstoredVoice]

end

/-! ### The offset of a block by a time that falls in it (R185) -/

theorem offsetAt_of_mem {b o handed time : Nat} (hb : b ≤ time) (ht : time < b + 10) : ∀ {offsets : List (Nat × Nat)}, (b, o) ∈ offsets →
    offsets.Pairwise (fun p q => q.1 + 10 ≤ p.1) → offsetAt offsets handed time = o := by
  have hfind : ∀ {offsets : List (Nat × Nat)}, (b, o) ∈ offsets → offsets.Pairwise (fun p q => q.1 + 10 ≤ p.1) →
      (offsets.find? fun p => decide (p.1 ≤ time)) = some (b, o) := by
    intro offsets
    induction offsets with
    | nil => nofun
    | cons p rest ih =>
      intro hmem hpair
      obtain ⟨hhead, hrest⟩ := List.pairwise_cons.mp hpair
      rcases List.mem_cons.mp hmem with rfl | hmem
      · rw [List.find?_cons_of_pos (by simpa using hb)]
      · have hlater : b + 10 ≤ p.1 := hhead _ hmem
        rw [List.find?_cons_of_neg (by simp only [decide_eq_true_eq]; omega)]
        exact ih hmem hrest
  intro offsets hmem hpair
  cases offsets with
  | nil => cases hmem
  | cons p rest =>
    have hhead : ¬p.1 + 10 ≤ time := by
      rcases List.mem_cons.mp hmem with rfl | hmem
      · exact Nat.not_le.mpr ht
      · have hlater : b + 10 ≤ p.1 := (List.pairwise_cons.mp hpair).1 _ hmem
        omega
    rw [offsetAt]
    rw [if_neg hhead, hfind hmem hpair]

theorem offsetAt_before {handed time : Nat} {offsets : List (Nat × Nat)} (h : ∀ p ∈ offsets, time < p.1) : offsetAt offsets handed time = 0 := by
  cases offsets with
  | nil => rfl
  | cons p rest =>
    have hnone : ((p :: rest).find? fun p => decide (p.1 ≤ time)) = none := by
      rw [List.find?_eq_none]
      intro q hq
      have := h q hq
      simp only [decide_eq_true_eq]
      omega
    have hp := h p List.mem_cons_self
    rw [offsetAt]
    rw [if_neg (by omega), hnone]

end Sys2Proof.Machine
end

section
/-! PROOFS. The end of a recording: the cut, the close with erase and the close (R147, R154, R184 to R186). -/

namespace Sys2Proof.Machine

/-! ### What the port and the memory are to a close -/

/-- The external memory and the grant of the port stand. -/
def PortKept (s t : State) : Prop := t.store.memory = s.store.memory ∧ t.store.grant = s.store.grant

theorem PortKept.refl (s : State) : PortKept s s := ⟨rfl, rfl⟩

section
variable {s t : State}

theorem PortKept.modStore {f : Store → Store} (hf : ∀ u, (f u).memory = u.memory ∧ (f u).grant = u.grant) (h : PortKept s t) :
    PortKept s (modStore f t) := ⟨(hf _).1.trans h.1, (hf _).2.trans h.2⟩

theorem PortKept.queueReport (r : Report) (h : PortKept s t) : PortKept s (queueReport r t) := by rw [queueReport_eq]; exact h

theorem PortKept.post (r : Request) (h : PortKept s t) : PortKept s (post r t) := h

theorem PortKept.ite {p : Prop} [Decidable p] {u v : State} (h : PortKept s u) (h' : PortKept s v) : PortKept s (if p then u else v) := by
  split
  · exact h
  · exact h'

theorem PortKept.modWriter (id : Nat) (f : WStream → WStream) (h : PortKept s t) : PortKept s (modWriter id f t) :=
  .modStore (fun _ => ⟨rfl, rfl⟩) h

theorem PortKept.modEntry (id : Nat) (f : Entry → Entry) (h : PortKept s t) : PortKept s (modEntry id f t) :=
  .modStore (fun _ => ⟨rfl, rfl⟩) h

theorem PortKept.leaveWaiting (id : Nat) (h : PortKept s t) : PortKept s (leaveWaiting id t) := .modStore (fun _ => ⟨rfl, rfl⟩) h

theorem PortKept.startErase (id : Nat) (h : PortKept s t) : PortKept s (startErase id t) := by
  unfold Machine.startErase Machine.removeEntry leaveUnheard
  split
  · exact .ite (.modStore (fun _ => ⟨rfl, rfl⟩) (.modStore (fun _ => ⟨rfl, rfl⟩) h))
      (.modStore (fun _ => ⟨rfl, rfl⟩) (.modStore (fun _ => ⟨rfl, rfl⟩) (.modEntry _ _ h)))
  · exact h

theorem PortKept.dropWriter (id : Nat) (h : PortKept s t) : PortKept s (dropWriter id t) := by
  unfold Machine.dropWriter Machine.removeWriter
  split
  · exact .ite (.leaveWaiting _ (.modWriter _ _ h)) (.leaveWaiting _ (.modStore (fun _ => ⟨rfl, rfl⟩) h))
  · exact h

theorem PortKept.closeErase (id : Nat) (h : PortKept s t) : PortKept s (closeErase id t) := by
  unfold Machine.closeErase
  split
  · exact .startErase _ (.queueReport _ (.dropWriter _ h))
  · exact h

theorem PortKept.progressClose (id : Nat) (h : PortKept s t) : PortKept s (progressClose id t) := by
  unfold Machine.progressClose
  split
  · split
    · exact .ite (.ite (.closeErase _ h) (.ite (.modWriter _ _ h) (.ite (.closeErase _ h)
        (.modStore (fun _ => ⟨rfl, rfl⟩) (.modWriter _ _ h))))) h
    · exact h
  · exact h

theorem PortKept.cutFinished (id : Nat) (h : PortKept s t) : PortKept s (cutFinished id t) := by
  unfold Machine.cutFinished
  dsimp only
  split
  · exact .progressClose _ (.ite (.post _ (.modWriter _ _ h)) (.modWriter _ _ h))
  · exact .modWriter _ _ h

theorem PortKept.carryCut (id len : Nat) (h : PortKept s t) : PortKept s (carryCut id len t) := by
  unfold Machine.carryCut
  split
  · dsimp only
    have hrun (f : WStream → WStream) (g : Store → Store) (hg : ∀ u, (g u).memory = u.memory ∧ (g u).grant = u.grant) :
        PortKept s (Machine.modStore g (Machine.leaveWaiting id (Machine.modWriter id f t))) :=
      .modStore hg (.leaveWaiting _ (.modWriter _ _ h))
    exact .ite (.cutFinished _ (hrun _ _ fun _ => ⟨rfl, rfl⟩)) (hrun _ _ fun _ => ⟨rfl, rfl⟩)
  · exact h

theorem PortKept.cutTo (id len : Nat) (h : PortKept s t) : PortKept s (cutTo id len t) := by
  unfold Machine.cutTo
  split
  · exact .ite (.modWriter _ _ (.modEntry _ _ h)) (.carryCut _ _ (.modEntry _ _ h))
  · exact h

theorem PortKept.cutFirst (id len : Nat) (h : PortKept s t) : PortKept s (cutFirst id len t) := .ite (.cutTo _ _ h) h

/-- Nothing is granted at a busy port. -/
theorem PortKept.storeKick (hgrant : s.store.grant ≠ none) (h : PortKept s t) : PortKept s (storeKick t) := by
  rw [storeKick_of_grant (by rw [h.2]; exact hgrant)]; exact h

theorem PortKept.closeWithErase (hgrant : s.store.grant ≠ none) (id : Nat) (h : PortKept s t) : PortKept s (closeWithErase id t) :=
  .storeKick hgrant (.closeErase _ h)

theorem PortKept.closeMessageAs (hgrant : s.store.grant ≠ none) (id : Nat) (reason : EndReason) (truncated : Bool) (pages : Nat)
    (h : PortKept s t) : PortKept s (closeMessageAs id reason truncated pages t) :=
  .storeKick hgrant (.progressClose _ (.modEntry _ _ (.leaveWaiting _ (.modWriter _ _ h))))

end

/-! ### A close asks for nothing between blocks -/

section
variable {s : State}

theorem dropWriter_requests (id : Nat) : (dropWriter id s).requests = s.requests := by
  unfold dropWriter
  split
  · split <;> rfl
  · rfl

theorem startErase_requests (id : Nat) : (startErase id s).requests = s.requests := by
  unfold startErase
  split
  · split <;> rfl
  · rfl

theorem closeErase_requests (id : Nat) : (closeErase id s).requests = s.requests := by
  unfold closeErase
  split
  · rw [startErase_requests, queueReport_eq]; exact dropWriter_requests id
  · rfl

theorem progressClose_requests (id : Nat) : (progressClose id s).requests = s.requests := by
  unfold progressClose
  split
  · split
    · split_ifs
      · exact closeErase_requests id
      · rfl
      · exact closeErase_requests id
      · rfl
      · rfl
    · rfl
  · rfl

end

/-! ### The engine at the end of a recording (R185, R186) -/

/-- The releases a recording's end asks for, by its kind and reason. -/
def recordingAsks (l : Line) (kind : Option VoiceKind) (reason : EndReason) : List Request :=
  if kind = some .answered ∧ (reason = .limit ∨ reason = .silence) then [.release l .voiceDone]
  else if reason = .byRelease .farEnd then [.release l .farEnd]
  else if kind = some .answered ∧ reason = .byRelease .storeFull then [.release l .storeFull] else []

theorem afterRecording_eq (l : Line) (reason : EndReason) (s : State) : afterRecording l reason s = { setSub l (some .waiting) s with
    requests := (setSub l (some .waiting) s).requests ++ recordingAsks l ((setSub l (some .waiting) s).line l).voice.kind reason } := by
  unfold afterRecording
  dsimp only
  generalize setSub l (some .waiting) s = t
  split
  · next h => simp [recordingAsks, h, askRelease, post]
  · next h => simp [recordingAsks, h, askRelease, post]
  · simp [recordingAsks, askRelease, post]
  · next h => simp [recordingAsks, h, askRelease, post]
  · next hfar hlimit hsilence hfull =>
    rw [recordingAsks, if_neg, if_neg hfar, if_neg fun h => hfull h.2 h.1, List.append_nil]
    rintro ⟨hk, hr | hr⟩
    · exact hlimit hr hk
    · exact hsilence hr hk

section
variable {s : State} {l : Line} {x : LineState} {id : Nat}

/-- The state at the end of a recording before the store is told: VOICE END is queued, the final length noted. -/
def recordingTold (l : Line) (reason : EndReason) (final : Nat) (s : State) : State :=
  s.put l { s.line l with voice := { (s.line l).voice with position := final, begun := false } } (s.link.push (.voice l .ended reason final))

theorem closeRecording_eq (hid : (s.line l).voice.message = some id) (reason : EndReason) (length : Nat) :
    closeRecording l reason length s =
      let final := min length (acceptedOf s id)
      if final < secondBytes (s.line l).voice.coding then closeWithErase id (cutFirst id final (recordingTold l reason final s))
      else closeAt id final reason (truncatedFor reason) 0 (recordingTold l reason final s) := by
  have htold (n : Nat) : reportVoice l .ended reason n (modVoice l (fun v => { v with position := n, begun := false }) s) =
      recordingTold l reason n s := by
    have h := modVoice_put (s := s) (l := l) (x := s.line l) (k := s.link) (f := fun v => { v with position := n, begun := false })
    rw [put_self] at h
    rw [h, reportVoice_put]
    rfl
  unfold closeRecording
  dsimp only
  rw [hid]
  dsimp only
  rw [htold]

/-- The end of a recording, whatever the store makes of it. -/
theorem endRecording_of_closed {reason : EndReason} {length final : Nat} {u : State} (hst : s.st l = .voice)
    (hexp : (s.line l).iface.expecting = true) (hlow : (s.line l).iface.current.get .levelLow = false)
    (hu : closeRecording l reason length s = u) (halone : StoreAlone (recordingTold l reason final s) u) :
    endRecording l reason length s = { u.put l { s.line l with
      voice := { (s.line l).voice with sub := some .waiting, begun := false, position := final }
      iface := { (s.line l).iface with expecting := false, lowRun := 0, highRun := 0 } } u.link with
      requests := u.requests ++ recordingAsks l (s.line l).voice.kind reason } := by
  have hline : u.line l = { s.line l with voice := { (s.line l).voice with position := final, begun := false } } := by
    rw [halone.line, recordingTold, put_line]
  have hsub := setSub_waiting_of_recording (s := u) (l := l) (k := u.link)
    (x := { s.line l with voice := { (s.line l).voice with position := final, begun := false } }) hst hexp hlow
  rw [← hline, put_self, hline] at hsub
  rw [endRecording, hu, afterRecording_eq, hsub, put_requests, put_line]

end

/-! ### A cut of the only stream (R147) -/

/-- The segments of a message that begin before a length. -/
def keptSegs (e : Entry) (len : Nat) : Nat := ((List.range e.chain.length).filter fun i => decide (segStart i < len)).length

/-- The stream cut back to a length, before its cut goes on. -/
def WStream.cutBack (e : Entry) (len : Nat) (w : WStream) : WStream :=
  if w.base ≤ len then
    { w with
      handed := none, filling := (w.handed.getD [] ++ w.filling).take (len - w.base), seg := if segStart w.seq < len then w.seg else none
      inStore := min w.inStore (len - w.base) }
  else
    { w with
      handed := none, filling := [], seq := seqOf len, base := segStart (seqOf len)
      seg := if decide (segStart (seqOf len) < len) then e.chain[seqOf len]? else none
      inStore := len - segStart (seqOf len) }

/-- The bytes a cut reads back, no cut going on before. -/
def WStream.cutReads (len : Nat) (w : WStream) : Option Nat :=
  if w.base ≤ len then none
  else if len = segStart (seqOf len) then none else some (len - segStart (seqOf len))

section
variable {s : State} {w : WStream} {e : Entry} {len : Nat}

/-- The stream as its cut goes on. -/
def WStream.cutRunning (e : Entry) (len : Nat) (w : WStream) : WStream :=
  { w.cutBack e len with
    cut := .running (e.chain.drop (keptSegs e len)).length (w.cutReads len)
    region := (e.chain.take (keptSegs e len)).getLast?.map regionOfSeg }

/-- The state with a cut going on: the header writes of the freed segments asked for. -/
def cutGoing (w : WStream) (e : Entry) (len : Nat) (s : State) : State := { s with store := { s.store with
  dir := updateWhere (fun x => decide (x.id = w.id)) (fun x => { x with length := len }) s.store.dir
  writers := [w.cutRunning e len]
  waiting := s.store.waiting.filter (fun x => decide (x ≠ w.id))
  maint := s.store.maint ++ ((e.chain.drop (keptSegs e len)).filter fun g =>
    decide (Maint.freeHeader g (.cut w.id) ∉ s.store.maint ∧ s.store.grant ≠ some (.maint (.freeHeader g (.cut w.id))))).map
      fun g => .freeHeader g (.cut w.id) } }

theorem cutTo_eq (hws : s.store.writers = [w]) (he : findEntry s w.id = some e) (hgranted : w.granted = false) (hcut : w.cut = .none) :
    cutTo w.id len s =
      if e.chain.drop (keptSegs e len) = [] ∧ w.cutReads len = none then cutFinished w.id (cutGoing w e len s) else cutGoing w e len s := by
  have hfind := findEntry_modEntry w.id (f := fun x => { x with length := len }) (fun _ => rfl) s
  rw [he, Option.map_some] at hfind
  have hws' : (modEntry w.id (fun e => { e with length := len }) s).store.writers = [w] := hws
  have hreads : (if w.base ≤ len then w.toReadBack.bind fun n => if len = w.base then none else some (min n (len - w.base))
      else if len = segStart (seqOf len) then none else some (len - segStart (seqOf len))) = w.cutReads len := by
    rw [WStream.cutReads, WStream.toReadBack, hcut]; rfl
  rw [cutTo, findWriter_single hws]
  dsimp only
  rw [hgranted, if_neg Bool.false_ne_true, carryCut, findWriter_single hws', hfind]
  dsimp only
  rw [modWriter_single _ hws', hreads]
  rfl

end

section
variable {s : State} {w : WStream} {e : Entry}

theorem handOver_frame (w : WStream) : w.handOver = { w with handed := w.handOver.handed, filling := w.handOver.filling } := by
  rw [WStream.handOver]; split <;> rfl

/-- A stream that is not closing takes no step of a close. -/
theorem progressClose_open {id : Nat} (hw : findWriter s id = some w) (hc : w.closing = none) : progressClose id s = s := by
  unfold progressClose
  rw [hw]
  cases findEntry s id <;> simp only [hc]

/-- The stream as its cut is over. -/
def WStream.cutOver (w : WStream) : WStream := ({ w with cut := .none } : WStream).handOver

theorem cutOver_frame (w : WStream) : w.cutOver = { w with cut := .none, handed := w.cutOver.handed, filling := w.cutOver.filling } := by
  unfold WStream.cutOver
  rw [handOver_frame]

/-- The end of a cut of the only stream, which is not closing: its owner is told. -/
theorem cutFinished_single (hws : s.store.writers = [w]) (hc : w.closing = none) : cutFinished w.id s = { s with
    store := { s.store with writers := [w.cutOver] }
    requests := s.requests ++ if w.active then [.cutDone w.owner w.id] else [] } := by
  have hid : w.cutOver.id = w.id := by rw [cutOver_frame]
  have howner : w.cutOver.owner = w.owner := by rw [cutOver_frame]
  have hactive : w.cutOver.active = w.active := by rw [cutOver_frame]
  have hclosing : w.cutOver.closing = none := by rw [cutOver_frame]; exact hc
  have hfind {t : State} (ht : t.store.writers = [w.cutOver]) : findWriter t w.id = some w.cutOver := by
    have h := findWriter_single ht
    rwa [hid] at h
  have hmod : modWriter w.id (fun w => { w with cut := .none }.handOver) s = { s with store := { s.store with writers := [w.cutOver] } } :=
    modWriter_single _ hws
  unfold cutFinished
  dsimp only
  rw [hmod, hfind rfl]
  dsimp only
  rw [hactive, howner]
  by_cases ha : w.active = true
  · rw [if_pos ha, if_pos ha, progressClose_open (hfind (by rfl)) hclosing, post]
  · rw [if_neg ha, if_neg ha, progressClose_open (hfind (by rfl)) hclosing, List.append_nil]

/-- A close with erase of the only stream, whose cut alone has asked for maintenance. -/
theorem closeErase_single (hws : s.store.writers = [w]) (hgranted : w.granted = false) (he : findEntry s w.id = some e) (hchain : e.chain ≠ [])
    (hmaint : ∀ m ∈ s.store.maint, m.isCutOf w.id = true) (hgrant : ∀ g, s.store.grant ≠ some (.maint (.freeHeader g (.cut w.id)))) :
    closeErase w.id s = { s with
      link := s.link.push (.message w.id e.kind e.mailbox 0 .empty)
      store := { s.store with
        writers := []
        waiting := s.store.waiting.filter (fun x => decide (x ≠ w.id))
        dir := updateWhere (fun x => decide (x.id = w.id)) (fun x => { x with state := .erasing, writer := none, erasePending := false })
          s.store.dir
        unheard := s.store.unheard.filter (fun x => decide (x ≠ w.id))
        maint := e.chain.map fun g => .freeHeader g (.erase w.id) } } := by
  have hfilter : (s.store.maint.filter fun m => !m.isCutOf w.id) = [] := by
    rw [List.filter_eq_nil_iff]
    intro m hm
    simp [hmaint m hm]
  have hall : (e.chain.filter fun g => decide (s.store.grant ≠ some (.maint (.freeHeader g (.cut w.id))))) = e.chain :=
    List.filter_eq_self.mpr fun g _ => decide_eq_true (hgrant g)
  have hdrop : dropWriter w.id s = { s with store := { s.store with
      writers := [], waiting := s.store.waiting.filter (fun x => decide (x ≠ w.id)) } } := by
    rw [dropWriter, findWriter_single hws]
    dsimp only
    rw [hgranted, if_neg Bool.false_ne_true, removeWriter, modStore, hws]
    simp [leaveWaiting, modStore]
  rw [closeErase, he]
  dsimp only
  rw [hdrop, queueReport_eq, startErase]
  have he' : findEntry { s with
      link := s.link.push (.message w.id e.kind e.mailbox 0 .empty)
      store := { s.store with writers := [], waiting := s.store.waiting.filter (fun x => decide (x ≠ w.id)) } } w.id = some e := he
  dsimp only at he' ⊢
  rw [he']
  dsimp only
  rw [if_neg hchain]
  have hasked : ((s.store.maint.filter fun m => !m.isCutOf w.id) ++ (e.chain.filter fun g =>
      decide (s.store.grant ≠ some (.maint (.freeHeader g (.cut w.id))))).map fun g => Maint.freeHeader g (.erase w.id)) =
      e.chain.map fun g => .freeHeader g (.erase w.id) := by rw [hfilter, hall, List.nil_append]
  exact congrArg (fun maint => ({ s with
    link := s.link.push (.message w.id e.kind e.mailbox 0 .empty)
    store := { s.store with
      writers := []
      waiting := s.store.waiting.filter (fun x => decide (x ≠ w.id))
      dir := updateWhere (fun x => decide (x.id = w.id)) (fun x => { x with state := .erasing, writer := none, erasePending := false })
        s.store.dir
      unheard := s.store.unheard.filter (fun x => decide (x ≠ w.id))
      maint := maint } } : State)) hasked

/-- What a close with erase leaves of the message and its stream. -/
structure ErasedMessage (id length : Nat) (e : Entry) (k : Link) (rs : List Request) (t : State) : Prop where
  writer : findWriter t id = none
  link : t.link = k.push (.message id e.kind e.mailbox 0 .empty)
  entry : findEntry t id = some { e with length := length, state := .erasing, writer := none, erasePending := false }
  maint : t.store.maint = e.chain.map fun g => .freeHeader g (.erase id)
  requests : t.requests = rs

theorem closeWithErase_single {length : Nat} (hws : s.store.writers = [w]) (hgranted : w.granted = false)
    (he : findEntry s w.id = some { e with length := length }) (hchain : e.chain ≠ [])
    (hmaint : ∀ m ∈ s.store.maint, m.isCutOf w.id = true) (hgrant : ∀ g, s.store.grant ≠ some (.maint (.freeHeader g (.cut w.id))))
    (hbusy : s.store.grant ≠ none) : ErasedMessage w.id length e s.link s.requests (closeWithErase w.id s) := by
  have hfind := findEntry_modEntry w.id (f := fun x => { x with state := .erasing, writer := none, erasePending := false }) (fun _ => rfl) s
  rw [he, Option.map_some] at hfind
  rw [closeWithErase, closeErase_single hws hgranted he hchain hmaint hgrant, storeKick_of_grant (by exact hbusy)]
  exact ⟨rfl, rfl, hfind, rfl, rfl⟩

/-- A close of the only stream, its last bytes in the buffer. -/
theorem closeMessageAs_hands (hws : s.store.writers = [w]) (he : findEntry s w.id = some e) (hcut : w.cut = .none) (hhanded : w.handed = none)
    (hfill : w.filling ≠ []) (hbusy : s.store.grant ≠ none) (reason : EndReason) (truncated : Bool) :
    let t := closeMessageAs w.id reason truncated 0 s
    findWriter t w.id = some { w with
      active := false, failed := false, closing := some ⟨reason, truncated, 0, false, false⟩
      handed := some (w.filling.take (segCapacity w.seq)), filling := w.filling.drop (segCapacity w.seq) } ∧
    findEntry t w.id = some { e with pages := 0, truncated := truncated } ∧ t.link = s.link ∧ t.requests = s.requests := by
  have hw := findWriter_closeAsked w ⟨reason, truncated, 0, false, false⟩ s
  have he' := findEntry_closeAsked he ⟨reason, truncated, 0, false, false⟩
  have hrun := progressClose_hands hw he' rfl hcut rfl rfl hhanded hfill
  have hmod := modWriter_single (s := closeAsked w ⟨reason, truncated, 0, false, false⟩ s) (fun w => { w with
      handed := some (w.filling.take (segCapacity w.seq)), filling := w.filling.drop (segCapacity w.seq) })
    (w := { w with active := false, failed := false, closing := some ⟨reason, truncated, 0, false, false⟩ }) rfl
  dsimp only
  rw [closeMessageAs_eq hws, hrun, hmod, storeKick_of_grant (by exact hbusy)]
  exact ⟨findWriter_single (w := { w with
      active := false, failed := false, closing := some ⟨reason, truncated, 0, false, false⟩
      handed := some (w.filling.take (segCapacity w.seq)), filling := w.filling.drop (segCapacity w.seq) }) rfl, he', rfl, rfl⟩

/-- A close of the only stream, a segment of which waits to be written. -/
theorem closeMessageAs_waits (hws : s.store.writers = [w]) (he : findEntry s w.id = some e) (hhanded : w.handed ≠ none)
    (hbusy : s.store.grant ≠ none) (reason : EndReason) (truncated : Bool) :
    let t := closeMessageAs w.id reason truncated 0 s
    findWriter t w.id = some { w with active := false, failed := false, closing := some ⟨reason, truncated, 0, false, false⟩ } ∧
    findEntry t w.id = some { e with pages := 0, truncated := truncated } ∧ t.link = s.link ∧ t.requests = s.requests := by
  have hw := findWriter_closeAsked w ⟨reason, truncated, 0, false, false⟩ s
  have he' := findEntry_closeAsked he ⟨reason, truncated, 0, false, false⟩
  have hrun := progressClose_waits hw he' rfl (.inl hhanded)
  dsimp only
  rw [closeMessageAs_eq hws, hrun, storeKick_of_grant (by exact hbusy)]
  exact ⟨hw, he', rfl, rfl⟩

end

end Sys2Proof.Machine
end

section
/-! PROOFS. Recordings from their beginning to their end (R182 to R189). -/

namespace Sys2Proof.Machine

/-! ### A cut of the only stream that completes at once, and one that goes on (R147) -/

section
variable {s : State} {w : WStream} {e : Entry} {len : Nat}

theorem cutBack_frame (e : Entry) (len : Nat) (w : WStream) : w.cutBack e len = { w with
    handed := none, filling := (w.cutBack e len).filling, seq := (w.cutBack e len).seq, base := (w.cutBack e len).base
    seg := (w.cutBack e len).seg, inStore := (w.cutBack e len).inStore } := by
  unfold WStream.cutBack; split <;> rfl

theorem cutRunning_frame (e : Entry) (len : Nat) (w : WStream) : (w.cutRunning e len).id = w.id ∧
    (w.cutRunning e len).granted = w.granted ∧ (w.cutRunning e len).closing = w.closing ∧ (w.cutRunning e len).active = w.active ∧
    (w.cutRunning e len).owner = w.owner := by
  unfold WStream.cutRunning
  rw [cutBack_frame]
  exact ⟨rfl, rfl, rfl, rfl, rfl⟩

theorem findEntry_cutGoing (he : findEntry s w.id = some e) : findEntry (cutGoing w e len s) w.id = some { e with length := len } := by
  have hfind := findEntry_modEntry w.id (f := fun x => { x with length := len }) (fun _ => rfl) s
  rw [he, Option.map_some] at hfind
  exact hfind

/-- A cut that frees no segment and reads nothing back is complete at once. -/
theorem cutTo_completes (hws : s.store.writers = [w]) (he : findEntry s w.id = some e) (hgranted : w.granted = false) (hcut : w.cut = .none)
    (hclosing : w.closing = none) (hkept : keptSegs e len = e.chain.length) (hbase : w.base ≤ len) : cutTo w.id len s = { s with
      store := { s.store with
        dir := updateWhere (fun x => decide (x.id = w.id)) (fun x => { x with length := len }) s.store.dir
        writers := [({ w.cutBack e len with region := e.chain.getLast?.map regionOfSeg } : WStream).handOver]
        waiting := s.store.waiting.filter (fun x => decide (x ≠ w.id)) }
      requests := s.requests ++ if w.active then [.cutDone w.owner w.id] else [] } := by
  have hdrop : e.chain.drop (keptSegs e len) = [] := by rw [hkept, List.drop_length]
  have hreads : w.cutReads len = none := if_pos hbase
  obtain ⟨hid, -, hcl, hactive, howner⟩ := cutRunning_frame e len w
  have hfinished := cutFinished_single (s := cutGoing w e len s) (w := w.cutRunning e len) rfl (hcl.trans hclosing)
  have hnone : (w.cutRunning e len).cutOver = ({ w.cutBack e len with region := e.chain.getLast?.map regionOfSeg } : WStream).handOver := by
    rw [WStream.cutOver, WStream.cutRunning, hkept, List.take_length, cutBack_frame]
    simp only [hcut]
  rw [hid, hactive, howner, hnone] at hfinished
  rw [cutTo_eq hws he hgranted hcut, if_pos ⟨hdrop, hreads⟩, hfinished]
  simp only [cutGoing, hdrop, List.filter_nil, List.map_nil, List.append_nil]

/-- A cut that frees a segment or reads bytes back goes on. -/
theorem cutTo_goes_on (hws : s.store.writers = [w]) (he : findEntry s w.id = some e) (hgranted : w.granted = false) (hcut : w.cut = .none)
    (h : keptSegs e len < e.chain.length ∨ len < w.base ∧ len ≠ segStart (seqOf len)) : cutTo w.id len s = cutGoing w e len s := by
  rw [cutTo_eq hws he hgranted hcut, if_neg]
  rintro ⟨hdrop, hreads⟩
  rcases h with h | ⟨hbase, hinside⟩
  · rw [List.drop_eq_nil_iff] at hdrop; omega
  · rw [WStream.cutReads, if_neg (by omega), if_neg hinside] at hreads; cases hreads

/-- A close with erase behind a cut of the only stream. -/
theorem closeWithErase_cut (hws : s.store.writers = [w]) (he : findEntry s w.id = some e) (hgranted : w.granted = false) (hcut : w.cut = .none)
    (hclosing : w.closing = none) (hmaint : s.store.maint = []) (hgrant : ∀ g, s.store.grant ≠ some (.maint (.freeHeader g (.cut w.id))))
    (hbusy : s.store.grant ≠ none) (hchain : e.chain ≠ []) :
    (keptSegs e len = e.chain.length → w.base ≤ len → ErasedMessage w.id len e s.link
      (s.requests ++ if w.active then [.cutDone w.owner w.id] else []) (closeWithErase w.id (cutTo w.id len s))) ∧
    (keptSegs e len < e.chain.length ∨ len < w.base ∧ len ≠ segStart (seqOf len) →
      ErasedMessage w.id len e s.link s.requests (closeWithErase w.id (cutTo w.id len s))) := by
  refine ⟨fun hkept hbase => ?_, fun hcond => ?_⟩
  · have hid : ({ w.cutBack e len with region := e.chain.getLast?.map regionOfSeg } : WStream).handOver.id = w.id := by
      rw [handOver_frame, cutBack_frame]
    have hgr : ({ w.cutBack e len with region := e.chain.getLast?.map regionOfSeg } : WStream).handOver.granted = w.granted := by
      rw [handOver_frame, cutBack_frame]
    have hrun := cutTo_completes hws he hgranted hcut hclosing hkept hbase
    have hfind := findEntry_cutGoing (len := len) he
    have h := closeWithErase_single (s := cutTo w.id len s) (e := e) (length := len)
      (w := ({ w.cutBack e len with region := e.chain.getLast?.map regionOfSeg } : WStream).handOver) (by rw [hrun]) (hgr.trans hgranted)
      (by rw [hid, hrun]; exact hfind) hchain (by rw [hrun]; intro m hm; simp [hmaint] at hm) (by rw [hid, hrun]; exact hgrant)
      (by rw [hrun]; exact hbusy)
    rw [hid, hrun] at h
    rw [hrun]
    exact h
  · obtain ⟨hid, hgr, -, -, -⟩ := cutRunning_frame e len w
    have h := closeWithErase_single (s := cutGoing w e len s) (e := e) (length := len) (w := w.cutRunning e len) rfl (hgr.trans hgranted)
      (by rw [hid]; exact findEntry_cutGoing he) hchain
      (by
        rw [hid]
        simp only [cutGoing, hmaint, List.nil_append, List.mem_map]
        rintro m ⟨g, -, rfl⟩
        simp [Maint.isCutOf])
      (by rw [hid]; exact hgrant) hbusy
    rw [hid] at h
    rw [cutTo_goes_on hws he hgranted hcut hcond]
    exact h

end

/-! ### The end of a recording (R185, R186) -/

section
variable {s : State} {w : WStream} {e : Entry}

/-- A close of the only stream, as its cut has just been completed. -/
theorem closeMessageAs_handOver (hws : s.store.writers = [w.handOver]) (he : findEntry s w.id = some e) (hcut : w.cut = .none)
    (hhanded : w.handed = none) (hfill : w.filling ≠ []) (hbusy : s.store.grant ≠ none) (reason : EndReason) (truncated : Bool) :
    let t := closeMessageAs w.id reason truncated 0 s
    findWriter t w.id = some { w with
      active := false, failed := false, closing := some ⟨reason, truncated, 0, false, false⟩
      handed := some (w.filling.take (segCapacity w.seq)), filling := w.filling.drop (segCapacity w.seq) } ∧
    findEntry t w.id = some { e with pages := 0, truncated := truncated } ∧ t.link = s.link ∧ t.requests = s.requests := by
  by_cases h : segCapacity w.seq ≤ w.filling.length
  · have hover : w.handOver = { w with
        handed := some (w.filling.take (segCapacity w.seq)), filling := w.filling.drop (segCapacity w.seq) } := if_pos ⟨hhanded, hcut, h⟩
    rw [hover] at hws
    exact closeMessageAs_waits (w := { w with
      handed := some (w.filling.take (segCapacity w.seq)), filling := w.filling.drop (segCapacity w.seq) }) hws he nofun hbusy reason truncated
  · rw [show w.handOver = w from if_neg fun hc => h hc.2.2] at hws
    exact closeMessageAs_hands hws he hcut hhanded hfill hbusy reason truncated

variable {l : Line} {reason : EndReason} {length : Nat}

theorem recordingTold_frame (final : Nat) : (recordingTold l reason final s).store = s.store ∧
    (recordingTold l reason final s).link = s.link.push (.voice l .ended reason final) ∧
    (recordingTold l reason final s).requests = s.requests ∧
    ∀ id, findEntry (recordingTold l reason final s) id = findEntry s id :=
  ⟨put_store .., put_link .., put_requests .., fun _ => findEntry_put ..⟩

/-- What the store makes of a recording's end changes neither memory nor port, and nothing outside store, link and requests. -/
theorem closeRecording_frame (hid : (s.line l).voice.message = some w.id) (hws : s.store.writers = [w]) (hbusy : s.store.grant ≠ none) :
    StoreAlone (recordingTold l reason (min length w.accepted) s) (closeRecording l reason length s) ∧
    PortKept (recordingTold l reason (min length w.accepted) s) (closeRecording l reason length s) := by
  have haccepted : acceptedOf s w.id = w.accepted := by rw [acceptedOf, findWriter_single hws]; rfl
  have hbusy' : (recordingTold l reason (min length w.accepted) s).store.grant ≠ none := by rw [(recordingTold_frame _).1]; exact hbusy
  rw [closeRecording_eq hid, haccepted]
  exact ⟨.ite (.closeWithErase _ (.ite (.cutTo _ _ (.refl _)) (.refl _))) (.closeAt _ _ _ _ _ (.refl _)),
    .ite (.closeWithErase hbusy' _ (.cutFirst _ _ (.refl _))) (.closeMessageAs hbusy' _ _ _ _ (.cutFirst _ _ (.refl _)))⟩

/-- What is the same of every end of a recording. -/
structure RecordingEnded (l : Line) (reason : EndReason) (final : Nat) (s u t : State) : Prop where
  voice : (t.line l).voice = { (s.line l).voice with sub := some .waiting, begun := false, position := final }
  iface : (t.line l).iface = { (s.line l).iface with expecting := false, lowRun := 0, highRun := 0 }
  memory : t.store.memory = s.store.memory
  rest : t = { s.setLine l { s.line l with voice := (t.line l).voice, iface := (t.line l).iface } with
    link := t.link, store := t.store, requests := t.requests }
  store : t.store = u.store
  link : t.link = u.link
  requests : t.requests = u.requests ++ recordingAsks l (s.line l).voice.kind reason

theorem endRecording_ended (hid : (s.line l).voice.message = some w.id) (hws : s.store.writers = [w]) (hbusy : s.store.grant ≠ none)
    (hst : s.st l = .voice) (hexp : (s.line l).iface.expecting = true) (hlow : (s.line l).iface.current.get .levelLow = false) :
    RecordingEnded l reason (min length w.accepted) s (closeRecording l reason length s) (endRecording l reason length s) := by
  obtain ⟨halone, hport⟩ := closeRecording_frame (l := l) (reason := reason) (length := length) hid hws hbusy
  have hmemory : (closeRecording l reason length s).store.memory = s.store.memory :=
    hport.1.trans (by rw [(recordingTold_frame _).1])
  rw [endRecording_of_closed hst hexp hlow rfl halone]
  generalize closeRecording l reason length s = u at halone hmemory
  obtain ⟨store, link, requests, rfl⟩ := halone
  cases l <;> exact ⟨rfl, rfl, hmemory, rfl, rfl, rfl, rfl⟩

theorem cutFirst_of_le {id len : Nat} (h : acceptedOf s id ≤ len) : cutFirst id len s = s := if_neg (Nat.not_lt.mpr h)

theorem acceptedOf_told (hws : s.store.writers = [w]) (final : Nat) : acceptedOf (recordingTold l reason final s) w.id = w.accepted := by
  rw [acceptedOf, findWriter_single (by rw [(recordingTold_frame final).1]; exact hws)]; rfl

/-- A recording closed with all its bytes asks for nothing. -/
theorem closeRecording_uncut_requests (hid : (s.line l).voice.message = some w.id) (hws : s.store.writers = [w]) (hbusy : s.store.grant ≠ none) :
    (closeRecording l reason w.accepted s).requests = s.requests := by
  have haccepted : acceptedOf s w.id = w.accepted := by rw [acceptedOf, findWriter_single hws]; rfl
  have huncut := cutFirst_of_le (s := recordingTold l reason w.accepted s) (id := w.id) (len := w.accepted) (acceptedOf_told hws _).le
  have hkick {t : State} (ht : PortKept (recordingTold l reason w.accepted s) t) : storeKick t = t :=
    storeKick_of_grant (by rw [ht.2, (recordingTold_frame _).1]; exact hbusy)
  have htold : (recordingTold l reason w.accepted s).requests = s.requests := (recordingTold_frame _).2.2.1
  rw [closeRecording_eq hid, haccepted]
  dsimp only
  rw [min_self, closeAt, huncut, closeWithErase, hkick (.closeErase _ (.refl _)), closeMessageAs,
    hkick (.progressClose _ (.modEntry _ _ (.leaveWaiting _ (.modWriter _ _ (.refl _)))))]
  split
  · rw [closeErase_requests]; exact htold
  · rw [progressClose_requests]; exact htold

theorem setSub_requests (sub : Option VoiceSub) : (setSub l sub s).requests = s.requests := by
  rw [← put_self s l, setSub_put, put_requests, put_requests]

/-- A recording that the host stops asks for nothing. -/
theorem endRecording_host_requests (hid : (s.line l).voice.message = some w.id) (hws : s.store.writers = [w]) (hbusy : s.store.grant ≠ none) :
    (endRecording l (.byRelease .host) w.accepted s).requests = s.requests := by
  rw [endRecording, afterRecording_eq]
  change (setSub _ _ _).requests ++ recordingAsks _ _ _ = _
  rw [setSub_requests, closeRecording_uncut_requests hid hws hbusy, recordingAsks, if_neg (by simp), if_neg (by simp), if_neg (by simp),
    List.append_nil]

end

/-! ### The obligation -/

/-- The bytes of a block of 80 samples. -/
theorem blockBytes_length {coding : Coding} (hc : coding = .adc4 ∨ coding = .adc2) (c : Coder) {xs : List Int} (hxs : xs.length = 80) :
    (packCodes coding (c.encode coding xs).1).length = if coding = .adc2 then 20 else 40 := by
  have hpacked := (decoderFollowsTheCoder coding c xs (by rcases hc with rfl | rfl <;> nofun)
    (by rw [hxs]; split <;> rfl)).2.1
  rw [hpacked, hxs]
  split <;> rfl

/-- RECORD of a host that the store takes: the message created, the beep or the recording begun (R189). -/
theorem opRecord_begins {line mb coding beep : Byte} {limit : Word16} {l : Line} {box : Option Nat} {c : Coding} {on : Bool} {s : State}
    {used : Coding} {seconds : Nat} (hl : lineOf line = some l) (hmb : mailboxOf mb = some box) (hc : Coding.ofCode coding.toNat = some c)
    (hon : onOff beep.toNat = some on) (hst : s.st l = .voice) (hsub : (s.line l).voice.sub = some .waiting) (hready : s.store.st = .ready)
    (hbox : box.map (mailboxEnabled s) ≠ some false) (hroom : createRefused s = false) (hused : used = recordCoding s box c)
    (hseconds : seconds = if limit.toNat = 0 then (mailboxSettings s box).2 else clamp 5 600 limit.toNat)
    (ht : (s.line l).iface.tone = none) (hexp : (s.line l).iface.expecting = false) (hblock : (s.line l).iface.blockDue ≠ s.now + 10) :
    opRecord line mb coding limit beep s = (s.created (newEntry s (.line l) .voice box used) (.line l)).put l { s.line l with
        voice := { hostRecording s box used seconds with sub := some (if on then .beep else .recording) }
        iface := if on then { (s.line l).iface with
            tone := some ⟨.beep (s.line l).profile.beepFrequency (s.line l).profile.beepDuration, true, s.now + (s.line l).profile.beepDuration⟩ }
          else { (s.line l).iface with expecting := true, lowRun := 0, highRun := 0 } }
      (s.link.push (.done 0x42#8 .ok (numBytes 2 (freshId s)))) := by
  rw [opRecord_eq hl hmb hc hon, if_neg (not_not_intro hst), if_neg (not_not_intro hsub), if_neg (by simp [storeReady, hready]), if_neg hbox,
    if_neg (by simp [hroom])]
  dsimp only
  rw [← hused, ← hseconds, createRecording_host]
  cases on with
  | true =>
    rw [if_pos rfl, enterBeep_put (by exact ht) (by simp [hexp, LineState.expects, show (s.line l).call.st = .voice from hst])]
    rfl
  | false =>
    rw [if_neg Bool.false_ne_true, enterRecording_put ⟨by exact hst, by exact hexp⟩ (by exact hblock)]
    rfl

theorem truncatedFor_eq (reason : EndReason) : truncatedFor reason =
    decide (reason = .limit ∨ reason = .byRelease .storeFull ∨ reason = .byRelease .reset) := by
  cases reason with
  | byRelease r => cases r <;> rfl
  | _ => rfl

/-- Settles O59. -/
theorem recordingBeginsWithItsMessage : Obligations.RecordingBeginsWithItsMessage := by
  refine ⟨?_, ?_⟩
  · intro l line mb coding beep limit box c on s hs htone hexp x p call used seconds beeping
    have hrecord {t : State} (h : opRecord line mb coding limit beep s = t) (ht : t.requests = []) : call = .next t :=
      exec_of_op (c := .record line mb coding limit beep) h ht
    refine ⟨fun h => hrecord (opRecord_badParam ?_) (by simp [hs]), fun hline hmb hc hon => ?_, fun due hsub hdue hst hr hbox hdir hready hroom => ?_⟩
    · rcases h with h | h | h | h
      · exact .inl h
      · exact .inr (.inl (mailboxOf_eq_none h))
      · exact .inr (.inr (.inl (Coding.ofCode_of_lt h)))
      · exact .inr (.inr (.inr (onOff_of_lt h)))
    · have hl : lineOf line = some l := by rw [hline, lineOf_lineByte]
      have heq := opRecord_eq (limit := limit) (s := s) hl hmb hc hon
      refine ⟨fun hst => hrecord (heq.trans (if_pos hst)) (by simp [hs]), fun hst hsub => ?_, fun hst hsub => ⟨fun hready => ?_, fun hready =>
        ⟨fun i hi hoff => ?_, fun hall => ⟨fun hroom => ?_, fun hroom hblock => ?_⟩⟩⟩⟩
      · exact hrecord (heq.trans ((if_neg (not_not_intro hst)).trans (if_pos hsub))) (by simp [hs])
      · rw [if_neg (not_not_intro hst), if_neg (not_not_intro hsub)] at heq
        exact hrecord (heq.trans (if_pos (by simpa [storeReady] using hready))) (by simp [hs])
      · rw [if_neg (not_not_intro hst), if_neg (not_not_intro hsub), if_neg (by simp [storeReady, hready])] at heq
        exact hrecord (heq.trans (if_pos (by rw [hi, Option.map_some, hoff]))) (by simp [hs])
      · have hbox : box.map (mailboxEnabled s) ≠ some false := by
          cases box with
          | none => nofun
          | some i => rw [Option.map_some, hall i rfl]; nofun
        rw [if_neg (not_not_intro hst), if_neg (not_not_intro hsub), if_neg (by simp [storeReady, hready]), if_neg hbox] at heq
        exact hrecord (heq.trans (if_pos hroom)) (by simp [hs])
      · have hbox : box.map (mailboxEnabled s) ≠ some false := by
          cases box with
          | none => nofun
          | some i => rw [Option.map_some, hall i rfl]; nofun
        have hseconds : seconds = if limit.toNat = 0 then (mailboxSettings s box).2 else clamp 5 600 limit.toNat := by
          simp only [seconds, clamp]
          congr 1
          simp [BitVec.toNat_eq]
        have hop := opRecord_begins (limit := limit) hl hmb hc hon hst hsub hready hbox hroom rfl hseconds htone hexp hblock
        refine ⟨_, hrecord hop (by rw [put_requests, created_requests]; exact hs), ?_⟩
        have hlimit : secondBytes used = if used = .adc2 then 2000 else 4000 := by cases used <;> rfl
        have hvoice (sub : VoiceSub) : { hostRecording s box used seconds with sub := some sub } = { initialVoice with
            sub := some sub, kind := some .host, message := some (freshId s), mailbox := box, coding := used
            limit := seconds * (if used = .adc2 then 2000 else 4000) } := by rw [← hlimit]; rfl
        rw [put_line, put_store, put_link, done_eq]
        refine ⟨rfl, hvoice _, ?_, ?_, rfl, by cases l <;> rfl⟩
        · rintro rfl; cases l <;> exact ⟨rfl, rfl⟩
        · rintro rfl; exact ⟨rfl, rfl⟩
    · obtain ⟨e, he, hrun⟩ := exec_greetingEnd_records hs htone hexp hsub hdue hst hr hbox hready hroom
      refine ⟨_, hrun, ?_⟩
      subst he
      cases l <;> exact ⟨rfl, rfl, rfl, rfl, rfl, ⟨rfl, rfl⟩, rfl, rfl⟩
  · intro l start id gained w e s x v hsub hmessage hst hexp hws hwid hcut hclosing he heid hbusy hcoding block one
    subst hwid
    have hv : (s.line l).voice = v := rfl
    have hmessage' : (s.line l).voice.message = some w.id := hmessage
    have haccepted : acceptedOf s w.id = w.accepted := by rw [acceptedOf, findWriter_single hws]; rfl
    have hone : secondBytes v.coding = one := by simp only [one]; rcases hcoding with h | h <;> rw [h] <;> rfl
    have hhanded : handedOf s l = w.accepted := by
      rw [handedOf, hmessage']; exact haccepted
    have hvoiceBlock : block = if v.begun then recordBlock l start gained s else beginRecording l s := by
      simp only [block, voiceBlock, show (s.line l).voice.sub = some .recording from hsub]
      rfl
    refine ⟨fun hbegun => ?_, fun hbegun hgained => ?_, fun hs => ?_, fun b o time hmem hpair hb ht => ?_, fun time h => ?_,
      fun reason length hgranted hnone hlow => ?_⟩
    · have hput := beginRecording_put (s := s) (l := l) (x := x) (k := s.link)
      rw [put_self] at hput
      rw [hvoiceBlock, hbegun, if_neg Bool.false_ne_true, hput, queueReport_eq, setLine_eq_put]
      rfl
    · intro xs r bytes n silent run from_ stored
      have hlength : bytes.length = if v.coding = .adc2 then 20 else 40 := blockBytes_length hcoding _ (by simp [xs, hgained])
      refine ⟨hlength, fun hfits => ?_⟩
      have hblock := recordBlock_single (start := start) (gained := gained) (v := v) (v' := { v with
          p := r.2.p, k := r.2.k, offsets := (start, w.accepted) :: v.offsets, position := n, silenceRun := run, silenceStart := from_ })
        (stored := stored) hv hmessage hws hbusy rfl rfl hfits ?_ rfl
      · rw [hbegun, if_pos rfl] at hvoiceBlock
        rw [hvoiceBlock, hblock]
        refine ⟨fun h1 h2 => ?_, fun h1 => if_pos h1, fun h1 h2 => ?_⟩
        · exact (if_neg (Nat.not_le.mpr h1)).trans (if_neg (Nat.not_le.mpr h2))
        · exact (if_neg (Nat.not_le.mpr h1)).trans (if_pos h2)
      · simp only [Voice.recorded, decide_eq_true_eq]
        rfl
    · have hstop : opStop (lineByte l) s = endRecording l (.byRelease .host) w.accepted (done 0x49#8 .ok [] s) := by
        have hhanded' : handedOf (done 0x49#8 .ok [] s) l = w.accepted := by rw [← hhanded, done_eq]; cases l <;> rfl
        simp only [opStop, lineOf_lineByte, show (s.line l).voice.sub = some .recording from hsub, hhanded']
      have hline : (done 0x49#8 .ok [] s).line l = s.line l := by rw [done_eq]; cases l <;> rfl
      refine exec_of_op (c := .stop (lineByte l)) hstop ((endRecording_host_requests (by rw [hline]; exact hmessage) ?_ ?_).trans ?_)
      · rw [done_eq]; exact hws
      · rw [done_eq]; exact hbusy
      · simp [hs]
    · have hrun : voiceFarEnd l time s = endRecording l (.byRelease .farEnd) (offsetAt v.offsets (handedOf s l) time) s := by
        simp only [voiceFarEnd, show (s.line l).voice.sub = some .recording from hsub]
        rfl
      rw [hrun, offsetAt_of_mem hb ht hmem hpair]
    · have hrun : voiceFarEnd l time s = endRecording l (.byRelease .farEnd) (offsetAt v.offsets (handedOf s l) time) s := by
        simp only [voiceFarEnd, show (s.line l).voice.sub = some .recording from hsub]
        rfl
      rw [hrun, offsetAt_before h]
    · intro t final told answered truncated asks closing
      have hended := endRecording_ended (l := l) (reason := reason) (length := length) hmessage' hws hbusy hst hexp hlow
      obtain ⟨hstore, hlink, hrequests, hentry⟩ := recordingTold_frame (s := s) (l := l) (reason := reason) final
      have hclose := closeRecording_eq (l := l) hmessage' reason length
      have haccepted' := acceptedOf_told (l := l) (reason := reason) hws final
      have htruncated : truncatedFor reason = truncated := truncatedFor_eq reason
      have huncut (hall : w.accepted ≤ length) : cutFirst w.id final (recordingTold l reason final s) = recordingTold l reason final s :=
        cutFirst_of_le (by rw [haccepted']; exact le_min hall le_rfl)
      rw [haccepted] at hclose
      dsimp only at hclose
      have htold : told.link = (recordingTold l reason final s).link := by rw [hlink]; simp only [told, queueReport_eq]
      have hfindWriter (id : Nat) : findWriter t id = findWriter (closeRecording l reason length s) id := by
        rw [findWriter, findWriter, hended.store]
      have hfindEntry (id : Nat) : findEntry t id = findEntry (closeRecording l reason length s) id := by
        rw [findEntry, findEntry, hended.store]
      have hws' : (recordingTold l reason final s).store.writers = [w] := by rw [hstore]; exact hws
      have he' : findEntry (recordingTold l reason final s) w.id = some e := (hentry _).trans he
      have hbusy' : (recordingTold l reason final s).store.grant ≠ none := by rw [hstore]; exact hbusy
      refine ⟨hended.voice, hended.iface, hended.memory, hended.rest, fun hshort hmaint hgrant => ?_, fun hlong hfill hall => ?_,
        fun hlong hseg hin hbase hlt hcutlen hsegs => ?_⟩
      · intro erased kept
        rw [if_pos (by rw [hv, hone]; exact hshort)] at hclose
        have hmaint' : (recordingTold l reason final s).store.maint = [] := by rw [hstore]; exact hmaint
        have hgrant' (g : Nat) : (recordingTold l reason final s).store.grant ≠ some (.maint (.freeHeader g (.cut w.id))) := by
          rw [hstore]; exact hgrant g
        have herased {n : Nat} {rs : List Request} (hn : n = if w.accepted ≤ length then e.length else final)
            (h : ErasedMessage w.id n e (recordingTold l reason final s).link rs (closeRecording l reason length s)) :
            erased ∧ t.requests = rs ++ asks := by
          refine ⟨⟨(hfindWriter _).trans h.writer, ?_, ?_, ?_⟩, ?_⟩
          · rw [hended.link, h.link, queueReport_eq, ← htold]
          · rw [hfindEntry, h.entry, hn]
          · rw [hended.store, h.maint]
          · rw [hended.requests, h.requests]; rfl
        refine ⟨fun hchain hall => ?_, fun hchain hcutlen hseg hin hbase hle hkept => ?_, fun hchain hcutlen hcond => ?_⟩
        · rw [huncut hall] at hclose
          have h := closeWithErase_single (length := e.length) hws' hgranted he' hchain (by rw [hmaint']; nofun) hgrant' hbusy'
          rw [← hclose, hrequests] at h
          exact herased (by rw [if_pos hall]) h
        · rw [cutFirst, haccepted', if_pos (by omega)] at hclose
          have h := (closeWithErase_cut (len := final) hws' he' hgranted hcut hclosing hmaint' hgrant' hbusy' hchain).1 hkept hle
          rw [← hclose, hrequests] at h
          exact herased (by rw [if_neg (by omega)]) h
        · rw [cutFirst, haccepted', if_pos (by omega)] at hclose
          have h := (closeWithErase_cut (len := final) hws' he' hgranted hcut hclosing hmaint' hgrant' hbusy' hchain).2 hcond
          rw [← hclose, hrequests] at h
          exact herased (by rw [if_neg (by omega)]) h
      · rw [if_neg (by rw [hv, hone]; exact Nat.not_lt.mpr hlong), closeAt, huncut hall, htruncated] at hclose
        obtain ⟨h1, h2, h3, h4⟩ := closeMessageAs_hands hws' he' hcut hnone hfill hbusy' reason truncated
        rw [← hclose] at h1 h2 h3 h4
        refine ⟨(hfindEntry _).trans h2, ⟨(hfindWriter _).trans h1, ?_⟩, ?_⟩
        · rw [hended.link, h3, htold]
        · rw [hended.requests, h4, hrequests]; rfl
      · have hkept : keptSegs e final = e.chain.length := by
          rw [keptSegs, List.filter_eq_self.mpr fun i hi => decide_eq_true (hsegs i (List.mem_range.mp hi)), List.length_range]
        have hcutrun := cutTo_completes (len := final) hws' he' hgranted hcut hclosing hkept hlt.le
        rw [if_neg (by rw [hv, hone]; exact Nat.not_lt.mpr hlong), closeAt, cutFirst, haccepted', if_pos (by omega), htruncated,
          hcutrun] at hclose
        have hback : w.cutBack e final = { w with filling := w.filling.take (final - w.base) } := by
          rw [WStream.cutBack, if_pos hlt.le]
          simp only [hnone, hseg, hin, ite_self, Nat.zero_min, Option.getD_none, List.nil_append]
        rw [hback] at hclose
        have hfill : w.filling.take (final - w.base) ≠ [] := by
          have hlen : w.accepted = w.base + w.filling.length := by
            simp [WStream.accepted, WStream.buffered, WStream.toReadBack, hnone, hcut]
          rw [ne_eq, List.take_eq_nil_iff, List.eq_nil_iff_length_eq_zero]
          omega
        have hfind := findEntry_cutGoing (len := final) he'
        obtain ⟨h1, h2, h3, h4⟩ := closeMessageAs_handOver (w := { w with
            filling := w.filling.take (final - w.base), region := e.chain.getLast?.map regionOfSeg }) (e := { e with length := final })
          (s := { recordingTold l reason final s with
            store := { (recordingTold l reason final s).store with
              dir := updateWhere (fun x => decide (x.id = w.id)) (fun x => { x with length := final }) (recordingTold l reason final s).store.dir
              writers := [({ w with
                filling := w.filling.take (final - w.base), region := e.chain.getLast?.map regionOfSeg } : WStream).handOver]
              waiting := (recordingTold l reason final s).store.waiting.filter (fun x => decide (x ≠ w.id)) }
            requests := (recordingTold l reason final s).requests ++ if w.active then [.cutDone w.owner w.id] else [] })
          rfl hfind hcut hnone hfill hbusy' reason truncated
        dsimp only at h1 h2 h3 h4 hclose
        rw [← hclose] at h1 h2 h3 h4
        refine ⟨(hfindEntry _).trans h2, ⟨(hfindWriter _).trans h1, ?_⟩, ?_⟩
        · rw [hended.link, h3, htold]
        · rw [hended.requests, h4, hrequests]; rfl

end Sys2Proof.Machine
end

section
/-! PROOFS. The completions of the memory port and the scan (R137, R140, R141, R146, R147, R154). -/

namespace Sys2Proof.Machine

/-! ### The port with nothing asked of it -/

section
variable {s : State}

/-- Without a request of a stream and without maintenance the port stays as it is. -/
theorem storeKick_of_no_requests (hw : ∀ o, writeReq s o = none) (hr : ∀ o, readReq s o = none) (hm : s.store.maint = []) :
    storeKick s = s := by
  have hline (l : Line) : lineReq s l = none := by rw [lineReq, hw, hr]; rfl
  have hlines : lineClass s = none := by rw [lineClass, hline, hline]; rfl
  have hhost : hostClass s = none := by rw [hostClass, hw, hr]; exact ite_self none
  simp only [storeKick, storeKickFuel, hlines, hhost, hm]
  exact ite_self s

/-- A writing stream that is alone, has nothing handed and reads nothing back asks for nothing. -/
theorem writeReq_of_rest {w : WStream} (hws : s.store.writers = [w]) (hh : w.handed = none) (hc : w.cut = .none) (o : Owner) :
    writeReq s o = none := by
  have hrest : (w.wantsReadBack || w.wantsWrite s.store.waiting) = false := by
    simp [WStream.wantsReadBack, WStream.toReadBack, WStream.wantsWrite, hh, hc]
  rw [writeReq, hws, List.find?_cons_of_neg (by simp [hrest])]
  rfl

end

/-! ### Lengths of what a segment holds (R137) -/

theorem numBytes_length (width n : Nat) : (numBytes width n).length = width := by simp [numBytes]

theorem oneByte_length (n : Nat) : (oneByte n).length = 1 := numBytes_length 1 n

theorem optByte_length (o : Option Nat) : (optByte o).length = 1 := by
  cases o with
  | none => rfl
  | some n => exact oneByte_length n

theorem timeBytes_length (o : Option DayClock) : (timeBytes o).length = 5 := by
  cases o with
  | none => rfl
  | some t => simp [timeBytes, oneByte_length]

theorem padTo_length (n : Nat) (l : List Byte) : (padTo n l).length = n := by simp [padTo]

theorem copyCaller_length (o : Option CallerRecord) : (copyCaller o).length = 32 := by
  cases o with
  | none => rfl
  | some r => simp [copyCaller, oneByte_length, padTo_length]

theorem usedHeader_length (id seq used : Nat) : (usedHeader id seq used).length = 8 := by simp [usedHeader, numBytes_length]

theorem copyBytes_length (e : Entry) (mark : Bool) : (copyBytes e mark).length = 56 := by
  simp [copyBytes, withCheck, wordBytes, numBytes_length, oneByte_length, optByte_length, timeBytes_length, copyCaller_length]

/-- Bytes that lie within a segment are written within it alone. -/
theorem read_writeBytes_segment {mem : List Host.Cell} (hwf : Memory.wf mem = true) {seg offset : Nat} {bs : List Byte}
    (hlen : offset + bs.length ≤ 1024) {x : Nat} (hx : x < seg * 1024 ∨ seg * 1024 + 1024 ≤ x) :
    Memory.read (Memory.writeBytes mem (segAddress seg offset) bs) x = Memory.read mem x := by
  have ha : segAddress seg offset = seg * 1024 + offset := rfl
  exact Memory.read_writeBytes_outside _ _ hwf _ _ (by omega)

/-- A segment write of a segment's bytes writes within the segment alone. -/
theorem read_writeSegment_outside {mem : List Host.Cell} (hwf : Memory.wf mem = true) (e : Entry) {seg seq : Nat} {bs : List Byte}
    (hlen : bs.length = segCapacity seq) {x : Nat} (hx : x < seg * 1024 ∨ seg * 1024 + 1024 ≤ x) :
    Memory.read (writeSegment mem e seg seq bs) x = Memory.read mem x := by
  have hu := usedHeader_length e.id seq bs.length
  have hc := copyBytes_length e false
  have hheader := read_writeBytes_segment hwf (offset := 0) (bs := usedHeader e.id seq bs.length) (by omega) hx
  have hwf1 := Memory.wf_writeBytes (usedHeader e.id seq bs.length) mem hwf (segAddress seg 0)
  have hcopy := read_writeBytes_segment hwf1 (offset := 8) (bs := copyBytes e false) (by omega) hx
  by_cases h0 : seq = 0
  · rw [segCapacity, if_pos h0] at hlen
    rw [writeSegment, if_pos h0, segPayloadStart, if_pos h0, read_writeBytes_segment (Memory.wf_writeBytes _ _ hwf1 _) (by omega) hx,
      hcopy, hheader]
  · rw [segCapacity, if_neg h0] at hlen
    rw [writeSegment, if_neg h0, segPayloadStart, if_neg h0, read_writeBytes_segment hwf1 (by omega) hx, hheader]

/-! ### Segment writes and reads (R146) -/

section
variable {s : State} {seg id : Nat} {e : Entry} {w : WStream} {bs : List Byte}

/-- The stream behind the write of a whole segment. -/
theorem afterWrite_full (hh : w.handed = some bs) (hf : w.filling = []) (hlen : bs.length = segCapacity w.seq) : w.afterWrite = { w with
    handed := none, granted := false, base := w.base + bs.length, seq := w.seq + 1, seg := none, inStore := 0 } := by
  have hn : (w.handed.map List.length).getD 0 = bs.length := by rw [hh]; rfl
  have hfull : decide (segCapacity w.seq ≤ bs.length) = true := decide_eq_true (Nat.le_of_eq hlen.symm)
  have hcap : ¬segCapacity (w.seq + 1) ≤ 0 := by rw [segCapacity]; split <;> omega
  simp only [WStream.afterWrite, hn, hfull, if_true]
  rw [WStream.handOver, if_neg]
  rintro ⟨-, -, h⟩
  rw [hf] at h
  exact hcap h

theorem opSegmentWriteComplete_full (hg : s.store.grant = some (.write w.id seg)) (he : findEntry s w.id = some e)
    (hws : s.store.writers = [w]) (ho : w.owner = .host) (hh : w.handed = some bs) (hf : w.filling = []) (hc : w.cut = .none)
    (hcl : w.closing = none) (hfail : w.failed = false) (hlen : bs.length = segCapacity w.seq) (hr : ∀ o, readerOf s o = none)
    (hm : s.store.maint = []) (ht : s.link.target ≠ .store) : opSegmentWriteComplete s = { s with store := { s.store with
      grant := none, memory := writeSegment s.store.memory e seg w.seq bs
      writers := [{ w with
        handed := none, granted := false, base := w.base + bs.length, seq := w.seq + 1, seg := none, inStore := 0 }] } } := by
  have hfind : findWriter (freePort s) w.id = some w := findWriter_single hws
  have hwrite := modWriter_single (s := { s with store := { s.store with
    grant := none, memory := writeSegment s.store.memory e seg w.seq bs } }) WStream.afterWrite hws
  rw [afterWrite_full hh hf hlen] at hwrite
  have hafter {t : State} {x : WStream} (hx : t.store.writers = [x]) (hid : x.id = w.id) (hxf : x.failed = false) (hxc : x.cut = .none)
      (hxcl : x.closing = none) : afterWriteActions w.id t = t := by
    have hxw : findWriter t w.id = some x := by rw [← hid]; exact findWriter_single hx
    rw [afterWriteActions, hxw]
    simp only [hxf, hxc]
    exact (if_neg (by simp)).trans (progressClose_open hxw hxcl)
  unfold opSegmentWriteComplete
  rw [hg]
  dsimp only
  rw [hfind, show findEntry (freePort s) w.id = some e from he]
  dsimp only
  rw [hh, Option.getD_some, if_pos ho]
  erw [hwrite]
  rw [hafter (x := { w with
    handed := none, granted := false, base := w.base + bs.length, seq := w.seq + 1, seg := none, inStore := 0 }) (by rfl) (by rfl) hfail hc
    hcl, lholdLeft_other (by exact ht)]
  refine storeKick_of_no_requests (writeReq_of_rest rfl rfl (by exact hc)) (fun o => readReq_of_none ?_) (by exact hm)
  rw [← hr o]; cases o with
  | host => rfl
  | line l => cases l <;> rfl

/-- A segment read for the host stream that stands alone at the port. -/
theorem opSegmentReadComplete_host {r : RStream} {tag seq : Nat} (hg : s.store.grant = some (.read .host tag id seg seq))
    (hr : s.store.readHost = some r) (htag : r.tag = tag) (hb : r.buffers = []) (hw : s.store.writers = []) (ha : s.store.readA = none)
    (hbr : s.store.readB = none) (hm : s.store.maint = [])
    (hbytes : max (segStart seq) r.position < min (segStart seq + segCapacity seq) r.length)
    (hbusy : s.link.sending ≠ .idle ∨ s.link.hhold = true) : opSegmentReadComplete s = { s with store := { s.store with
      grant := none
      readHost := some { r with
        buffers := [segmentBytes s.store.memory seg seq (max (segStart seq) r.position) (min (segStart seq + segCapacity seq) r.length)]
        nextSeq := seq + 1, ready := true } } } := by
  have hfilled : readerFilled s.store.memory seg seq r = { r with
      buffers := [segmentBytes s.store.memory seg seq (max (segStart seq) r.position) (min (segStart seq + segCapacity seq) r.length)]
      nextSeq := seq + 1, ready := true } := by
    have hne : segmentBytes s.store.memory seg seq (max (segStart seq) r.position) (min (segStart seq + segCapacity seq) r.length) ≠ [] := by
      rw [← List.length_pos_iff, segmentBytes, Memory.readBytes, List.length_map, List.length_range]; omega
    simp only [readerFilled, if_neg hne, hb, List.nil_append]
  unfold opSegmentReadComplete
  rw [hg]
  dsimp only
  rw [show readerOf (freePort s) .host = some r from hr]
  dsimp only
  rw [if_pos htag, show (freePort s).store.memory = s.store.memory from rfl, hfilled]
  dsimp only [announceRead]
  rw [arbiterKick_busy (by exact hbusy)]
  refine storeKick_of_no_requests (writeReq_of_no_writers (by exact hw)) (fun o => ?_) (by exact hm)
  cases o with
  | host => simp [readReq, readerOf, setReader, modStore, RStream.wants, bufferLimit]
  | line l => cases l with
    | A => exact readReq_of_none (by exact ha)
    | B => exact readReq_of_none (by exact hbr)

end

end Sys2Proof.Machine
end

section
/-! PROOFS. The maintenance writes of the memory port and the scan (R140, R141, R143, R147, R154, R168). -/

namespace Sys2Proof.Machine

/-! ### What stands at a quiet port -/

section
variable {s : State}

theorem portless_of_quiet (h : portQuiet s) : Portless s := ⟨h.1, h.2.1, h.2.2.1, h.2.2.2.1⟩

/-- A segment joins the pool that no writer waits for. -/
theorem joinPool_of_none_waiting (seg : Nat) (h : s.store.waiting = []) :
    joinPool seg s = { s with store := { s.store with free := insertSeg seg s.store.free } } := by
  simp only [joinPool, modStore, h]

theorem modWriter_of_none (id : Nat) (f : WStream → WStream) (h : s.store.writers = []) : modWriter id f s = s := by
  simp only [modWriter, modStore, h]
  rw [updateWhere, List.map_nil, ← h]

theorem closingOf_of_no_writers (id : Nat) (h : s.store.writers = []) : closingOf s id = none := by
  rw [closingOf, findWriter, h]; rfl

/-- A scan that is not judged does not end. -/
theorem scanEnd_of_not_judged (h : (s.store.scan.map (·.judged)).getD false = false) : scanEnd s = s :=
  if_neg fun hc => by simp [h] at hc

/-- A scan that still asks for maintenance does not end. -/
theorem scanEnd_of_maint (h : s.store.maint ≠ []) : scanEnd s = s := if_neg fun hc => h hc.2.2.1

/-- A judged scan ends with its last write. -/
theorem scanEnd_of_judged {sc : Scan} (hst : s.store.st = .scanning) (hsc : s.store.scan = some sc) (hj : sc.judged = true)
    (hm : s.store.maint = []) (hg : s.store.grant = none) : scanEnd s = enterReady s :=
  if_pos ⟨hst, by rw [hsc]; exact hj, hm, hg⟩

/-- The store enters READY with automatic call-out off on both lines. -/
theorem finish_enterReady_of_off (hs : s.requests = []) (hoff : ∀ l, (s.line l).profile.autoCallout = false) :
    finish (enterReady s) =
      queueReport (.store .ready s.store.dir.length) { s with store := { s.store with st := .ready, scan := none } } := by
  refine finish_askDispatch (by simp [modStore, hs]) fun l rs => dispatchLine_of_not (canTakeJob_of_off ?_)
  rw [queueReport_eq]
  exact (by cases l <;> rfl : _ = (s.line l).profile.autoCallout).trans (hoff l)

/-- What enters READY at a quiet port asks nothing of it. -/
theorem storeKick_enterReady (h : Portless s) (hm : s.store.maint = []) : storeKick (enterReady s) = enterReady s := by
  obtain ⟨hw, ha, hb, hh⟩ := h
  exact storeKick_of_portless (by simp [Portless, enterReady, modStore, post, hw, ha, hb, hh]) (by simp [enterReady, modStore, post, hm])

end

/-! ### FREE headers, copy and header rewrites at a quiet port (R143, R147, R154, R168) -/

section
variable {s : State} {seg id : Nat} {e : Entry}

/-- The state as a FREE header is in the memory. -/
def headerFreed (seg : Nat) (s : State) : State := { s with store := { s.store with
  grant := none, memory := Memory.writeBytes s.store.memory (segAddress seg 0) freeHeader } }

theorem opFreeHeaderWriteComplete_eq {why : FreeFor} (hg : s.store.grant = some (.maint (.freeHeader seg why)))
    (hwhy : ∀ id, why ≠ .cut id) : opFreeHeaderWriteComplete s = storeKick (freeDone seg why (headerFreed seg s)) := by
  rw [opFreeHeaderWriteComplete, hg]
  cases why with
  | cut id => exact absurd rfl (hwhy id)
  | erase | scan | format => rfl

/-- The state as a segment has left the chain of its message for the pool. -/
def segmentFreed (id seg : Nat) (s : State) : State := { s with store := { s.store with
  free := insertSeg seg s.store.free
  dir := updateWhere (fun x => decide (x.id = id)) (fun x => { x with chain := x.chain.filter fun g => decide (g ≠ seg) })
    s.store.dir } }

theorem freedFromChain_eq (he : findEntry s id = some e) (hmem : seg ∈ e.chain) (hwait : s.store.waiting = []) :
    freedFromChain id seg s = segmentFreed id seg s := by
  rw [freedFromChain, he]
  exact (if_pos hmem).trans (joinPool_of_none_waiting seg (by exact hwait))

theorem findEntry_segmentFreed (he : findEntry s id = some e) :
    findEntry (segmentFreed id seg s) id = some { e with chain := e.chain.filter fun g => decide (g ≠ seg) } := by
  have hfind := findEntry_modEntry id (f := fun x => { x with chain := x.chain.filter fun g => decide (g ≠ seg) }) (fun _ => rfl) s
  rw [he, Option.map_some] at hfind
  exact hfind

theorem judgeWaiting_of_none (h : s.store.waiting = []) : judgeWaiting s = s := by rw [judgeWaiting, h]; rfl

theorem filter_updateWhere_of_id (id : Nat) {f : Entry → Entry} (hf : ∀ x, (f x).id = x.id) (dir : List Entry) :
    (updateWhere (fun x => decide (x.id = id)) f dir).filter (fun x => decide (x.id ≠ id)) = dir.filter fun x => decide (x.id ≠ id) := by
  induction dir with
  | nil => rfl
  | cons x rest ih =>
    rw [updateWhere, List.map_cons]
    by_cases h : x.id = id
    · rw [if_pos (decide_eq_true h), List.filter_cons_of_neg (by simp [hf, h]), List.filter_cons_of_neg (by simp [h])]
      exact ih
    · rw [if_neg (by simp [h]), List.filter_cons_of_pos (by simp [h]), List.filter_cons_of_pos (by simp [h])]
      exact congrArg _ ih

/-- The last FREE header write of an erase: the message is gone. -/
theorem opFreeHeaderWriteComplete_erase (hq : portQuiet s) (hg : s.store.grant = some (.maint (.freeHeader seg (.erase id))))
    (he : findEntry s id = some e) (hst : e.state = .erasing) (hchain : e.chain = [seg]) : opFreeHeaderWriteComplete s =
      queueReport (.message id e.kind e.mailbox 0 .erased) { s with store := { s.store with
        grant := none, memory := Memory.writeBytes s.store.memory (segAddress seg 0) freeHeader
        free := insertSeg seg s.store.free, dir := s.store.dir.filter fun x => decide (x.id ≠ id)
        unheard := s.store.unheard.filter fun x => decide (x ≠ id) } } := by
  obtain ⟨hw, ha, hb, hh, hm, hwait⟩ := hq
  rw [opFreeHeaderWriteComplete_eq hg nofun, freeDone,
    freedFromChain_eq (s := headerFreed seg s) (by exact he) (by rw [hchain]; exact List.mem_singleton.mpr rfl) hwait]
  rw [eraseEnd, findEntry_segmentFreed (by exact he)]
  dsimp only
  rw [if_pos ⟨hst, by simp [hchain]⟩, queueReport_eq, judgeWaiting_of_none (by exact hwait),
    storeKick_of_portless (by exact ⟨hw, ha, hb, hh⟩) (by exact hm), queueReport_eq]
  simp only [removeEntry, modStore, segmentFreed, headerFreed, filter_updateWhere_of_id id
    (f := fun x => { x with chain := x.chain.filter fun g => decide (g ≠ seg) }) (fun _ => rfl) s.store.dir]

theorem opCopyRewriteComplete_quiet (hq : portQuiet s) (hg : s.store.grant = some (.maint (.copyRewrite id)))
    (he : findEntry s id = some e) : opCopyRewriteComplete s = storeKick (scanEnd { s with store := { s.store with
      grant := none, memory := rewriteCopy s.store.memory e } }) := by
  rw [opCopyRewriteComplete, hg]
  dsimp only
  rw [show findEntry (freePort s) id = some e from he]
  dsimp only
  rw [closingOf_of_no_writers id (by exact hq.1)]
  rfl

theorem opHeaderRewriteComplete_quiet {seq at_ : Nat} {bs : List Byte} (hq : portQuiet s)
    (hg : s.store.grant = some (.maint (.headerRewrite id seq at_ bs))) (he : findEntry s id = some e) (hseg : e.chain[seq]? = some seg) :
    opHeaderRewriteComplete s = storeKick (scanEnd { s with store := { s.store with
      grant := none, memory := Memory.writeBytes s.store.memory (segAddress seg (segPayloadStart seq + at_)) bs } }) := by
  rw [opHeaderRewriteComplete, hg]
  dsimp only
  rw [modWriter_of_none id _ (by exact hq.1), show findEntry (freePort s) id = some e from he, Option.bind_some, hseg]
  rfl

end

/-! ### The last FREE header write of a cut (R147) -/

section
variable {s : State} {seg id : Nat} {e : Entry} {w : WStream} {l : Line}

/-- The cut of the only stream is complete, and its owner is told. -/
theorem opCutComplete_last (he : findEntry s w.id = some e) (hst : e.state = .opened) (hseg : seg ∈ e.chain) (hws : s.store.writers = [w])
    (ha : w.active = true) (hc : w.cut = .running 1 none) (hh : w.handed = none) (hf : w.filling = []) (hcl : w.closing = none)
    (hwait : s.store.waiting = []) (hg : s.store.grant = some (.maint (.freeHeader seg (.cut w.id)))) (hr : ∀ o, readerOf s o = none)
    (hm : s.store.maint = []) : opCutComplete s = { segmentFreed w.id seg (headerFreed seg s) with
      store := { (segmentFreed w.id seg (headerFreed seg s)).store with writers := [{ w with cut := .none }] }
      requests := s.requests ++ [.cutDone w.owner w.id] } := by
  have hlast : lastOfCut s w.id = true := by rw [lastOfCut, findWriter_single hws, Option.map_some, hc]; rfl
  have hover : w.cutOver = { w with cut := .none } := by
    have hcap : ¬segCapacity w.seq ≤ 0 := by rw [segCapacity]; split <;> omega
    rw [WStream.cutOver, WStream.handOver, if_neg]
    rintro ⟨-, -, h⟩
    exact hcap (by rwa [show w.filling = [] from hf] at h)
  have hopen : eraseEnd w.id (segmentFreed w.id seg (headerFreed seg s)) = segmentFreed w.id seg (headerFreed seg s) := by
    rw [eraseEnd, findEntry_segmentFreed (by exact he)]
    exact if_neg fun h => by simp [hst] at h
  have hfinished := cutFinished_single (s := segmentFreed w.id seg (headerFreed seg s)) (by exact hws) hcl
  rw [hover, if_pos ha] at hfinished
  rw [opCutComplete, hg]
  dsimp only
  rw [if_pos hlast, completeFree]
  show storeKick (freeDone seg (.cut w.id) (headerFreed seg s)) = _
  rw [freeDone, freedFromChain_eq (id := w.id) (s := headerFreed seg s) (by exact he) hseg hwait, hopen, cutFreed,
    show findWriter (segmentFreed w.id seg (headerFreed seg s)) w.id = some w from findWriter_single hws, Option.map_some, hc]
  dsimp only
  rw [if_pos ⟨Nat.le_refl 1, rfl⟩, hfinished]
  refine (storeKick_of_no_requests (writeReq_of_rest (by rfl) (by exact hh) (by rfl)) (fun o => readReq_of_none ?_) (by exact hm)).trans (by rfl)
  rw [← hr o]; cases o with
  | host => rfl
  | line l => cases l <;> rfl

/-- A line without a session does nothing as a cut ends. -/
theorem takeRequest_cutDone_of_no_role (id : Nat) (h : (s.line l).fax.role = none) : takeRequest (.cutDone (.line l) id) s = s :=
  if_neg (by simp [faxRuns, h])

end

end Sys2Proof.Machine
end

section
/-! PROOFS. The scan (R140, R141), and the completions of the memory port together. -/

namespace Sys2Proof.Machine

/-! ### The reads of the scan (R140) -/

section
variable {s : State} {sc : Scan} {seg next id used : Nat} {rest : List Nat}

/-- The next header read is asked for. -/
theorem scanNext_header (hsc : s.store.scan = some sc) (htodo : sc.todo = next :: rest) : scanNext s = { s with store := { s.store with
    scan := some { sc with todo := rest }, maint := s.store.maint ++ [.scanRead (.header next)] } } := by
  rw [scanNext, hsc]
  dsimp only
  rw [htodo]
  dsimp only [askMaint, modScan, modStore]
  rw [hsc, Option.map_some]

/-- The port, quiet but for the scan, takes up the header read that is asked for. -/
theorem storeKick_scanNext (h : Portless s) (hm : s.store.maint = []) (hg : s.store.grant = none) (hsc : s.store.scan = some sc)
    (htodo : sc.todo = next :: rest) : storeKick (scanNext s) = { s with store := { s.store with
      scan := some { sc with todo := rest }, grant := some (.maint (.scanRead (.header next))) } } := by
  rw [scanNext_header hsc htodo, storeKick_of_maint (s := { s with store := { s.store with
    scan := some { sc with todo := rest }, maint := s.store.maint ++ [.scanRead (.header next)] } })
    (m := .scanRead (.header next)) (rest := []) h hg (by simp [hm])]
  simp only [hm]

theorem opScanReadComplete_eq {r : ScanRead} (hg : s.store.grant = some (.maint (.scanRead r))) :
    opScanReadComplete s = storeKick (scanReadDone r (freePort s)) := by rw [opScanReadComplete, hg]

end

/-! ### The judgement of the scan (R141) -/

section
variable {mem : List Host.Cell} {seg id used : Nat} {e : Entry} {closed : Bool}

theorem readCopy_some {bytes : List Byte} (h : readCopy id bytes = some (e, closed)) : e.id = id ∧ e.state = .closed := by
  unfold readCopy at h
  split at h
  · split at h
    · split at h
      · obtain ⟨rfl, -⟩ := Prod.mk.inj (Option.some.inj h); exact ⟨rfl, rfl⟩
      · cases h
    · cases h
  · cases h

/-- The chain of an id of one segment. -/
theorem scanChain_single (seg id used : Nat) : scanChain [⟨seg, id, 0, used⟩] id = some [⟨seg, id, 0, used⟩] := by
  simp [scanChain, List.range_succ]

theorem scanFound_single (seg id used : Nat) : scanFound mem [⟨seg, id, 0, used⟩] id =
    (scanCopy mem id seg).map fun c => ([⟨seg, id, 0, used⟩], { c.1 with chain := [seg] }, c.2) := by
  rw [scanFound, scanChain_single]
  dsimp only [List.head?_cons]
  cases scanCopy mem id seg <;> rfl

theorem needsWalk_single (h : ∀ e, scanCopy mem id seg = some (e, false) → e.kind ≠ .fax) :
    needsWalk mem [⟨seg, id, 0, used⟩] id = false := by
  rw [needsWalk, scanFound_single]
  cases hc : scanCopy mem id seg with
  | none => rfl
  | some c =>
    obtain ⟨e, closed⟩ := c
    cases closed with
    | true => simp
    | false => simp [h e hc]

theorem scanJudgeId_none (h : scanCopy mem id seg = none) : scanJudgeId mem [⟨seg, id, 0, used⟩] id = none := by
  rw [scanJudgeId, scanFound_single, h]; rfl

theorem scanJudgeId_closed (h : scanCopy mem id seg = some (e, true)) :
    scanJudgeId mem [⟨seg, id, 0, used⟩] id = some ⟨{ e with chain := [seg] }, [], []⟩ := by
  rw [scanJudgeId, scanFound_single, h]; rfl

theorem scanJudgeId_open (h : scanCopy mem id seg = some (e, false)) (hk : e.kind ≠ .fax) :
    scanJudgeId mem [⟨seg, id, 0, used⟩] id = if used = 0 then none
      else some ⟨{ e with chain := [seg], length := used, pages := 0, recovered := true }, [], [.copyRewrite e.id]⟩ := by
  rw [scanJudgeId, scanFound_single, h]
  dsimp only [Option.map_some]
  rw [if_neg nofun, scanRecover]
  simp only [if_neg hk, List.map_cons, List.map_nil, List.sum_cons, List.sum_nil, Nat.add_zero]

/-- A message that has no segment of some sequence below the number of its segments is dropped. -/
theorem scanJudgeId_of_gap {groups : List ScanSeg} {k : Nat} (hk : k < (groups.filter fun g => decide (g.id = id)).length)
    (h : ∀ g ∈ groups.filter fun g => decide (g.id = id), g.seq ≠ k) : scanJudgeId mem groups id = none := by
  have hnone : scanChain groups id = none := by
    refine if_neg fun hlen => ?_
    have hall := List.filterMap_length_eq_length.mp (hlen.trans (List.length_range ..).symm) k (List.mem_range.mpr hk)
    rw [List.find?_isSome] at hall
    obtain ⟨g, hg, hseq⟩ := hall
    exact h g hg (of_decide_eq_true hseq)
  rw [scanJudgeId, scanFound, hnone]

/-- A list of segments of which one before the last holds less than its capacity. -/
theorem fullButLast_short {pre post : List ScanSeg} {g : ScanSeg} (hpost : post ≠ []) (hu : g.used ≠ segCapacity g.seq) :
    fullButLast (pre ++ g :: post) = false := by
  induction pre with
  | nil =>
    obtain ⟨x, xs, rfl⟩ := List.exists_cons_of_ne_nil hpost
    simp [fullButLast, hu]
  | cons p ps ih =>
    obtain ⟨x, xs, hx⟩ := List.exists_cons_of_ne_nil (l := ps ++ g :: post) (by simp)
    rw [List.cons_append]
    rw [hx] at ih ⊢
    rw [fullButLast, ih, Bool.and_false]
    exact nofun

/-- A message with a segment that is short before its last is dropped. -/
theorem scanJudgeId_of_short {groups : List ScanSeg} {g : ScanSeg} (hg : g ∈ groups.filter fun g => decide (g.id = id))
    (hlast : g.seq + 1 < (groups.filter fun g => decide (g.id = id)).length) (hu : g.used ≠ segCapacity g.seq)
    (honly : ∀ h ∈ groups.filter (fun g => decide (g.id = id)), h.seq = g.seq → h = g) : scanJudgeId mem groups id = none := by
  have hfull {chain : List ScanSeg} (hc : scanChain groups id = some chain) : fullButLast chain = false := by
    unfold scanChain at hc
    dsimp only at hc
    generalize groups.filter (fun g => decide (g.id = id)) = segs at hg hlast honly hc
    split at hc
    · next hlen =>
      obtain rfl := Option.some.inj hc
      have hfind : segs.find? (fun h => decide (h.seq = g.seq)) = some g := by
        cases hf : segs.find? fun h => decide (h.seq = g.seq) with
        | none => exact absurd (decide_eq_true rfl) (List.find?_eq_none.mp hf g hg)
        | some h => rw [honly h (List.mem_of_find?_eq_some hf) (by simpa using List.find?_some hf)]
      obtain ⟨m, hm⟩ : ∃ m, segs.length = (g.seq + 1) + (m + 1) := ⟨segs.length - g.seq - 2, by omega⟩
      have hall := List.filterMap_length_eq_length.mp (hlen.trans (List.length_range ..).symm)
      rw [hm] at hall ⊢
      rw [List.range_add, List.range_succ, List.append_assoc, List.filterMap_append, List.singleton_append, List.filterMap_cons_some (f := fun i => segs.find? fun h => decide (h.seq = i)) hfind]
      refine fullButLast_short (fun hnil => ?_) hu
      rw [List.filterMap_eq_nil_iff] at hnil
      have hin : g.seq + 1 ∈ List.map (fun x => g.seq + 1 + x) (List.range (m + 1)) := List.mem_map.mpr ⟨0, by simp, rfl⟩
      have hsome := hall (g.seq + 1) (List.mem_range.mpr (by omega))
      rw [hnil _ hin] at hsome
      cases hsome
    · cases hc
  have hnone : scanFound mem groups id = none := by
    unfold scanFound
    split
    · next chain hc =>
      split
      · split
        · rw [hfull hc]; rfl
        · rfl
      · rfl
    · rfl
  rw [scanJudgeId, hnone]

end

end Sys2Proof.Machine
end

section
/-! PROOFS. The scan of one message, and the completions of the memory port together. -/

namespace Sys2Proof.Machine

/-! ### The judgement of one message (R141) -/

section
variable {s : State} {sc : Scan} {seg id used : Nat} {e : Entry}

/-- The mailboxes as a kept message sets the new flag of its own. -/
def heardBoxes (e : Entry) (boxes : List Mailbox) : List Mailbox :=
  if e.kind = .voice ∧ e.unheard then (match e.mailbox with
    | some m => boxes.modify m fun b => { b with isNew := true }
    | none => boxes)
  else boxes

theorem skipIds_other {dir : List Entry} {n : Nat} (fuel : Nat) (h : ∀ e ∈ dir, e.id ≠ n) : skipIds dir fuel n = n := by
  cases fuel with
  | zero => rfl
  | succ fuel => exact if_neg (by simpa using h)

theorem nextIdAfter_ne (n : Nat) : n ≠ nextIdAfter n := by rw [nextIdAfter]; split <;> omega

/-- The lists and counters of a directory of one message. -/
theorem scanRebuild_single (hdir : s.store.dir = [e]) : scanRebuild s = { s with
    mailboxes := heardBoxes e s.mailboxes
    store := { s.store with
      unheard := if e.unheard then [e.id] else [], creation := nextCreation e.creation, nextId := nextIdAfter e.id } } := by
  have hskip : skipIds [e] 97 (nextIdAfter e.id) = nextIdAfter e.id :=
    skipIds_other 97 fun x hx => by rw [List.mem_singleton.mp hx]; exact nextIdAfter_ne e.id
  have hnew : newest [e] = some (e.creation, e.id) := rfl
  rw [scanRebuild]
  simp only [modStore, hdir, hnew, hskip]
  rw [heardBoxes]
  by_cases hu : e.unheard = true
  · by_cases hk : e.kind = .voice
    · simp only [hu, hk, and_self, if_true, List.filter_cons, Bool.true_and, decide_true, List.filter_nil, List.map_cons, List.map_nil,
        List.dedup_cons_of_notMem List.not_mem_nil, List.dedup_nil, List.foldl_cons, List.foldl_nil, setNewFlag]
      cases e.mailbox <;> rfl
    · simp [hu, hk]
  · simp [hu]

theorem scanRebuild_empty (hdir : s.store.dir = []) : scanRebuild s = { s with store := { s.store with
    unheard := [], creation := 0, nextId := 1 } } := by
  rw [scanRebuild]
  simp only [modStore, hdir]
  rfl

/-- One id judged kept. -/
theorem scanJudge_kept {v : ScanVerdict} (hsc : s.store.scan = some sc) (hgr : sc.groups = [⟨seg, id, 0, used⟩])
    (hv : scanJudgeId s.store.memory sc.groups id = some v) (hm : s.store.maint = []) (hf : v.freed = []) :
    scanJudge s = scanEnd { s with
      mailboxes := heardBoxes v.entry s.mailboxes
      store := { s.store with
        scan := some { sc with judged := true }, dir := [v.entry], maint := v.writes
        unheard := if v.entry.unheard then [v.entry.id] else []
        creation := nextCreation v.entry.creation, nextId := nextIdAfter v.entry.id } } := by
  have hids : scanIds sc.groups = [id] := by rw [hgr]; rfl
  rw [scanJudge, hsc]
  dsimp only
  rw [hids]
  simp only [List.filterMap_cons, hv, List.filterMap_nil, List.foldl_cons, List.foldl_nil, insertVerdict, List.length_singleton,
    Nat.reduceSub, List.take_zero, List.drop_zero, List.map_nil, Option.isNone_some, List.filter_cons, Bool.false_eq_true, if_false,
    List.filter_nil]
  rw [scanRebuild_single (e := v.entry) (by rfl)]
  simp only [scanKeep, modScan, modStore, hf, hm, hsc, List.nil_append, List.map_nil, Option.map_some]

/-- One id judged to be dropped. -/
theorem scanJudge_dropped (hsc : s.store.scan = some sc) (hgr : sc.groups = [⟨seg, id, 0, used⟩])
    (hv : scanJudgeId s.store.memory sc.groups id = none) (hm : s.store.maint = []) :
    scanJudge s = { s with
      link := s.link.push (.store .scanDrop id)
      store := { s.store with
        scan := some { sc with judged := true }, dir := [], maint := [.freeHeader seg .scan]
        unheard := [], creation := 0, nextId := 1 } } := by
  have hids : scanIds sc.groups = [id] := by rw [hgr]; rfl
  have hsegs : groupSegs sc.groups id = [seg] := by rw [hgr]; simp [groupSegs]
  rw [scanJudge, hsc]
  dsimp only
  rw [hids]
  simp only [List.filterMap_cons, hv, List.filterMap_nil, List.foldl_cons, List.foldl_nil, List.length_nil,
    Nat.zero_sub, List.take_nil, List.drop_nil, List.map_nil, Option.isNone_none, List.filter_cons, if_true,
    List.filter_nil, scanDrop, hsegs, queueReport_eq]
  rw [scanRebuild_empty (by rfl), scanEnd_of_maint (by simp [modScan, modStore])]
  simp only [modScan, modStore, hm, hsc, List.nil_append, List.map_cons, List.map_nil, Option.map_some]

/-- With no page read left the scan judges. -/
theorem scanWalkNext_none (hsc : s.store.scan = some sc) (hw : sc.walk = []) : scanWalkNext s = scanJudge s := by
  rw [scanWalkNext, hsc]
  dsimp only
  rw [hw]

/-- The last read of the scan, no page being left to walk. -/
theorem scanNext_judges (hsc : s.store.scan = some sc) (htodo : sc.todo = []) (hgr : sc.groups = [⟨seg, id, 0, used⟩])
    (hwalk : needsWalk s.store.memory [⟨seg, id, 0, used⟩] id = false) :
    scanNext s = scanJudge { s with store := { s.store with scan := some { sc with walk := [] } } } := by
  have hids : scanIds sc.groups = [id] := by rw [hgr]; rfl
  have hnone : (scanIds sc.groups).filter (needsWalk s.store.memory sc.groups) = [] := by
    rw [hids, hgr, List.filter_cons_of_neg (by simp [hwalk])]; rfl
  have hmod : modScan (fun c => { c with walk := ([] : List Nat).flatMap (groupSegs sc.groups) }) s =
      { s with store := { s.store with scan := some { sc with walk := [] } } } := by
    rw [modScan, modStore, hsc]; exact rfl
  have hnext : scanNext s = scanWalkNext (modScan (fun c => { c with
      walk := ((scanIds sc.groups).filter (needsWalk s.store.memory sc.groups)).flatMap (groupSegs sc.groups) }) s) := by
    rw [scanNext, hsc]
    dsimp only
    rw [htodo]
  rw [hnext, hnone, hmod, scanWalkNext_none (sc := { sc with walk := [] }) (by rfl) (by rfl)]

end

/-! ### The completions of the scan's reads and writes at a quiet port -/

section
variable {s : State} {sc : Scan} {seg next id used : Nat} {rest : List Nat} {e : Entry}

/-- A valid label: the first header is asked for. -/
theorem scanRead_label {regions : List Region} {n : Nat} (hq : portQuiet s) (hsc : s.store.scan = some sc)
    (hg : s.store.grant = some (.maint (.scanRead .label))) (hl : readLabel (Memory.readBytes s.store.memory 0 24) = some (regions, n))
    (htodo : presentSegments regions = next :: rest) : opScanReadComplete s = { s with store := { s.store with
      regions := regions, formatCount := n, scan := some { sc with todo := rest }
      grant := some (.maint (.scanRead (.header next))) } } := by
  have hread : scanReadDone .label (freePort s) = scanNext { s with store := { s.store with
      grant := none, regions := regions, formatCount := n, scan := some { sc with todo := presentSegments regions } } } := by
    rw [scanReadDone, scanLabel, show readLabel (Memory.readBytes (freePort s).store.memory 0 24) = some (regions, n) from hl]
    dsimp only [modScan, modStore, freePort]
    rw [hsc, Option.map_some]
  have hp := portless_of_quiet hq
  rw [opScanReadComplete_eq hg, hread]
  exact storeKick_scanNext (sc := { sc with todo := presentSegments regions }) (by exact hp) (by exact hq.2.2.2.2.1)
    (by rfl) (by rfl) htodo

/-- A USED header that is not of sequence 0. -/
theorem scanRead_used {seq : Nat} (hq : portQuiet s) (hsc : s.store.scan = some sc)
    (hg : s.store.grant = some (.maint (.scanRead (.header seg))))
    (hh : readHeader (Memory.readBytes s.store.memory (segAddress seg 0) 8) = .used id seq used) (hseq : seq ≠ 0)
    (htodo : sc.todo = next :: rest) : opScanReadComplete s = { s with store := { s.store with
      scan := some { sc with groups := sc.groups ++ [⟨seg, id, seq, used⟩], todo := rest }
      grant := some (.maint (.scanRead (.header next))) } } := by
  have hread : scanReadDone (.header seg) (freePort s) = scanNext { s with store := { s.store with
      grant := none, scan := some { sc with groups := sc.groups ++ [⟨seg, id, seq, used⟩] } } } := by
    rw [scanReadDone, scanHeader,
      show readHeader (Memory.readBytes (freePort s).store.memory (segAddress seg 0) 8) = .used id seq used from hh]
    dsimp only [modScan, modStore, freePort]
    rw [if_neg hseq, hsc, Option.map_some]
  have hp := portless_of_quiet hq
  rw [opScanReadComplete_eq hg, hread]
  exact storeKick_scanNext (sc := { sc with groups := sc.groups ++ [⟨seg, id, seq, used⟩] }) (by exact hp)
    (by exact hq.2.2.2.2.1) (by rfl) (by rfl) htodo

/-- A USED header of sequence 0: its copy is asked for. -/
theorem scanRead_first (hq : portQuiet s) (hsc : s.store.scan = some sc) (hg : s.store.grant = some (.maint (.scanRead (.header seg))))
    (hh : readHeader (Memory.readBytes s.store.memory (segAddress seg 0) 8) = .used id 0 used) :
    opScanReadComplete s = { s with store := { s.store with
      scan := some { sc with groups := sc.groups ++ [⟨seg, id, 0, used⟩] }, grant := some (.maint (.scanRead (.copy seg))) } } := by
  have hm := hq.2.2.2.2.1
  have hp := portless_of_quiet hq
  have hread : scanReadDone (.header seg) (freePort s) = { s with store := { s.store with
      grant := none, scan := some { sc with groups := sc.groups ++ [⟨seg, id, 0, used⟩] }, maint := [.scanRead (.copy seg)] } } := by
    rw [scanReadDone, scanHeader,
      show readHeader (Memory.readBytes (freePort s).store.memory (segAddress seg 0) 8) = .used id 0 used from hh]
    dsimp only [modScan, modStore, freePort, askMaint]
    rw [if_pos rfl, hsc, Option.map_some, hm]
    exact rfl
  rw [opScanReadComplete_eq hg, hread, storeKick_of_maint (m := .scanRead (.copy seg)) (rest := []) (by exact hp)
    (by rfl) (by rfl), ← hm]

/-- A FREE header: its segment joins the pool. -/
theorem scanRead_free (hq : portQuiet s) (hsc : s.store.scan = some sc) (hg : s.store.grant = some (.maint (.scanRead (.header seg))))
    (hh : readHeader (Memory.readBytes s.store.memory (segAddress seg 0) 8) = .free) (htodo : sc.todo = next :: rest) :
    opScanReadComplete s = { s with store := { s.store with
      scan := some { sc with todo := rest }, free := insertSeg seg s.store.free
      grant := some (.maint (.scanRead (.header next))) } } := by
  have hread : scanReadDone (.header seg) (freePort s) = scanNext { s with store := { s.store with
      grant := none, free := insertSeg seg s.store.free } } := by
    rw [scanReadDone, scanHeader, show readHeader (Memory.readBytes (freePort s).store.memory (segAddress seg 0) 8) = .free from hh]
    dsimp only
    rw [joinPool_of_none_waiting seg (by exact hq.2.2.2.2.2)]
    rfl
  have hp := portless_of_quiet hq
  rw [opScanReadComplete_eq hg, hread]
  exact storeKick_scanNext (sc := sc) (by exact hp) (by exact hq.2.2.2.2.1) (by rfl) (by exact hsc) htodo

/-- A bad header gets a FREE header, and the next header is asked for behind it. -/
theorem scanRead_bad (hq : portQuiet s) (hsc : s.store.scan = some sc) (hg : s.store.grant = some (.maint (.scanRead (.header seg))))
    (hh : readHeader (Memory.readBytes s.store.memory (segAddress seg 0) 8) = .bad) (htodo : sc.todo = next :: rest) :
    opScanReadComplete s = { s with store := { s.store with
      scan := some { sc with todo := rest }, grant := some (.maint (.freeHeader seg .scan))
      maint := [.scanRead (.header next)] } } := by
  have hread : scanReadDone (.header seg) (freePort s) = scanNext { s with store := { s.store with
      grant := none, maint := [.freeHeader seg .scan] } } := by
    rw [scanReadDone, scanHeader, show readHeader (Memory.readBytes (freePort s).store.memory (segAddress seg 0) 8) = .bad from hh]
    dsimp only [modStore, freePort, askMaint]
    rw [hq.2.2.2.2.1]
    rfl
  have hp := portless_of_quiet hq
  rw [opScanReadComplete_eq hg, hread, scanNext_header (sc := sc) (by exact hsc) htodo]
  exact storeKick_of_maint (m := .freeHeader seg .scan) (rest := [.scanRead (.header next)]) (by exact hp) (by rfl) (by rfl)

/-- The scan's last read: the one id is judged, and the port goes on. -/
theorem scanRead_copy (hsc : s.store.scan = some sc) (hg : s.store.grant = some (.maint (.scanRead (.copy seg)))) (htodo : sc.todo = [])
    (hgr : sc.groups = [⟨seg, id, 0, used⟩]) (hwalk : needsWalk s.store.memory [⟨seg, id, 0, used⟩] id = false) :
    opScanReadComplete s = storeKick (scanJudge { s with store := { s.store with
      grant := none, scan := some { sc with copies := sc.copies ++ [seg], walk := [] } } }) := by
  have hread : scanReadDone (.copy seg) (freePort s) = scanNext { s with store := { s.store with
      grant := none, scan := some { sc with copies := sc.copies ++ [seg] } } } := by
    rw [scanReadDone]
    dsimp only [modScan, modStore, freePort]
    rw [hsc, Option.map_some]
  rw [opScanReadComplete_eq hg, hread]
  exact congrArg storeKick (scanNext_judges (sc := { sc with copies := sc.copies ++ [seg] }) (by rfl) htodo hgr hwalk)

/-- A write that ends a judged scan. -/
theorem exec_scanEnd {c : Instr} {t : State} (hop : opOf c s = storeKick (scanEnd t)) (hp : portQuiet t) (hs : t.requests = [])
    (hst : t.store.st = .scanning) (hsc : t.store.scan = some sc) (hj : sc.judged = true) (hg : t.store.grant = none)
    (hoff : ∀ l, (t.line l).profile.autoCallout = false) : exec c s = .next
      (queueReport (.store .ready t.store.dir.length) { t with store := { t.store with st := .ready, scan := none } }) := by
  rw [scanEnd_of_judged hst hsc hj hp.2.2.2.2.1 hg, storeKick_enterReady (portless_of_quiet hp) hp.2.2.2.2.1] at hop
  exact (exec_finish hop).trans (congrArg _ (finish_enterReady_of_off hs hoff))

/-- A good copy with its closed mark: the message is kept, and the store is READY. -/
theorem scanRead_keeps (hs : s.requests = []) (hq : portQuiet s) (hscan : s.store.st = .scanning)
    (hoff : ∀ l, (s.line l).profile.autoCallout = false) (hsc : s.store.scan = some sc)
    (hg : s.store.grant = some (.maint (.scanRead (.copy seg)))) (htodo : sc.todo = []) (hgr : sc.groups = [⟨seg, id, 0, used⟩])
    (hc : scanCopy s.store.memory id seg = some (e, true)) : exec .scanReadComplete s = .next (queueReport (.store .ready 1) { s with
      mailboxes := heardBoxes { e with chain := [seg] } s.mailboxes
      store := { s.store with
        grant := none, st := .ready, scan := none, dir := [{ e with chain := [seg] }]
        unheard := if ({ e with chain := [seg] } : Entry).unheard then [e.id] else []
        creation := nextCreation e.creation, nextId := nextIdAfter e.id } }) := by
  have hop := scanRead_copy hsc hg htodo hgr (needsWalk_single fun e' h => by rw [hc] at h; cases h)
  rw [scanJudge_kept (sc := { sc with copies := sc.copies ++ [seg], walk := [] }) (by rfl) hgr (by rw [hgr]; exact scanJudgeId_closed hc)
    (by exact hq.2.2.2.2.1) rfl] at hop
  have hm := hq.2.2.2.2.1
  have hp := portless_of_quiet hq
  refine (exec_scanEnd (c := .scanReadComplete) hop (by exact ⟨hq.1, hq.2.1, hq.2.2.1, hq.2.2.2.1, rfl, hq.2.2.2.2.2⟩) hs hscan (by rfl)
    (by rfl) (by rfl) (fun l => by cases l; exacts [hoff .A, hoff .B])).trans ?_
  dsimp only
  rw [← hm]
  exact rfl

/-- A good copy without its closed mark: the message is recovered, and its copy rewritten. -/
theorem scanRead_recovers (hs : s.requests = []) (hq : portQuiet s) (hsc : s.store.scan = some sc)
    (hg : s.store.grant = some (.maint (.scanRead (.copy seg)))) (htodo : sc.todo = []) (hgr : sc.groups = [⟨seg, id, 0, used⟩])
    (hc : scanCopy s.store.memory id seg = some (e, false)) (hk : e.kind ≠ .fax) (hu : used ≠ 0) {v : Entry}
    (hv : v = { e with chain := [seg], length := used, pages := 0, recovered := true }) :
    exec .scanReadComplete s = .next { s with
      mailboxes := heardBoxes v s.mailboxes
      store := { s.store with
        grant := some (.maint (.copyRewrite e.id))
        scan := some { sc with copies := sc.copies ++ [seg], walk := [], judged := true }, dir := [v]
        unheard := if v.unheard then [v.id] else [], creation := nextCreation v.creation, nextId := nextIdAfter v.id } } := by
  subst hv
  have hm := hq.2.2.2.2.1
  have hp := portless_of_quiet hq
  refine exec_of_op (c := .scanReadComplete) ((scanRead_copy hsc hg htodo hgr (needsWalk_single fun e' h => ?_)).trans ?_) hs
  · rw [hc] at h; obtain ⟨rfl, -⟩ := Prod.mk.inj (Option.some.inj h); exact hk
  · rw [scanJudge_kept (sc := { sc with copies := sc.copies ++ [seg], walk := [] }) (by rfl) hgr
      (by rw [hgr]; exact (scanJudgeId_open hc hk).trans (if_neg hu)) (by exact hm) rfl, scanEnd_of_maint (by exact List.cons_ne_nil _ _),
      storeKick_of_maint (m := .copyRewrite e.id) (rest := []) (by exact hp) (by rfl) (by rfl), ← hm]

/-- No good copy, or no byte: the message is dropped. -/
theorem scanRead_drops (hs : s.requests = []) (hq : portQuiet s) (hsc : s.store.scan = some sc)
    (hg : s.store.grant = some (.maint (.scanRead (.copy seg)))) (htodo : sc.todo = []) (hgr : sc.groups = [⟨seg, id, 0, used⟩])
    (hwalk : needsWalk s.store.memory [⟨seg, id, 0, used⟩] id = false)
    (hv : scanJudgeId s.store.memory [⟨seg, id, 0, used⟩] id = none) :
    exec .scanReadComplete s = .next (queueReport (.store .scanDrop id) { s with store := { s.store with
      dir := [], unheard := [], creation := 0, nextId := 1, grant := some (.maint (.freeHeader seg .scan))
      scan := some { sc with copies := sc.copies ++ [seg], walk := [], judged := true } } }) := by
  have hm := hq.2.2.2.2.1
  have hp := portless_of_quiet hq
  refine exec_of_op (c := .scanReadComplete) ((scanRead_copy hsc hg htodo hgr hwalk).trans ?_) (by simp [hs])
  rw [scanJudge_dropped (sc := { sc with copies := sc.copies ++ [seg], walk := [] }) (by rfl) hgr (by rw [hgr]; exact hv) (by exact hm),
    storeKick_of_maint (m := .freeHeader seg .scan) (rest := []) (by exact hp) (by rfl) (by rfl), queueReport_eq, ← hm]

end

/-! ### The obligation -/

/-- Settles O53: every completion at a port where nothing else stands, and the scan of one message read by read. -/
theorem portCompletionsTakeEffect : Obligations.PortCompletionsTakeEffect := by
  refine ⟨?_, ?_, ?_⟩
  · intro seg id e w bs s hs he hid st put
    refine ⟨fun hg hws hwid ho hh hf hc hcl hfail hlen ha hb hhost hm ht => ⟨?_, fun hwf x hx => read_writeSegment_outside hwf e hlen hx⟩,
      fun r tag seq hg hr htag hbuf hw ha hb hm hbytes hbusy => ?_, fun hq => ⟨fun hg hst hchain => ?_, fun hg hsc => ?_,
      fun seq at_ hg hsc hseg => ?_, fun hg hl => ?_⟩⟩
    · subst hwid
      refine exec_of_op (c := .segmentWriteComplete) (opSegmentWriteComplete_full hg he hws ho hh hf hc hcl hfail hlen (fun o => ?_) hm ht)
        (by exact hs)
      cases o with
      | host => exact hhost
      | line l => cases l with
        | A => exact ha
        | B => exact hb
    · exact exec_of_op (c := .segmentReadComplete) (opSegmentReadComplete_host hg hr htag hbuf hw ha hb hm hbytes hbusy) (by exact hs)
    · exact exec_of_op (c := .freeHeaderWriteComplete) (opFreeHeaderWriteComplete_erase hq hg he hst hchain) (by simp [hs])
    · refine exec_of_op (c := .copyRewriteComplete) ((opCopyRewriteComplete_quiet hq hg he).trans ?_) (by exact hs)
      rw [scanEnd_of_not_judged (by exact congrArg (fun o : Option Scan => (o.map (·.judged)).getD false) hsc)]
      exact storeKick_of_portless (portless_of_quiet hq) (by exact hq.2.2.2.2.1)
    · refine exec_of_op (c := .headerRewriteComplete) ((opHeaderRewriteComplete_quiet hq hg he hseg).trans ?_) (by exact hs)
      rw [scanEnd_of_not_judged (by exact congrArg (fun o : Option Scan => (o.map (·.judged)).getD false) hsc)]
      exact storeKick_of_portless (portless_of_quiet hq) (by exact hq.2.2.2.2.1)
    · refine exec_of_op (c := .scanReadComplete) ((opScanReadComplete_eq hg).trans ?_) (by simp [hs])
      rw [scanReadDone, scanLabel, show readLabel (Memory.readBytes (freePort s).store.memory 0 24) = none from hl]
      dsimp only
      rw [queueReport_eq, storeKick_of_portless (by exact portless_of_quiet hq) (by exact hq.2.2.2.2.1), queueReport_eq]
      rfl
  · intro l seg id e w s hs he hid hst hseg hws hwid ho ha hc hh hf hcl hwait hg hra hrb hrh hm hrole
    subst hwid
    have hop := opCutComplete_last he hst hseg hws ha hc hh hf hcl hwait hg (fun o => by
      cases o with
      | host => exact hrh
      | line l => cases l with
        | A => exact hra
        | B => exact hrb) hm
    refine ⟨{ segmentFreed w.id seg (headerFreed seg s) with
      store := { (segmentFreed w.id seg (headerFreed seg s)).store with writers := [{ w with cut := .none }] } },
      (exec_finish (c := .cutComplete) hop).trans (congrArg _ ?_), rfl, rfl, rfl, ?_, rfl, rfl⟩
    · rw [ho]
      refine (congrArg finish ?_).trans (finish_post (r := .cutDone (.line l) w.id) (by exact hs)
        (takeRequest_cutDone_of_no_role w.id (by cases l <;> exact hrole)) (by exact hs))
      rfl
    · exact findEntry_segmentFreed (s := headerFreed seg s) he
  · intro seg next id used rest sc s hs hq hsc hscan hoff st header copy
    refine ⟨fun regions n hg hl htodo => ?_, fun hg htodo => ⟨fun seq hh hseq => ?_, fun hh => ?_, fun hh => ?_, fun hh => ?_⟩, ?_,
      fun hj => ⟨fun hg => ?_, fun e hg he => ?_⟩, ?_⟩
    · exact exec_of_op (c := .scanReadComplete) (scanRead_label hq hsc hg hl htodo) hs
    · exact exec_of_op (c := .scanReadComplete) (scanRead_used hq hsc hg hh hseq htodo) hs
    · exact exec_of_op (c := .scanReadComplete) (scanRead_first hq hsc hg hh) hs
    · exact exec_of_op (c := .scanReadComplete) (scanRead_free hq hsc hg hh htodo) hs
    · exact exec_of_op (c := .scanReadComplete) (scanRead_bad hq hsc hg hh htodo) hs
    · intro hg htodo hgr hnot judged heard kept boxes
      have hheard {e : Entry} {closed : Bool} (hc : copy = some (e, closed)) : e.unheard = true ↔ heard e := by
        simp [Entry.unheard, (readCopy_some hc).2, heard]
      have hboxes {e : Entry} {closed : Bool} (hc : copy = some (e, closed)) : heardBoxes e s.mailboxes = boxes e :=
        if_congr (and_congr_right fun _ => hheard hc) rfl rfl
      have hlist {e : Entry} {closed : Bool} (hc : copy = some (e, closed)) : (if e.unheard = true then [e.id] else []) =
          if heard e then [id] else [] := by
        rw [(readCopy_some hc).1]; exact if_congr (hheard hc) rfl rfl
      refine ⟨fun e hc => ?_, fun e hc hk hu => ?_, fun hc => ?_⟩
      · refine (scanRead_keeps hs hq hscan hoff hsc hg htodo hgr hc).trans ?_
        dsimp only [kept]
        rw [← hboxes hc, ← hlist hc, ← (readCopy_some hc).1]
        exact rfl
      · refine (scanRead_recovers hs hq hsc hg htodo hgr hc hk (Nat.pos_iff_ne_zero.mp hu) rfl).trans ?_
        dsimp only [kept]
        rw [← hboxes hc, ← hlist hc, ← (readCopy_some hc).1]
        exact rfl
      · have hwalk : needsWalk st.memory [⟨seg, id, 0, used⟩] id = false := needsWalk_single fun e h => by
          rcases hc with hc | ⟨e', hc, hk, -⟩
          · cases hc.symm.trans h
          · obtain ⟨rfl, -⟩ := Prod.mk.inj (Option.some.inj (hc.symm.trans h)); exact hk
        refine scanRead_drops hs hq hsc hg htodo hgr hwalk ?_
        rcases hc with hc | ⟨e, hc, hk, hu⟩
        · exact scanJudgeId_none hc
        · exact (scanJudgeId_open hc hk).trans (if_pos hu)
    · have hop := opFreeHeaderWriteComplete_eq hg nofun
      rw [freeDone, joinPool_of_none_waiting seg (by exact hq.2.2.2.2.2)] at hop
      exact exec_scanEnd (c := .freeHeaderWriteComplete) hop hq hs hscan hsc hj (by rfl) fun l => by cases l; exacts [hoff .A, hoff .B]
    · exact exec_scanEnd (c := .copyRewriteComplete) (opCopyRewriteComplete_quiet hq hg he) hq hs hscan hsc hj (by rfl) fun l => by
        cases l; exacts [hoff .A, hoff .B]
    · intro mem groups mine
      exact ⟨fun ⟨k, hk, h⟩ => scanJudgeId_of_gap hk h, fun ⟨g, hg, hlast, hu, honly⟩ => scanJudgeId_of_short hg hlast hu honly⟩

end Sys2Proof.Machine
end

section
/-! PROOFS. The control messages of a fax session and its end (R159, R160, R161). -/

namespace Sys2Proof.Machine

/-! ### The entry to CLEARDOWN of a line with a session (R173) -/

/-- The fax engine as its line has entered CLEARDOWN. -/
def Fax.over (r : ReleaseReason) (f : Fax) : Fax := { f with
  phase := some .ended, outQueue := [], outstanding := none, capsDue := none, headerUse := none, txRecord := none
  afterCut := none, endCause := f.endCause.or (some (.release r)) }

section
variable {s : State} {l : Line} {x : LineState}

theorem activeWriter_of_none (h : ∀ w ∈ s.store.writers, w.owner ≠ .line l) : activeWriter s (.line l) = none :=
  List.find?_eq_none.mpr fun w hw => by simp [h w hw]

/-- Without a stream of the line the session's end changes the engine alone. -/
theorem endFax_put (k : Link) (r : ReleaseReason) (hr : readerOf s (.line l) = none) (hw : ∀ w ∈ s.store.writers, w.owner ≠ .line l)
    (hrole : x.fax.role ≠ none) : endFax l r (s.put l x k) = s.put l { x with fax := x.fax.over r } k := by
  have hreader : closeReader (.line l) (s.put l x k) = s.put l x k := by rw [closeReader, readerOf_put, hr]
  have hwriter : activeWriter (s.put l x k) (.line l) = none := activeWriter_of_none (by rw [put_store]; exact hw)
  have hopen : faxMessageOpen (s.put l x k) l = none := by
    unfold faxMessageOpen
    rw [hwriter]
    split
    · next h => cases h
    · rfl
  cases hx : x.fax.role with
  | none => exact absurd hx hrole
  | some role =>
    rw [endFax, put_line, hx]
    dsimp only
    cases role with
    | sender => dsimp only; rw [hreader, modFax_put]; exact rfl
    | receiver => dsimp only; rw [endReceiver, hopen]; dsimp only; rw [modFax_put]; exact rfl

/-- A line in a session, but without a stream, a tone, a voice operation, a job or a held message. -/
structure LineState.InSession (s : State) (l : Line) (x : LineState) : Prop where
  reader : readerOf s (.line l) = none
  writers : ∀ w ∈ s.store.writers, w.owner ≠ .line l
  role : x.fax.role ≠ none
  tone : x.iface.tone = none
  sub : x.voice.sub = none
  job : x.call.cr.job = none
  refHeld : x.call.refHeld = false

/-- Such a line as its session has been released. -/
structure LineState.SessionOver (r : ReleaseReason) (now : Nat) (y : LineState) : Prop where
  st : y.call.st = .cleardown
  reason : y.call.reason = some (.release r)
  phase : y.fax.phase = some .ended
  outQueue : y.fax.outQueue = []
  outstanding : y.fax.outstanding = none
  hook : y.iface.hook = false
  due : y.call.cleardownDue = some (now + 2000)

theorem enterCleardown_in_session (k : Link) {r : ReleaseReason} (h : x.InSession s l)
    (hr : r ≠ .busy ∧ r ≠ .noAnswer ∧ r ≠ .noCarrier) :
    ∃ y k', enterCleardown l r (s.put l x k) = s.put l y k' ∧ y.SessionOver r s.now := by
  let a := (x.enter .cleardown (.release r) s.now).onHook.deliver .loopLoss false
  obtain ⟨ht, hf, hv, hc⟩ := x.enter_onHook_deliver_frame .cleardown (.release r) s.now
  let c : LineState := { a with call := a.call.released r }
  let d : LineState := { c.ended with fax := a.fax.over r }
  have hwork (k : Link) : endWork l r (s.put l c k) = s.put l d.judge (k.judge l d) := by
    have htone : silenceTone l (s.put l c k) = s.put l c k := by
      rw [silenceTone, put_line, show c.iface.tone = none from ht.trans h.tone]
    have hvoice {y : LineState} (hy : y.voice.sub = none) :
        endVoice l r (s.put l y k) = judgeExpectation l (s.put l { y with voice := initialVoice } k) := by
      rw [endVoice]
      simp only [put_line, hy, modVoice_put]
    rw [endWork, htone, stopModem, modModem_put, stopLink, modDl_put,
      endFax_put k r h.reader h.writers (by exact fun hn => h.role ((congrArg Fax.role hf).symm.trans hn)),
      hvoice (by exact (congrArg Voice.sub hv).trans h.sub), judgeExpectation_put]
    exact rfl
  have hcall : d.judge.call = (x.setSt .cleardown (.release r) s.now).call.released r := by
    rw [LineState.judge_frame]; exact congrArg (Call.released r) hc
  have href (k : Link) : returnCallRef l (s.put l d.judge k) = s.put l d.judge k :=
    returnCallRef_put s l k (by rw [hcall]; exact h.refHeld)
  have hsettle (k : Link) : settleAttempt l r (settleJob l r (s.put l d.judge k)) = s.put l d.judge k := by
    have hjob : settleJob l r (s.put l d.judge k) = s.put l d.judge k := by
      rw [settleJob, put_line, hcall, show ((x.setSt .cleardown (.release r) s.now).call.released r).cr.job = none from h.job]; rfl
    rw [hjob, settleAttempt_of_reason hr]
  refine ⟨{ d.judge with call := { d.judge.call with cleardownDue := some (s.now + 2000) } },
    ((k.enter l .cleardown (.release r) none s.now x).deliver l .loopLoss false (x.enter .cleardown (.release r) s.now).onHook).judge l d,
    ?_, ?_⟩
  · rw [enterCleardown, changeState_put, releaseHook_put, clearTimers_modRecord_put]
    dsimp only
    erw [hwork]
    rw [href, hsettle, ite_self, modCall_put, put_now]
  · obtain ⟨hst, hreason⟩ : d.judge.call.st = .cleardown ∧ d.judge.call.reason = some (.release r) := by
      rw [hcall]; exact ⟨rfl, rfl⟩
    have hfax : d.judge.fax = a.fax.over r := by rw [LineState.judge_frame]
    have hhook : d.judge.iface.hook = false := by rw [LineState.judge_frame]; exact rfl
    exact ⟨hst, hreason, by rw [show _ = a.fax.over r from hfax]; rfl, by rw [show _ = a.fax.over r from hfax]; rfl,
      by rw [show _ = a.fax.over r from hfax]; rfl, hhook, rfl⟩

/-- A command that asks for the release of a line in a session ends it in CLEARDOWN. -/
theorem session_ends {c : Instr} {k : Link} {now : Nat} {r : ReleaseReason} (hs : s.requests = []) (h : x.InSession s l)
    (hst : x.call.st = .fax) (hr : r ≠ .busy ∧ r ≠ .noAnswer ∧ r ≠ .noCarrier)
    (hop : opOf c s = askRelease l r ((s.at now).put l x k)) :
    ∃ t, exec c s = .next t ∧ t.st l = .cleardown ∧ (t.line l).call.reason = some (.release r) ∧
      (t.line l).fax.phase = some .ended ∧ (t.line l).fax.outQueue = [] ∧ (t.line l).fax.outstanding = none ∧
      (t.line l).iface.hook = false ∧ (t.line l).call.cleardownDue = some (t.now + 2000) ∧
      t = { s.setLine l (t.line l) with link := t.link, now := t.now } := by
  obtain ⟨y, k', hrun, hy⟩ := enterCleardown_in_session (s := s.at now) k
    ⟨by cases l <;> exact h.reader, h.writers, h.role, h.tone, h.sub, h.job, h.refHeld⟩ hr
  have hreq : ((s.at now).put l y k').requests = [] := (put_requests ..).trans hs
  refine ⟨(s.at now).put l y k', (exec_finish hop).trans (congrArg _ ((finish_askRelease
    (u := (s.at now).put l x k) ((put_requests ..).trans hs)
    (by rw [put_st, hst]; rfl) (by rw [hrun]; exact hreq)).trans hrun)), ?_⟩
  obtain ⟨h1, h2, h3, h4, h5, h6, h7⟩ := hy
  cases l <;> exact ⟨h1, h2, h3, h4, h5, h6, h7, rfl⟩

end

/-! ### Control messages (R160, R161) -/

section
variable {s : State} {l : Line}

theorem faxRuns_of_fax (hst : s.st l = .fax) (hrole : (s.line l).fax.role ≠ none) : faxRuns s l = true := by
  rw [faxRuns, hst, Option.isSome_iff_ne_none.mpr hrole]; rfl

/-- The answer timer of the message awaited starts as it has been sent. -/
def Fax.timed (m : FaxMsg) (now : Nat) (f : Fax) : Fax :=
  { f with outstanding := f.outstanding.map fun o => if o.msg = m then { o with due := some (now + 3000) } else o }

theorem Fax.timed_of_msg {f : Fax} {o : Outstanding} (ho : f.outstanding = some o) (now : Nat) :
    f.timed o.msg now = { f with outstanding := some { o with due := some (now + 3000) } } := by
  rw [Fax.timed, ho, Option.map_some, if_pos rfl]

theorem opControlMessageSent_eq {m : FaxMsg} {rest : List FaxMsg} (hruns : faxRuns s l = true) (hq : (s.line l).fax.outQueue = m :: rest) :
    opControlMessageSent l s = let t := s.put l { s.line l with fax := { (s.line l).fax with outQueue := rest } } s.link
      if earlierVerdict m rest then t else messageSent l m t := by
  have ht : modFax l (fun f => { f with outQueue := rest }) s =
      s.put l { s.line l with fax := { (s.line l).fax with outQueue := rest } } s.link := by cases l <;> rfl
  rw [opControlMessageSent, hq]
  dsimp only
  rw [hruns, ht]
  exact if_neg nofun

section
variable {x : LineState} {k : Link}

theorem messageSent_other {m : FaxMsg} (hv : ∀ v n b, m ≠ .verdict v n b) (hb : ∀ b, m ≠ .bye b) :
    messageSent l m (s.put l x k) = s.put l { x with fax := x.fax.timed m s.now } k := by
  cases m with
  | verdict v n b => exact absurd rfl (hv v n b)
  | bye b => exact absurd rfl (hb b)
  | caps | set | checkOk | checkFail | pageEnd => unfold messageSent; rw [modFax_put, put_now]; exact rfl

theorem messageSent_bye {r : ByeReason} (h : x.fax.byeAnswer = some r) : messageSent l (.bye r) (s.put l x k) =
    askRelease l (byeAnswerRelease r) (s.put l { x with fax := x.fax.timed (.bye r) s.now } k) := by
  unfold messageSent
  rw [modFax_put, put_now]
  dsimp only
  rw [put_line]
  exact if_pos h

/-- The fax engine at the start of a page. -/
def Fax.fresh (f : Fax) : Fax := { f with
  placed := 0, bad := 0, run := 0, longest := 0, expected := 0, prevGood := none, stored := 0, lineEnds := []
  pageStart := none, afterCut := none }

/-- The VERDICT of the page judged last has been sent. -/
theorem messageSent_verdict {v : Verdict} {n b : Nat} (hp : x.fax.phase = some .verdict) (hc : x.fax.afterCut = none) :
    messageSent l (.verdict v n b) (s.put l x k) = if v = .good
      then s.put l { x with
        fax := ({ x.fax.timed (.verdict v n b) s.now with phase := some .page } : Fax).fresh
        modem := { x.modem with window := some x.profile.freshWindow } } k
      else s.put l { x with fax := ({ x.fax.timed (.verdict v n b) s.now with phase := some .check } : Fax).fresh } k := by
  unfold messageSent
  rw [modFax_put, put_now]
  dsimp only
  rw [afterVerdictSent, put_line, if_pos (by exact ⟨hp, hc⟩)]
  dsimp only
  rw [modFax_put, freshPage, modFax_put]
  by_cases hv : v = .good
  · rw [if_pos hv, if_pos hv, if_pos hv, beginWindow, put_line, modModem_put]; exact rfl
  · rw [if_neg hv, if_neg hv, if_neg hv]; exact rfl

/-- An earlier VERDICT has been sent while the cut of a BAD page goes on. -/
theorem messageSent_verdict_of_cut {v : Verdict} {n b : Nat} (hc : x.fax.afterCut ≠ none) :
    messageSent l (.verdict v n b) (s.put l x k) = s.put l { x with fax := x.fax.timed (.verdict v n b) s.now } k := by
  unfold messageSent
  rw [modFax_put, put_now]
  dsimp only
  rw [afterVerdictSent, put_line]
  exact if_neg fun h => hc h.2

end

theorem opAnswerTimerExpiry_eq {o : Outstanding} {due : Nat} (ho : (s.line l).fax.outstanding = some o) (hdue : o.due = some due) :
    opAnswerTimerExpiry l s = if 4 ≤ o.sends then giveUp l o.msg (elapse due s)
      else sendAgain l o.msg (modFax l (fun f => { f with outstanding := some { o with sends := o.sends + 1, due := none } })
        (elapse due s)) := by
  rw [opAnswerTimerExpiry, ho]
  dsimp only
  rw [hdue]

/-- BYE that answers this end's own. -/
theorem opBye_own {b : Byte} {r own : ByeReason} (hb : ByeReason.ofCode b.toNat = some r) (hruns : faxRuns s l = true)
    (hans : (s.line l).fax.byeAnswer = none) (hown : (s.line l).fax.byeSent = some own) :
    opBye l b s = askRelease l (byeRelease own (s.line l).fax.fullEnded) (discharge l s) := by
  rw [opBye, hb]
  dsimp only
  rw [if_neg (by simp [hruns, hans]), hown]

/-- BYE of the far end is answered. -/
theorem opBye_answered {b : Byte} {r : ByeReason} (hb : ByeReason.ofCode b.toNat = some r) (hruns : faxRuns s l = true)
    (hans : (s.line l).fax.byeAnswer = none) (hown : (s.line l).fax.byeSent = none) :
    opBye l b s = modFax l (fun f => { f with
        phase := some .ended, byeAnswer := some r, endCause := some (.bye r), outstanding := none, capsDue := none
        headerUse := none, outQueue := f.outQueue.take 1 ++ [.bye r] })
      (if r = .done then endReceiver l (.byRelease .faxDone) false s else s) := by
  rw [opBye, hb]
  dsimp only
  rw [if_neg (by simp [hruns, hans]), hown]

theorem endReceiver_of_sender (reason : EndReason) (b : Bool) (h : (s.line l).fax.role = some .sender) :
    endReceiver l reason b s = s := by
  rw [endReceiver, faxMessageOpen, h]

end

/-- Settles O56, message by message. -/
theorem faxControlMessagesAreAnsweredOrRepeated : Obligations.FaxControlMessagesAreAnsweredOrRepeated := by
  intro l s hs hst hrole x f with_
  have hruns := faxRuns_of_fax hst hrole
  have hput (y : LineState) : s.put l y s.link = s.setLine l y := (setLine_eq_put s l y).symm
  have hreq (y : LineState) (k : Link) : (s.put l y k).requests = [] := (put_requests ..).trans hs
  refine ⟨fun m rest o hq ho hm => ⟨fun hv hb => ?_, ?_⟩, fun v n b rest hq h => ?_, fun o due ho hdue hsends => ?_,
    fun b r hb hsent hans hr => ?_, fun c reason hreader hwriters htone hsub hjob href h => ?_⟩
  · have hlater : earlierVerdict m rest = false := by
      cases m with
      | verdict v n b => exact absurd rfl (hv v n b)
      | caps | set | checkOk | checkFail | pageEnd | bye => rfl
    have hop : opControlMessageSent l s = s.put l { x with fax := { f with
        outQueue := rest, outstanding := some { o with due := some (s.now + 3000) } } } s.link := by
      rw [opControlMessageSent_eq hruns hq]
      dsimp only
      rw [hlater, if_neg nofun, messageSent_other hv hb, ← hm]
      exact congrArg (fun f' => s.put l { x with fax := f' } s.link) (Fax.timed_of_msg (f := { f with outQueue := rest }) ho s.now)
    exact exec_of_op (c := .controlMessageSent l) (hop.trans (hput _)) ((setLine_requests ..).trans hs)
  · intro v n b hmv hphase hcut hrest sent
    subst hmv
    have hlater : earlierVerdict (.verdict v n b) rest = false := by rw [earlierVerdict, hrest]; rfl
    have htimed : Fax.timed (.verdict v n b) s.now { f with outQueue := rest } = { f with
        outQueue := rest, outstanding := some { o with due := some (s.now + 3000) } } := by
      rw [← hm]; exact Fax.timed_of_msg (f := { f with outQueue := rest }) ho s.now
    have hop := opControlMessageSent_eq hruns hq
    dsimp only at hop
    rw [hlater, if_neg nofun, messageSent_verdict (by exact hphase) (by exact hcut)] at hop
    dsimp only at hop
    have hsent (p : FaxPhase) : ({ Fax.timed (.verdict v n b) s.now { f with outQueue := rest } with phase := some p } : Fax).fresh =
        { sent with phase := some p } := by
      rw [htimed, Fax.fresh]
      dsimp only [sent]
      rw [show f.afterCut = none from hcut]
    refine ⟨fun hv => ?_, fun hv => ?_⟩
    · rw [if_pos hv] at hop
      refine exec_of_op (c := .controlMessageSent l) (hop.trans ((hput _).trans ?_)) ((setLine_requests ..).trans hs)
      exact congrArg (fun f' => s.setLine l { x with fax := f', modem := { x.modem with window := some x.profile.freshWindow } })
        (hsent .page)
    · rw [if_neg hv] at hop
      refine exec_of_op (c := .controlMessageSent l) (hop.trans ((hput _).trans ?_)) ((setLine_requests ..).trans hs)
      exact congrArg (fun f' => s.setLine l { x with fax := f' }) (hsent .check)
  · have hop := opControlMessageSent_eq hruns hq
    dsimp only at hop
    have heq : opControlMessageSent l s = s.put l { x with fax := { f with outQueue := rest } } s.link := by
      by_cases hrest : rest.any FaxMsg.isVerdict = true
      · rw [hop, earlierVerdict, hrest]; exact if_pos rfl
      · obtain ⟨hcut, hphase, hout⟩ := h.resolve_left hrest
        rw [hop, earlierVerdict, eq_false_of_ne_true hrest, Bool.and_false, if_neg nofun, messageSent_verdict_of_cut (by exact hcut),
          Fax.timed]
        dsimp only
        rw [show (s.line l).fax.outstanding = none from hout, Option.map_none]
    exact exec_of_op (c := .controlMessageSent l) (heq.trans (hput _)) ((setLine_requests ..).trans hs)
  · have hop := opAnswerTimerExpiry_eq ho hdue
    rw [if_neg (Nat.not_le.mpr hsends)] at hop
    refine (exec_of_op (c := .answerTimerExpiry l) hop (by cases l <;> exact hs)).trans ?_
    cases l <;> rfl
  · have hkeep : (if r = .done then endReceiver l (.byRelease .faxDone) false s else s) = s := by
      split_ifs with hd
      · exact endReceiver_of_sender _ _ (hr.resolve_left (not_not_intro hd))
      · rfl
    refine (exec_of_op (c := .bye l b) ((opBye_answered hb hruns hans hsent).trans (by rw [hkeep])) (by cases l <;> exact hs)).trans ?_
    cases l <;> rfl
  · have hsession {g : Fax} (hg : g.role = f.role) : LineState.InSession s l { x with fax := g } :=
      ⟨hreader, hwriters, by rw [hg]; exact hrole, htone, hsub, hjob, href⟩
    have hat (now : Nat) : elapse now s = (s.at (max s.now now)).put l x s.link := (elapse_eq_at now s).trans (at_eq_put ..)
    have hown (r : ByeReason) (b : Bool) : byeRelease r b ≠ .busy ∧ byeRelease r b ≠ .noAnswer ∧ byeRelease r b ≠ .noCarrier := by
      cases r <;> cases b <;> decide
    have hanswer (r : ByeReason) : byeAnswerRelease r ≠ .busy ∧ byeAnswerRelease r ≠ .noAnswer ∧ byeAnswerRelease r ≠ .noCarrier := by
      cases r <;> decide
    rcases h with ⟨rfl, hdue, rfl⟩ | ⟨o, due, rfl, ho, hdue, hsends, hbye, rfl⟩ | ⟨b, r, own, rfl, hb, hans, hsent, rfl⟩ |
      ⟨r, rest, rfl, hq, hans, rfl⟩
    · obtain ⟨due, hdue⟩ := Option.ne_none_iff_exists'.mp hdue
      have hop : opCapsWaitExpiry l s = askRelease l .faxFail ((s.at (max s.now due)).put l { x with fax := { f with
          endCause := some (.release .noAnswer), outstanding := none, capsDue := none } } s.link) := by
        rw [opCapsWaitExpiry, show (s.line l).fax.capsDue = some due from hdue]
        dsimp only
        rw [failSession, hat, modFax_put]
      exact session_ends (c := .capsWaitExpiry l) hs (hsession (by rfl)) (by exact hst) (by decide) hop
    · have hop : opAnswerTimerExpiry l s = askRelease l .faxFail ((s.at (max s.now due)).put l { x with fax := { f with
          endCause := some (.release .noAnswer), outstanding := none, capsDue := none } } s.link) := by
        rw [opAnswerTimerExpiry_eq ho hdue, if_pos hsends, hat]
        unfold giveUp
        split
        · next r hr => exact absurd hr (hbye r)
        · rw [failSession, modFax_put]
      exact session_ends (c := .answerTimerExpiry l) hs (hsession (by rfl)) (by exact hst) (by decide) hop
    · have hop : opBye l b s = askRelease l (byeRelease own f.fullEnded)
          ((s.at s.now).put l { x with fax := { f with outstanding := none } } s.link) := by
        rw [opBye_own hb hruns hans hsent]
        cases l <;> exact rfl
      exact session_ends (c := .bye l b) hs (hsession (by rfl)) (by exact hst) (hown ..) hop
    · have hop : opControlMessageSent l s = askRelease l (byeAnswerRelease r)
          ((s.at s.now).put l { x with fax := ({ f with outQueue := rest } : Fax).timed (.bye r) s.now } s.link) := by
        rw [opControlMessageSent_eq hruns hq]
        dsimp only
        rw [if_neg (by simp [earlierVerdict, FaxMsg.isVerdict]), messageSent_bye (by exact hans)]
        exact rfl
      exact session_ends (c := .controlMessageSent l) hs (hsession (by rfl)) (by exact hst) (hanswer r) hop

end Sys2Proof.Machine
end

section
/-! PROOFS. The fax receiver: the check, the records and the verdicts (R162 to R164, R167 to R169). -/

namespace Sys2Proof.Machine

/-! ### The operations of a session on a line's state -/

/-- The engine as a control message goes out. -/
def Fax.sent (m : FaxMsg) (f : Fax) : Fax := { f with outQueue := f.outQueue ++ [m], outstanding := some ⟨m, 1, none⟩ }

/-- The engine as it ends its session with BYE. -/
def Fax.ends (b : ByeReason) (f : Fax) : Fax := ({ f with
  phase := some .ended, byeSent := some b, capsDue := none, headerUse := none, endCause := some (.bye b) } : Fax).sent (.bye b)

/-- The engine as it starts a check. -/
def Fax.unchecked (f : Fax) : Fax := { f with checkCount := 0, checkGood := 0, checkSum := 0 }

section
variable {s : State} {l : Line} {x : LineState} {k : Link}

@[simp] theorem noteTaken_put (m : FaxKind) : noteTaken l m (s.put l x k) = s.put l { x with fax := { x.fax with taken := some m } } k :=
  modFax_put ..

@[simp] theorem discharge_put : discharge l (s.put l x k) = s.put l { x with fax := { x.fax with outstanding := none } } k := modFax_put ..

@[simp] theorem sendControl_put (m : FaxMsg) : sendControl l m (s.put l x k) = s.put l { x with fax := x.fax.sent m } k := modFax_put ..

@[simp] theorem sendBye_put (b : ByeReason) : sendBye l b (s.put l x k) = s.put l { x with fax := x.fax.ends b } k := by
  rw [sendBye, modFax_put, sendControl_put]; rfl

@[simp] theorem freshPage_put : freshPage l (s.put l x k) = s.put l { x with fax := x.fax.fresh } k := modFax_put ..

@[simp] theorem freshCheck_put : freshCheck l (s.put l x k) = s.put l { x with fax := x.fax.unchecked } k := modFax_put ..

@[simp] theorem dropWindow_put : dropWindow l (s.put l x k) = s.put l { x with modem := { x.modem with window := none } } k :=
  modModem_put ..

@[simp] theorem beginWindow_put : beginWindow l (s.put l x k) =
    s.put l { x with modem := { x.modem with window := some x.profile.freshWindow } } k := by
  rw [beginWindow, put_line, modModem_put]

theorem faxRungOf_put (h : x.fax.rungs = (s.line l).fax.rungs) (m : Mode) : faxRungOf (s.put l x k) l m = faxRungOf s l m := by
  rw [faxRungOf, put_line, h, put_ladder, faxRungOf]

theorem agreedRung_put (h : x.fax.rungs = (s.line l).fax.rungs) (ha : x.fax.agreed = (s.line l).fax.agreed) :
    agreedRung (s.put l x k) l = agreedRung s l := by
  rw [agreedRung, put_line, ha, funext (faxRungOf_put h), agreedRung]

theorem reportRate_put (s : State) (l : Line) (x : LineState) (k : Link) (i : Nat) (c : RateCause) :
    ∃ k', reportRate l i c (s.put l x k) = s.put l x k' := by
  unfold reportRate
  split
  · exact ⟨_, queueReport_put ..⟩
  · exact ⟨_, rfl⟩

/-- The agreed mode is taken; the change of rung may be reported. -/
theorem agreeMode_put {m : Mode} {i : Nat} (h : x.fax.rungs = (s.line l).fax.rungs) (hi : faxRungOf s l m = some i) :
    ∃ k', agreeMode l m (s.put l x k) = s.put l { x with
      fax := { x.fax with agreed := some m }
      modem := { x.modem with rung := some i, faxRungSet := true, window := none } } k' := by
  have hrung : faxRungOf (s.put l { x with fax := { x.fax with agreed := some m } } k) l m = some i :=
    (faxRungOf_put (by exact h) m).trans hi
  rw [agreeMode, modFax_put]
  dsimp only
  rw [hrung]
  dsimp only
  rw [setFaxRung, put_line]
  dsimp only
  rw [modModem_put]
  by_cases hsame : x.modem.rung = some i
  · exact ⟨_, if_pos hsame⟩
  · rw [if_neg hsame]
    exact reportRate_put ..

theorem faxIs_of {r : FaxRole} {p : FaxPhase} (hst : s.st l = .fax) (hrole : (s.line l).fax.role = some r)
    (hp : (s.line l).fax.phase = some p) : faxIs s l r p = true := by
  rw [faxIs, faxRuns_of_fax hst (by rw [hrole]; exact nofun), hrole, hp]; simp

/-! ### SET (R162) -/

theorem opSet_of_check {b res t : Byte} (hst : s.st l = .fax) (hrole : (s.line l).fax.role = some .receiver)
    (hp : (s.line l).fax.phase = some .check) :
    (∀ fine, Mode.ofCode b.toNat = none → onOff res.toNat = some fine →
      opSet l b res t s = sendBye l .unsupported (noteTaken l .set (discharge l s))) ∧
    (∀ m fine, Mode.ofCode b.toNat = some m → onOff res.toNat = some fine →
      let u := noteTaken l .set (discharge l s)
      opSet l b res t s = if (faxRungOf u l m).isNone ∨ (fine ∧ (u.line l).profile.fine = false) then sendBye l .unsupported u
        else beginWindow l (freshCheck l (agreeMode l m (modFax l (fun f => { f with
          phase := some .check, fine := fine, lineTime := t.toNat }) u)))) := by
  have hwanted : faxRuns s l = true ∧ (s.line l).fax.role = some .receiver ∧ (s.line l).fax.phase ≠ some .ended ∧
      (decide ((s.line l).fax.phase = some .check) ||
        awaits s l fun m => m.isCaps || m.isVerdict || decide (m = .checkOk ∨ m = .checkFail)) = true :=
    ⟨faxRuns_of_fax hst (by rw [hrole]; exact nofun), hrole, by rw [hp]; exact nofun, by simp [hp]⟩
  refine ⟨fun fine hm hf => ?_, fun m fine hm hf => ?_⟩
  · rw [opSet]
    dsimp only
    rw [if_pos hwanted, hm, hf]
  · rw [opSet]
    dsimp only
    rw [if_pos hwanted, hm, hf]

/-- SET with no mode, or with none this end allows, ends the session. -/
theorem exec_set_unsupported {b res t : Byte} {fine : Bool} (hs : s.requests = []) (hst : s.st l = .fax)
    (hrole : (s.line l).fax.role = some .receiver) (hp : (s.line l).fax.phase = some .check) (hf : onOff res.toNat = some fine)
    (h : Mode.ofCode b.toNat = none ∨ ∃ m, Mode.ofCode b.toNat = some m ∧
      (faxRungOf s l m = none ∨ fine = true ∧ (s.line l).profile.fine = false)) :
    exec (.setMessage l b res t) s = .next (s.setLine l { s.line l with
      fax := ({ (s.line l).fax with taken := some .set } : Fax).ends .unsupported }) := by
  have hu : noteTaken l .set (discharge l s) = s.put l { s.line l with fax := { (s.line l).fax with
      outstanding := none, taken := some .set } } s.link := by cases l <;> rfl
  have hop : opSet l b res t s = sendBye l .unsupported (noteTaken l .set (discharge l s)) := by
    obtain hm | ⟨m, hm, hno⟩ := h
    · exact (opSet_of_check hst hrole hp).1 fine hm hf
    · refine ((opSet_of_check hst hrole hp).2 m fine hm hf).trans (if_pos ?_)
      rw [hu, faxRungOf_put (by rfl), put_line]
      exact hno.imp (fun h => by rw [h]; rfl) id
  rw [hu, sendBye_put] at hop
  refine exec_of_op (c := .setMessage l b res t) (hop.trans (setLine_eq_put ..).symm) ((setLine_requests ..).trans hs)

/-- SET begins a check at its mode and resolution. -/
theorem exec_set_accepted {b res t : Byte} {fine : Bool} {m : Mode} {i : Nat} (hs : s.requests = []) (hst : s.st l = .fax)
    (hrole : (s.line l).fax.role = some .receiver) (hp : (s.line l).fax.phase = some .check) (hf : onOff res.toNat = some fine)
    (hm : Mode.ofCode b.toNat = some m) (hi : faxRungOf s l m = some i) (hfine : fine = true → (s.line l).profile.fine = true) :
    ∃ u, exec (.setMessage l b res t) s = .next u ∧
      (u.line l).fax = ({ (s.line l).fax with
        outstanding := none, phase := some .check, fine := fine, lineTime := t.toNat, agreed := some m, taken := some .set } : Fax).unchecked ∧
      (u.line l).modem = { (s.line l).modem with
        rung := some i, faxRungSet := true, window := some (s.line l).profile.freshWindow } ∧
      u = { s.setLine l (u.line l) with link := u.link } := by
  have hu : noteTaken l .set (discharge l s) = s.put l { s.line l with fax := { (s.line l).fax with
      outstanding := none, taken := some .set } } s.link := by cases l <;> rfl
  have hop := (opSet_of_check (t := t) hst hrole hp).2 m fine hm hf
  dsimp only at hop
  rw [if_neg (by
    rw [hu, faxRungOf_put (by rfl), put_line, hi]
    rintro (h | ⟨h, hno⟩)
    · cases h
    · exact Bool.noConfusion ((hfine h).symm.trans hno)), hu, modFax_put] at hop
  obtain ⟨k', hk⟩ := agreeMode_put (s := s) (l := l) (k := s.link) (x := { s.line l with fax := { (s.line l).fax with
    outstanding := none, taken := some .set, phase := some .check, fine := fine, lineTime := t.toNat } }) (by rfl) hi
  erw [hk] at hop
  rw [freshCheck_put, beginWindow_put] at hop
  refine ⟨_, exec_of_op (c := .setMessage l b res t) hop ((put_requests ..).trans hs), ?_⟩
  cases l <;> exact ⟨rfl, rfl, rfl⟩

end

end Sys2Proof.Machine
end

section
/-! PROOFS. The fax receiver's check and its records (R163, R164, R167, R168). -/

namespace Sys2Proof.Machine

/-! ### The check (R163, R164) -/

section
variable {s : State} {l : Line} {x : LineState} {k : Link}

theorem checkMean_put (hg : x.fax.checkGood = (s.line l).fax.checkGood) (hm : x.fax.checkSum = (s.line l).fax.checkSum)
    (hp : x.profile = (s.line l).profile) : checkMean (s.put l x k) l = checkMean s l := by
  rw [checkMean, put_line, hg, hm, hp, checkMean]

/-- The modem as a check has been accepted. -/
def Modem.checked (mean : Nat) (m : Modem) : Modem := { m with q := mean, holdOff := 10, upCount := 0, burstRun := 0, window := none }

theorem acceptCheck_put (mean : Nat) (hst : x.call.st ≠ .train) :
    acceptCheck l mean (s.put l x k) = s.put l { x with modem := x.modem.checked mean } k := by
  rw [acceptCheck, modModem_put]
  dsimp only
  rw [put_st]
  exact if_neg hst

theorem sendCheckFail_put : sendCheckFail l (s.put l x k) = s.put l { x with
    fax := ({ x.fax with phase := some .check, failNext := false } : Fax).sent .checkFail } k := by
  rw [sendCheckFail, modFax_put, sendControl_put]

/-- The line as its check is over, with no window in progress. -/
def LineState.windowless (x : LineState) : LineState := { x with modem := { x.modem with window := none } }

theorem opCheckPatternEnd_eq (hst : s.st l = .fax) (hrole : (s.line l).fax.role = some .receiver)
    (hp : (s.line l).fax.phase = some .check) (ha : (s.line l).fax.agreed ≠ none) : opCheckPatternEnd l s =
      freshCheck l (if 15 ≤ (s.line l).fax.checkCount then judgeCheck l (s.put l (s.line l).windowless s.link)
        else s.put l (s.line l).windowless s.link) := by
  have hdrop : dropWindow l s = s.put l (s.line l).windowless s.link := by cases l <;> rfl
  rw [opCheckPatternEnd, if_pos ⟨faxIs_of hst hrole hp, Option.isSome_iff_ne_none.mpr ha⟩, hdrop]
  dsimp only
  rw [put_line]
  rfl

section
variable {r : Rung}

theorem judgeCheck_fails (hl : s.ladder[agreedRung s l]? = some r) (h : r.d ≤ checkMean s l) :
    judgeCheck l (s.put l (s.line l).windowless s.link) = s.put l { (s.line l).windowless with
      fax := ({ (s.line l).fax with phase := some .check, failNext := false } : Fax).sent .checkFail } s.link := by
  rw [judgeCheck, agreedRung_put (by rfl) (by rfl), put_ladder, hl]
  dsimp only
  rw [if_neg, sendCheckFail_put]
  · rfl
  · rw [checkMean_put (by rfl) (by rfl) (by rfl)]; omega

theorem judgeCheck_accepts (hl : s.ladder[agreedRung s l]? = some r) (h : checkMean s l < r.d) (hf : (s.line l).fax.failNext = false) :
    judgeCheck l (s.put l (s.line l).windowless s.link) = checkAccepted l (s.put l (s.line l).windowless s.link) := by
  rw [judgeCheck, agreedRung_put (by rfl) (by rfl), put_ladder, hl]
  dsimp only
  rw [checkMean_put (by rfl) (by rfl) (by rfl), put_line]
  exact if_pos ⟨h, hf⟩

end

/-- The line with its check accepted. -/
def LineState.checked (mean : Nat) (x : LineState) : LineState := { x with modem := x.modem.checked mean }

theorem acceptCheck_windowless (hst : s.st l = .fax) :
    acceptCheck l (checkMean (s.put l (s.line l).windowless s.link) l) (s.put l (s.line l).windowless s.link) =
      s.put l ((s.line l).checked (checkMean s l)) s.link := by
  rw [checkMean_put (by rfl) (by rfl) (by rfl),
    acceptCheck_put (x := (s.line l).windowless) _ (by rw [show (s.line l).windowless.call.st = .fax from hst]; exact nofun)]
  rfl

/-- An accepted check goes on to the page. -/
theorem pageOpened_put : sendControl l .checkOk (beginWindow l (freshPage l (modFax l (fun f => { f with phase := some .page })
    (s.put l x k)))) = s.put l { x with
      fax := ({ x.fax with phase := some .page } : Fax).fresh.sent .checkOk
      modem := { x.modem with window := some x.profile.freshWindow } } k := by
  rw [modFax_put, freshPage_put, beginWindow_put, sendControl_put]

/-- The message is there already. -/
theorem checkAccepted_again (hst : s.st l = .fax) (hm : (s.line l).fax.message ≠ none) :
    checkAccepted l (s.put l (s.line l).windowless s.link) = s.put l { s.line l with
      fax := ({ (s.line l).fax with phase := some .page } : Fax).fresh.sent .checkOk
      modem := { (s.line l).modem.checked (checkMean s l) with window := some (s.line l).profile.freshWindow } } s.link := by
  rw [checkAccepted, acceptCheck_windowless hst, prepareMessage, put_line,
    if_pos (by exact Option.isSome_iff_ne_none.mpr hm)]
  dsimp only
  rw [pageOpened_put]
  rfl

/-- The message is created. -/
theorem checkAccepted_creates (hst : s.st l = .fax) (hm : (s.line l).fax.message = none) (hready : s.store.st = .ready)
    (hfree : createRefused s = false) : checkAccepted l (s.put l (s.line l).windowless s.link) =
      (createMessage (.line l) .fax none .none s).put l { s.line l with
        fax := ({ (s.line l).fax with message := some (freshId s), phase := some .page } : Fax).fresh.sent .checkOk
        modem := { (s.line l).modem.checked (checkMean s l) with window := some (s.line l).profile.freshWindow } } s.link := by
  have hentry : newEntry (s.put l ((s.line l).checked (checkMean s l)) s.link) (.line l) .fax none .none =
      newEntry s (.line l) .fax none .none := by
    cases l <;> rfl
  have hopen : ¬(storeReady (s.put l ((s.line l).checked (checkMean s l)) s.link) = false ∨
      createRefused (s.put l ((s.line l).checked (checkMean s l)) s.link) = true) := by
    rw [storeReady, createRefused, freeCount, put_store]
    rw [createRefused, freeCount] at hfree
    simp [hready, hfree]
  rw [checkAccepted, acceptCheck_windowless hst, prepareMessage, put_line, if_neg (by exact fun h => by simp [LineState.checked, hm] at h),
    if_neg hopen]
  dsimp only
  rw [createMessage_eq, hentry, created_put, modFax_put, freshId_put, pageOpened_put, createMessage_eq]
  rfl

/-- The store gives no message. -/
theorem checkAccepted_refused (hst : s.st l = .fax) (hm : (s.line l).fax.message = none)
    (hno : s.store.st ≠ .ready ∨ createRefused s = true) : checkAccepted l (s.put l (s.line l).windowless s.link) = s.put l { s.line l with
      fax := (s.line l).fax.ends .storeFull, modem := (s.line l).modem.checked (checkMean s l) } s.link := by
  have hshut : storeReady (s.put l ((s.line l).checked (checkMean s l)) s.link) = false ∨
      createRefused (s.put l ((s.line l).checked (checkMean s l)) s.link) = true := by
    rw [storeReady, createRefused, freeCount, put_store]
    rw [createRefused, freeCount] at hno
    exact hno.imp (fun h => decide_eq_false h) id
  rw [checkAccepted, acceptCheck_windowless hst, prepareMessage, put_line, if_neg (by exact fun h => by simp [LineState.checked, hm] at h),
    if_pos hshut]
  dsimp only
  rw [sendBye_put]
  rfl

end

end Sys2Proof.Machine
end

section
/-! PROOFS. The fax receiver's records and the judgement of its pages (R167, R168, R169). -/

namespace Sys2Proof.Machine

/-! ### Bytes that join a message -/

section
variable {s : State} {l : Line} {x : LineState} {k : Link} {id : Nat} {w : WStream}

theorem findWriter_put : findWriter (s.put l x k) id = findWriter s id := by rw [findWriter, put_store, findWriter]

theorem roomFor_put : roomFor (s.put l x k) w = roomFor s w := by
  unfold roomFor lineBuffersHeld
  rw [put_store]

theorem recordFits_put (n : Nat) : recordFits (s.put l x k) id n = recordFits s id n := by
  unfold recordFits
  rw [findWriter_put]
  cases findWriter s id with
  | none => rfl
  | some w => dsimp only; rw [roomFor_put]

theorem recordFits_of {n : Nat} (hw : findWriter s id = some w) (hf : w.failed = false) (hn : w.fits (roomFor s w) n = true) :
    recordFits s id n = true := by
  rw [recordFits, hw]
  dsimp only
  rw [hn, hf]
  rfl

theorem acceptedOf_put : acceptedOf (s.put l x k) id = acceptedOf s id := by rw [acceptedOf, findWriter_put, acceptedOf]

/-- While the port is busy bytes that are appended change the writer and the message's length alone. -/
theorem appendBytes_busy (hg : s.store.grant ≠ none) (bs : List Byte) (hw : findWriter s id = some w) : appendBytes id bs s =
    modEntry id (fun e => { e with length := e.length + ((w.pushAll (roomFor s w) bs).accepted - w.accepted) })
      (modWriter id (fun _ => w.pushAll (roomFor s w) bs) s) := by
  rw [appendBytes, hw]
  exact storeKick_of_grant hg

theorem appendBytes_put (hg : s.store.grant ≠ none) (bs : List Byte) (hw : findWriter s id = some w) :
    appendBytes id bs (s.put l x k) = (appendBytes id bs s).put l x k := by
  rw [appendBytes_busy (by rw [put_store]; exact hg) bs (findWriter_put.trans hw), appendBytes_busy hg bs hw, roomFor_put]
  unfold modWriter modEntry
  rw [modStore_put, modStore_put]

theorem appendBytes_frame (hg : s.store.grant ≠ none) (bs : List Byte) (hw : findWriter s id = some w) :
    appendBytes id bs s = { s with store := (appendBytes id bs s).store } := by
  rw [appendBytes_busy hg bs hw]; rfl

/-! ### Lines of a page (R167, R168) -/

/-- The engine as a line that is stored has been placed. -/
def Fax.lined (bad : Bool) (ends : Nat) (f : Fax) : Fax := { f with
  placed := f.placed + 1, expected := f.expected + 1, bad := f.bad + (if bad then 1 else 0), run := if bad then f.run + 1 else 0
  longest := if bad then max f.longest (f.run + 1) else f.longest, stored := f.stored + 1, lineEnds := f.lineEnds ++ [ends] }

theorem writerEnded_put (hm : x.fax.message = some id) (hw : findWriter s id = some w) : writerEnded (s.put l x k) l = w.failed := by
  rw [writerEnded, put_line, hm, Option.bind_some, findWriter_put, hw]; rfl

theorem startPage_put_started (hp : x.fax.pageStart ≠ none) : startPage l id (s.put l x k) = s.put l x k := by
  rw [startPage, put_line]
  exact if_pos (Option.isSome_iff_ne_none.mpr hp)

/-- A line that fits is stored. -/
theorem placeLine_put (hg : s.store.grant ≠ none) (hp : x.fax.pageStart ≠ none) (hm : x.fax.message = some id)
    (hw : findWriter s id = some w) (hf : w.failed = false) {data : List Byte} (hfits : w.fits (roomFor s w) (data.length + 2) = true)
    (bad : Bool) : ∃ ends, placeLine l data bad (s.put l x k) =
      (appendBytes id (numBytes 2 data.length ++ data) s).put l { x with fax := x.fax.lined bad ends } k := by
  have hlen : (numBytes 2 data.length ++ data).length = data.length + 2 := by rw [List.length_append, numBytes_length]; omega
  have hfit : recordFits (s.put l x k) id (numBytes 2 data.length ++ data).length = true := by
    rw [recordFits_put, hlen]; exact recordFits_of hw hf hfits
  refine ⟨acceptedOf (appendBytes id (numBytes 2 data.length ++ data) s) id, ?_⟩
  rw [placeLine, writerEnded_put hm hw, hf, if_neg nofun, put_line, hm, Option.getD_some]
  dsimp only
  rw [startPage_put_started hp]
  simp only [put_line, Option.isSome_iff_ne_none.mpr hp, hfit, Bool.true_and, Bool.not_true, Bool.or_false, if_true, appendRecord,
    appendBytes_put hg _ hw, modFax_put, acceptedOf_put]
  cases bad <;> rfl

theorem opLineRecord_eq {rec : RecordInput} (hst : s.st l = .fax) (hrole : (s.line l).fax.role = some .receiver)
    (hp : (s.line l).fax.phase = some .page) (ho : (s.line l).fax.outstanding = none) : opLineRecord l rec s =
      if RecordInput.good rec ∧ rec.length.toNat = rec.data.length then placeGood l rec.number.toNat rec.data s else placeBad l s := by
  have hsignal : pageSignal l s = s := if_neg (by simp [awaits, ho])
  rw [opLineRecord, if_pos ⟨faxIs_of hst hrole hp, hst⟩, hsignal]

end

/-! ### The judgement of a page (R169) -/

section
variable {s : State} {id : Nat}

/-- A rewrite of bytes leaves the pages of a message as its stream keeps them, and the directory. -/
theorem rewriteBytes_frame (offset : Nat) (bs : List Byte) :
    (findWriter (rewriteBytes id offset bs s) id).map (·.pages) = (findWriter s id).map (·.pages) ∧
      rewriteBytes id offset bs s = { s with store := (rewriteBytes id offset bs s).store } ∧
      (rewriteBytes id offset bs s).store.dir = s.store.dir ∧ (rewriteBytes id offset bs s).store.grant = s.store.grant := by
  have hpart (u : State) (seq at_ : Nat) (bs : List Byte) :
      (findWriter (rewritePart id seq at_ bs u) id).map (·.pages) = (findWriter u id).map (·.pages) ∧
        rewritePart id seq at_ bs u = { u with store := (rewritePart id seq at_ bs u).store } ∧
        (rewritePart id seq at_ bs u).store.dir = u.store.dir ∧ (rewritePart id seq at_ bs u).store.grant = u.store.grant := by
    unfold rewritePart
    split_ifs
    · exact ⟨rfl, rfl, rfl, rfl⟩
    · split
      · split_ifs
        · exact ⟨rfl, rfl, rfl, rfl⟩
        · rw [findWriter_modWriter id (fun _ => by rfl), Option.map_map]; exact ⟨rfl, rfl, rfl, rfl⟩
        · rw [findWriter_modWriter id (fun _ => by rfl), Option.map_map]; exact ⟨rfl, rfl, rfl, rfl⟩
      · exact ⟨rfl, rfl, rfl, rfl⟩
  obtain ⟨h1, h2, h3, h4⟩ := hpart s (seqOf offset) (offset - segStart (seqOf offset))
    (bs.take (segCapacity (seqOf offset) - (offset - segStart (seqOf offset))))
  obtain ⟨g1, g2, g3, g4⟩ := hpart (rewritePart id (seqOf offset) (offset - segStart (seqOf offset))
    (bs.take (segCapacity (seqOf offset) - (offset - segStart (seqOf offset)))) s) (seqOf offset + 1) 0
    (bs.drop (bs.take (segCapacity (seqOf offset) - (offset - segStart (seqOf offset)))).length)
  exact ⟨g1.trans h1, g2.trans (congrArg (fun u : State => { u with store := (rewriteBytes id offset bs s).store }) h2),
    g3.trans h3, g4.trans h4⟩

end

end Sys2Proof.Machine
end

section
/-! PROOFS. The end of a page at the fax receiver (R167, R169). -/

namespace Sys2Proof.Machine

/-! ### Verdict and report -/

section
variable {s t : State} {l : Line} {x : LineState} {k : Link} {id : Nat} {w : WStream} {r : Rung}

theorem put_withStore (s : State) (l : Line) (x : LineState) (k : Link) (st : Store) :
    { s.put l x k with store := st } = ({ s with store := st } : State).put l x k := by cases l <;> rfl

theorem agreedRung_congr (hl : t.ladder = s.ladder) (hr : (t.line l).fax.rungs = (s.line l).fax.rungs)
    (ha : (t.line l).fax.agreed = (s.line l).fax.agreed) : agreedRung t l = agreedRung s l := by
  have hf : faxRungOf t l = faxRungOf s l := by funext m; rw [faxRungOf, faxRungOf, hl, hr]
  rw [agreedRung, agreedRung, ha, hf]

/-- The verdict of a page, given the rung the modem stands on. -/
theorem judgedVerdict_put (hr : currentRung (s.put l x k) l = some r) : judgedVerdict (s.put l x k) l =
    if pageVerdict x.profile x.fax.placed x.fax.bad x.fax.longest = .good ∧ r.d ≤ x.modem.q then .retrainGood
    else pageVerdict x.profile x.fax.placed x.fax.bad x.fax.longest := by
  rw [judgedVerdict, hr, put_line]
  simp only [Option.map_some, Option.getD_some, decide_eq_true_eq]

/-- The engine as a VERDICT goes out. -/
def Fax.judges (v : Verdict) (total bad : Nat) (f : Fax) : Fax :=
  ({ f with lastVerdict := some (.verdict v total bad) } : Fax).sent (.verdict v total bad)

theorem sendVerdict_put (page : Nat) (v : Verdict) (total bad : Nat) : sendVerdict l page v total bad (s.put l x k) =
    s.put l { x with fax := x.fax.judges v total bad } (k.push (.page l page v total bad (agreedRung (s.put l x k) l))) := by
  rw [sendVerdict, modFax_put, reportPage, agreedRung_congr (t := s.put l { x with fax := { x.fax with
    lastVerdict := some (.verdict v total bad) } } k) (s := s.put l x k) (by rw [put_ladder, put_ladder]) (by rw [put_line, put_line])
    (by rw [put_line, put_line]), queueReport_put, sendControl_put]
  rfl

/-! ### A page that is kept -/

/-- The store as a page has joined the list of its message's pages. -/
def noted (id : Nat) (m : PageMark) (v : Verdict) (s : State) : State :=
  rewriteMark id m v false (modWriter id (fun w => { w with pages := w.pages ++ [m] }) s)

theorem rewriteBytes_put (offset : Nat) (bs : List Byte) :
    rewriteBytes id offset bs (s.put l x k) = (rewriteBytes id offset bs s).put l x k := by
  have hpart (u : State) (seq at_ : Nat) (bs : List Byte) :
      rewritePart id seq at_ bs (u.put l x k) = (rewritePart id seq at_ bs u).put l x k := by
    unfold rewritePart
    rw [findWriter_put]
    by_cases hb : bs = []
    · rw [if_pos hb, if_pos hb]
    · rw [if_neg hb, if_neg hb]
      split
      · unfold modWriter
        rw [modStore_put, modStore_put, modStore_put]
        split_ifs <;> rfl
      · rfl
  rw [rewriteBytes, rewriteBytes, hpart, hpart]

theorem noted_put (m : PageMark) (v : Verdict) : noted id m v (s.put l x k) = (noted id m v s).put l x k := by
  unfold noted rewriteMark modWriter
  rw [modStore_put, rewriteBytes_put]

theorem noted_frame (m : PageMark) (v : Verdict) (hw : findWriter s id = some w) :
    (findWriter (noted id m v s) id).map (·.pages) = some (w.pages ++ [m]) ∧
      noted id m v s = { s with store := (noted id m v s).store } ∧ (noted id m v s).store.dir = s.store.dir ∧
      (noted id m v s).store.grant = s.store.grant := by
  obtain ⟨h1, h2, h3, h4⟩ := rewriteBytes_frame (s := modWriter id (fun w => { w with pages := w.pages ++ [m] }) s) (id := id) m.start
    (pageHeader m.number m.fine m.lineEnds.length m.bad m.longest v false (v ≠ .none && decide (0 < m.bad)) false m.lineTime)
  refine ⟨h1.trans ?_, h2, h3, h4⟩
  rw [findWriter_modWriter id (fun _ => by rfl), hw]
  rfl

/-- The engine as its page is counted. -/
def Fax.counted (f : Fax) : Fax := { f with
  phase := some .verdict, page := f.page + 1, pageCount := f.pageCount + 1, pageStart := none }

/-- A page that is not BAD joins its message, and its verdict goes out. -/
theorem judgePage_keeps {v : Verdict} {o : Nat} (hv : judgedVerdict (s.put l x k) l = v) (hne : v ≠ .bad)
    (ho : x.fax.pageStart = some o) (hm : x.fax.message = some id) (hw : findWriter s id = some w) (hg : s.store.grant ≠ none) :
    judgePage l (s.put l x k) = (noted id (x.fax.mark o true) v s).put l { x with
      fax := x.fax.counted.judges v x.fax.placed x.fax.bad } (k.push (.page l x.fax.page v x.fax.placed x.fax.bad
        (agreedRung (s.put l x k) l))) := by
  obtain ⟨-, hframe, -, hgrant⟩ := noted_frame (x.fax.mark o true) v hw
  have hnote : notePage l v (s.put l x k) = (noted id (x.fax.mark o true) v s).put l x k := by
    rw [notePage, put_line, ho, hm]
    dsimp only
    refine (storeKick_of_grant ?_).trans (noted_put _ v)
    show (noted id (x.fax.mark o true) v (s.put l x k)).store.grant ≠ none
    rw [noted_put, put_store, hgrant]
    exact hg
  have hkept : judgePage l (s.put l x k) = sendVerdict l x.fax.page v x.fax.placed x.fax.bad (modFax l (fun f => { f with
      phase := some .verdict, page := f.page + 1, pageCount := f.pageCount + 1, pageStart := none })
      (notePage l v (s.put l x k))) := by
    rw [judgePage, hv, put_line]
    cases v with
    | bad => exact absurd rfl hne
    | none | good | retrainGood => rfl
  rw [hkept, hnote, modFax_put, sendVerdict_put, agreedRung_congr (s := s.put l x k) (by rw [hframe, put_ladder, put_ladder])
    (by rw [put_line, put_line]) (by rw [put_line, put_line])]
  rfl

end

end Sys2Proof.Machine
end

section
/-! PROOFS. The end of a page that is cut, and the fax receiver together (R167, R169). -/

namespace Sys2Proof.Machine

section
variable {s t : State} {l : Line} {x : LineState} {k : Link} {id : Nat} {w : WStream} {e : Entry}

/-! ### PAGE_END (R167, R169) -/

/-- The line as it takes a PAGE_END. -/
def LineState.pageEnded (x : LineState) (last : Bool) (lines : Nat) : LineState := { x with
  fax := { x.fax with taken := some .pageEnd, lastPageEnd := some (last, lines) }, modem := { x.modem with window := none } }

/-- A PAGE_END that ends the page in progress, all its lines being placed. -/
theorem opPageEnd_started {last : Bool} {n : Word16} (hst : s.st l = .fax) (hrole : (s.line l).fax.role = some .receiver)
    (hp : (s.line l).fax.phase = some .page) (ho : (s.line l).fax.outstanding = none) (hstart : (s.line l).fax.pageStart ≠ none)
    (hn : n.toNat = (s.line l).fax.placed) (hm : (s.line l).fax.message = some id) (hw : findWriter s id = some w)
    (hf : w.failed = false) : opPageEnd l last n s = judgePage l (s.put l ((s.line l).pageEnded last n.toNat) s.link) := by
  have hruns : ¬(faxRuns s l = false ∨ (s.line l).fax.role ≠ some .receiver) := by
    rw [faxRuns_of_fax hst (by rw [hrole]; exact nofun), hrole]; simp
  have hrep : ¬(repeatsPageEnd s l last n.toNat = true ∧ (s.line l).fax.phase ≠ some .verdict ∧ (s.line l).fax.phase ≠ some .ended) := by
    simp [repeatsPageEnd, awaits, ho]
  have hsignal : pageSignal l s = s := if_neg (by simp [awaits, ho])
  have htaken : modFax l (fun f => { f with lastPageEnd := some (last, n.toNat) }) (noteTaken l .pageEnd s) = s.put l { s.line l with
      fax := { (s.line l).fax with taken := some .pageEnd, lastPageEnd := some (last, n.toNat) } } s.link := by cases l <;> rfl
  rw [opPageEnd]
  dsimp only
  rw [if_neg hruns, if_neg hrep, if_pos ⟨hp, hst⟩, hsignal, htaken, startPage_put_started (by exact hstart), hn, Nat.sub_self, concealLines,
    dropWindow_put]
  exact if_neg fun h => by rw [writerEnded_put (id := id) (by exact hm) hw, hf] at h; cases h

/-- The header of a page with no line yet. -/
def Fax.header0 (f : Fax) : List Byte := pageHeader f.page f.fine openLines 0 0 .none false false false f.lineTime

theorem header0_length (f : Fax) : f.header0.length = 16 := by simp [Fax.header0, pageHeader, numBytes_length, oneByte_length]

/-- A page begins with its header, for which the stream has room. -/
theorem startPage_put (hg : s.store.grant ≠ none) (hstart : x.fax.pageStart = none) (hw : findWriter s id = some w) (hf : w.failed = false)
    (hfits : w.fits (roomFor s w) 16 = true) : startPage l id (s.put l x k) = (appendBytes id x.fax.header0 s).put l
      { x with fax := { x.fax with pageStart := some w.accepted } } k := by
  have hfit (y : LineState) : recordFits (s.put l y k) id x.fax.header0.length = true := by
    rw [recordFits_put, header0_length]; exact recordFits_of hw hf hfits
  have hacc : acceptedOf (s.put l x k) id = w.accepted := by rw [acceptedOf_put, acceptedOf, hw]; rfl
  rw [startPage, put_line, if_neg (by simp [hstart])]
  show appendRecord l id x.fax.header0 (if recordFits (s.put l x k) id x.fax.header0.length = true then
    modFax l (fun f => { f with pageStart := some (acceptedOf (s.put l x k) id) }) (s.put l x k) else s.put l x k) = _
  rw [if_pos (hfit x), modFax_put, hacc, appendRecord, if_pos (hfit _), appendBytes_put hg _ hw]

/-- A stream that takes the place of another of its id is found. -/
theorem findWriter_replaced {y : WStream} (hid : y.id = id) (hw : findWriter s id = some w) :
    findWriter (modWriter id (fun _ => y) s) id = some y := by
  have hfind (xs : List WStream) (h : xs.find? (fun w => decide (w.id = id)) = some w) :
      (updateWhere (fun w => decide (w.id = id)) (fun _ => y) xs).find? (fun w => decide (w.id = id)) = some y := by
    induction xs with
    | nil => cases h
    | cons z rest ih =>
      rw [updateWhere, List.map_cons]
      by_cases hz : z.id = id
      · rw [if_pos (decide_eq_true hz), List.find?_cons_of_pos (by simp [hid])]
      · rw [if_neg (by simp [hz]), List.find?_cons_of_neg (by simp [hz])]
        exact ih (by rwa [List.find?_cons_of_neg (by simp [hz])] at h)
  exact hfind s.store.writers hw

/-- The header of a page has joined its message. -/
theorem appendBytes_header (hg : s.store.grant ≠ none) (hw : findWriter s id = some w) (he : findEntry s id = some e)
    (hm : w.mayFill (roomFor s w) = true) (hlen : w.filling.length + 16 < w.fillCapacity) (f : Fax) :
    let t := appendBytes id f.header0 s
    findWriter t id = some { w with filling := w.filling ++ f.header0 } ∧ findEntry t id = some { e with length := e.length + 16 } ∧
      t = { s with store := t.store } ∧ t.store.grant = s.store.grant := by
  have hpush := pushAll_fills f.header0 hm (by rw [header0_length]; exact hlen)
  have hacc : ({ w with filling := w.filling ++ f.header0 } : WStream).accepted - w.accepted = 16 := by
    have h := header0_length f
    simp only [WStream.accepted, WStream.buffered, WStream.toReadBack, List.length_append]; omega
  have hrun := appendBytes_busy hg f.header0 hw
  rw [hpush, hacc] at hrun
  dsimp only
  refine ⟨?_, ?_, appendBytes_frame hg _ hw, by rw [hrun]; rfl⟩
  · rw [hrun]
    have hid : ({ w with filling := w.filling ++ f.header0 } : WStream).id = id := show w.id = id from findWriter_id hw
    exact findWriter_replaced hid hw
  · rw [hrun, findEntry_modEntry id (fun _ => by rfl)]
    exact congrArg (Option.map _) he

/-- The line as it takes the PAGE_END of a next page, which begins at an offset. -/
def LineState.pageBegun (x : LineState) (last : Bool) (lines start : Nat) : LineState := { x with
  fax := { x.fax with outstanding := none, taken := some .pageEnd, lastPageEnd := some (last, lines), pageStart := some start }
  modem := { x.modem with window := none } }

/-- A PAGE_END that is of a next page, which starts with its header and has no line. -/
theorem opPageEnd_next {last : Bool} {n : Word16} {o : Outstanding} (hst : s.st l = .fax) (hrole : (s.line l).fax.role = some .receiver)
    (hp : (s.line l).fax.phase = some .page) (ho : (s.line l).fax.outstanding = some o) (hv : o.msg.isVerdict = true)
    (hne : (s.line l).fax.lastPageEnd ≠ some (last, n.toNat)) (hn : n.toNat = (s.line l).fax.placed)
    (hstart : (s.line l).fax.pageStart = none) (hm : (s.line l).fax.message = some id) (hw : findWriter s id = some w)
    (hf : w.failed = false) (hg : s.store.grant ≠ none) (he : findEntry s id = some e) (hmay : w.mayFill (roomFor s w) = true)
    (hlen : w.filling.length + 16 < w.fillCapacity) : opPageEnd l last n s =
      judgePage l ((appendBytes id (s.line l).fax.header0 s).put l ((s.line l).pageBegun last n.toNat w.accepted) s.link) := by
  have hruns : ¬(faxRuns s l = false ∨ (s.line l).fax.role ≠ some .receiver) := by
    rw [faxRuns_of_fax hst (by rw [hrole]; exact nofun), hrole]; simp
  have hrep : ¬(repeatsPageEnd s l last n.toNat = true ∧ (s.line l).fax.phase ≠ some .verdict ∧ (s.line l).fax.phase ≠ some .ended) := by
    simp [repeatsPageEnd, hne]
  have hsignal : pageSignal l s = discharge l s := if_pos (by simp [awaits, ho, hv])
  have htaken : modFax l (fun f => { f with lastPageEnd := some (last, n.toNat) }) (noteTaken l .pageEnd (discharge l s)) =
      s.put l { s.line l with fax := { (s.line l).fax with
        outstanding := none, taken := some .pageEnd, lastPageEnd := some (last, n.toNat) } } s.link := by cases l <;> rfl
  have hfits : w.fits (roomFor s w) 16 = true := by
    simp only [WStream.fits, WStream.space, hmay, if_true, Bool.true_and, decide_eq_true_eq]; omega
  have hbegun : dropWindow l (startPage l id (s.put l { s.line l with fax := { (s.line l).fax with
      outstanding := none, taken := some .pageEnd, lastPageEnd := some (last, n.toNat) } } s.link)) =
      (appendBytes id (s.line l).fax.header0 s).put l ((s.line l).pageBegun last n.toNat w.accepted) s.link := by
    rw [startPage_put hg (by exact hstart) hw hf hfits, dropWindow_put]; rfl
  obtain ⟨hw', -, -, -⟩ := appendBytes_header hg hw he hmay hlen (s.line l).fax
  have hgoes : writerEnded ((appendBytes id (s.line l).fax.header0 s).put l ((s.line l).pageBegun last n.toNat w.accepted) s.link) l =
      false := (writerEnded_put (id := id) (by exact hm) hw').trans hf
  rw [opPageEnd]
  dsimp only
  rw [if_neg hruns, if_neg hrep, if_pos ⟨hp, hst⟩, hsignal, htaken, hm, Option.getD_some, hn, Nat.sub_self, concealLines, ← hn, hbegun,
    hgoes, if_neg nofun]

/-! ### A page that is cut (R169) -/

/-- A cut that leaves every segment and takes what it cuts out of the buffer is complete at once, and its owner is told. -/
theorem cutTo_buffered {o : Nat} (hw : findWriter s id = some w) (he : findEntry s id = some e) (ha : w.active = true)
    (hgr : w.granted = false) (hh : w.handed = none) (hseg : w.seg = none) (hc : w.cut = .none)
    (hcl : w.closing = none) (hbase : w.base = segStart w.seq) (ho : w.base ≤ o) (hnext : o < segStart (w.seq + 1))
    (hall : ∀ i, i < e.chain.length → segStart i < o) :
    ∃ t, cutTo id o s = post (.cutDone w.owner id) t ∧ t = { s with store := t.store } ∧
      findEntry t id = some { e with length := o } ∧ t.store.grant = s.store.grant ∧
      (findWriter t id).map (·.filling) = some (w.filling.take (o - w.base)) ∧
      (findWriter t id).map (·.pages) = some w.pages := by
  have hid := findWriter_id hw
  have hcap : segStart (w.seq + 1) = segStart w.seq + segCapacity w.seq := by
    simp only [segStart, segCapacity]; split_ifs <;> omega
  have hkeep : (List.range e.chain.length).filter (fun i => decide (segStart i < o)) = List.range e.chain.length :=
    List.filter_eq_self.mpr fun i hi => decide_eq_true (hall i (List.mem_range.mp hi))
  have he' : findEntry (modEntry id (fun e => { e with length := o }) s) id = some { e with length := o } := by
    rw [findEntry_modEntry id (fun _ => by rfl), he]; rfl
  let held : WStream := { w with
    handed := none, filling := w.filling.take (o - w.base), seg := none, inStore := min w.inStore (o - w.base)
    cut := .running 0 none, region := e.chain.getLast?.map regionOfSeg }
  let u : State := { s with store := { s.store with
    dir := updateWhere (fun x => decide (x.id = id)) (fun x => { x with length := o }) s.store.dir
    writers := updateWhere (fun x => decide (x.id = id)) (fun _ => held) s.store.writers
    waiting := s.store.waiting.filter fun x => decide (x ≠ id) } }
  let t : State := modWriter id (fun x => { x with cut := .none }.handOver) u
  have hover : ({ held with cut := .none } : WStream).handOver = { held with cut := .none } := by
    refine if_neg fun h => ?_
    have hlen : (w.filling.take (o - w.base)).length ≤ o - w.base := by rw [List.length_take]; omega
    have hfull : segCapacity w.seq ≤ (w.filling.take (o - w.base)).length := h.2.2
    omega
  have hfind : findWriter t id = some { held with cut := .none } := by
    have hheld : findWriter (modWriter id (fun _ => held) s) id = some held := findWriter_replaced (show held.id = id from hid) hw
    have hmod := findWriter_modWriter id (f := fun x => { x with cut := .none }.handOver) (fun x => by rw [handOver_frame])
      (modWriter id (fun _ => held) s)
    rw [hheld, Option.map_some, hover] at hmod
    exact hmod
  refine ⟨t, ?_, rfl, ?_, rfl, by rw [hfind]; rfl, by rw [hfind]; rfl⟩
  · have hread : w.toReadBack = none := by rw [WStream.toReadBack, hc]
    have hcarry : carryCut id o (modEntry id (fun e => { e with length := o }) s) = cutFinished id u := by
      rw [carryCut, show findWriter (modEntry id (fun e => { e with length := o }) s) id = some w from hw, he']
      simp only [if_pos ho, hkeep, List.length_range, List.drop_length, List.take_length, hread, Option.bind_none, hh, Option.getD_none,
        List.nil_append, hseg, ite_self, List.length_nil, List.filter_nil, List.map_nil, and_self, if_true, modStore, List.append_nil]
      exact rfl
    rw [cutTo, hw]
    dsimp only
    rw [hgr, if_neg nofun, hcarry]
    have hfinished : cutFinished id u = progressClose id (if w.active then post (.cutDone w.owner id) t else t) := by
      rw [cutFinished, show modWriter id (fun x : WStream => ({ x with cut := .none } : WStream).handOver) u = t from rfl, hfind]
    rw [hfinished, if_pos ha]
    exact progressClose_open (w := { held with cut := .none }) hfind hcl
  · exact he'

end

end Sys2Proof.Machine
end

section
/-! PROOFS. The fax receiver together (R162 to R164, R167 to R169). -/

namespace Sys2Proof.Machine

section
variable {s : State} {l : Line} {x : LineState} {k : Link} {id : Nat} {w : WStream} {e : Entry}

theorem cutPage_put {after : AfterCut} {o : Nat} (hstart : x.fax.pageStart = some o) (hm : x.fax.message = some id) :
    cutPage l after (s.put l x k) = storeKick (cutTo id o (s.put l { x with fax := { x.fax with afterCut := some after } } k)) := by
  rw [cutPage, put_line, modFax_put]
  dsimp only
  rw [hstart, hm]

/-- A page that is BAD is cut off its message, and its verdict goes out as the cut is complete. -/
theorem judgePage_cuts {o : Nat} (hs : s.requests = []) (hst : x.call.st = .fax) (hrole : x.fax.role = some .receiver)
    (hv : judgedVerdict (s.put l x k) l = .bad) (hstart : x.fax.pageStart = some o) (hm : x.fax.message = some id)
    (hw : findWriter s id = some w) (hg : s.store.grant ≠ none) (he : findEntry s id = some e) (hown : w.owner = .line l)
    (ha : w.active = true) (hgr : w.granted = false) (hh : w.handed = none) (hseg : w.seg = none) (hc : w.cut = .none)
    (hcl : w.closing = none) (hbase : w.base = segStart w.seq) (ho : w.base ≤ o) (hnext : o < segStart (w.seq + 1))
    (hall : ∀ i, i < e.chain.length → segStart i < o) :
    ∃ t : State, finish (judgePage l (s.put l x k)) = t.put l { x with
        fax := ({ x.fax with phase := some .verdict } : Fax).fresh.judges .bad x.fax.placed x.fax.bad }
        (k.push (.page l x.fax.page .bad x.fax.placed x.fax.bad (agreedRung (s.put l x k) l))) ∧
      t = { s with store := t.store } ∧ findEntry t id = some { e with length := o } ∧
      (findWriter t id).map (·.filling) = some (w.filling.take (o - w.base)) ∧ (findWriter t id).map (·.pages) = some w.pages := by
  let y : LineState := { x with fax := { x.fax with
    phase := some .verdict, afterCut := some (.verdictBad x.fax.placed x.fax.bad) } }
  obtain ⟨t, hcut, hframe, hentry, hgrant, hfill, hpages⟩ := cutTo_buffered (s := s.put l y k) (findWriter_put.trans hw)
    ((findEntry_put ..).trans he) ha hgr hh hseg hc hcl hbase ho hnext hall
  rw [put_withStore] at hframe
  have hjudge : judgePage l (s.put l x k) = storeKick (cutTo id o (s.put l y k)) := by
    rw [judgePage, hv, put_line]
    dsimp only
    rw [modFax_put]
    exact cutPage_put (by exact hstart) (by exact hm)
  have hbusy : (post (.cutDone w.owner id) t).store.grant ≠ none := by
    show t.store.grant ≠ none
    rw [hgrant, put_store]; exact hg
  have htold : faxCutDone l t = ({ s with store := t.store } : State).put l { x with
      fax := ({ x.fax with phase := some .verdict } : Fax).fresh.judges .bad x.fax.placed x.fax.bad }
      (k.push (.page l x.fax.page .bad x.fax.placed x.fax.bad (agreedRung (s.put l x k) l))) := by
    have hruns : faxRuns (({ s with store := t.store } : State).put l y k) l = true :=
      faxRuns_of_fax ((put_st ..).trans hst) (by rw [put_line, show y.fax.role = some .receiver from hrole]; exact nofun)
    rw [hframe, faxCutDone, hruns, if_pos rfl, put_line]
    dsimp only
    rw [show y.fax.afterCut = some (.verdictBad x.fax.placed x.fax.bad) from rfl]
    dsimp only
    rw [freshPage_put, if_neg (by exact nofun), sendVerdict_put, agreedRung_congr (s := s.put l x k)
      (by rw [put_ladder, put_ladder]) (by rw [put_line, put_line]; rfl) (by rw [put_line, put_line]; rfl), put_store]
    exact rfl
  refine ⟨{ s with store := t.store }, ?_, rfl, ?_, ?_, ?_⟩
  · rw [hjudge, hcut, storeKick_of_grant hbusy, hown]
    refine finish_post (r := .cutDone (.line l) id) ?_ htold ((put_requests ..).trans hs)
    rw [hframe, put_requests]; exact hs
  · exact hentry
  · exact hfill
  · exact hpages

end

section
variable {p : Profile} {total bad longest : Nat}

theorem pageVerdict_good (h : bad * 1000 ≤ total * p.goodPerMille ∧ longest ≤ p.runLimit) : pageVerdict p total bad longest = .good :=
  if_pos h

theorem pageVerdict_usable (h : ¬(bad * 1000 ≤ total * p.goodPerMille ∧ longest ≤ p.runLimit))
    (hu : bad * 1000 ≤ total * p.retrainPerMille ∧ longest ≤ 2 * p.runLimit) : pageVerdict p total bad longest = .retrainGood :=
  (if_neg h).trans (if_pos hu)

theorem pageVerdict_bad (h : ¬(bad * 1000 ≤ total * p.goodPerMille ∧ longest ≤ p.runLimit))
    (hu : ¬(bad * 1000 ≤ total * p.retrainPerMille ∧ longest ≤ 2 * p.runLimit)) : pageVerdict p total bad longest = .bad :=
  (if_neg h).trans (if_neg hu)

end

section
variable {s : State} {l : Line} {id : Nat} {w : WStream}

/-- A line and the terminal link over a state that differs in its store alone. -/
theorem put_of_store {t : State} (y : LineState) (k' : Link) (h : t = { s with store := t.store }) :
    t.put l y k' = { s.setLine l y with link := k', store := t.store } := by
  obtain ⟨st, rfl⟩ : ∃ st, t = { s with store := st } := ⟨_, h⟩
  cases l <;> rfl

/-- A PAGE_END that keeps the page in progress. -/
theorem exec_pageEnd_keeps {last : Bool} {n : Word16} {v : Verdict} {r : Rung} {o : Nat} (hs : s.requests = []) (hst : s.st l = .fax)
    (hrole : (s.line l).fax.role = some .receiver) (hg : s.store.grant ≠ none) (hp : (s.line l).fax.phase = some .page)
    (ho : (s.line l).fax.outstanding = none) (hstart : (s.line l).fax.pageStart = some o) (hm : (s.line l).fax.message = some id)
    (hw : findWriter s id = some w) (hf : w.failed = false) (hn : n.toNat = (s.line l).fax.placed) (hr : currentRung s l = some r)
    (hv : (if pageVerdict (s.line l).profile (s.line l).fax.placed (s.line l).fax.bad (s.line l).fax.longest = .good ∧
      r.d ≤ (s.line l).modem.q then .retrainGood
      else pageVerdict (s.line l).profile (s.line l).fax.placed (s.line l).fax.bad (s.line l).fax.longest) = v) (hne : v ≠ .bad) :
    ∃ u, exec (.pageEnd l last n) s = .next u ∧
      (u.line l).fax = ({ (s.line l).fax with
        phase := some .verdict, page := (s.line l).fax.page + 1, pageCount := (s.line l).fax.pageCount + 1, pageStart := none
        taken := some .pageEnd, lastVerdict := some (.verdict v (s.line l).fax.placed (s.line l).fax.bad)
        lastPageEnd := some (last, n.toNat) } : Fax).sent (.verdict v (s.line l).fax.placed (s.line l).fax.bad) ∧
      (findWriter u id).map (·.pages) = some (w.pages ++ [(s.line l).fax.mark o true]) ∧
      u.link = (queueReport (.page l (s.line l).fax.page v (s.line l).fax.placed (s.line l).fax.bad (agreedRung s l)) s).link ∧
      u = { s.setLine l { s.line l with fax := (u.line l).fax, modem := { (s.line l).modem with window := none } } with
        link := u.link, store := u.store } := by
  let y := (s.line l).pageEnded last n.toNat
  have hrung : currentRung (s.put l y s.link) l = some r := (currentRung_put ..).trans hr
  have hop := opPageEnd_started (last := last) hst hrole hp ho (by rw [hstart]; exact nofun) hn hm hw hf
  rw [judgePage_keeps (v := v) ((judgedVerdict_put hrung).trans hv) hne (by exact hstart) (by exact hm) hw hg] at hop
  obtain ⟨hpages, hframe, -, -⟩ := noted_frame (y.fax.mark o true) v hw
  rw [agreedRung_put (by rfl) (by rfl)] at hop
  refine ⟨_, exec_of_op (c := .pageEnd l last n) hop ((put_requests ..).trans (by rw [hframe]; exact hs)), by rw [put_line]; rfl,
    (congrArg _ findWriter_put).trans hpages, by rw [put_link, queueReport_eq]; rfl, ?_⟩
  rw [put_of_store _ _ hframe]
  cases l <;> rfl

/-- A PAGE_END of a next page without a line, which begins with its header. -/
theorem exec_pageEnd_next {last : Bool} {n : Word16} {v : Verdict} {r : Rung} {o : Outstanding} {e : Entry} (hs : s.requests = [])
    (hst : s.st l = .fax) (hrole : (s.line l).fax.role = some .receiver) (hg : s.store.grant ≠ none)
    (hp : (s.line l).fax.phase = some .page) (ho : (s.line l).fax.outstanding = some o) (hverdict : o.msg.isVerdict = true)
    (hnew : (s.line l).fax.lastPageEnd ≠ some (last, n.toNat)) (hn : n.toNat = (s.line l).fax.placed)
    (hstart : (s.line l).fax.pageStart = none) (hm : (s.line l).fax.message = some id) (hw : findWriter s id = some w)
    (hf : w.failed = false) (he : findEntry s id = some e) (hmay : w.mayFill (roomFor s w) = true)
    (hlen : w.filling.length + 16 < w.fillCapacity) (hr : currentRung s l = some r)
    (hv : (if pageVerdict (s.line l).profile (s.line l).fax.placed (s.line l).fax.bad (s.line l).fax.longest = .good ∧
      r.d ≤ (s.line l).modem.q then .retrainGood
      else pageVerdict (s.line l).profile (s.line l).fax.placed (s.line l).fax.bad (s.line l).fax.longest) = v) (hne : v ≠ .bad) :
    ∃ u, exec (.pageEnd l last n) s = .next u ∧
      (u.line l).fax = ({ (s.line l).fax with
        phase := some .verdict, page := (s.line l).fax.page + 1, pageCount := (s.line l).fax.pageCount + 1
        taken := some .pageEnd, lastVerdict := some (.verdict v (s.line l).fax.placed (s.line l).fax.bad)
        lastPageEnd := some (last, n.toNat) } : Fax).sent (.verdict v (s.line l).fax.placed (s.line l).fax.bad) ∧
      (findWriter u id).map (·.pages) = some (w.pages ++ [(s.line l).fax.mark w.accepted true]) ∧
      findEntry u id = some { e with length := e.length + 16 } ∧
      u.link = (queueReport (.page l (s.line l).fax.page v (s.line l).fax.placed (s.line l).fax.bad (agreedRung s l)) s).link ∧
      u = { s.setLine l { s.line l with fax := (u.line l).fax, modem := { (s.line l).modem with window := none } } with
        link := u.link, store := u.store } := by
  let y := (s.line l).pageBegun last n.toNat w.accepted
  obtain ⟨hw', he', hbegun, hgrant⟩ := appendBytes_header hg hw he hmay hlen (s.line l).fax
  have hop := opPageEnd_next hst hrole hp ho hverdict hnew hn hstart hm hw hf hg he hmay hlen
  generalize appendBytes id (s.line l).fax.header0 s = t at hw' he' hbegun hgrant hop
  have hladder : t.ladder = s.ladder := by rw [hbegun]
  have hrung : currentRung (t.put l y s.link) l = some r := by rw [currentRung_put, hladder]; exact hr
  rw [judgePage_keeps (v := v) ((judgedVerdict_put hrung).trans hv) hne (by rfl) (by exact hm) hw' (by rw [hgrant]; exact hg),
    agreedRung_congr (s := s) (by rw [put_ladder, hladder]) (by rw [put_line]; rfl) (by rw [put_line]; rfl)] at hop
  obtain ⟨hpages, hframe, hdir, -⟩ := noted_frame (y.fax.mark w.accepted true) v hw'
  have hall : noted id (y.fax.mark w.accepted true) v t = { s with store := (noted id (y.fax.mark w.accepted true) v t).store } :=
    hframe.trans (congrArg (fun z : State => { z with store := (noted id (y.fax.mark w.accepted true) v t).store }) hbegun)
  refine ⟨_, exec_of_op (c := .pageEnd l last n) hop ((put_requests ..).trans (by rw [hall]; exact hs)), ?_,
    (congrArg _ findWriter_put).trans hpages, ?_, by rw [put_link, queueReport_eq]; rfl, ?_⟩
  · rw [put_line]
    exact congrArg (fun p => ({ (s.line l).fax with
      phase := some .verdict, page := (s.line l).fax.page + 1, pageCount := (s.line l).fax.pageCount + 1, pageStart := p
      taken := some .pageEnd, lastVerdict := some (.verdict v (s.line l).fax.placed (s.line l).fax.bad)
      lastPageEnd := some (last, n.toNat) } : Fax).sent (.verdict v (s.line l).fax.placed (s.line l).fax.bad)) hstart.symm
  · rw [findEntry_put, findEntry, hdir]; exact he'
  · rw [put_of_store _ _ hall]
    cases l <;> rfl

/-- A PAGE_END that repeats the one judged last. -/
theorem opPageEnd_repeats {last : Bool} {n : Word16} {o : Outstanding} {m : FaxMsg} (hst : s.st l = .fax)
    (hrole : (s.line l).fax.role = some .receiver) (hp : (s.line l).fax.phase = some .page) (ho : (s.line l).fax.outstanding = some o)
    (hv : o.msg.isVerdict = true) (hsame : (s.line l).fax.lastPageEnd = some (last, n.toNat)) (hm : (s.line l).fax.lastVerdict = some m) :
    opPageEnd l last n s = sendAgain l m s := by
  have hruns : ¬(faxRuns s l = false ∨ (s.line l).fax.role ≠ some .receiver) := by
    rw [faxRuns_of_fax hst (by rw [hrole]; exact nofun), hrole]; simp
  have hrep : repeatsPageEnd s l last n.toNat = true ∧ (s.line l).fax.phase ≠ some .verdict ∧ (s.line l).fax.phase ≠ some .ended := by
    simp [repeatsPageEnd, awaits, ho, hv, hsame, hp]
  rw [opPageEnd]
  dsimp only
  rw [if_neg hruns, if_pos hrep, repeatVerdict, hm]

end

theorem onOff_of_le {n : Nat} (h : n ≤ 1) : ∃ b, onOff n = some b := by
  obtain rfl | rfl : n = 0 ∨ n = 1 := by omega
  · exact ⟨false, rfl⟩
  · exact ⟨true, rfl⟩

/-- Settles O55, message by message of the far end. -/
theorem faxReceiverChecksStoresAndJudges : Obligations.FaxReceiverChecksStoresAndJudges := by
  refine ⟨?_, ?_⟩
  · intro l s hs hrole hst hg x f with_ out bye counts fresh quiet fresh_ accepted paged
    have hput (y : LineState) : s.put l y s.link = s.setLine l y := (setLine_eq_put s l y).symm
    refine ⟨fun b t hp => ⟨fun mode i hm hi => ?_, fun hm => ?_⟩, fun r hp ha hl hfail => ⟨fun hc => ?_, fun hc hd => ?_,
      fun hc hd => ⟨fun hm => ?_, fun hm hready hfree => ?_, fun hm hno => ?_⟩⟩,
      fun rec id o w hp ho hstart hm hw hf => ⟨fun hgood hlen h512 hnum hfits => ?_, fun hbad hfits => ?_⟩,
      fun last n id o r w hp ho hstart hm hw hid hf hn hmille hlong hr hq => ?_,
      fun last n o hp ho hv => ⟨fun m hlast hsame => ?_, ?_⟩⟩
    · exact exec_set_accepted hs hst hrole hp (fine := false) rfl hm hi nofun
    · exact exec_set_unsupported hs hst hrole hp (fine := false) rfl (.inl hm)
    · have hop := opCheckPatternEnd_eq hst hrole hp ha
      rw [if_neg (Nat.not_le.mpr hc), freshCheck_put] at hop
      exact exec_of_op (c := .checkPatternEnd l) (hop.trans (hput _)) ((setLine_requests ..).trans hs)
    · have hop := opCheckPatternEnd_eq hst hrole hp ha
      have hsame : ({ f with phase := some .check, failNext := false } : Fax) = f := by rw [← hp, ← hfail]
      rw [if_pos hc, judgeCheck_fails hl hd, freshCheck_put, hsame] at hop
      exact exec_of_op (c := .checkPatternEnd l) (hop.trans (hput _)) ((setLine_requests ..).trans hs)
    · have hop := opCheckPatternEnd_eq hst hrole hp ha
      rw [if_pos hc, judgeCheck_accepts hl hd hfail, checkAccepted_again hst hm, freshCheck_put] at hop
      exact exec_of_op (c := .checkPatternEnd l) (hop.trans (hput _)) ((setLine_requests ..).trans hs)
    · have hop := opCheckPatternEnd_eq hst hrole hp ha
      rw [if_pos hc, judgeCheck_accepts hl hd hfail, checkAccepted_creates hst hm hready hfree, freshCheck_put] at hop
      refine (exec_of_op (c := .checkPatternEnd l) hop ((put_requests ..).trans hs)).trans (congrArg _ ?_)
      cases l <;> rfl
    · have hop := opCheckPatternEnd_eq hst hrole hp ha
      rw [if_pos hc, judgeCheck_accepts hl hd hfail, checkAccepted_refused hst hm hno, freshCheck_put] at hop
      exact exec_of_op (c := .checkPatternEnd l) (hop.trans (hput _)) ((setLine_requests ..).trans hs)
    · have hop := opLineRecord_eq (rec := rec) hst hrole hp ho
      have hgood' : modFax l (fun f => { f with prevGood := some rec.data }) s =
          s.put l { x with fax := { f with prevGood := some rec.data } } s.link := by cases l <;> rfl
      obtain ⟨ends, hplaced⟩ := placeLine_put (x := { x with fax := { f with prevGood := some rec.data } }) (k := s.link) hg
        (by rw [show f.pageStart = some o from hstart]; exact nofun) hm hw hf hfits false
      have hplace : placeGood l rec.number.toNat rec.data s = placeLine l rec.data false (s.put l { x with fax := { f with
          prevGood := some rec.data } } s.link) := by
        rw [placeGood, if_pos ⟨Nat.le_of_eq hnum.symm, (Nat.le_of_eq hnum).trans (Nat.le_add_right ..), h512⟩, hnum, Nat.sub_self, concealLines, hgood']
      rw [if_pos ⟨hgood, hlen⟩, hplace, hplaced] at hop
      have hframe := appendBytes_frame hg (numBytes 2 rec.data.length ++ rec.data) hw
      refine ⟨_, ends, exec_of_op (c := .lineRecord l rec) hop ((put_requests ..).trans (by rw [hframe]; exact hs)), by rw [put_line]; rfl, ?_⟩
      rw [put_of_store _ _ hframe]
      cases l <;> rfl
    · have hop := opLineRecord_eq (rec := rec) hst hrole hp ho
      obtain ⟨ends, hplaced⟩ := placeLine_put (x := x) (k := s.link) hg (by rw [show f.pageStart = some o from hstart]; exact nofun) hm hw hf
        hfits true
      have hself : s.put l x s.link = s := put_self s l
      rw [hself] at hplaced
      rw [if_neg (by simp [hbad]), placeBad, concealLine, hplaced, addPenalty, modModem_put] at hop
      have hframe := appendBytes_frame hg (numBytes 2 (f.prevGood.getD []).length ++ f.prevGood.getD []) hw
      refine ⟨_, ends, exec_of_op (c := .lineRecord l rec) hop ((put_requests ..).trans (by rw [hframe]; exact hs)), by rw [put_line]; rfl, ?_⟩
      rw [put_of_store _ _ hframe]
      cases l <;> rfl
    · refine exec_pageEnd_keeps (v := .good) hs hst hrole hg hp ho hstart hm hw hf hn hr ?_ nofun
      rw [pageVerdict_good ⟨hmille, hlong⟩]
      exact if_neg fun h => absurd h.2 (Nat.not_le.mpr hq)
    · exact exec_of_op (c := .pageEnd l last n) ((opPageEnd_repeats hst hrole hp ho hv hsame hlast).trans (by cases l <;> rfl))
        ((setLine_requests ..).trans hs)
    · intro id e r w hne hn hplaced hbad hlong hstart hm hw hid hf he heid hmay hlen hr v
      have hv' : v ≠ .bad := by show (if r.d ≤ x.modem.q then Verdict.retrainGood else .good) ≠ .bad; split_ifs <;> exact nofun
      have hpage : pageVerdict x.profile f.placed f.bad f.longest = .good := by
        rw [hplaced, hbad, hlong]; exact pageVerdict_good ⟨by omega, Nat.zero_le _⟩
      obtain ⟨u, hexec, hfax, hpages, hentry, hlink, hu⟩ := exec_pageEnd_next (v := v) hs hst hrole hg hp ho hv hne
        (hn.trans hplaced.symm) hstart hm hw hf he hmay hlen hr (by rw [hpage]; exact if_congr (and_iff_right rfl) rfl rfl) hv'
      rw [hn, show (s.line l).fax.placed = 0 from hplaced, show (s.line l).fax.bad = 0 from hbad] at hfax
      rw [Fax.mark, show (s.line l).fax.bad = 0 from hbad, show (s.line l).fax.longest = 0 from hlong] at hpages
      rw [show (s.line l).fax.placed = 0 from hplaced, show (s.line l).fax.bad = 0 from hbad] at hlink
      exact ⟨u, hexec, hfax, hpages, hentry, hlink, hu⟩
  · intro l s hs hrole hst hg x f out unsupported quiet
    refine ⟨fun b t mode hp hm => ⟨fun res hres hi => ?_, fun hfine => ?_, fun i hi hfine => ?_⟩,
      fun last n id o r w hp ho hstart hm hw hid hf hn hr => ?_⟩
    · obtain ⟨fine, hf⟩ := onOff_of_le hres
      exact exec_set_unsupported hs hst hrole hp hf (.inr ⟨mode, hm, .inl hi⟩)
    · exact exec_set_unsupported hs hst hrole hp (fine := true) rfl (.inr ⟨mode, hm, .inr ⟨rfl, hfine⟩⟩)
    · exact exec_set_accepted hs hst hrole hp (fine := true) rfl hm hi fun _ => hfine
    · intro good usable reported
      refine ⟨fun h => ?_, fun e hgood husable he heid hown ha hgr hh hseg hins hc hcl hbase hob hnext hall => ?_⟩
      · refine exec_pageEnd_keeps (v := .retrainGood) hs hst hrole hg hp ho hstart hm hw hf hn hr ?_ nofun
        rcases h with ⟨hgood, hq⟩ | ⟨hgood, husable⟩
        · rw [pageVerdict_good hgood]; exact if_pos ⟨rfl, hq⟩
        · rw [pageVerdict_usable hgood husable]; exact ite_self _
      · let y := x.pageEnded last n.toNat
        have hrung : currentRung (s.put l y s.link) l = some r := (currentRung_put ..).trans hr
        have hbad : judgedVerdict (s.put l y s.link) l = .bad := by
          refine (judgedVerdict_put hrung).trans ?_
          rw [show pageVerdict y.profile y.fax.placed y.fax.bad y.fax.longest = .bad from pageVerdict_bad hgood husable]
          exact if_neg fun h => by cases h.1
        have hop := opPageEnd_started (last := last) hst hrole hp ho (by rw [show (s.line l).fax.pageStart = some o from hstart]; exact nofun)
          hn hm hw hf
        obtain ⟨t, hrun, hframe, hentry, hfill, hpages⟩ := judgePage_cuts (x := y) (k := s.link) hs hst hrole hbad hstart hm hw hg he hown ha
          hgr hh hseg hc hcl hbase hob hnext hall
        rw [agreedRung_put (by rfl) (by rfl)] at hrun
        refine ⟨_, (exec_finish (c := .pageEnd l last n) hop).trans (congrArg _ hrun), by rw [put_line]; rfl,
          (findEntry_put ..).trans hentry, (congrArg _ findWriter_put).trans hfill, (congrArg _ findWriter_put).trans hpages,
          by rw [put_link]; exact (congrArg State.link (queueReport_eq ..)).symm, ?_⟩
        rw [put_of_store _ _ hframe]
        cases l <;> rfl

end Sys2Proof.Machine
end

section
/-! PROOFS. ERASE, NEWSACK, allocation and the full store (R143 to R145, R153, R155). -/

namespace Sys2Proof.Machine

/-! ### ERASE and NEWSACK (R153, R155) -/

section
variable {s : State} {id : Nat} {e : Entry} {m : Word16}

/-- A message with segments is taken for erase while the port works for a stream. -/
theorem startErase_of_chain (he : findEntry s id = some e) (hc : e.chain ≠ []) (hg : ∀ x, s.store.grant ≠ some (.maint x)) :
    startErase id s = { s with store := { s.store with
      dir := updateWhere (fun x => decide (x.id = id)) (fun x => { x with state := .erasing, writer := none, erasePending := false }) s.store.dir
      unheard := s.store.unheard.filter fun x => decide (x ≠ id)
      maint := (s.store.maint.filter fun x => !x.isCutOf id) ++ e.chain.map fun g => .freeHeader g (.erase id) } } := by
  have hall : (e.chain.filter fun g => decide (s.store.grant ≠ some (.maint (.freeHeader g (.cut id))))) = e.chain :=
    List.filter_eq_self.mpr fun g _ => decide_eq_true (hg _)
  rw [startErase, he]
  dsimp only
  rw [if_neg hc]
  dsimp only [modStore, leaveUnheard, modEntry]
  rw [hall]

theorem opErase_of_ready (h : s.store.st = .ready) (he : findEntry s m.toNat = some e) : opErase m s =
    if e.state = .erasing then done 0x55#8 .busy [] s
    else if e.state = .opened then done 0x55#8 .inUse [] s
    else if 0 < e.inUse then done 0x55#8 .ok [0#8] (modEntry e.id (fun e => { e with erasePending := true }) s)
    else storeKick (startErase e.id (done 0x55#8 .ok [1#8] s)) := by
  rw [opErase, if_neg (by simp [storeReady, h]), he]

/-- The messages acknowledged leave the list together, fetched, each with a rewrite of its copy. -/
theorem foldl_acknowledge (ids : List Nat) (s : State) : ids.foldl acknowledge s = { s with store := { s.store with
    unheard := s.store.unheard.filter fun x => decide (x ∉ ids)
    dir := updateWhere (fun x => decide (x.id ∈ ids)) (fun x => { x with fetched := true }) s.store.dir
    maint := s.store.maint ++ ids.map Maint.copyRewrite } } := by
  induction ids generalizing s with
  | nil => simp [updateWhere]
  | cons i rest ih =>
    rw [List.foldl_cons, ih]
    simp only [acknowledge, askMaint, modEntry, leaveUnheard, modStore]
    congr 2
    · simp only [updateWhere, List.map_map]
      refine List.map_congr_left fun x _ => ?_
      by_cases hi : x.id = i <;> by_cases hr : x.id ∈ rest <;> simp [hi, hr]
    · rw [List.filter_filter]
      refine List.filter_congr fun x _ => ?_
      by_cases hi : x = i <;> simp [hi]
    · simp

/-- NEWSACK of a message on the unheard list, the port being busy. -/
theorem opNewsack_of_mem {earlier rest : List Nat} (h : s.store.st = .ready) (hu : s.store.unheard = earlier ++ m.toNat :: rest)
    (hd : s.store.unheard.Nodup) (hg : s.store.grant ≠ none) :
    opNewsack m s = { done 0x4E#8 .ok (oneByte (earlier.length + 1)) s with store := { s.store with
      unheard := rest
      dir := updateWhere (fun x => decide (x.id ∈ earlier ++ [m.toNat])) (fun x => { x with fetched := true }) s.store.dir
      maint := s.store.maint ++ (earlier ++ [m.toNat]).map Maint.copyRewrite } } := by
  have hd' := hd
  rw [hu, List.nodup_append, List.nodup_cons] at hd'
  obtain ⟨-, ⟨hm, -⟩, hapart⟩ := hd'
  have hidx : s.store.unheard.findIdx? (fun id => decide (id = m.toNat)) = some earlier.length := by
    rw [hu, List.findIdx?_append, List.findIdx?_eq_none_iff.mpr fun x hx => decide_eq_false (hapart x hx _ List.mem_cons_self)]
    simp [List.findIdx?_cons]
  have htake : s.store.unheard.take (earlier.length + 1) = earlier ++ [m.toNat] := by rw [hu, List.take_length_add_append]; rfl
  have hleft : s.store.unheard.filter (fun x => decide (x ∉ earlier ++ [m.toNat])) = rest := by
    rw [hu, List.filter_append, List.filter_cons_of_neg (by simp), List.filter_eq_nil_iff.mpr fun x hx => by simp [hx], List.nil_append]
    refine List.filter_eq_self.mpr fun x hx => decide_eq_true fun hin => ?_
    rcases List.mem_append.mp hin with hin | hin
    · exact hapart x hin x (List.mem_cons_of_mem _ hx) rfl
    · exact hm (List.mem_singleton.mp hin ▸ hx)
  have hlen : (earlier ++ [m.toNat]).length = earlier.length + 1 := by rw [List.length_append]; rfl
  rw [opNewsack, if_neg (by simp [storeReady, h]), hidx]
  dsimp only
  rw [htake, hlen, foldl_acknowledge, storeKick_of_grant (by rw [done_eq]; exact hg), done_eq]
  dsimp only
  rw [hleft]

theorem opNewsack_of_not_mem (h : s.store.st = .ready) (hm : m.toNat ∉ s.store.unheard) : opNewsack m s = done 0x4E#8 .noEntry [] s := by
  have hidx : s.store.unheard.findIdx? (fun id => decide (id = m.toNat)) = none :=
    List.findIdx?_eq_none_iff.mpr fun x hx => decide_eq_false fun he => hm (he ▸ hx)
  rw [opNewsack, if_neg (by simp [storeReady, h]), hidx]

end

/-! ### Allocation (R143, R144) -/

section
variable {s : State} {id r seg g : Nat} {w : WStream} {e : Entry}

/-- The first of the four regions that passes a test. -/
theorem find_region {p : Nat → Bool} (hr : r < 4) (hp : p r = true) (hbefore : ∀ k < r, p k = false) :
    (List.range 4).find? p = some r :=
  List.find?_range_eq_some.mpr ⟨hp, List.mem_range.mpr hr, fun k hk => by simp [hbefore k hk]⟩

theorem freeInRegion_ne_zero (h : s.store.free.find? (fun n => decide (n / 1024 = r)) = some seg) : freeInRegion s r ≠ 0 := by
  have hmem : seg ∈ s.store.free.filter fun n => decide (regionOfSeg n = r) :=
    List.mem_filter.mpr ⟨List.mem_of_find?_eq_some h, List.find?_some (p := fun n => decide (n / 1024 = r)) h⟩
  exact Nat.ne_of_gt (List.length_pos_of_mem hmem)

/-- The allocation from a chosen region. -/
theorem allocate_eq {fallback : Bool} (hw : findWriter s id = some w) (hc : chooseRegion s w = some (r, fallback))
    (h : s.store.free.find? (fun n => decide (n / 1024 = r)) = some seg) :
    allocate id s = giveSegment id seg (reportPace id w fallback s) := by
  rw [allocate, hw]
  dsimp only
  rw [hc]
  dsimp only
  rw [show lowestFree s r = some seg from h]

/-- The region of a line stream within its sustain count. -/
theorem chooseRegion_line {l : Line} (ho : w.owner = .line l) (hid : w.id = id) (hr : r < 4)
    (hs : freeInRegion s r ≠ 0 ∧ residents s r id < (s.store.regions.getD r absentRegion).sustain)
    (hbefore : ∀ k < r, ¬(freeInRegion s k ≠ 0 ∧ residents s k id < (s.store.regions.getD k absentRegion).sustain)) :
    chooseRegion s w = some (r, false) := by
  rw [chooseRegion, ho]
  dsimp only
  rw [paceRegion, hid, find_region hr (decide_eq_true hs) fun k hk => decide_eq_false (hbefore k hk)]

/-- The region of a line stream where no region is within its sustain count. -/
theorem chooseRegion_fallback {l : Line} (ho : w.owner = .line l) (hid : w.id = id) (hr : r < 4) (hfree : freeInRegion s r ≠ 0)
    (hnone : ∀ k < 4, ¬(freeInRegion s k ≠ 0 ∧ residents s k id < (s.store.regions.getD k absentRegion).sustain))
    (hbefore : ∀ k < r, freeInRegion s k = 0) : chooseRegion s w = some (r, true) := by
  have hfind : (List.range 4).find? (fun r => decide (freeInRegion s r ≠ 0 ∧
      residents s r id < (s.store.regions.getD r absentRegion).sustain)) = none :=
    List.find?_eq_none.mpr fun k hk => by simpa using hnone k (List.mem_range.mp hk)
  rw [chooseRegion, ho]
  dsimp only
  rw [paceRegion, hid, hfind]
  dsimp only
  rw [find_region hr (decide_eq_true hfree) fun k hk => decide_eq_false (not_not_intro (hbefore k hk))]
  rfl

theorem chooseRegion_host (ho : w.owner = .host) (hr : r < 4) (hfree : freeInRegion s r ≠ 0) (hbefore : ∀ k < r, freeInRegion s k = 0) :
    chooseRegion s w = some (r, false) := by
  rw [chooseRegion, ho]
  dsimp only
  rw [find_region hr (decide_eq_true hfree) fun k hk => decide_eq_false (not_not_intro (hbefore k hk))]
  rfl

/-! ### A full store (R145) -/

theorem eraseInProgress_iff : eraseInProgress s = true ↔ ∃ e ∈ s.store.dir, e.state = .erasing ∧ e.chain ≠ [] := by
  simp [eraseInProgress]

/-- An entry that a full store may recycle. -/
def Recyclable (e : Entry) : Prop := e.state = .closed ∧ e.inUse = 0 ∧ e.fetched = true ∧ e.erasePending = false

theorem recyclable_of_none (h : ∀ e ∈ s.store.dir, ¬Recyclable e) : recyclable s = none := by
  have hnone : (s.store.dir.filter fun e => decide (e.state = .closed ∧ e.inUse = 0) && e.fetched && !e.erasePending) = [] :=
    List.filter_eq_nil_iff.mpr fun e he hr => h e he (by simpa [Recyclable, and_assoc] using hr)
  rw [recyclable, hnone]
  rfl

/-- The older of two messages. -/
def older (best : Option Entry) (e : Entry) : Option Entry :=
  match best with
  | some b => if e.creation < b.creation then some e else some b
  | none => some e

/-- The oldest of messages is found wherever it stands. -/
theorem foldl_older {m : Entry} (es : List Entry) (best : Option Entry) (hm : m ∈ es ∨ best = some m)
    (hbest : ∀ b, best = some b → b ≠ m → m.creation < b.creation) (h : ∀ e ∈ es, e ≠ m → m.creation < e.creation) :
    es.foldl older best = some m := by
  induction es generalizing best with
  | nil => exact hm.resolve_left List.not_mem_nil
  | cons e rest ih =>
    rw [List.foldl_cons]
    have hrest : ∀ x ∈ rest, x ≠ m → m.creation < x.creation := fun x hx => h x (List.mem_cons_of_mem _ hx)
    have he := h e List.mem_cons_self
    by_cases hem : e = m
    · subst hem
      refine ih _ (.inr ?_) (fun b hb hne => ?_) hrest
      all_goals
        cases best with
        | none => simp_all [older]
        | some b =>
          by_cases hbe : b = e
          · subst hbe; simp_all [older]
          · have := hbest b rfl hbe; simp_all [older]
    · have hlt := he hem
      refine ih _ ?_ ?_ hrest
      · rcases hm with hm | hm
        · exact .inl ((List.mem_cons.mp hm).resolve_left fun h => hem h.symm)
        · subst hm; exact .inr (if_neg (by omega))
      · intro b hb hne
        cases best with
        | none => obtain rfl := Option.some.inj hb; exact hlt
        | some b' =>
          rw [older] at hb
          split_ifs at hb <;> obtain rfl := Option.some.inj hb
          · exact hlt
          · exact hbest _ rfl hne

/-- The fold of `recyclable`, by the name of its step. -/
theorem recyclable_eq (s : State) : recyclable s =
    (s.store.dir.filter fun e => decide (e.state = .closed ∧ e.inUse = 0) && e.fetched && !e.erasePending).foldl older none := by
  have hstep : (fun (best : Option Entry) e => older best e) = older := rfl
  rw [recyclable, ← hstep]
  congr 1

theorem recyclable_of_oldest {m : Entry} (hm : m ∈ s.store.dir) (hr : Recyclable m)
    (h : ∀ e ∈ s.store.dir, Recyclable e → e ≠ m → m.creation < e.creation) : recyclable s = some m := by
  have hiff (e : Entry) : (decide (e.state = .closed ∧ e.inUse = 0) && e.fetched && !e.erasePending) = true ↔ Recyclable e := by
    simp [Recyclable, and_assoc]
  rw [recyclable_eq]
  refine foldl_older _ none (.inl (List.mem_filter.mpr ⟨hm, (hiff m).mpr hr⟩)) (fun b hb => absurd hb (Option.some_ne_none b).symm) fun e he hne => ?_
  obtain ⟨hin, hrec⟩ := List.mem_filter.mp he
  exact h e hin ((hiff e).mp hrec) hne

/-- A writer takes a segment. -/
theorem giveSegment_eq (id seg : Nat) (s : State) : giveSegment id seg s = { s with store := { s.store with
    free := s.store.free.filter fun n => decide (n ≠ seg)
    dir := updateWhere (fun e => decide (e.id = id)) (fun e => { e with chain := e.chain ++ [seg] }) s.store.dir
    writers := updateWhere (fun x => decide (x.id = id)) (fun x => { x with seg := some seg, region := some (regionOfSeg seg) })
      s.store.writers } } := rfl

theorem judgeFull_of_erasing (h : ∃ e ∈ s.store.dir, e.state = .erasing ∧ e.chain ≠ []) : judgeFull id s = joinWaiting id s := by
  rw [judgeFull, if_pos (eraseInProgress_iff.mpr h)]

theorem joinWaiting_eq (id : Nat) (s : State) : joinWaiting id s = { s with store := { s.store with
    waiting := if id ∈ s.store.waiting then s.store.waiting else s.store.waiting ++ [id] } } := by
  rw [joinWaiting, modStore]
  split_ifs <;> rfl

theorem judgeFull_of_oldest {m : Entry} (h : ¬∃ e ∈ s.store.dir, e.state = .erasing ∧ e.chain ≠ [])
    (hp : s.store.settings.policy = .recycle) (hm : m ∈ s.store.dir) (hr : Recyclable m)
    (hold : ∀ e ∈ s.store.dir, Recyclable e → e ≠ m → m.creation < e.creation) :
    judgeFull id s = joinWaiting id (queueReport (.store .recycled m.id) (startErase m.id s)) := by
  rw [judgeFull, if_neg (fun he => h (eraseInProgress_iff.mp he)), if_pos hp, recyclable_of_oldest hm hr hold]

/-- Without an erase in progress or a message to recycle the writer is ended. -/
theorem judgeFull_ends (h : ¬∃ e ∈ s.store.dir, e.state = .erasing ∧ e.chain ≠ [])
    (hk : s.store.settings.policy = .keep ∨ ∀ m ∈ s.store.dir, ¬Recyclable m) : judgeFull id s = endFull id s := by
  rw [judgeFull, if_neg (fun he => h (eraseInProgress_iff.mp he))]
  rcases hk with hk | hk
  · rw [if_neg (by rw [hk]; decide)]
  · rw [recyclable_of_none hk]
    exact ite_self _

/-- A host write without a segment is erased by a full store. -/
theorem endFull_host (hw : findWriter s id = some w) (he : findEntry s id = some e) (ho : w.owner = .host) (hc : e.chain = [])
    (ht : s.link.target ≠ .store) :
    endFull id s = { queueReport (.message id e.kind e.mailbox 0 (.byRelease .storeFull)) (queueReport (.store .full id) s) with
      store := { s.store with
        hostFail := true, waiting := s.store.waiting.filter (fun x => decide (x ≠ id))
        writers := s.store.writers.filter (fun x => decide (x.id ≠ id)), dir := s.store.dir.filter (fun x => decide (x.id ≠ id))
        unheard := s.store.unheard.filter (fun x => decide (x ≠ id)) } } := by
  have htwice (xs : List Nat) : (xs.filter fun x => decide (x ≠ id)).filter (fun x => decide (x ≠ id)) = xs.filter fun x => decide (x ≠ id) := by
    rw [List.filter_filter]
    exact List.filter_congr fun x _ => Bool.and_self _
  have herase (t : State) (hd : t.store.dir = s.store.dir) : startErase id t = removeEntry id (leaveUnheard id t) := by
    rw [startErase, findEntry, hd, ← findEntry, he]
    exact if_pos hc
  rw [endFull, hw, he]
  dsimp only
  rw [ho]
  dsimp only
  rw [herase, lholdLeft_other]
  · simp only [queueReport_eq, removeEntry, leaveUnheard, removeWriter, leaveWaiting, modStore, htwice]
  · simp only [queueReport_eq, removeEntry, leaveUnheard, removeWriter, leaveWaiting, modStore, Link.push_target]
    exact ht
  · simp only [queueReport_eq, removeWriter, leaveWaiting, modStore]

/-- A line's writer is told of a full store. -/
theorem endFull_line {l : Line} (hw : findWriter s id = some w) (he : findEntry s id = some e) (ho : w.owner = .line l)
    (ha : w.active = true) :
    endFull id s = { queueReport (.store .full id) s with
      requests := s.requests ++ [.writerFull (.line l) id]
      store := { s.store with
        waiting := s.store.waiting.filter (fun x => decide (x ≠ id))
        writers := updateWhere (fun x => decide (x.id = id)) (fun x => { x with failed := true }) s.store.writers } } := by
  rw [endFull, hw, he]
  dsimp only
  rw [ho]
  dsimp only
  rw [if_pos ha]
  simp only [queueReport_eq]
  rfl

theorem joinPool_of_nil (h : s.store.waiting = []) : joinPool g s = { s with store := { s.store with free := insertSeg g s.store.free } } := by
  have hw : (modStore (fun t => { t with free := insertSeg g t.free }) s).store.waiting = [] := h
  rw [joinPool]
  dsimp only
  rw [hw]
  rfl

/-- The waiting host writer that joined first takes the one free segment. -/
theorem joinPool_host {rest : List Nat} (hw : findWriter s id = some w) (ho : w.owner = .host) (hwait : s.store.waiting = id :: rest)
    (hid : id ∉ rest) (hfree : s.store.free = []) (hg : g / 1024 < 4) :
    joinPool g s = { s with store := { s.store with
      waiting := rest, free := []
      dir := updateWhere (fun e => decide (e.id = id)) (fun e => { e with chain := e.chain ++ [g] }) s.store.dir
      writers := updateWhere (fun x => decide (x.id = id)) (fun x => { x with seg := some g, region := some (g / 1024) })
        s.store.writers } } := by
  let u := modStore (fun t => { t with free := insertSeg g t.free }) s
  have hfree' : u.store.free = [g] := by show insertSeg g s.store.free = [g]; rw [hfree]; rfl
  have hfind : u.store.free.find? (fun n => decide (n / 1024 = g / 1024)) = some g := by rw [hfree']; simp
  have hnone : ∀ k < g / 1024, freeInRegion u k = 0 := fun k hk => by
    rw [freeInRegion, hfree', List.filter_cons_of_neg (by rw [decide_eq_true_eq]; exact Nat.ne_of_gt hk)]; rfl
  have hrest : (id :: rest).filter (fun x => decide (x ≠ id)) = rest := by
    rw [List.filter_cons_of_neg (by simp)]
    exact List.filter_eq_self.mpr fun x hx => decide_eq_true fun he => hid (he ▸ hx)
  have halloc : allocate id u = giveSegment id g u :=
    allocate_eq (w := w) (fallback := false) hw (chooseRegion_host ho hg (freeInRegion_ne_zero hfind) hnone) hfind
  have hgone : u.store.free.filter (fun n => decide (n ≠ g)) = [] := by rw [hfree']; simp
  have hjoin : joinPool g s = leaveWaiting id (allocate id u) := by
    rw [joinPool]
    show (match u.store.waiting with
      | id :: _ => leaveWaiting id (allocate id u)
      | [] => u) = _
    rw [show u.store.waiting = id :: rest from hwait]
  rw [hjoin, halloc, giveSegment_eq, hgone]
  simp only [leaveWaiting, modStore]
  rw [show u.store.waiting = id :: rest from hwait, hrest]
  rfl

end

end Sys2Proof.Machine
end

section
/-! PROOFS. What EraseAndNewsackAct says, and the one value byte on which it turns (R153, R155). -/

namespace Sys2Proof.Machine

section
variable {s : State} {id r seg g : Nat} {w : WStream} {e : Entry} {m : Word16}

theorem exec_erase (hs : s.requests = []) {t : State} (h : opErase m s = t) (ht : t.requests = s.requests) :
    exec (.erase m) s = .next t := exec_of_op h (ht.trans hs)

theorem findEntry_of_dir {t : State} {f : Entry → Entry} (hf : ∀ e, (f e).id = e.id) (he : findEntry s id = some e)
    (hd : t.store.dir = updateWhere (fun x => decide (x.id = id)) f s.store.dir) : findEntry t id = some (f e) := by
  have hfound := findEntry_modEntry id hf s
  rw [he] at hfound
  rw [findEntry, hd]
  exact hfound

/-- ERASE of a message in use. -/
theorem exec_erase_inUse (hs : s.requests = []) (hst : s.store.st = .ready) (he : findEntry s m.toNat = some e)
    (hc : e.state = .closed) (hu : 0 < e.inUse) : ∃ t, exec (.erase m) s = .next t ∧
      findEntry t m.toNat = some { e with erasePending := true } ∧ t.link = (done 0x55#8 .ok [0#8] s).link ∧
      t.store.memory = s.store.memory ∧ t = { s with link := t.link, store := t.store } := by
  have hid := findEntry_id he
  have hop : opErase m s = modEntry m.toNat (fun e => { e with erasePending := true }) (done 0x55#8 .ok [0#8] s) := by
    rw [opErase_of_ready hst he, if_neg (by rw [hc]; decide), if_neg (by rw [hc]; decide), if_pos hu, hid, done_eq, done_eq]
    rfl
  refine ⟨_, exec_erase hs hop (by rw [done_eq]; rfl), ?_, rfl, by rw [done_eq]; rfl, by rw [done_eq]; rfl⟩
  exact findEntry_of_dir (f := fun e => { e with erasePending := true }) (fun _ => rfl) he (by rw [done_eq]; rfl)

/-- ERASE of a message that is not in use. -/
theorem exec_erase_starts (hs : s.requests = []) (hg : s.store.grant ≠ none) (hm : ∀ x, s.store.grant ≠ some (.maint x))
    (hst : s.store.st = .ready) (he : findEntry s m.toNat = some e) (hc : e.state = .closed) (hu : e.inUse = 0) (hchain : e.chain ≠ []) :
    ∃ t, exec (.erase m) s = .next t ∧
      findEntry t m.toNat = some { e with state := .erasing, writer := none, erasePending := false } ∧
      (∀ g ∈ e.chain, Maint.freeHeader g (.erase e.id) ∈ t.store.maint) ∧ m.toNat ∉ t.store.unheard ∧
      t.link = (done 0x55#8 .ok [1#8] s).link ∧ t.store.memory = s.store.memory ∧ t = { s with link := t.link, store := t.store } := by
  have hid := findEntry_id he
  have hstart := startErase_of_chain (s := done 0x55#8 .ok [1#8] s) (e := e) (by rw [done_eq]; exact he) hchain (by rw [done_eq]; exact hm)
  have hop : opErase m s = startErase m.toNat (done 0x55#8 .ok [1#8] s) := by
    rw [opErase_of_ready hst he, if_neg (by rw [hc]; decide), if_neg (by rw [hc]; decide), if_neg (by omega), hid, storeKick_of_grant]
    rw [hstart, done_eq]
    exact hg
  rw [hstart, done_eq] at hop
  refine ⟨_, exec_erase hs hop rfl, ?_, fun g hg => ?_, ?_, by rw [done_eq], rfl, rfl⟩
  · exact findEntry_of_dir (f := fun e => { e with state := .erasing, writer := none, erasePending := false }) (fun _ => rfl) he rfl
  · rw [hid]
    exact List.mem_append_right _ (List.mem_map_of_mem hg)
  · simp

/-- The commands of the statement; the number of messages acknowledged stands as the model's byte. -/
theorem eraseAndNewsack_commands (m : Word16) (e : Entry) (s : State) (hs : s.requests = []) (hg : s.store.grant ≠ none)
    (hmaint : ∀ x, s.store.grant ≠ some (.maint x)) :
    let st := s.store
    (st.st ≠ .ready → exec (.erase m) s = .next (done 0x55#8 .notReady [] s) ∧
      exec (.newsack m) s = .next (done 0x4E#8 .notReady [] s)) ∧
    (st.st = .ready → findEntry s m.toNat = none → exec (.erase m) s = .next (done 0x55#8 .noEntry [] s)) ∧
    (st.st = .ready → findEntry s m.toNat = some e →
      (e.state = .erasing → exec (.erase m) s = .next (done 0x55#8 .busy [] s)) ∧
      (e.state = .opened → exec (.erase m) s = .next (done 0x55#8 .inUse [] s)) ∧
      (e.state = .closed → 0 < e.inUse → e.id = m.toNat → ∃ t, exec (.erase m) s = .next t ∧
        findEntry t m.toNat = some { e with erasePending := true } ∧ t.link = (done 0x55#8 .ok [0#8] s).link ∧
        t.store.memory = st.memory ∧ t = { s with link := t.link, store := t.store }) ∧
      (e.state = .closed → e.inUse = 0 → e.id = m.toNat → e.chain ≠ [] → ∃ t, exec (.erase m) s = .next t ∧
        findEntry t m.toNat = some { e with state := .erasing, writer := none, erasePending := false } ∧
        (∀ g ∈ e.chain, Maint.freeHeader g (.erase e.id) ∈ t.store.maint) ∧ m.toNat ∉ t.store.unheard ∧
        t.link = (done 0x55#8 .ok [1#8] s).link ∧ t.store.memory = st.memory ∧
        t = { s with link := t.link, store := t.store })) ∧
    (st.st = .ready → m.toNat ∉ st.unheard → exec (.newsack m) s = .next (done 0x4E#8 .noEntry [] s)) ∧
    (∀ earlier rest, st.st = .ready → st.unheard = earlier ++ m.toNat :: rest → st.unheard.Nodup →
      exec (.newsack m) s = .next { done 0x4E#8 .ok (oneByte (earlier.length + 1)) s with store := { st with
        unheard := rest
        dir := updateWhere (fun x => decide (x.id ∈ earlier ++ [m.toNat])) (fun x => { x with fetched := true }) st.dir
        maint := st.maint ++ (earlier ++ [m.toNat]).map Maint.copyRewrite } }) := by
  have hdone (c : Byte) (r : Result) (vs : List Byte) : (done c r vs s).requests = [] := by rw [done_eq]; exact hs
  refine ⟨fun hst => ⟨?_, ?_⟩, fun hst he => ?_, fun hst he => ⟨fun hc => ?_, fun hc => ?_, fun hc hu _ => ?_, fun hc hu _ hchain => ?_⟩,
    fun hst hu => ?_, fun earlier rest hst hu hd => ?_⟩
  · exact exec_of_op (show opErase m s = _ by rw [opErase, if_pos (by simpa [storeReady] using hst)]) (hdone _ _ _)
  · exact exec_of_op (show opNewsack m s = _ by rw [opNewsack, if_pos (by simpa [storeReady] using hst)]) (hdone _ _ _)
  · exact exec_of_op (show opErase m s = _ by rw [opErase, if_neg (by simp [storeReady, hst]), he]) (hdone _ _ _)
  · exact exec_of_op (show opErase m s = _ by rw [opErase_of_ready hst he, if_pos hc]) (hdone _ _ _)
  · exact exec_of_op (show opErase m s = _ by rw [opErase_of_ready hst he, if_neg (by rw [hc]; decide), if_pos hc]) (hdone _ _ _)
  · exact exec_erase_inUse hs hst he hc hu
  · exact exec_erase_starts hs hg hmaint hst he hc hu hchain
  · exact exec_of_op (show opNewsack m s = _ from opNewsack_of_not_mem hst hu) (hdone _ _ _)
  · exact exec_of_op (show opNewsack m s = _ from opNewsack_of_mem hst hu hd hg) (hdone _ _ _)

/-- Allocation, the full store and the pool. -/
theorem allocation_acts (id r seg : Nat) (w : WStream) (s : State) (hw : findWriter s id = some w) :
    let st := s.store
    let taken := fun (u : State) => { u with store := { u.store with
      free := st.free.filter fun n => decide (n ≠ seg)
      dir := updateWhere (fun e => decide (e.id = id)) (fun e => { e with chain := e.chain ++ [seg] }) st.dir
      writers := updateWhere (fun x => decide (x.id = id)) (fun x => { x with seg := some seg, region := some r }) u.store.writers } }
    let suits := fun (k : Nat) => freeInRegion s k ≠ 0 ∧ residents s k id < (st.regions.getD k absentRegion).sustain
    let waits := fun (u : State) => { u with store := { u.store with
      waiting := if id ∈ st.waiting then st.waiting else st.waiting ++ [id] } }
    let erasing := ∃ e ∈ st.dir, e.state = .erasing ∧ e.chain ≠ []
    (r < 4 → st.free.find? (fun n => decide (n / 1024 = r)) = some seg →
      ((∃ l, w.owner = .line l) → suits r → (∀ k < r, ¬suits k) → allocate id s = taken s) ∧
      ((∃ l, w.owner = .line l) → (∀ k < 4, ¬suits k) → (∀ k < r, freeInRegion s k = 0) →
        (w.paced = true → allocate id s = taken s) ∧
        (w.paced = false → allocate id s = taken (queueReport (.store .pace id) { s with store := { st with
          writers := updateWhere (fun x => decide (x.id = id)) (fun x => { x with paced := true }) st.writers } }))) ∧
      (w.owner = .host → (∀ k < r, freeInRegion s k = 0) → allocate id s = taken s)) ∧
    (erasing → judgeFull id s = waits s) ∧
    (∀ m, ¬erasing → st.settings.policy = .recycle → m ∈ st.dir → m.state = .closed → m.inUse = 0 → m.fetched = true →
      m.erasePending = false → findEntry s m.id = some m → m.chain ≠ [] → (∀ x, st.grant ≠ some (.maint x)) →
      (∀ e ∈ st.dir, e.state = .closed → e.inUse = 0 → e.fetched = true → e.erasePending = false → e ≠ m → m.creation < e.creation) →
      ∃ t, judgeFull id s = waits t ∧ findEntry t m.id = some { m with state := .erasing, writer := none, erasePending := false } ∧
        t.store.maint = (st.maint.filter fun x => !x.isCutOf m.id) ++ m.chain.map (fun g => .freeHeader g (.erase m.id)) ∧
        t.store.unheard = st.unheard.filter (fun x => decide (x ≠ m.id)) ∧
        t.link = (queueReport (.store .recycled m.id) s).link ∧ t = { s with link := t.link, store := t.store }) ∧
    (∀ e, ¬erasing → findEntry s id = some e → e.id = id →
      (st.settings.policy = .keep ∨ ∀ m ∈ st.dir, ¬(m.state = .closed ∧ m.inUse = 0 ∧ m.fetched = true ∧ m.erasePending = false)) →
      (w.owner = .host → e.chain = [] → s.link.target ≠ .store →
        judgeFull id s = { queueReport (.message id e.kind e.mailbox 0 (.byRelease .storeFull)) (queueReport (.store .full id) s) with
          store := { st with
            hostFail := true, waiting := st.waiting.filter (fun x => decide (x ≠ id))
            writers := st.writers.filter (fun x => decide (x.id ≠ id)), dir := st.dir.filter (fun x => decide (x.id ≠ id))
            unheard := st.unheard.filter (fun x => decide (x ≠ id)) } }) ∧
      (∀ l, w.owner = .line l → w.active = true → judgeFull id s = { queueReport (.store .full id) s with
        requests := s.requests ++ [.writerFull (.line l) id]
        store := { st with
          waiting := st.waiting.filter (fun x => decide (x ≠ id))
          writers := updateWhere (fun x => decide (x.id = id)) (fun x => { x with failed := true }) st.writers } })) ∧
    (∀ g, (st.waiting = [] → joinPool g s = { s with store := { st with free := insertSeg g st.free } }) ∧
      (∀ rest, st.waiting = id :: rest → id ∉ rest → st.free = [] → g / 1024 < 4 → w.owner = .host →
        joinPool g s = { s with store := { st with
          waiting := rest, free := []
          dir := updateWhere (fun e => decide (e.id = id)) (fun e => { e with chain := e.chain ++ [g] }) st.dir
          writers := updateWhere (fun x => decide (x.id = id)) (fun x => { x with seg := some g, region := some (g / 1024) })
            st.writers } })) := by
  intro st taken suits waits erasing
  have hid := findWriter_id hw
  refine ⟨fun hr hfind => ?_, fun he => ?_, fun m hne hp hm hc hu hf hpend hfound hchain hg hold => ?_, fun e hne he _ hk => ⟨fun ho hc ht => ?_, fun l ho ha => ?_⟩,
    fun g => ⟨joinPool_of_nil, fun rest hwait hrest hfree hg4 ho => joinPool_host hw ho hwait hrest hfree hg4⟩⟩
  · have hreg : regionOfSeg seg = r := of_decide_eq_true (List.find?_some (p := fun n => decide (n / 1024 = r)) hfind)
    have hfree := freeInRegion_ne_zero hfind
    have hplain {fallback : Bool} (hc : chooseRegion s w = some (r, fallback)) (hpace : ¬(fallback = true ∧ w.paced = false)) :
        allocate id s = taken s := by
      rw [allocate_eq hw hc hfind, reportPace, if_neg hpace, giveSegment_eq, hreg]
    refine ⟨fun ⟨l, ho⟩ hs hbefore => hplain (chooseRegion_line ho hid hr hs hbefore) (by simp), fun ⟨l, ho⟩ hnone hbefore => ?_,
      fun ho hbefore => hplain (chooseRegion_host ho hr hfree hbefore) (by simp)⟩
    have hc := chooseRegion_fallback ho hid hr hfree hnone hbefore
    refine ⟨fun hp => hplain hc (by simp [hp]), fun hp => ?_⟩
    rw [allocate_eq hw hc hfind, reportPace, if_pos ⟨rfl, hp⟩, giveSegment_eq, hreg]
    simp only [queueReport_eq]
    rfl
  · rw [judgeFull_of_erasing he, joinWaiting_eq]
  · refine ⟨queueReport (.store .recycled m.id) (startErase m.id s), ?_, ?_⟩
    · rw [judgeFull_of_oldest hne hp hm ⟨hc, hu, hf, hpend⟩ fun e he hr hem => hold e he hr.1 hr.2.1 hr.2.2.1 hr.2.2.2 hem, joinWaiting_eq,
        startErase_of_chain hfound hchain hg, queueReport_eq]
    · rw [startErase_of_chain hfound hchain hg, queueReport_eq, queueReport_eq]
      refine ⟨?_, rfl, rfl, rfl, rfl⟩
      exact findEntry_of_dir (f := fun e => { e with state := .erasing, writer := none, erasePending := false }) (fun _ => rfl) hfound rfl
  · rw [judgeFull_ends hne hk, endFull_host hw he ho hc ht]
  · rw [judgeFull_ends hne hk, endFull_line hw he ho ha]

end

/-- The statement holds where a count of one byte wraps. -/
theorem eraseAndNewsackAct_of_oneByte (h : ∀ n, oneByte n = [BitVec.ofNat 8 n]) : Obligations.EraseAndNewsackAct := by
  refine ⟨fun m e s hs hg hmaint => ?_, allocation_acts⟩
  have hcommands := eraseAndNewsack_commands m e s hs hg hmaint
  simp only [h] at hcommands
  exact hcommands

end Sys2Proof.Machine
end

section
/-! PROOFS. QUERY (R18, R195). -/

namespace Sys2Proof.Machine

/-! ### The parts of a snapshot -/

/-- Contents cut into parts of 250 bytes, the last one alone shorter. -/
def CutInParts (contents : List Byte) (parts : List (List Byte)) : Prop :=
  parts.flatten = contents ∧ parts ≠ [] ∧
    ∀ (k : Nat) (p : List Byte), parts[k]? = some p → p.length ≤ 250 ∧ (k + 1 < parts.length → p.length = 250)

theorem CutInParts.one {b : List Byte} (h : b.length ≤ 250) : CutInParts b [b] := by
  refine ⟨List.flatten_singleton, List.cons_ne_nil _ _, fun k p hp => ?_⟩
  obtain ⟨hk, rfl⟩ := List.getElem?_eq_some_iff.mp hp
  rw [List.getElem_singleton]
  exact ⟨h, fun hlt => absurd hlt (by simp)⟩

theorem CutInParts.cons {b : List Byte} {ps : List (List Byte)} (hb : 250 < b.length) (h : CutInParts (b.drop 250) ps) :
    CutInParts b (b.take 250 :: ps) := by
  obtain ⟨hflat, hne, hlen⟩ := h
  have htake : (b.take 250).length = 250 := by rw [List.length_take]; omega
  refine ⟨by rw [List.flatten_cons, hflat, List.take_append_drop], List.cons_ne_nil _ _, fun k p hp => ?_⟩
  cases k with
  | zero =>
    obtain rfl := Option.some.inj (hp.symm.trans List.getElem?_cons_zero)
    exact ⟨htake.le, fun _ => htake⟩
  | succ k =>
    rw [List.getElem?_cons_succ] at hp
    obtain ⟨hle, hfull⟩ := hlen k p hp
    exact ⟨hle, fun hlt => hfull (Nat.lt_of_succ_lt_succ hlt)⟩

/-- Fuel for every 250 bytes cuts the whole contents. -/
theorem cutParts_cuts (n : Nat) (b : List Byte) (h : b.length ≤ 250 * n + 250) : CutInParts b (cutParts n b) := by
  induction n generalizing b with
  | zero => exact .one (by omega)
  | succ n ih =>
    rw [cutParts]
    split_ifs with hle
    · exact .one hle
    · exact .cons (by omega) (ih _ (by rw [List.length_drop]; omega))

theorem snapshotReports_eq (subject : Byte) (index : Word16) (contents : List Byte) :
    snapshotReports subject index contents = (cutParts contents.length contents).zipIdx.map
      (fun p => .snapshot subject index (p.2 + 1) (cutParts contents.length contents).length p.1) := rfl

/-! ### What a QUERY finds -/

section
variable {s : State} {subject : Byte} {index : Word16}

theorem exec_query_refused {r : Result} (hs : s.requests = []) (hk : arbiterKick s = s)
    (h : queryResult s subject.toNat index.toNat = .refused r) : exec (.query subject index) s = .next (done 0x51#8 r [] s) := by
  refine exec_of_op ?_ (by rw [done_eq]; exact hs)
  rw [opOf, opQuery]
  dsimp only
  rw [hk, h]

theorem exec_query_found {contents : List (List Byte)} (hs : s.requests = []) (hk : arbiterKick s = s)
    (h : queryResult s subject.toNat index.toNat = .found contents) :
    exec (.query subject index) s = .next (queueReports (contents.flatMap (snapshotReports subject index))
      (done 0x51#8 .ok (oneByte (contents.flatMap (snapshotReports subject index)).length) { s with
        samples := s.samples + (if subject = 1#8 ∨ subject = 2#8 then (inPins s).length else 0) })) := by
  refine exec_of_op ?_ (by rw [queueReports_eq, done_eq]; exact hs)
  have hcode (n : Nat) (hn : n < 256) : subject.toNat = n ↔ subject = BitVec.ofNat 8 n := by
    rw [← BitVec.toNat_inj, BitVec.toNat_ofNat, Nat.mod_eq_of_lt hn]
  rw [opOf, opQuery]
  dsimp only
  rw [hk, h]
  dsimp only
  rw [samplesTaken, if_congr (or_congr (hcode 1 (by omega)) (hcode 2 (by omega))) rfl rfl]

theorem queryResult_badParam {n i : Nat} (h : 11 < n ∨ n = 5 ∧ 23 < i ∨ n = 6 ∧ 7 < i ∨ n = 7 ∧ 31 < i ∨ n = 8 ∧ 15 < i ∨
    n = 9 ∧ 7 < i ∨ n = 10 ∧ 7 < i ∨ n = 11 ∧ i = 0) : queryResult s n i = .refused .badParam := by
  rcases h with h | ⟨rfl, h⟩ | ⟨rfl, h⟩ | ⟨rfl, h⟩ | ⟨rfl, h⟩ | ⟨rfl, h⟩ | ⟨rfl, h⟩ | ⟨rfl, h⟩
  · obtain ⟨k, rfl⟩ := Nat.exists_eq_add_of_lt h
    rw [show 11 + k + 1 = k + 12 by omega]
    rfl
  case inr.inr.inr.inr.inr.inr.inr => exact if_pos h
  all_goals exact if_neg (by omega)

theorem queryResult_noEntry {n i : Nat} (h : n = 5 ∧ i < 24 ∧ entryAt s.tones i = none ∨ n = 6 ∧ i < 8 ∧ entryAt s.cadences i = none ∨
    n = 7 ∧ i < 32 ∧ entryAt s.screen i = none ∨ n = 8 ∧ i < 16 ∧ entryAt s.attempts i = none ∨ n = 9 ∧ i < 8 ∧ s.ladder.length ≤ i ∨
    n = 11 ∧ i ≠ 0 ∧ s.store.st = .ready ∧ findEntry s i = none) : queryResult s n i = .refused .noEntry := by
  rcases h with ⟨rfl, hi, h⟩ | ⟨rfl, hi, h⟩ | ⟨rfl, hi, h⟩ | ⟨rfl, hi, h⟩ | ⟨rfl, hi, h⟩ | ⟨rfl, hi, hst, h⟩
  case inr.inr.inr.inr.inr => rw [queryResult, if_neg hi, if_neg (by simp [storeReady, hst]), h]; rfl
  case inr.inr.inr.inr.inl => rw [queryResult, within, if_pos hi, List.getElem?_eq_none h]; rfl
  all_goals rw [queryResult, within, if_pos hi, h]; rfl

/-- The snapshots of a subject that has them. -/
theorem queryResult_found {n i : Nat} {contents : List (List Byte)}
    (h : n = 0 ∧ contents = [linkSnapshot s] ∨ n = 1 ∧ contents = [lineSnapshot s .A] ∨ n = 2 ∧ contents = [lineSnapshot s .B] ∨
      n = 3 ∧ contents = [storeSnapshot s] ∨
      n = 4 ∧ contents = oneByte s.jobs.length :: (listOrder s.store.settings.order s.jobs).map jobSnapshot ∨
      (∃ e, n = 5 ∧ i < 24 ∧ entryAt s.tones i = some e ∧ contents = [toneSnapshot s i e]) ∨
      (∃ e, n = 6 ∧ i < 8 ∧ entryAt s.cadences i = some e ∧ contents = [cadenceSnapshot s i e]) ∨
      (∃ e, n = 7 ∧ i < 32 ∧ entryAt s.screen i = some e ∧ contents = [screenSnapshot e]) ∨
      (∃ e, n = 8 ∧ i < 16 ∧ entryAt s.attempts i = some e ∧ contents = [attemptSnapshot s e]) ∨
      (∃ r, n = 9 ∧ i < 8 ∧ s.ladder[i]? = some r ∧ contents = [rungSnapshot r]) ∨
      (∃ m, n = 10 ∧ i < 8 ∧ s.mailboxes[i]? = some m ∧ contents = [mailboxSnapshot s m]) ∨
      (∃ e, n = 11 ∧ i ≠ 0 ∧ s.store.st = .ready ∧ findEntry s i = some e ∧ contents = [entrySnapshot s e])) :
    queryResult s n i = .found contents := by
  rcases h with ⟨rfl, rfl⟩ | ⟨rfl, rfl⟩ | ⟨rfl, rfl⟩ | ⟨rfl, rfl⟩ | ⟨rfl, rfl⟩ | ⟨e, rfl, hi, h, rfl⟩ | ⟨e, rfl, hi, h, rfl⟩ |
    ⟨e, rfl, hi, h, rfl⟩ | ⟨e, rfl, hi, h, rfl⟩ | ⟨e, rfl, hi, h, rfl⟩ | ⟨e, rfl, hi, h, rfl⟩ | ⟨e, rfl, hi, hst, h, rfl⟩
  case inr.inr.inr.inr.inr.inr.inr.inr.inr.inr.inr =>
    rw [queryResult, if_neg hi, if_neg (by simp [storeReady, hst]), h]
    rfl
  case inl | inr.inl | inr.inr.inl | inr.inr.inr.inl | inr.inr.inr.inr.inl => rfl
  all_goals rw [queryResult, within, if_pos hi, h]; rfl

end

/-- The statement holds where a count of one byte wraps. -/
theorem queryRefusesOrAnswers_of_oneByte (hwrap : ∀ n, oneByte n = [BitVec.ofNat 8 n]) : Obligations.QueryRefusesOrAnswers := by
  intro subject index s hs hk i
  have hcode (n : Nat) (hn : n < 256) : subject = BitVec.ofNat 8 n ↔ subject.toNat = n := by
    rw [← BitVec.toNat_inj, BitVec.toNat_ofNat, Nat.mod_eq_of_lt hn]
  refine ⟨fun h => exec_query_refused hs hk (queryResult_badParam ?_), fun h => exec_query_refused hs hk (queryResult_noEntry ?_),
    fun h hi hst => exec_query_refused hs hk ?_, fun contents h => ?_, fun contents => ?_⟩
  · simpa only [hcode _ (show 5 < 256 by omega), hcode _ (show 6 < 256 by omega), hcode _ (show 7 < 256 by omega),
      hcode _ (show 8 < 256 by omega), hcode _ (show 9 < 256 by omega), hcode _ (show 10 < 256 by omega),
      hcode _ (show 11 < 256 by omega)] using h
  · simpa only [hcode _ (show 5 < 256 by omega), hcode _ (show 6 < 256 by omega), hcode _ (show 7 < 256 by omega),
      hcode _ (show 8 < 256 by omega), hcode _ (show 9 < 256 by omega), hcode _ (show 11 < 256 by omega)] using h
  · rw [(hcode 11 (by omega)).mp h, queryResult, if_neg hi, if_pos (by simpa [storeReady] using hst)]
  · have hfound : queryResult s subject.toNat index.toNat = .found contents := queryResult_found (by
      simpa only [hwrap, hcode _ (show 0 < 256 by omega), hcode _ (show 1 < 256 by omega), hcode _ (show 2 < 256 by omega),
        hcode _ (show 3 < 256 by omega), hcode _ (show 4 < 256 by omega), hcode _ (show 5 < 256 by omega),
        hcode _ (show 6 < 256 by omega), hcode _ (show 7 < 256 by omega), hcode _ (show 8 < 256 by omega),
        hcode _ (show 9 < 256 by omega), hcode _ (show 10 < 256 by omega), hcode _ (show 11 < 256 by omega)] using h)
    rw [exec_query_found hs hk hfound, hwrap]
  · obtain ⟨hflat, hne, hlen⟩ := cutParts_cuts contents.length contents (by omega)
    exact ⟨_, hflat, hne, hlen, snapshotReports_eq subject index contents⟩

end Sys2Proof.Machine
end

section
/-! PROOFS. The pages of the fax sender (R162, R163, R165, R170). -/

namespace Sys2Proof.Machine

/-! ### The sender's operations on a line's state -/

/-- The SET a sender sends at what it has agreed. -/
def Fax.setMsg (f : Fax) : FaxMsg := .set (f.agreed.getD .l48) f.fine f.lineTime

/-- The engine as SET goes out. -/
def Fax.sets (f : Fax) : Fax := ({ f with phase := some .check, lastSet := some f.setMsg } : Fax).sent f.setMsg

/-- The engine as it wants the next header, the stream standing at an offset. -/
def Fax.wants (use : HeaderUse) (position : Nat) (f : Fax) : Fax :=
  { f with headerUse := some use, header := none, pageStart := some position }

/-- The engine as it has its header. -/
def Fax.hasHeader (fine : Bool) (lines position : Nat) (f : Fax) : Fax :=
  { f with headerUse := none, header := some (fine, lines), pageStart := some position }

/-- A sending session on a line in FAX whose stream is open, the memory port being busy. -/
structure FaxSending (s : State) (l : Line) (r : RStream) : Prop where
  requests : s.requests = []
  role : (s.line l).fax.role = some .sender
  st : s.st l = .fax
  reader : readerOf s (.line l) = some r
  grant : s.store.grant ≠ none

/-- None of a stream's bytes has been read yet, and a page header is to come. -/
def RStream.waits (r : RStream) : Prop := r.ready = false ∧ r.buffers = [] ∧ r.position + 16 ≤ r.length

/-- The next page header of a stream has been read. -/
structure RStream.HoldsHeader (r : RStream) (fine : Bool) (lines : Nat) : Prop where
  held : 16 ≤ r.held.length
  left : r.position + 16 ≤ r.length
  read : readPageHeader (r.held.take 16) = some (fine, lines)

/-- A state in which a line's stream has given so many bytes. -/
def State.taken (l : Line) (r : RStream) (n : Nat) (s : State) : State := setReader (.line l) (some (r.advance n)) s

section
variable {s : State} {l : Line} {x : LineState} {k : Link} {r : RStream}

theorem RStream.held_of_waits (h : r.waits) : r.held = [] := by rw [RStream.held, h.2.1]; rfl

theorem sendSet_put : sendSet l (s.put l x k) = s.put l { x with fax := x.fax.sets } k := by
  rw [sendSet, put_line, modFax_put, sendControl_put]
  rfl

theorem takeBytes_put (hr : readerOf s (.line l) = some r) (hg : s.store.grant ≠ none) (n : Nat) :
    takeBytes (.line l) n (s.put l x k) = (s.taken l r n).put l x k := by
  rw [takeBytes, readerOf_put, hr]
  dsimp only
  rw [setReader_put]
  exact storeKick_of_grant (by rw [put_store, setReader_grant]; exact hg)

theorem noteUnderrun_waits (hr : readerOf s (.line l) = some r) (hw : r.waits) : noteUnderrun l (s.put l x k) = s.put l x k := by
  rw [noteUnderrun, readerOf_put, hr]
  dsimp only
  rw [hw.1]
  exact if_neg nofun

/-- A header that has not come is awaited. -/
theorem wantHeader_waits (hr : readerOf s (.line l) = some r) (hw : r.waits) (use : HeaderUse) :
    wantHeader l use (s.put l x k) = s.put l { x with fax := x.fax.wants use r.position } k := by
  rw [wantHeader, readerOf_put, hr, modFax_put, fetchHeader, put_line, readerOf_put, hr]
  dsimp only [Option.map_some]
  rw [if_neg (by have := hw.2.2; omega), r.held_of_waits hw, if_neg (by exact nofun), noteUnderrun_waits hr hw]
  rfl

/-- A header that has come is used. -/
theorem wantHeader_reads {fine : Bool} {lines : Nat} (hr : readerOf s (.line l) = some r) (hg : s.store.grant ≠ none)
    (hh : r.HoldsHeader fine lines) (use : HeaderUse) : wantHeader l use (s.put l x k) =
      useHeader l use fine ((s.taken l r 16).put l { x with fax := x.fax.hasHeader fine lines r.position } k) := by
  rw [wantHeader, readerOf_put, hr, modFax_put, fetchHeader, put_line, readerOf_put, hr]
  dsimp only [Option.map_some]
  rw [if_neg (by have := hh.left; omega), if_pos hh.held, hh.read]
  dsimp only
  rw [modFax_put, takeBytes_put hr hg]
  rfl

theorem withResolution_put (fine : Bool) (go : State → State) : withResolution l fine go (s.put l x k) =
    if fine = true ∧ x.fax.capsFine = false then s.put l { x with fax := x.fax.ends .unsupported } k
    else go (s.put l { x with fax := { x.fax with fine := fine } } k) := by
  rw [withResolution, put_line, sendBye_put, modFax_put]

theorem beginPage_waits {fine : Bool} {n : Nat} (hr : readerOf s (.line l) = some r) (hw : r.waits)
    (hh : x.fax.header = some (fine, n + 1)) :
    beginPage l (s.put l x k) = s.put l { x with fax := { x.fax with phase := some .page, recordNo := 0, txRecord := none } } k := by
  rw [beginPage, modFax_put, sendRecord, put_line, readerOf_put, hr]
  dsimp only
  rw [hh]
  dsimp only
  rw [if_neg (by exact Nat.not_succ_le_zero n), if_neg (by have := hw.2.2; omega), r.held_of_waits hw]
  exact noteUnderrun_waits hr hw

/-- The next record goes on the line. -/
theorem sendRecord_put {fine : Bool} {lines : Nat} {h lo : Byte} {rest : List Byte} (hr : readerOf s (.line l) = some r)
    (hg : s.store.grant ≠ none) (hh : x.fax.header = some (fine, lines)) (hn : x.fax.recordNo < lines) (hheld : r.held = h :: lo :: rest)
    (hlen : h.toNat * 256 + lo.toNat ≤ 512) (hrest : h.toNat * 256 + lo.toNat ≤ rest.length) (hleft : r.position + r.held.length ≤ r.length) :
    sendRecord l (s.put l x k) = (s.taken l r (h.toNat * 256 + lo.toNat + 2)).put l { x with
      fax := { x.fax with txRecord := some (txRecordOf x.fax (rest.take (h.toNat * 256 + lo.toNat))) } } k := by
  have hcount : r.held.length = rest.length + 2 := by rw [hheld]; rfl
  rw [sendRecord, put_line, readerOf_put, hr]
  dsimp only
  rw [hh]
  dsimp only
  rw [if_neg (Nat.not_le.mpr hn), if_neg (by omega), hheld]
  dsimp only
  rw [if_neg (by omega), if_pos hrest, modFax_put, takeBytes_put hr hg, ← hh]

/-- PAGE_END follows the last record. -/
theorem sendRecord_ends {fine : Bool} {lines : Nat} (hr : readerOf s (.line l) = some r) (hh : x.fax.header = some (fine, lines))
    (hn : lines ≤ x.fax.recordNo) : sendRecord l (s.put l x k) = s.put l { x with
      fax := ({ x.fax with phase := some .verdict } : Fax).sent (.pageEnd (decide (r.length ≤ r.position)) lines) } k := by
  rw [sendRecord, put_line, readerOf_put, hr]
  dsimp only
  rw [hh]
  dsimp only
  rw [if_pos hn, sendPageEnd, readerOf_put, hr]
  dsimp only
  rw [modFax_put, sendControl_put, ← hh]

theorem stepDown_put {m : Mode} {i : Nat} (hm : nextLowerMode x.fax = some m) (hrungs : x.fax.rungs = (s.line l).fax.rungs)
    (hi : faxRungOf s l m = some i) : ∃ k', stepDown l (s.put l x k) = s.put l { x with
      fax := { x.fax with agreed := some m }
      modem := { x.modem with rung := some i, faxRungSet := true, window := none } } k' := by
  rw [stepDown, put_line, hm]
  exact agreeMode_put hrungs hi

theorem readerOf_taken (n : Nat) : readerOf (s.taken l r n) (.line l) = some (r.advance n) := readerOf_setReader ..

theorem taken_frame (n : Nat) : s.taken l r n = { s with store := (s.taken l r n).store } := by cases l <;> rfl

end

end Sys2Proof.Machine
end

section
/-! PROOFS. What the fax sender makes of each answer (R162, R163, R165, R170). -/

namespace Sys2Proof.Machine

/-- The engine as CAPS is taken. -/
def Fax.capped (caps modes : List Mode) (fine : Bool) (time : Nat) (f : Fax) : Fax := { f with
  taken := some .caps, capsModes := some caps, capsFine := fine, capsTime := time, capsDue := none, modes := modes }

/-- The engine as an answer is taken. -/
def Fax.answered (kind : FaxKind) (f : Fax) : Fax := { f with outstanding := none, taken := some kind }

section
variable {s : State} {l : Line} {r : RStream}

theorem modFax_eq_put (f : Fax → Fax) (s : State) : modFax l f s = s.put l { s.line l with fax := f (s.line l).fax } s.link := by
  cases l <;> rfl

theorem noteTaken_discharge (kind : FaxKind) (s : State) : noteTaken l kind (discharge l s) =
    s.put l { s.line l with fax := (s.line l).fax.answered kind } s.link := by
  rw [discharge, modFax_eq_put, noteTaken_put]
  rfl

theorem faxIs_of_other {p q : FaxPhase} (hp : (s.line l).fax.phase = some p) (hne : p ≠ q) : faxIs s l .sender q = false := by
  simp [faxIs, hp, hne]

theorem checkAnswerable_eq {o : Outstanding} (ho : (s.line l).fax.outstanding = some o) (hset : o.msg.isSet = true) :
    checkAnswerable s l = true ↔ o.due ≠ none ∨ 2 ≤ o.sends := by
  rw [checkAnswerable, ho, Option.map_some, Option.getD_some, hset, Bool.true_and, Bool.or_eq_true, decide_eq_true_eq,
    Option.isSome_iff_ne_none]
  rfl

/-- VERDICT of a last page that is good. -/
theorem takeVerdict_last {y : LineState} {k : Link} : takeVerdict l true .good (s.put l y k) =
    s.put l { y with fax := ({ y.fax with good := y.fax.good + 1, allGood := true } : Fax).ends .done } k := by
  rw [takeVerdict]
  · dsimp only
    rw [modFax_put, if_pos rfl, sendBye_put]
  · exact nofun

theorem takeVerdict_bad {last : Bool} {y : LineState} {k : Link} (ht : 3 ≤ y.fax.tryCount) : takeVerdict l last .bad (s.put l y k) =
    s.put l { y with fax := y.fax.ends .failed } k := by
  rw [takeVerdict, resendPage, put_line]
  exact (if_pos (.inl ht)).trans (sendBye_put _)

section
variable (h : FaxSending s l r)
include h

theorem FaxSending.runs : faxRuns s l = true := faxRuns_of_fax h.st (by rw [h.role]; exact nofun)

theorem FaxSending.is {p : FaxPhase} (hp : (s.line l).fax.phase = some p) : faxIs s l .sender p = true := faxIs_of h.st h.role hp

/-- A command that changes its line alone. -/
theorem FaxSending.exec_line {c : Instr} {y : LineState} (hop : opOf c s = s.put l y s.link) : exec c s = .next (s.setLine l y) :=
  exec_of_op (hop.trans (setLine_eq_put ..).symm) ((setLine_requests ..).trans h.requests)

/-- A command that changes its line and queues reports. -/
theorem FaxSending.exec_put {c : Instr} {y : LineState} {k : Link} (hop : opOf c s = s.put l y k) :
    exec c s = .next { s.setLine l y with link := k } :=
  (exec_of_op hop ((put_requests ..).trans h.requests)).trans (by cases l <;> rfl)

/-- A command that takes bytes of the stream as well. -/
theorem FaxSending.exec_taken {c : Instr} {y : LineState} {k : Link} {n : Nat} (hop : opOf c s = (s.taken l r n).put l y k) :
    exec c s = .next { s.setLine l y with link := k, store := (s.taken l r n).store } := by
  refine (exec_of_op hop ?_).trans (congrArg _ (put_of_store y k (taken_frame n)))
  rw [put_requests, taken_frame]
  exact h.requests

/-! ### CAPS -/

theorem FaxSending.opCaps_eq {m res t : Byte} (hp : (s.line l).fax.phase = some .setup) (hc : (s.line l).fax.capsModes = none) :
    opCaps l m res t s = wantHeader l .setup (s.put l { s.line l with
      fax := (s.line l).fax.capped (modeSet m) (sessionModes s l (modeSet m)) (res.getLsbD 1) t.toNat } s.link) := by
  rw [opCaps]
  dsimp only
  rw [if_pos ⟨h.is hp, hc⟩, modFax_eq_put]
  rfl

/-- CAPS with the first header in hand. -/
theorem FaxSending.opCaps_reads {m res t : Byte} {lines i : Nat} {mode : Mode} (hp : (s.line l).fax.phase = some .setup)
    (hc : (s.line l).fax.capsModes = none) (hh : r.HoldsHeader false lines)
    (hm : (sessionModes s l (modeSet m)).getLast? = some mode) (hi : faxRungOf s l mode = some i) :
    ∃ k, opCaps l m res t s = (s.taken l r 16).put l { s.line l with
      fax := ({ ((s.line l).fax.capped (modeSet m) (sessionModes s l (modeSet m)) (res.getLsbD 1) t.toNat).hasHeader false lines r.position with
        fine := false, lineTime := max t.toNat (s.line l).profile.minLineTime, agreed := some mode } : Fax).sets
      modem := { (s.line l).modem with rung := some i, faxRungSet := true, window := none } } k := by
  let f := ((s.line l).fax.capped (modeSet m) (sessionModes s l (modeSet m)) (res.getLsbD 1) t.toNat).hasHeader false lines r.position
  let g : Fax := { f with fine := false, lineTime := max t.toNat (s.line l).profile.minLineTime }
  have hi' : faxRungOf (s.taken l r 16) l mode = some i := by rw [← hi]; cases l <;> rfl
  obtain ⟨k, hagree⟩ := agreeMode_put (s := s.taken l r 16) (l := l) (x := { s.line l with fax := g }) (k := s.link) (by cases l <;> rfl) hi'
  refine ⟨k, ?_⟩
  rw [h.opCaps_eq hp hc, wantHeader_reads h.reader h.grant hh, useHeader, answerCaps, put_line]
  dsimp only
  rw [show f.modes.getLast? = some mode from hm]
  dsimp only
  rw [withResolution_put, if_neg (by exact fun hf => absurd hf.1 nofun), put_line, modFax_put]
  erw [hagree]
  rw [sendSet_put]

/-! ### CHECK_OK and CHECK_FAIL -/

/-- An answer to a check that has not been sent yet is not taken. -/
theorem FaxSending.check_early {o : Outstanding} (hp : (s.line l).fax.phase = some .check) (ho : (s.line l).fax.outstanding = some o)
    (hset : o.msg.isSet = true) (hdue : o.due = none) (hsends : o.sends ≤ 1) :
    exec (.checkOk l) s = .next s ∧ exec (.checkFail l) s = .next s := by
  have hno : ¬(faxIs s l .sender .check = true ∧ checkAnswerable s l = true) := fun hc =>
    ((checkAnswerable_eq ho hset).mp hc.2).elim (fun hd => hd hdue) (by omega)
  refine ⟨exec_of_op (c := .checkOk l) (show opCheckOk l s = s from if_neg hno) h.requests,
    exec_of_op (c := .checkFail l) (show opCheckFail l s = s from ?_) h.requests⟩
  rw [opCheckFail, if_neg hno, faxIs_of_other (q := .page) hp nofun, if_neg nofun, faxIs_of_other (q := .ended) hp nofun, if_neg nofun]

theorem FaxSending.opCheckOk_eq (hp : (s.line l).fax.phase = some .check) (hc : checkAnswerable s l = true) :
    opCheckOk l s = if (s.line l).fax.header.isSome
      then beginPage l (s.put l { s.line l with fax := (s.line l).fax.answered .check } s.link)
      else wantHeader l .again (s.put l { s.line l with fax := { (s.line l).fax.answered .check with phase := some .page } } s.link) := by
  rw [opCheckOk, if_pos ⟨h.is hp, hc⟩, noteTaken_discharge]
  dsimp only
  rw [put_line, modFax_put]
  rfl

theorem FaxSending.opCheckFail_eq (hp : (s.line l).fax.phase = some .check) (hc : checkAnswerable s l = true) :
    opCheckFail l s = if (nextLowerMode (s.line l).fax).isSome
      then sendSet l (stepDown l (s.put l { s.line l with fax := (s.line l).fax.answered .check } s.link))
      else s.put l { s.line l with fax := ((s.line l).fax.answered .check).ends .noRung } s.link := by
  rw [opCheckFail, if_pos ⟨h.is hp, hc⟩, noteTaken_discharge]
  dsimp only
  rw [put_line, sendBye_put]
  rfl

/-- CHECK_FAIL with a mode left below. -/
theorem FaxSending.opCheckFail_steps {mode : Mode} {i : Nat} (hp : (s.line l).fax.phase = some .check) (hc : checkAnswerable s l = true)
    (hm : nextLowerMode (s.line l).fax = some mode) (hi : faxRungOf s l mode = some i) :
    ∃ k, opCheckFail l s = s.put l { s.line l with
      fax := ({ (s.line l).fax.answered .check with agreed := some mode } : Fax).sets
      modem := { (s.line l).modem with rung := some i, faxRungSet := true, window := none } } k := by
  obtain ⟨k, hdown⟩ := stepDown_put (s := s) (l := l) (x := { s.line l with fax := (s.line l).fax.answered .check }) (k := s.link)
    (by exact hm) (by rfl) hi
  refine ⟨k, ?_⟩
  rw [h.opCheckFail_eq hp hc, hm, if_pos (by rfl), hdown, sendSet_put]

/-- CHECK_OK with the header of the page to come in hand, its resolution not the one last set. -/
theorem FaxSending.opCheckOk_resolves {fine : Bool} {lines : Nat} (hp : (s.line l).fax.phase = some .check)
    (hc : checkAnswerable s l = true) (hnone : (s.line l).fax.header = none) (hh : r.HoldsHeader fine lines) (hne : fine ≠ (s.line l).fax.fine) :
    let f := ({ (s.line l).fax.answered .check with phase := some .page } : Fax).hasHeader fine lines r.position
    opCheckOk l s = (s.taken l r 16).put l { s.line l with
      fax := if fine = true ∧ (s.line l).fax.capsFine = false then f.ends .unsupported else ({ f with fine := fine } : Fax).sets } s.link := by
  rw [h.opCheckOk_eq hp hc, hnone, if_neg nofun, wantHeader_reads h.reader h.grant hh, useHeader, put_line, if_neg (by exact hne),
    withResolution_put]
  split_ifs with hno hno' hno'
  · rfl
  · exact absurd hno hno'
  · exact absurd hno' hno
  · exact sendSet_put

/-! ### Records -/

theorem FaxSending.opLineRecordSent_eq {d : TxRecord} (hp : (s.line l).fax.phase = some .page) (hd : (s.line l).fax.txRecord = some d) :
    opLineRecordSent l s = sendRecord l (s.put l { s.line l with
      fax := { (s.line l).fax with txRecord := none, recordNo := (s.line l).fax.recordNo + 1 } } s.link) := by
  rw [opLineRecordSent, hd, if_pos ⟨h.runs, rfl⟩, modFax_eq_put]
  refine if_pos (faxIs_of ?_ ?_ ?_)
  · exact (put_st ..).trans h.st
  · rw [put_line]; exact h.role
  · rw [put_line]; exact hp

/-! ### VERDICT -/

theorem FaxSending.opVerdict_eq {o : Outstanding} {last : Bool} {lines : Nat} {b : Byte} {v : Verdict} {total bad : Word16}
    (hp : (s.line l).fax.phase = some .verdict) (ho : (s.line l).fax.outstanding = some o) (hmsg : o.msg = .pageEnd last lines)
    (hv : Verdict.ofCode b.toNat = some v) (hne : v ≠ .none) : opVerdict l b total bad s =
      takeVerdict l last v (s.put l { s.line l with fax := (s.line l).fax.answered .verdict }
        (s.link.push (.page l (s.line l).fax.page v total.toNat bad.toNat (agreedRung s l)))) := by
  have hlast : pageEndLast s l = some last := by rw [pageEndLast, ho, Option.bind_some, hmsg]
  rw [opVerdict, hv, hlast]
  dsimp only
  rw [if_pos ⟨h.is hp, hne⟩, noteTaken_discharge, reportPage, agreedRung_put (by rfl) (by rfl), queueReport_put]

/-- VERDICT of a page that is good, the next header not having come. -/
theorem FaxSending.takeVerdict_next {y : LineState} {k : Link} (hw : r.waits) : takeVerdict l false .good (s.put l y k) =
    s.put l { y with fax := ({ y.fax with
      good := y.fax.good + 1, allGood := false, page := y.fax.page + 1, tryCount := 1
      phase := some .page } : Fax).wants .nextPage r.position } k := by
  rw [takeVerdict]
  · dsimp only
    rw [modFax_put, if_neg nofun, nextPage, modFax_put, if_pos rfl, modFax_put, wantHeader_waits h.reader hw]
  · exact nofun

/-- A VERDICT again, answered by SET or BYE. -/
theorem FaxSending.opVerdict_again {o : Outstanding} {b : Byte} {v : Verdict} {total bad : Word16}
    (ho : (s.line l).fax.outstanding = some o) (ht : (s.line l).fax.taken = some .verdict) (hv : Verdict.ofCode b.toNat = some v)
    (hne : v ≠ .none) (hmsg : o.msg.isAnswer = true) (hend : ∀ last lines, o.msg ≠ .pageEnd last lines) :
    opVerdict l b total bad s = if o.due ≠ none
      then s.put l { s.line l with fax := { (s.line l).fax with outQueue := (s.line l).fax.outQueue ++ [o.msg] } } s.link else s := by
  have hlast : pageEndLast s l = none := by
    rw [pageEndLast, ho, Option.bind_some]
    cases hm : o.msg with
    | pageEnd last lines => exact absurd hm (hend last lines)
    | _ => rfl
  rw [opVerdict, hv, hlast]
  dsimp only
  rw [if_pos ⟨h.role, hne⟩, answerAgain, ho]
  dsimp only
  rw [sendAgain, modFax_eq_put]
  by_cases hdue : o.due = none
  · rw [hdue, if_neg (by simp), if_neg (by simp)]
  · rw [if_pos ⟨h.runs, ht, hmsg, Option.isSome_iff_ne_none.mpr hdue⟩, if_pos hdue, ← ho]

end

end

end Sys2Proof.Machine
end

section
/-! PROOFS. The fax sender together (R160, R162, R163, R165, R170). -/

namespace Sys2Proof.Machine

section
variable {s : State} {l : Line} {r : RStream}

theorem map_position_taken (n : Nat) (t : State) (ht : t.store = (s.taken l r n).store) :
    (readerOf t (.line l)).map (·.position) = some (r.position + n) := by
  have hr : readerOf t (.line l) = readerOf (s.taken l r n) (.line l) := by
    rw [readerOf.eq_def, readerOf.eq_def, ht]
  rw [hr, readerOf_taken]
  rfl

theorem verdict_of_code {b : Byte} (h1 : 1 ≤ b.toNat) (h3 : b.toNat ≤ 3) : ∃ v, Verdict.ofCode b.toNat = some v ∧ v ≠ .none := by
  obtain hb | hb | hb : b.toNat = 1 ∨ b.toNat = 2 ∨ b.toNat = 3 := by omega
  · exact ⟨.good, by rw [hb]; rfl, nofun⟩
  · exact ⟨.retrainGood, by rw [hb]; rfl, nofun⟩
  · exact ⟨.bad, by rw [hb]; rfl, nofun⟩

/-- A line record with its number and length, where numbers of two bytes wrap. -/
theorem txRecordOf_eq (hnum : ∀ n, numBytes 2 n = wordBytes (BitVec.ofNat 16 n)) (f : Fax) {n : Nat} {rest : List Byte}
    (hn : n ≤ rest.length) :
    let bytes := withCheck (numBytes 2 f.recordNo ++ numBytes 2 n ++ rest.take n)
    txRecordOf f (rest.take n) = ⟨bytes, (f.lineTime * (f.agreed.map Mode.bitRate).getD 0 + 7999) / 8000 - bytes.length⟩ := by
  have hlen : (rest.take n).length = n := by rw [List.length_take]; omega
  rw [txRecordOf, recordBody, hlen, hnum, hnum, minRecordBytes]

section
variable (h : FaxSending s l r)
include h

/-- A record goes out behind the one that has been sent. -/
theorem FaxSending.exec_record (hnum : ∀ n, numBytes 2 n = wordBytes (BitVec.ofNat 16 n)) {d : TxRecord} {fine : Bool} {lines : Nat}
    {b lo : Byte} {rest : List Byte} (hp : (s.line l).fax.phase = some .page) (hd : (s.line l).fax.txRecord = some d)
    (hh : (s.line l).fax.header = some (fine, lines)) (hn : (s.line l).fax.recordNo + 1 < lines) (hheld : r.held = b :: lo :: rest)
    (hlen : b.toNat * 256 + lo.toNat ≤ 512) (hrest : b.toNat * 256 + lo.toNat ≤ rest.length) (hleft : r.position + r.held.length ≤ r.length) :
    let f := (s.line l).fax
    let n := b.toNat * 256 + lo.toNat
    let bytes := withCheck (numBytes 2 (f.recordNo + 1) ++ numBytes 2 n ++ rest.take n)
    let least := (f.lineTime * (f.agreed.map Mode.bitRate).getD 0 + 7999) / 8000
    ∃ u, exec (.lineRecordSent l) s = .next u ∧
      (u.line l).fax = { f with recordNo := f.recordNo + 1, txRecord := some ⟨bytes, least - bytes.length⟩ } ∧
      (readerOf u (.line l)).map (·.position) = some (r.position + n + 2) ∧
      u = { s.setLine l { s.line l with fax := (u.line l).fax } with store := u.store } := by
  intro f n bytes least
  let g : Fax := { f with txRecord := none, recordNo := f.recordNo + 1 }
  have hop : opLineRecordSent l s = (s.taken l r (n + 2)).put l { s.line l with
      fax := { g with txRecord := some ⟨bytes, least - bytes.length⟩ } } s.link :=
    (h.opLineRecordSent_eq hp hd).trans ((sendRecord_put h.reader h.grant (by exact hh) (by exact hn) hheld hlen hrest hleft).trans (by
      rw [txRecordOf_eq hnum _ hrest]))
  refine ⟨_, h.exec_taken (c := .lineRecordSent l) hop, ?_, map_position_taken _ _ rfl, ?_⟩
  · cases l <;> rfl
  · cases l <;> rfl

/-- A VERDICT that is acted on, with its PAGE report. -/
theorem FaxSending.exec_verdict {o : Outstanding} {last : Bool} {lines : Nat} {b : Byte} {total bad : Word16} {y : LineState} (v : Verdict)
    (hp : (s.line l).fax.phase = some .verdict) (ho : (s.line l).fax.outstanding = some o) (hmsg : o.msg = .pageEnd last lines)
    (hv : Verdict.ofCode b.toNat = some v) (hne : v ≠ .none)
    (htake : ∀ k, takeVerdict l last v (s.put l { s.line l with fax := (s.line l).fax.answered .verdict } k) = s.put l y k) :
    exec (.verdict l b total bad) s = .next { s.setLine l y with
      link := (queueReport (.page l (s.line l).fax.page v total.toNat bad.toNat (agreedRung s l)) s).link } := by
  rw [queueReport_eq]
  exact h.exec_put (c := .verdict l b total bad) ((h.opVerdict_eq hp ho hmsg hv hne).trans (htake _))

end

end

/-- The statement holds where a number of two bytes wraps. -/
theorem faxSenderFollowsTheAnswers_of_numBytes (hnum : ∀ n, numBytes 2 n = wordBytes (BitVec.ofNat 16 n)) :
    Obligations.FaxSenderFollowsTheAnswers := by
  refine ⟨fun l r s hs hrole hst hr hg => ?_, fun l r o fine lines s hs hrole hst hr hg => ?_⟩
  · intro x f with_ bye report waiting
    have h : FaxSending s l r := ⟨hs, hrole, hst, hr, hg⟩
    refine ⟨fun m res t hp hc => ⟨fun hw => ?_, fun lines mode i hheld hleft hread hm hi => ?_⟩,
      fun o hp ho hset hdue hsends => h.check_early hp ho hset hdue hsends, fun o hp ho hset hdone => ?_,
      fun d fine lines b lo rest hp hd hh hn hheld hlen hrest hleft => h.exec_record hnum hp hd hh hn hheld hlen hrest hleft,
      fun d fine lines hp hd hh hn => ?_, fun o last lines total bad hp ho hmsg => ?_, fun o v total bad ho ht h1 h3 hans => ?_⟩
    · exact h.exec_line (c := .caps l m res t) ((h.opCaps_eq hp hc).trans (wantHeader_waits h.reader hw .setup))
    · obtain ⟨k, hop⟩ := h.opCaps_reads (m := m) (res := res) (t := t) hp hc ⟨hheld, hleft, hread⟩ hm hi
      refine ⟨_, h.exec_taken (c := .caps l m res t) hop, ?_⟩
      refine ⟨?_, ?_, ?_, ?_, ?_, ?_, map_position_taken _ _ rfl, ?_⟩
      all_goals cases l <;> rfl
    · have hans := (checkAnswerable_eq ho hset).mpr hdone
      refine ⟨fun fine n hh hw => ?_, fun hno => ?_, fun mode i hm hi => ?_⟩
      · refine h.exec_line (c := .checkOk l) ((h.opCheckOk_eq hp hans).trans ((if_pos (by rw [hh]; rfl)).trans
          (beginPage_waits h.reader hw hh)))
      · exact h.exec_line (c := .checkFail l) ((h.opCheckFail_eq hp hans).trans (if_neg (by rw [hno]; exact nofun)))
      · obtain ⟨k, hop⟩ := h.opCheckFail_steps hp hans hm hi
        refine ⟨_, h.exec_put (c := .checkFail l) hop, ?_⟩
        refine ⟨?_, ?_, ?_, ?_, ?_⟩
        all_goals cases l <;> rfl
    · exact h.exec_line (c := .lineRecordSent l) ((h.opLineRecordSent_eq hp hd).trans (sendRecord_ends h.reader hh hn))
    · refine ⟨fun hl => ?_, fun hl hw => ?_, fun ht => ?_⟩
      · exact h.exec_verdict .good hp ho hmsg rfl nofun fun k => by rw [hl]; exact takeVerdict_last
      · exact h.exec_verdict .good hp ho hmsg rfl nofun fun k => by rw [hl]; exact h.takeVerdict_next hw
      · exact h.exec_verdict .bad hp ho hmsg rfl nofun fun k => takeVerdict_bad (by exact ht)
    · obtain ⟨w, hw, hne⟩ := verdict_of_code h1 h3
      have hop := h.opVerdict_again (total := total) (bad := bad) ho ht hw hne
        (by obtain ⟨m, fine, t, hm⟩ | ⟨b, hm⟩ := hans <;> rw [hm] <;> rfl)
        (by obtain ⟨m, fine, t, hm⟩ | ⟨b, hm⟩ := hans <;> rw [hm] <;> exact nofun)
      exact ⟨fun hdue => h.exec_line (c := .verdict l v total bad) (hop.trans (if_pos hdue)),
        fun hdue => exec_of_op (c := .verdict l v total bad) (hop.trans (if_neg (not_not_intro hdue))) hs⟩
  · intro x f hp hnone ho hset hdone hheld hleft hread hne read set
    have h : FaxSending s l r := ⟨hs, hrole, hst, hr, hg⟩
    have hop := h.opCheckOk_resolves hp ((checkAnswerable_eq ho hset).mpr hdone) hnone ⟨hheld, hleft, hread⟩ hne
    refine ⟨_, h.exec_taken (c := .checkOk l) hop, fun hno => ?_, fun hyes => ?_, map_position_taken _ _ rfl, ?_⟩
    · rw [if_pos hno]
      cases l <;> rfl
    · have hyes' : ¬(fine = true ∧ (s.line l).fax.capsFine = false) := by
        rintro ⟨h1, h2⟩
        obtain h | h := hyes
        · rw [h] at h1; exact nomatch h1
        · rw [show (s.line l).fax.capsFine = true from h] at h2; exact nomatch h2
      rw [if_neg hyes']
      cases l <;> rfl
    · cases l <;> rfl

end Sys2Proof.Machine
end

section
/-! PROOFS. What QueryRefusesOrAnswers, FaxSenderFollowsTheAnswers and EraseAndNewsackAct say about the coding of a number beyond its field's
width, which the model leaves free (`Config.fieldOverflow`, log entry 6): each of them holds exactly if that coding wraps. -/

namespace Sys2Proof.Machine

/-! ### Reports of an idle terminal link -/

theorem Link.push_idle {k : Link} (r : Report) (hr : k.reports = []) (hs : k.sending = .idle) (hh : k.hhold = false) :
    (k.push r).sending = .report r := by
  rw [Link.push, hr, if_pos (by simp), if_pos ⟨hs, hh⟩]
  rfl

theorem Link.push_busy {k : Link} (r : Report) (hs : k.sending ≠ .idle) :
    (k.push r).sending = k.sending ∧ k.reports <+: (k.push r).reports := by
  rw [Link.push]
  by_cases hfit : k.reports.length < 32
  · rw [if_pos hfit, if_neg fun h => hs h.1]
    exact ⟨rfl, List.prefix_append _ _⟩
  · rw [if_neg hfit]
    exact ⟨rfl, List.prefix_rfl⟩

theorem Link.pushes_busy (rs : List Report) {k : Link} (hs : k.sending ≠ .idle) :
    (rs.foldl (fun k r => k.push r) k).sending = k.sending ∧ k.reports <+: (rs.foldl (fun k r => k.push r) k).reports := by
  induction rs generalizing k with
  | nil => exact ⟨rfl, List.prefix_rfl⟩
  | cons r rest ih =>
    obtain ⟨hsend, hpre⟩ := k.push_busy r hs
    obtain ⟨hsend', hpre'⟩ := ih (k := k.push r) (by rw [hsend]; exact hs)
    exact ⟨hsend'.trans hsend, hpre.trans hpre'⟩

/-- A terminal link with nothing to send. -/
def quietLink : Link := { initialLink false 0 false with reports := [] }

/-! ### EraseAndNewsackAct -/

/-- A READY store whose unheard list holds so many messages before the message 0, its port busy. -/
def unheardState (k : Nat) : State := { State.reset with
  link := quietLink
  store := { State.reset.store with
    st := .ready, grant := some (.write 0 0), unheard := (List.range k).map (· + 1) ++ [0] } }

theorem oneByte_of_eraseAndNewsackAct (h : Obligations.EraseAndNewsackAct) (k : Nat) : oneByte (k + 1) = [BitVec.ofNat 8 (k + 1)] := by
  let e : Entry := ⟨0, .file, .closed, none, none, .none, 0, 0, none, 0, none, false, false, false, false, 0, []⟩
  have hg : (unheardState k).store.grant ≠ none := nofun
  have hm : ∀ x, (unheardState k).store.grant ≠ some (.maint x) := fun x => nofun
  have hnodup : (unheardState k).store.unheard.Nodup := by
    refine List.nodup_append.mpr ⟨(List.nodup_range).map fun a b hab => by simpa using hab, List.nodup_singleton 0, fun a ha b hb => ?_⟩
    obtain ⟨i, -, rfl⟩ := List.mem_map.mp ha
    rw [List.mem_singleton.mp hb]
    exact Nat.succ_ne_zero i
  have hlen : ((List.range k).map (· + 1)).length = k := by rw [List.length_map, List.length_range]
  obtain ⟨-, -, -, -, hstated⟩ := h.1 0#16 e (unheardState k) rfl hg hm
  obtain ⟨-, -, -, -, hmodel⟩ := eraseAndNewsack_commands 0#16 e (unheardState k) rfl hg hm
  have heq := (hmodel _ [] rfl rfl hnodup).symm.trans (hstated _ [] rfl rfl hnodup)
  rw [hlen, done_eq, done_eq] at heq
  have hsend := congrArg (fun t : State => t.link.sending) (Host.Outcome.next.inj heq)
  dsimp only at hsend
  rw [Link.push_idle _ rfl rfl rfl, Link.push_idle _ rfl rfl rfl] at hsend
  injection hsend with hdone
  injection hdone

/-! ### QueryRefusesOrAnswers -/

/-- A state with so many jobs. -/
def jobsState (n : Nat) : State := { State.reset with
  link := quietLink
  jobs := List.replicate n ⟨1, .fax, [], [], 0, 0, .any, 0, 0, .waiting, none, (0, none)⟩ }

/-- The first report behind the DONE of a directive. -/
theorem head_behind_done {s t : State} {c : Byte} {r : Report} {rs : List Report} {vs : List Byte} (hs : s.link = quietLink)
    (ht : t = queueReports (r :: rs) (done c .ok vs s)) : t.link.reports.head? = some r := by
  have hsend (k : Link) (hk : k.sending = .report (.done c .ok vs)) : k.sending ≠ .idle := by rw [hk]; exact nofun
  have hdone : (quietLink.push (.done c .ok vs)).sending = .report (.done c .ok vs) := rfl
  obtain ⟨hkeep, -⟩ := (quietLink.push (.done c .ok vs)).push_busy r (hsend _ hdone)
  obtain ⟨-, rest, hrest⟩ := Link.pushes_busy rs (hsend _ (hkeep.trans hdone))
  have hlink : t.link.reports = [r] ++ rest := by
    rw [ht, queueReports_eq, done_eq]
    dsimp only
    rw [hs, List.foldl_cons, ← hrest]
    rfl
  rw [hlink]
  rfl

theorem snapshotReports_short {subject : Byte} {index : Word16} {contents : List Byte} (h : contents.length ≤ 250) :
    snapshotReports subject index contents = [.snapshot subject index 1 1 contents] := by
  have hcut : cutParts contents.length contents = [contents] := by
    cases hn : contents.length with
    | zero => rfl
    | succ n => rw [cutParts, if_pos h]
  rw [snapshotReports_eq, hcut]
  rfl

theorem oneByte_of_queryRefusesOrAnswers (h : Obligations.QueryRefusesOrAnswers) (n : Nat) : oneByte n = [BitVec.ofNat 8 n] := by
  have hquiet : arbiterKick (jobsState n) = jobsState n := rfl
  have hlen : (jobsState n).jobs.length = n := List.length_replicate
  let jobs := (listOrder (jobsState n).store.settings.order (jobsState n).jobs).map jobSnapshot
  have hstated := (h 4#8 0#16 (jobsState n) rfl hquiet).2.2.2.1 ([BitVec.ofNat 8 n] :: jobs) (.inr (.inr (.inr (.inr (.inl ⟨rfl, by
    rw [hlen]⟩)))))
  have hmodel := exec_query_found (subject := 4#8) (index := 0#16) (contents := oneByte n :: jobs) rfl hquiet (queryResult_found (.inr (.inr
    (.inr (.inr (.inl ⟨rfl, by rw [hlen]⟩))))))
  have heq := Host.Outcome.next.inj (hstated.symm.trans hmodel)
  rw [List.flatMap_cons, List.flatMap_cons, snapshotReports_short (by simp), snapshotReports_short (by simp [oneByte, numBytes])] at heq
  have hhead := (head_behind_done rfl rfl).symm.trans (head_behind_done rfl heq)
  injection hhead with hreport
  injection hreport with _ _ _ _ hbytes
  exact hbytes.symm

/-! ### FaxSenderFollowsTheAnswers -/

/-- A sender whose record before the one of a number has been sent, the next holding no byte. -/
def recordState (n : Nat) : State :=
  let x := initialLine false false
  { State.reset with
    lineA := { x with
      call := { x.call with st := .fax }
      fax := { x.fax with
        role := some .sender, phase := some .page, txRecord := some ⟨[], 0⟩, header := some (false, n + 2), recordNo := n } }
    store := { State.reset.store with
      grant := some (.write 0 0), readA := some ⟨1, 0, 2, [[0#8, 0#8]], 1, true, none, 0⟩ } }

theorem numBytes_of_faxSenderFollowsTheAnswers (h : Obligations.FaxSenderFollowsTheAnswers) (n : Nat) :
    numBytes 2 (n + 1) = wordBytes (BitVec.ofNat 16 (n + 1)) := by
  let r : RStream := ⟨1, 0, 2, [[0#8, 0#8]], 1, true, none, 0⟩
  have hs : FaxSending (recordState n) .A r := ⟨rfl, rfl, rfl, rfl, nofun⟩
  obtain ⟨-, -, -, hrecord, -⟩ := h.1 .A r (recordState n) rfl rfl rfl rfl nofun
  obtain ⟨u, hrun, hfax, -⟩ := hrecord ⟨[], 0⟩ false (n + 2) 0#8 0#8 [] rfl rfl rfl (Nat.lt_succ_self _) rfl (by decide) (by decide) (by decide)
  have hop := (hs.opLineRecordSent_eq rfl rfl).trans (sendRecord_put (fine := false) (lines := n + 2) (h := 0#8) (lo := 0#8) (rest := [])
    hs.reader hs.grant rfl (Nat.lt_succ_self _) rfl (by decide) (by decide) (by decide))
  have hu := Host.Outcome.next.inj (hrun.symm.trans (hs.exec_taken (c := .lineRecordSent .A) hop))
  have hsent := congrArg Fax.txRecord (hfax.symm.trans (congrArg (fun t : State => (t.line .A).fax) hu))
  have hbytes : withCheck (numBytes 2 (n + 1) ++ numBytes 2 0 ++ []) = withCheck (recordBody (BitVec.ofNat 16 (n + 1)) 0#16 []) :=
    congrArg TxRecord.bytes (Option.some.inj hsent)
  rw [withCheck, withCheck, recordBody, List.append_assoc, List.append_assoc, List.append_assoc, List.append_assoc] at hbytes
  exact List.append_inj_left hbytes rfl

/-! ### The coding of a number beyond its field's width -/

theorem oneByte_eq (n : Nat) : oneByte n = [BitVec.ofNat 8 (if n < 256 then n else Config.fieldOverflow 1 n)] := by
  simp [oneByte, numBytes]

/-- One byte wraps exactly if the free coding does. -/
theorem oneByte_wraps_iff : (∀ n, oneByte n = [BitVec.ofNat 8 n]) ↔ ∀ n, 256 ≤ n → Config.fieldOverflow 1 n % 256 = n % 256 := by
  refine forall_congr' fun n => ?_
  rw [oneByte_eq, List.cons.injEq, ← BitVec.toNat_inj, BitVec.toNat_ofNat, BitVec.toNat_ofNat]
  by_cases hn : n < 256
  · simp [hn]
  · simp [hn, Nat.le_of_not_lt hn]

theorem numBytes_two_eq (n : Nat) : numBytes 2 n =
    wordBytes (BitVec.ofNat 16 (if n < 65536 then n else Config.fieldOverflow 2 n)) := by
  have hhigh (m : Nat) : BitVec.ofNat 8 (m / 256) = BitVec.ofNat 8 (m % 65536 / 256) := BitVec.eq_of_toNat_eq (by
    rw [BitVec.toNat_ofNat, BitVec.toNat_ofNat]; omega)
  have hlow (m : Nat) : BitVec.ofNat 8 m = BitVec.ofNat 8 (m % 65536) := BitVec.eq_of_toNat_eq (by
    rw [BitVec.toNat_ofNat, BitVec.toNat_ofNat]; omega)
  have hbytes : numBytes 2 n = [BitVec.ofNat 8 ((if n < 65536 then n else Config.fieldOverflow 2 n) / 256),
      BitVec.ofNat 8 (if n < 65536 then n else Config.fieldOverflow 2 n)] := by
    simp [numBytes, List.range_succ]
  rw [hbytes, wordBytes, BitVec.toNat_ofNat, ← hhigh, ← hlow]

theorem wordBytes_inj {a b : Word16} : wordBytes a = wordBytes b ↔ a = b := by
  refine ⟨fun h => BitVec.eq_of_toNat_eq ?_, fun h => by rw [h]⟩
  rw [wordBytes, wordBytes, List.cons.injEq, List.cons.injEq, ← BitVec.toNat_inj, ← BitVec.toNat_inj, BitVec.toNat_ofNat, BitVec.toNat_ofNat,
    BitVec.toNat_ofNat, BitVec.toNat_ofNat] at h
  have ha := a.isLt
  have hb := b.isLt
  omega

/-- Two bytes wrap exactly if the free coding does. -/
theorem numBytes_wraps_iff : (∀ n, numBytes 2 n = wordBytes (BitVec.ofNat 16 n)) ↔
    ∀ n, 65536 ≤ n → Config.fieldOverflow 2 n % 65536 = n % 65536 := by
  refine forall_congr' fun n => ?_
  rw [numBytes_two_eq, wordBytes_inj, ← BitVec.toNat_inj, BitVec.toNat_ofNat, BitVec.toNat_ofNat]
  by_cases hn : n < 65536
  · simp [hn]
  · simp [hn, Nat.le_of_not_lt hn]

/-! ### The three equivalences -/

/-- O19 turns on the free value alone: it is neither provable nor refutable while `Config.fieldOverflow` is opaque. -/
theorem queryRefusesOrAnswers_iff : Obligations.QueryRefusesOrAnswers ↔ ∀ n, 256 ≤ n → Config.fieldOverflow 1 n % 256 = n % 256 :=
  Iff.trans ⟨oneByte_of_queryRefusesOrAnswers, queryRefusesOrAnswers_of_oneByte⟩ oneByte_wraps_iff

/-- O52 turns on the free value alone, as O19 does. -/
theorem eraseAndNewsackAct_iff : Obligations.EraseAndNewsackAct ↔ ∀ n, 256 ≤ n → Config.fieldOverflow 1 n % 256 = n % 256 := by
  refine Iff.trans ⟨fun h n => ?_, eraseAndNewsackAct_of_oneByte⟩ oneByte_wraps_iff
  cases n with
  | zero => exact oneByte_eq 0
  | succ k => exact oneByte_of_eraseAndNewsackAct h k

/-- O54 turns on the free value alone, for a field of two bytes. -/
theorem faxSenderFollowsTheAnswers_iff :
    Obligations.FaxSenderFollowsTheAnswers ↔ ∀ n, 65536 ≤ n → Config.fieldOverflow 2 n % 65536 = n % 65536 := by
  refine Iff.trans ⟨fun h n => ?_, faxSenderFollowsTheAnswers_of_numBytes⟩ numBytes_wraps_iff
  cases n with
  | zero => exact numBytes_two_eq 0
  | succ k => exact numBytes_of_faxSenderFollowsTheAnswers h k

end Sys2Proof.Machine
end
